-- ==== Sys2Proof/Word.lean ====
section
/-!
DEFINITION. The words of the module's data: bytes, half words, 32-bit register words, 64-bit words.
-/

namespace Sys2Proof

/-- One byte (R10: data are little-endian throughout). -/
abbrev Byte := BitVec 8

/-- A 16-bit field. -/
abbrev Half := BitVec 16

/-- A 32-bit register word (R16: register accesses are 32-bit and aligned). -/
abbrev Word := BitVec 32

/-- A 64-bit word: a cadence tick, a cookie, an operand address. -/
abbrev DWord := BitVec 64

end Sys2Proof
end

