-- ==== Sys2Proof/Syntax.lean ====
section
/-!
DEFINITION. The commands the module takes: one constructor for each row of the opcode table, with the operands the event
carries, and the operand types. What comes from outside the module (a register value, a packet, a frame, a reading, the result of an integrity check) is an operand.
-/

namespace Sys2Proof

/-- A submission ring: the admin ring, or client `c`'s ring of class `k` (R350, R467). -/
inductive Ring where
  | admin
  | client (c k : Nat)
deriving DecidableEq, Repr

/-- A fabric packet: the 32 B header of Table 12-2 and the line of a LINE_WRITE or READ_DATA. -/
structure Packet where
  typ : Nat
  shared : Bool
  src : Nat
  srcJob : Nat
  dst : Nat
  slice : Nat
  epoch : Nat
  seq : Nat
  window : Nat
  peg : Nat
  offset : Nat
  inc : Nat
  reason : Nat
  line : List Byte
deriving DecidableEq, Repr

/-- What the header of a PTP event message says that a port holds against CADENCE_PTP_CFG (R315): domain, transport, and whether peer delay is used. -/
structure PtpHead where
  domain : Nat
  transport : Nat
  p2p : Bool
deriving DecidableEq, Repr

/-- The 264 bytes of a flit, the outcome of its RS decoding (0 right, 1 corrected, 2 failed), and the width that a WIDTH control message in it asks for, 0
for none (R408, R409; log 271). -/
structure FlitIn where
  rs : Nat
  bytes : List Byte
  width : Nat
deriving DecidableEq, Repr

/-- A message to the management port (R521): its sender's address and UDP port, and the message. -/
structure MgmtIn where
  addr : List Byte
  sport : Nat
  msg : List Byte
deriving DecidableEq, Repr

/-- A DMA channel: host channel `n`, or channel `n` of bay `b` (R434, R437). -/
inductive DmaChan where
  | host (n : Nat)
  | bay (b n : Nat)
deriving DecidableEq, Repr

/-- What a boot finds (R269, R272, R492, R577, R578): the SLOT_ID pins, whether each settings copy and each slot's image validates, the park sets
whose record fails its CRC, whether an open block has no close marker, whether the hold-up capacitance passes, the conditions of the ten tiers
(temperature, supply deviation in 0.1 %, load class, lanes repaired, spare lanes left in the worst channel) and the sensors' readings. -/
structure BootCheck where
  slotId : Nat
  copyA : Bool
  copyB : Bool
  imageA : Bool
  imageB : Bool
  badSets : List Nat
  openBlock : Bool
  holdup : Bool
  tiers : List (Nat × Nat × Nat × Nat × Nat)
  sensors : List (Nat × Nat)
deriving DecidableEq, Repr

/-- A fence: the destination it waits on, none for every destination (R386). -/
abbrev FenceDst := Option Nat

/-- The commands: one constructor per row of the opcode table, in the table's order (log 1). -/
inductive Instr where
  /-- PASS_FORMATION (R356): At a formation tick the scheduler core builds each job's candidate list in deadline order, reserves frames and starts the formation exchange. -/
  | passFormation
  /-- FORMATION_EXCHANGE_COMPLETE (R357): When FORM_PEG reaches its target the module intersects the bitmaps, takes the streams, applies the egress skip and releases unused reservations, forming the pass. -/
  | formationExchangeComplete
  /-- PASS_START (R354): At the start tick S the members begin step 3 of the pass. -/
  | passStart
  /-- BARRIER_LINE_SEND (R360): Once step 8 is finished and the next pass is formed, the module writes its barrier line to every member and increments their BARRIER_PEG. -/
  | barrierLineSend (job done : Nat)
  /-- COMMIT_BARRIER_COMPLETE (R360): When BARRIER_PEG reaches its target the module checks every barrier line, computes B and begins step 9. -/
  | commitBarrierComplete
  /-- CREDIT_WATCHDOG_EXPIRY (R30): When a producer waits 2,048 ct with zero credits and no progress, the consumer sets BLK_STAT.ERROR and a contained fault follows. -/
  | creditWatchdogExpiry (page : Nat)
  /-- CORE_NOP (R67): A core NOP command performs only its wait, signal and notification. -/
  | coreNop (bay core : Nat) (d : List Byte)
  /-- COPY (R68): A core COPY command copies LENGTH bytes from SRC to DST. -/
  | copy (bay core : Nat) (d : List Byte)
  /-- GATHER (R69): A GATHER command copies rows selected by an index list and zero-fills rows whose index is out of limit. -/
  | gather (bay core : Nat) (d : List Byte)
  /-- MATMUL (R70): A MATMUL command computes D = A·B plus shim and C_IN in the fixed accumulation order and rounds once. -/
  | matmul (bay core : Nat) (d : List Byte)
  /-- ATTN (R155): An ATTN command computes attention for its streams and head groups over their pages and appends the new token. -/
  | attn (bay core : Nat) (d : List Byte)
  /-- VECTOR (R74): A VECTOR command applies its SUBOP element or row operation. -/
  | vectorOp (bay core : Nat) (d : List Byte)
  /-- QUANT (R75): A QUANT command converts wide rows into a block format, optionally after the recipe's rotation. -/
  | quant (bay core : Nat) (d : List Byte)
  /-- PRISM (R76): A PRISM command applies the forward or inverse structured rotation. -/
  | prism (bay core : Nat) (d : List Byte)
  /-- TOPK (R77): A TOPK command selects the K largest biased logits per row and writes the router output. -/
  | topk (bay core : Nat) (d : List Byte)
  /-- PEG_WAIT_MET (R56): A head command with WAIT_EN starts when its peg satisfies the wait condition. -/
  | pegWaitMet (bay core : Nat)
  /-- COMMAND_RETIRE (R55): A command retires once its stores are visible, its signal is applied and its notification is posted, returning a credit. -/
  | commandRetire (bay core : Nat)
  /-- CONTROL_CORE_HEARTBEAT_STALL (R44): When BAY_CC_HEARTBEAT stalls for 24,576 ct the scheduler core treats the control core as failed. -/
  | controlCoreHeartbeatStall (bay : Nat)
  /-- PROGRESS_MONITOR_EXPIRY (R543): A control core with outstanding pass work that issues and posts nothing for 2,048 ct is treated as failed. -/
  | progressMonitorExpiry (bay : Nat)
  /-- BAY_RRC_INV (R53): A write of a job mask starts invalidation of those jobs' remote read cache entries. -/
  | bayRrcInv (bay mask : Nat)
  /-- RRC_INV_DONE (R53): When the invalidation completes INV_BUSY clears and RRC_INV_DONE sets. -/
  | rrcInvDone (bay : Nat)
  /-- RECIPE_SWITCH (R136): A recipe-bank-switch entry is validated and scheduled for EFFECTIVE_CT, or refused. -/
  | recipeSwitch (r : Ring)
  /-- STAGING_DESCRIPTOR_START (R166): The deep-tier controller starts the outstanding descriptor with the earliest DEADLINE_CT and reads its page. -/
  | stagingDescriptorStart
  /-- STAGING_INSTALL (R166): A completed staging read is checked, and its frames and sidecar are written and the entry set resident. -/
  | stagingInstall (seq : Nat) (ok : Bool)
  /-- ATTENTION_CUTOFF (R167): When the cadence counter reaches DEADLINE_CT while the scribe waits, the page is logged and classified PENUMBRA. -/
  | attentionCutoff
  /-- SCATTER (R189): A SCATTER descriptor assigns each choice to a replica, writes accepted rows and tags to segments, refuses the rest, and sends count lines and arrival increments. -/
  | scatter (bay : Nat) (d : List Byte)
  /-- ARRIVAL_PEG_TARGET (R199): When a slot's arrival peg reaches its target the control core reads the count lines and emits GATHER and expert commands by chunk. -/
  | arrivalPegTarget (bay core slot layer tag index dst stride : Nat)
  /-- RETURN (R203): A RETURN descriptor writes each result row to its source's combine buffer and increments every source's RETURN_PEG. -/
  | returnRows (bay : Nat) (d : List Byte)
  /-- EXCHANGE_GRANT (R213): In an exchange layer the receiver grants rows in source order and writes grant lines and grant increments. -/
  | exchangeGrant (bay slot layer : Nat)
  /-- GRANT_PEG_TARGET (R213): When the source's grant peg reaches its target it sends its granted rows and a second arrival increment. -/
  | grantPegTarget (bay : Nat)
  /-- PLACEMENT_SWITCH (R210): A placement-bank-switch entry is validated and scheduled for EFFECTIVE_CT, or refused. -/
  | placementSwitch (r : Ring)
  /-- MAP (R223): A map entry allocates and zero-fills pages, or maps weight-region pages, and writes leaf entries. -/
  | mapPages (r : Ring)
  /-- UNMAP (R225): An unmap entry invalidates the range's leaf entries once accesses in flight finish. -/
  | unmapPages (r : Ring)
  /-- MIGRATE_HINT (R232): A migrate-hint entry queues a move of a range to a target tier by a deadline. -/
  | migrateHint (r : Ring)
  /-- DEMAND_PROMOTION_COMPLETE (R235): A demand promotion lands the page in DRAM and resumes every unit waiting on it. -/
  | demandPromotionComplete (job vpage : Nat) (ok : Bool)
  /-- DEMAND_LATE (R235): A demand promotion that passes its deadline sets MIGRATE_BLK_IRQ_RAW.DEMAND_LATE. -/
  | demandLate (job vpage : Nat)
  /-- MIGRATION_MOVE_START (R229): A mover takes the next move in priority order and begins copying the page. -/
  | migrationMoveStart
  /-- MIGRATION_MOVE_COMPLETE (R229): After the copy rounds the page switches, the leaf entry is rewritten and held accesses go to the destination. -/
  | migrationMoveComplete (job vpage : Nat) (ok : Bool)
  /-- DECAY_INTERVAL (R231): At each decay interval the page access counters are halved and promotion and demotion candidates are chosen. -/
  | decayInterval
  /-- MARGIN_CHECK (R241): A periodic or triggered margin check of a tier stamps its record or starts a retraining. -/
  | marginCheck (tier temp volt load : Nat) (pass noSpare : Bool)
  /-- TIER_MARGIN_REQ (R241): A TRAIN_REQ write with MARGIN = 1 starts a margin check. -/
  | tierMarginReq (tier : Nat)
  /-- TIER_RETRAIN_REQ (R242): A TRAIN_REQ write with RETRAIN = 1 starts a retraining. -/
  | tierRetrainReq (tier : Nat)
  /-- EVACUATION_COMPLETE (R242): When an evacuating tier holds no page it begins training or is withdrawn. -/
  | evacuationComplete (tier : Nat)
  /-- TIER_TRAINING_COMPLETE (R242): A retrained tier becomes available and its record is stored. -/
  | tierTrainingComplete (tier temp volt load repaired low : Nat)
  /-- SCRUB_READ (R564): The scrub reads DRAM lines and poisons each uncorrectable line it finds. -/
  | scrubRead (line found : Nat)
  /-- PARK_WRITE (R256): When a parking stream is in no pass, admission is decided and its units, packs and set record are written. -/
  | parkWrite (stream : Nat)
  /-- PARK_COMPLETE (R256): After the set commits, the entries change state, the frames are freed and PARKED is posted. -/
  | parkComplete (stream : Nat)
  /-- BUDGET_REFILL (R259): Every 1 ms LEVEL gains RATE × 1,000 bytes, up to DEPTH. -/
  | budgetRefill
  /-- READ_DISTURB_RELOCATION (R262): A block whose read counter reaches its limit, or whose read needs too much ECC, is relocated. -/
  | readDisturbRelocation (block ecc : Nat)
  /-- RETENTION_AGE_TICK (R263): Each second every block's weighted age rises, and a block at 90 % of its limit starts refresh. -/
  | retentionAgeTick
  /-- RELOCATION_COMMIT (R265): A relocation's map update commits, and the old block is then erased. -/
  | relocationCommit (block : Nat) (retired low : Bool)
  /-- TIME_UNKNOWN_TIMEOUT (R264): With no PTP time 600 s after mount, TIME_UNKNOWN sets and a retention scan starts. -/
  | timeUnknownTimeout
  /-- HOLDUP_CHECK (R268): At power-up and every 24 h the hold-up capacitance is checked into HOLDUP_OK. -/
  | holdupCheck (ok : Bool)
  /-- LIFETIME_CHECKPOINT (R270): Every 60 s the lifetime counters, LEVEL and PTP time are checkpointed. -/
  | lifetimeCheckpoint
  /-- SETTINGS_READ (R276): SETTINGS_CMD READ returns a record of the current copy into SETTINGS_DATA. -/
  | settingsRead
  /-- SETTINGS_STAGE (R276): SETTINGS_CMD STAGE adds a record value to the staged set. -/
  | settingsStage
  /-- SETTINGS_DELETE (R276): SETTINGS_CMD DELETE adds a deletion to the staged set. -/
  | settingsDelete
  /-- SETTINGS_COMMIT (R276): SETTINGS_CMD COMMIT prepares and commits a new copy, once a credit is available. -/
  | settingsCommit
  /-- SETTINGS_DISCARD (R276): SETTINGS_CMD DISCARD empties the staged set. -/
  | settingsDiscard
  /-- COMMIT_CREDIT_EARNED (R275): Every 600 s powered the module earns a commit credit and releases a waiting commit. -/
  | commitCreditEarned
  /-- SETTINGS_PREPARE_COMPLETE (R273): A copy's header is written and then its commit mark, making it current. -/
  | settingsPrepareComplete (ok : Bool)
  /-- FETCH (R292): A fetch entry starts reading an image's header, manifest, trees and pages into a slot, or is refused. -/
  | fetch (r : Ring)
  /-- FETCH_PAGE_ARRIVAL (R291): An arriving page is checked against its digests and written, or read again up to 3 times. -/
  | fetchPageArrival (load page : Nat) (data : List Byte) (ok : Bool)
  /-- BROADCAST_END (R295): On the reader's end mark or 100 ms of silence, each receiver fetches its missing pages from its gap source. -/
  | broadcastEnd
  /-- SWAP (R303): A swap entry is checked and staging of the target layer's pages into DRAM begins. -/
  | swap (r : Ring)
  /-- SWAP_EXECUTE (R304): At EFFECTIVE_CT, once earlier passes commit and staging is done, leaf entries are rewritten, the bank is switched and the pass forms. -/
  | swapExecute (job layer : Nat)
  /-- WEIGHT_LOAD (R307): A weight-load entry checks and writes pages into a KIND 2 or KIND 3 range. -/
  | weightLoad (r : Ring)
  /-- PROMOTE (R559): A promote entry checks the bank, adopts the role's endpoint and maps and promotes the private part. -/
  | promote (r : Ring)
  /-- PROMOTED (R559): When the private part is resident, PROMOTED is posted and JOIN lines are sent. -/
  | promoted
  /-- WEIGHT_STATUS (R472): A weight-status entry returns a slot's state, WEIGHT_REV and MODEL_TAG. -/
  | weightStatus (r : Ring)
  /-- GLINT_SWEEP_CHECK (R299): The sweep re-reads a weight page and checks it against its tree. -/
  | glintSweepCheck (page : Nat) (ok : Bool) (repair : Option (List Byte))
  /-- PTP_EVENT_MESSAGE (R315): A received PTP event message is timestamped and used to measure and steer the cadence counter. -/
  | ptpEventMessage (port : Nat) (head : PtpHead) (time gm : Nat)
  /-- LOCK_ACQUIRED (R317): After 16 consecutive measurements within ±500 ns the counter enters LOCKED. -/
  | lockAcquired
  /-- REFERENCE_LOSS_TIMEOUT (R317): With no valid reference for the timeout, the counter enters HOLDOVER and writes a cadence record. -/
  | referenceLossTimeout (r : Nat)
  /-- HOLDOVER_EXPIRY (R317): After 600 s in HOLDOVER the counter enters HOLDOVER_EXPIRED. -/
  | holdoverExpiry
  /-- PORT_FAILBACK (R314): With SOURCE 4, PTP returns to port 0 after it has been valid for 10 s. -/
  | portFailback
  /-- CADENCE_IN_EDGE (R316): A CADENCE_IN rising edge disciplines phase and frequency and applies a pending CADENCE_LOAD. -/
  | cadenceInEdge
  /-- CADENCE_LOAD (R316): A write to CADENCE_LOAD with no job sets the count to be applied at the next edge. -/
  | cadenceLoad (v : DWord)
  /-- CADENCE_ALARM (R322): An enabled alarm fires when the counter reaches its value, clears its enable and raises its vector. -/
  | cadenceAlarm (n : Nat)
  /-- ETH_LINK_CHANGE (R323): An Ethernet port comes up through auto-negotiation or goes down. -/
  | ethLinkChange (port mode : Nat)
  /-- ETH_FRAME_RECEIVE (R324): A received Ethernet frame is classified and answered, passed to its handler or dropped. -/
  | ethFrameReceive (port : Nat) (frame : List Byte)
  /-- AUDIO_IN_FRAME (R339): An audio-in stream frame is checked, converted and written into its ingress slot, or dropped with a reason. -/
  | audioInFrame (port : Nat) (addr : List Byte) (sport : Nat) (payload : List Byte)
  /-- EGRESS_TICK (R342): At a frame's egress tick a ready slot is sent, or the frame is an underrun and a fill frame may be sent. -/
  | egressTick (stream : Nat)
  /-- OPEN (R332): An OPEN entry checks the descriptor and opens the stream empty or from a park set. -/
  | openStream (r : Ring)
  /-- STREAM_ACTIVATION (R332): When a resuming stream's tail pages are staged it becomes active and OPENED or RESUMED is posted. -/
  | streamActivation (stream : Nat)
  /-- PARK (R334): A PARK entry moves the stream to parking and removes it from later formations. -/
  | parkStream (r : Ring)
  /-- RESUME (R335): A RESUME entry stages the tail pages of a parked stream. -/
  | resumeStream (r : Ring)
  /-- CLOSE (R336): A CLOSE entry removes the stream from later passes and waits for its queued egress frames. -/
  | closeStream (r : Ring)
  /-- CLOSE_COMPLETE (R336): After the last frame with END is sent, the stream's frames, records and descriptors are freed and CLOSED is posted. -/
  | closeComplete (stream : Nat)
  /-- PARK_LIST (R337): A PARK_LIST entry writes park-set records after AFTER_KEY to DEST. -/
  | parkList (r : Ring)
  /-- PARK_DELETE (R337): A PARK_DELETE entry removes a park set in one metadata commit. -/
  | parkDelete (r : Ring)
  /-- MEDIA_STREAM_SEL (R348): A write takes an atomic snapshot of the selected stream entry into MEDIA_STREAM_DATA. -/
  | mediaStreamSel (stream : Nat)
  /-- NOP (R472): A ring NOP entry completes with DONE. -/
  | ringNop (r : Ring)
  /-- JOB_CREATE (R474): JOB_CREATE copies and checks the creation block, builds the address space and leaves the job LOADING. -/
  | jobCreate (r : Ring)
  /-- JOB_START (R474): JOB_START checks the job's structures, sets up the misroute queue and makes the job SERVING. -/
  | jobStart (r : Ring)
  /-- JOB_DESTROY (R368): JOB_DESTROY schedules destruction at EFFECTIVE_CT. -/
  | jobDestroy (r : Ring)
  /-- JOB_DESTRUCTION (R368): After the passes labelled before EFFECTIVE_CT commit, the job is destroyed and its resources are released. -/
  | jobDestruction
  /-- CLIENT_CREATE (R475): CLIENT_CREATE checks and sets up a client's rings and accounting record. -/
  | clientCreate (r : Ring)
  /-- CLIENT_DESTROY (R350): CLIENT_DESTROY ends a client whose streams are all free, discarding entries not yet taken. -/
  | clientDestroy (r : Ring)
  /-- RUN (R353): A RUN entry submits a template run with START_CT and LIMIT_CT, or is refused as late. -/
  | run (r : Ring)
  /-- RUN_END (R353): A run's work completes and it posts DONE. -/
  | runEnd
  /-- RUN_LIMIT (R353): A run that has held the cores for LIMIT_CT raises a contained fault. -/
  | runLimit
  /-- PREEMPTION_REQUEST (R364): A unit becomes runnable; if its class is lower than the holder's, the holder is pre-empted. -/
  | preemptionRequest
  /-- PREEMPTION_EFFECTIVE (R365): When the holder's commands and descriptors have retired or parked, its pointers are saved and the new unit takes the cores. -/
  | preemptionEffective
  /-- LINE_READ (R379): A received LINE_READ passes the ingress checks and is answered with READ_DATA or REFUSE. -/
  | lineRead (port : Nat) (p : Packet) (crc : Nat)
  /-- LINE_WRITE (R379): A received LINE_WRITE passes the ingress checks and replaces its line, or is refused. -/
  | lineWrite (port : Nat) (p : Packet) (crc : Nat)
  /-- PEG_INC (R385): A received PEG_INC passes the ingress checks and is summed into a peg accumulator, or is refused. -/
  | pegInc (port : Nat) (p : Packet) (crc : Nat)
  /-- PEG_ACCUMULATOR_FLUSH (R385): Within 16 ns of its first increment an accumulator adds its sum to the peg and ACKs are sent. -/
  | pegAccumulatorFlush (port peg : Nat)
  /-- READ_DATA (R373): A READ_DATA response is matched to its read, delivered and possibly cached. -/
  | readData (p : Packet) (crc : Nat)
  /-- ACK (R373): An ACK response is matched to its request and returns credits. -/
  | ack (p : Packet) (crc : Nat)
  /-- REFUSE (R387): A REFUSE at the sender writes an error record, sets the job's failure flag and counts the refusal. -/
  | refuse (p : Packet) (crc : Nat)
  /-- FENCE_COMPLETE (R386): A fence completes when its writes and increments are answered, with an error if any was refused. -/
  | fenceComplete
  /-- WINDOW_ENTRY_WRITE (R377): A window-table write is staged or applied, or refused when it breaks the table or changes a locked field. -/
  | windowEntryWrite (j w k : Nat) (v : Word)
  /-- WINDOW_DRAIN_DONE (R378): When requests admitted before a window left open are answered, WINDOW_DRAIN.BUSY clears. -/
  | windowDrainDone (job : Nat)
  /-- PEG_CTRL_WRITE (R398): A PEG_CTRL write assigns a peg, zeroing VALUE, or is refused. -/
  | pegCtrlWrite (p : Nat) (v : Word)
  /-- PEG_VALUE_WRITE (R397): A host write sets a peg's VALUE. -/
  | pegValueWrite (p : Nat) (v : Word)
  /-- FLIT_RECEIVE (R411): A received flit is decoded and accepted, discarded as a duplicate, or answered with NAK, and its ACK and credits are applied. -/
  | flitReceive (port : Nat) (f : FlitIn)
  /-- ACK_TIMEOUT (R412): With flits unacknowledged and no ACK progress for 4 µs, the transmitter replays from the oldest. -/
  | ackTimeout (port : Nat)
  /-- REPLAY_RETRAIN (R412): After 8 replays without ACK progress the port goes down and retrains. -/
  | replayRetrain (port : Nat)
  /-- LANE_FAILURE (R415): A lane that loses lock or exceeds the error ratio is failed and a narrower width is chosen. -/
  | laneFailure (port lane : Nat)
  /-- WIDTH_ACK (R416): On WIDTH_ACK both ends switch width at the agreed flit boundary. -/
  | widthAck (port : Nat)
  /-- LANE_TEST (R417): Every 10 s disabled lanes are tested, and one that passes for 100 ms is restored. -/
  | laneTest (port : Nat) (passed : List Nat)
  /-- TEST_LANES (R417): A LINK_TRAIN_REQ write with TEST_LANES starts a lane test at once. -/
  | testLanes (port : Nat)
  /-- LINK_RETRAIN (R418): A LINK_TRAIN_REQ write with RETRAIN takes the port down and retrains it. -/
  | linkRetrain (port : Nat)
  /-- ADAPT (R414): A LINK_TRAIN_REQ write with ADAPT re-adapts equalisation with the link up. -/
  | adapt (port : Nat)
  /-- PORT_DOWN (R418): A port goes down and its unacknowledged packets are resent on other planes. -/
  | portDown (port : Nat)
  /-- PORT_TRAINING (R414): An enabled port with signal present trains, exchanges IDENT, agrees its level and comes up. -/
  | portTraining (port lo hi id : Nat) (lanes : List Nat) (temp volt load : Nat)
  /-- EQUALISATION_READAPT (R414): When conditions leave the equalisation record's window, equalisation re-adapts online. -/
  | equalisationReadapt (port temp volt load : Nat) (failed : List Nat)
  /-- DEDUP_RECORD_EXPIRY (R419): A receiver drops its per-source SEQ record after 100 ms with no request from that source. -/
  | dedupRecordExpiry (src : Nat)
  /-- ROUTE_ENTRY_WRITE (R423): A routing-entry write updates both copies, or is refused. -/
  | routeEntryWrite (e h : Nat) (v : Word)
  /-- ROUTE_ENDPOINT_WRITE (R433): A ROUTE_ENDPOINT write assigns the module's endpoint while no job exists. -/
  | routeEndpointWrite (v : Word)
  /-- LEVEL_CHANGE (R428): A level-change entry is validated and scheduled for EFFECTIVE_CT. -/
  | levelChange (r : Ring)
  /-- DMA_NOP (R449): A DMA NOP performs its wait, fence and signal only. -/
  | dmaNop (c : DmaChan) (d : List Byte)
  /-- DMA_COPY (R443): A DMA COPY moves LENGTH bytes through the funnel with masked heads and tails. -/
  | dmaCopy (c : DmaChan) (d : List Byte) (bursts : Nat) (bad : Bool)
  /-- INTERLEAVE (R446): INTERLEAVE turns planes into an interleaved stream, optionally converting the audio. -/
  | interleave (c : DmaChan) (d : List Byte) (bursts : Nat) (bad : Bool)
  /-- DEINTERLEAVE (R446): DEINTERLEAVE turns an interleaved stream into planes. -/
  | deinterleave (c : DmaChan) (d : List Byte) (bursts : Nat) (bad : Bool)
  /-- BITPLANE (R447): BITPLANE splits elements into bit planes. -/
  | bitplane (c : DmaChan) (d : List Byte) (bursts : Nat) (bad : Bool)
  /-- BITPLANE_INV (R447): BITPLANE_INV rebuilds elements from bit planes. -/
  | bitplaneInv (c : DmaChan) (d : List Byte) (bursts : Nat) (bad : Bool)
  /-- DMA_RETIRE (R448): A descriptor retires once its writes are issued, its fence is complete and its signal and report are posted. -/
  | dmaRetire (c : DmaChan)
  /-- HDMA_TAIL (R435): A TAIL write hands descriptors to a host DMA channel, or puts the channel in error. -/
  | hdmaTail (n : Nat) (v : Word)
  /-- HDMA_CFG (R436): A CFG write sets the channel's job and ring size and enables it, or is refused. -/
  | hdmaCfg (n : Nat) (v : Word)
  /-- HDMA_ABORT (R452): CTRL ABORT stops the channel at the end of its current burst. -/
  | hdmaAbort (n : Nat)
  /-- HDMA_STOPPED (R452): An aborting channel reaches STOPPED with its residue. -/
  | hdmaStopped (n : Nat)
  /-- HDMA_RESUME (R452): CTRL RESUME continues a stopped or halted descriptor from its residue. -/
  | hdmaResume (n : Nat)
  /-- HDMA_SKIP (R452): CTRL SKIP retires the descriptor without signal or report. -/
  | hdmaSkip (n : Nat)
  /-- HDMA_RESET (R452): CTRL RESET sets HEAD equal to TAIL. -/
  | hdmaReset (n : Nat)
  /-- PCIE_READ_TIMEOUT (R455): A PCIe read completion that times out puts the host DMA channel into error with code 0x00A. -/
  | pcieReadTimeout (n : Nat)
  /-- PCIE_HOT_RESET (R460): A hot reset, link-down or HOST_PERST_N resets configuration space only. -/
  | pcieHotReset (up : Bool)
  /-- D3HOT_ENTRY (R460): Entering D3hot acts as CHIP_CTRL.HOLD while it lasts. -/
  | d3hotEntry
  /-- MSIX_PENDING_SEND (R460): A pending MSI-X message is sent once its vector is unmasked with the link up. -/
  | msixPendingSend (v : Nat)
  /-- FLR (R581): A Function Level Reset performs a warm module reset. -/
  | flr (k : BootCheck)
  /-- DB_SQ_TAIL (R467): A doorbell TAIL write hands submission entries to the module, or is refused. -/
  | dbSqTail (c k : Nat) (v : Word)
  /-- HOST_ASQ_TAIL (R467): A HOST_ASQ_TAIL write hands admin entries to the module, or is refused. -/
  | hostAsqTail (v : Word)
  /-- DB_CQ_ARM (R478): ARM makes the module raise the client's vector once when its completion ring is non-empty. -/
  | dbCqArm (c : Nat) (v : Word)
  /-- HOST_ACQ_ARM (R478): ARM does the same for the admin completion ring. -/
  | hostAcqArm (v : Word)
  /-- HOST_ACFG_ENABLE (R485): Setting HOST_ACFG.ENABLE checks the admin rings and sets up the admin completion ring. -/
  | hostAcfgEnable (v : Word)
  /-- COMPLETION_BACKLOG_DRAIN (R469): When a full completion ring gains room, backlogged records are written in order. -/
  | completionBacklogDrain (r : Ring)
  /-- TXN_BEGIN (R480): TXN_CTRL BEGIN opens a configuration transaction. -/
  | txnBegin
  /-- TXN_COMMIT (R481): TXN_CTRL COMMIT validates the staged values and schedules the commit instant. -/
  | txnCommit
  /-- TXN_ROLLBACK (R482): TXN_CTRL ROLLBACK rolls back the transaction before its commit instant. -/
  | txnRollback
  /-- COMMIT_INSTANT (R481): At the commit instant the staged values are re-checked and take effect together, or the transaction rolls back. -/
  | commitInstant
  /-- TXN_TIMEOUT (R482): A transaction with no scheduled commit within TXN_TIMEOUT rolls back. -/
  | txnTimeout
  /-- TXN_PERSISTED (R277): The settings mark of a committed transaction is written and PERSISTED sets. -/
  | txnPersisted
  /-- CHIP_RESET (R484): A write of KEY 0xA501 to CHIP_RESET starts a warm module reset. -/
  | chipReset (v : Word) (k : BootCheck)
  /-- HOLD (R479): CHIP_CTRL.HOLD drives READY and MOD_READY low and stops the taking of ring entries. -/
  | chipHold (v : Word)
  /-- RING_SEL (R484): A CHIP_IFLEVEL.RING_SEL write selects the ring interface level while no job exists. -/
  | ringSel (v : Word)
  /-- BLK_IRQ_ERROR_REARM (R465): A write of 1 to BLK_IRQ_RAW.ERROR clears both ERROR bits and arms the page again. -/
  | blkIrqErrorRearm (off : Nat)
  /-- BLK_IRQ_FORCE (R464): A write sets the chosen BLK_IRQ_RAW bits and may raise the page's vector. -/
  | blkIrqForce (off : Nat) (v : Word)
  /-- REGISTER_WRITE (R15): A write to any other register acts by its access code, staging TX values and refusing illegal values. -/
  | registerWrite (off : Nat) (v : Word) (k : BootCheck)
  /-- FW_STAGE (R499): A committed FW_STAGE record starts staging an image into a slot, or is refused. -/
  | fwStage
  /-- FW_STAGE_COMPLETE (R500): A staged slot is verified and becomes STAGED or FAILED. -/
  | fwStageComplete (flash intact : Bool)
  /-- FW_ACTIVATE (R501): A committed FW_ACTIVATE record names a STAGED slot for activation. -/
  | fwActivate
  /-- ACTIVATION (R501): Once no job exists, the new image is loaded without a reset and the slot enters TRIAL. -/
  | activation (k : BootCheck)
  /-- FW_CONFIRM (R503): A committed FW_CONFIRM record confirms the trial image. -/
  | fwConfirm
  /-- TRIAL_AUTO_CONFIRM (R503): A trial image that has run 600 s since a JOB_START with no reset is confirmed. -/
  | trialAutoConfirm
  /-- TRIAL_FAILURE (R503): A control-processor fault or a missed READY ends the trial and reloads the confirmed image. -/
  | trialFailure (k : BootCheck)
  /-- BOOT_FLASH_CHECK (R505): Every 24 h both slots are re-verified, and a failing slot is rewritten or marked FAILED. -/
  | bootFlashCheck (okA okB : Bool)
  /-- RECOVERY_STAGE (R495): In recovery, a committed record 0x1100 makes the ROM stage the image and restart from it. -/
  | recoveryStage (k : BootCheck)
  /-- READY_TIMEOUT (R497): A module not READY 30 s after power-up writes code 0x307 and stays in the recovery pages. -/
  | readyTimeout (k : BootCheck)
  /-- CONTROL_PROCESSOR_RESET (R488): A control processor's fault reset has the consequences Table 16-1 gives for its kind. -/
  | controlProcessorReset (kind n : Nat) (k : BootCheck)
  /-- GOVERNOR_EVALUATION (R516): Every 100 µs the governor steps bays down as needed or up by at most one point per 1 ms. -/
  | governorEvaluation (vin iin pin : Nat) (fits room : List Nat) (rails : List (Nat × Nat)) (out : List Nat)
  /-- MODE_CHANGE (R515): A committed PWR_MODE change brings the bays to the new mode's points within 2 ms. -/
  | modeChange
  /-- CAP_HOST (R518): A PWR_CAP_HOST write sets or withdraws the host cap. -/
  | capHost (v : Word)
  /-- CAP_SET (R521): A CAP_SET management message sets or withdraws the Ethernet cap and is answered with CAP_REPLY. -/
  | capSet (port : Nat) (m : MgmtIn)
  /-- TELEM_REQ (R521): A TELEM_REQ management message is answered with TELEM within 1 ms. -/
  | telemReq (port : Nat) (m : MgmtIn)
  /-- CAP_LEASE_EXPIRY (R518): An unrenewed cap lease expires and the failsafe value replaces that source's cap. -/
  | capLeaseExpiry (source : Nat)
  /-- CAP_UNACKNOWLEDGED (R519): A lowered cap that the power-management core does not acknowledge in 1 ms engages the hardware brake path. -/
  | capUnacknowledged
  /-- STATUS_WORD (R520): PMBus STATUS_WORD returns the status bits. -/
  | statusWord
  /-- READ_VIN (R520): PMBus READ_VIN returns the 1 ms input voltage average. -/
  | readVin
  /-- READ_IIN (R520): PMBus READ_IIN returns the 1 ms input current average. -/
  | readIin
  /-- READ_PIN (R520): PMBus READ_PIN returns the 1 ms input power average. -/
  | readPin
  /-- READ_TEMPERATURE_1 (R520): PMBus READ_TEMPERATURE_1 returns the hottest compute-die temperature. -/
  | readTemperature1
  /-- READ_TEMPERATURE_2 (R520): PMBus READ_TEMPERATURE_2 returns the hottest memory temperature. -/
  | readTemperature2
  /-- READ_TEMPERATURE_3 (R520): PMBus READ_TEMPERATURE_3 returns the coolant inlet temperature. -/
  | readTemperature3
  /-- PMBUS_REVISION (R520): PMBus PMBUS_REVISION returns 0x44. -/
  | pmbusRevision
  /-- MFR_ID (R520): PMBus MFR_ID returns "BASLITH". -/
  | mfrId
  /-- MFR_MODEL (R520): PMBus MFR_MODEL returns the part number. -/
  | mfrModel
  /-- MFR_SERIAL (R520): PMBus MFR_SERIAL returns the serial number. -/
  | mfrSerial
  /-- MFR_CAP_SET (R520): PMBus MFR_CAP_SET sets or withdraws the SMBus cap. -/
  | mfrCapSet (watts pec : Nat)
  /-- MFR_CAP_LEASE (R520): PMBus MFR_CAP_LEASE sets the lease of the next MFR_CAP_SET. -/
  | mfrCapLease (seconds pec : Nat)
  /-- MFR_CAP_ACTIVE (R520): PMBus MFR_CAP_ACTIVE returns the effective cap. -/
  | mfrCapActive
  /-- MFR_THROTTLE (R520): PMBus MFR_THROTTLE returns the throttle reasons. -/
  | mfrThrottle
  /-- ALERT_RESPONSE (R576): A read of the Alert Response Address releases MOD_ALERT_N and returns 0x5A. -/
  | alertResponse
  /-- PWR_BRAKE_N_ASSERT (R522): Assertion of PWR_BRAKE_N for 1 µs divides every bay above the brake point down to it in hardware. -/
  | pwrBrakeNAssert
  /-- PWR_BRAKE_N_DEASSERT (R522): Deassertion of PWR_BRAKE_N lets the bays return by rising steps. -/
  | pwrBrakeNDeassert
  /-- DROOP_DETECT (R523): A rail below its droop threshold stretches the bay clock within one core clock and counts the event. -/
  | droopDetect (bay : Nat)
  /-- DROOP_STEP_DOWN (R523): A bay stretched more than 1 % of 10 ms steps down one point with reason DROOP. -/
  | droopStepDown (bay : Nat)
  /-- THERMAL_THRESHOLD (R525): A sensor crossing its throttle threshold throttles its bays and may double refresh. -/
  | thermalThreshold (sensor value : Nat)
  /-- THROTTLE_STEP (R525): Every 1 ms above threshold a bay steps down one point, and every 10 ms below it steps back up one. -/
  | throttleStep (bay : Nat)
  /-- CRITICAL_LIMIT (R525): At a critical limit the affected bays drop to P0 within 100 µs. -/
  | criticalLimit (sensor value : Nat)
  /-- THERMAL_TRIP (R527): At a trip limit THERM_TRIP_N is asserted, clocks stop, the hold-up sequence runs and the rails fall. -/
  | thermalTrip (sensor value : Nat)
  /-- FLASH_TEMPERATURE (R526): A flash package at 85 °C halves its channels' rate, and at 90 °C programs and erases are suspended. -/
  | flashTemperature (package value : Nat)
  /-- PWR_GATE (R529): A PWR_GATE write requests gating or ungating of a bay or the deep-tier controller, or is refused. -/
  | pwrGate (v : Word)
  /-- HEARTBEAT_LOSS (R530): With no power-management heartbeat for 1 ms the hold begins. -/
  | heartbeatLoss
  /-- HEARTBEAT_RETURN (R530): A heartbeat returning within 2 s ends the hold as a corrected fault. -/
  | heartbeatReturn
  /-- HOLD_EXPIRY (R530): A hold that lasts 2 s drops bay rails to the safe voltage and stops the clocks, and the module is lost. -/
  | holdExpiry
  /-- INPUT_LOW (R531): VIN below 40.0 V over 100 µs holds every bay at P4 or below. -/
  | inputLow (vin : Nat)
  /-- INPUT_LOW_RECOVERY (R531): VIN at 41.0 V or above for 10 ms ends the INPUT_LOW hold. -/
  | inputLowRecovery
  /-- INPUT_CURRENT (R531): IIN above 78.0 A over 100 µs steps the bays down. -/
  | inputCurrent (iin : Nat) (fits : List Nat)
  /-- SUPPLY_EVENT (R531): Input undervoltage or overvoltage for 2 µs stops the clocks, runs the hold-up sequence and drops the rails. -/
  | supplyEvent (vin energy : Nat)
  /-- CONTAINED_FAULT_DETECTION (R544): The containment engine stamps FAULT_CT, stops the faulting unit and tears down every job on the module. -/
  | containedFaultDetection (kind bay slot checker line : Nat)
  /-- HALT_RECEIVE (R549): A received HALT lets earlier passes commit, stops the named pass and drains. -/
  | haltReceive (job : Nat) (line : List Byte)
  /-- DRAIN_COMPLETE (R545): When writes past egress are answered, pegs are restored, failure flags cleared and poisoned lines repaired. -/
  | drainComplete
  /-- REPLAY_LAUNCH (R551): At the replay tick the discarded pass starts again with its recorded state. -/
  | replayLaunch
  /-- LOSS_RECEIVE (R556): A received LOSS line declares its writer lost. -/
  | lossReceive (job : Nat) (line : List Byte)
  /-- SILENT_MEMBER_TIMEOUT (R556): A member silent for 245,760 ct while awaited is declared lost. -/
  | silentMemberTimeout (endpoint : Nat)
  /-- JOIN_RECEIVE (R559): A received JOIN clears LOSS_WAIT and is answered with SYNC. -/
  | joinReceive (job : Nat) (line : List Byte)
  /-- SYNC_RECEIVE (R559): A received SYNC gives the promoted module its PASS_SEQ and fixes the first label of the restored slice. -/
  | syncReceive (job : Nat) (line : List Byte)
  /-- ERRLOG_RELEASE (R540): A write of a slot index releases that slot's fatal record. -/
  | errlogRelease (v : Word)
  /-- ERRLOG_INJECT_RECORD (R566): ERRLOG_INJECT with CONTAIN = 0 writes a record with the given CODE. -/
  | errlogInjectRecord (v : Word)
  /-- ERRLOG_INJECT_CONTAIN (R566): ERRLOG_INJECT with CONTAIN = 1 raises a contained fault with code 0x00A. -/
  | errlogInjectContain (v : Word)
  /-- POWER_UP (R578): With input applied and reset released, rails rise in group order and the module boots. -/
  | powerUp (k : BootCheck)
  /-- MOD_RESET_N_ASSERT (R579): Assertion of MOD_RESET_N for 10 µs runs the close sequence and lowers the rails. -/
  | modResetNAssert
  /-- MOD_RESET_N_DEASSERT (R578): Deassertion of MOD_RESET_N releases reset and starts power-up, re-asserting THERM_TRIP_N after a trip. -/
  | modResetNDeassert (k : BootCheck)
  /-- WARM_MODULE_RESET (R581): A warm module reset restarts the control processors from ROM with rails kept and the tiers in self-refresh. -/
  | warmModuleReset (k : BootCheck)
  /-- MOD_PRESENT_N_BREAK (R580): On extraction MOD_PRESENT_N breaks first and the module is lost to its slice. -/
  | modPresentNBreak
  /-- HOST_PERST_N (R572): HOST_PERST_N acts as a PCIe hot reset. -/
  | hostPerstN
  /-- TAP_RESET (R584): TRST_N low resets the TAP and selects IDCODE. -/
  | tapReset
  /-- BYPASS (R584): JTAG BYPASS selects the 1-bit bypass register. -/
  | jtagBypass
  /-- IDCODE (R584): JTAG IDCODE returns the device identification code. -/
  | jtagIdcode
  /-- SAMPLE_PRELOAD (R584): JTAG SAMPLE/PRELOAD samples the sideband pins without disturbing them. -/
  | jtagSamplePreload (ins : List Bool) (cells : List (String × Bool))
  /-- EXTEST (R584): JTAG EXTEST drives the sideband outputs from the boundary register while in reset. -/
  | jtagExtest
  /-- CLAMP (R584): JTAG CLAMP holds the outputs at their preloaded values and selects bypass. -/
  | jtagClamp
  /-- HIGHZ (R584): JTAG HIGHZ tri-states every sideband output. -/
  | jtagHighz
  /-- MAP_COMPLETE (R223): When zero-filling, or promotion of mapped weight pages, has finished and every leaf entry is visible, the map's completion is posted. -/
  | mapComplete
  /-- FETCH_SOURCE_TIMEOUT (R309): A fetch, load or promotion whose source has been unreachable or erroring for 10 s ends with FAILED_SOURCE. -/
  | fetchSourceTimeout (kind id : Nat)
  /-- SPARE_SLOT_FAILURE (R555): An unmapped spare slot fails: it becomes failed, DEGRADE_COUNT rises, SPARE reads 0b10 and record 0x00B is written with severity 0. -/
  | spareSlotFailure (bay slot : Nat)
  /-- RETENTION_SCAN_READ (R264): The retention scan reads a programmed block, refreshes it when its read needs more than 50 % of the correction capability, and clears DEEP_STAT.SCAN when the last block is done. -/
  | retentionScanRead (block ecc : Nat)
  /-- D3HOT_EXIT (R460): The function leaves D3hot, which ends the HOLD effect so that READY and MOD_READY return high. -/
  | d3hotExit
  /-- REGISTER_READ (R16): A register read clears RC fields, loads and arms or disarms the _HI latch of a 64-bit pair, and sets CHIP_STAT.UNMAPPED at a reserved offset. -/
  | registerRead (off : Nat)
  /-- BAR2_ACCESS (R462): A BAR2 access reaches the main tier; it reads all ones and sets UNMAPPED beyond the populated range, a write into the error-log range is discarded, and a poisoned line completes with the Poisoned TLP bit. -/
  | bar2Access (x n : Nat) (data : Option (List Byte))
deriving DecidableEq, Repr

end Sys2Proof
end

