-- ==== Sys2Proof/Decode.lean ====
section
/-!
DEFINITION. The command that a word spells: no row of the opcode table gives bits, so no word spells one.
-/

namespace Sys2Proof

/-- The command a word of `nbits` bits spells by the table's bits: none, the table giving none. -/
def decodeTableWord (_nbits _w : Nat) : Option Instr := none

end Sys2Proof
end

