-- ==== Sys2Proof/Machine/Bits.lean ====
section
/-!
DEFINITION. Bit fields, byte order, checksums and the sparse maps every other file uses.
Bit 0 is the least significant bit and multi-byte fields are little-endian (R10).
-/

namespace Sys2Proof.Machine

/-- Bits [hi:lo] of a natural number, as a natural number (R10: a bit field is written [high:low]). -/
def field (n hi lo : Nat) : Nat := (n / 2 ^ lo) % 2 ^ (hi + 1 - lo)

/-- Bit `i` of a natural number. -/
def bit (n i : Nat) : Bool := n / 2 ^ i % 2 == 1

/-- `n` with bits [hi:lo] replaced by `v`. -/
def putField (n hi lo v : Nat) : Nat :=
  n - field n hi lo * 2 ^ lo + (v % 2 ^ (hi + 1 - lo)) * 2 ^ lo

/-- A field of a register word. -/
def wfield (w : Word) (hi lo : Nat) : Nat := field w.toNat hi lo

/-- A register word with one field replaced. -/
def wput (w : Word) (hi lo v : Nat) : Word := BitVec.ofNat 32 (putField w.toNat hi lo v)

/-- Bit `i` of a register word. -/
def wbit (w : Word) (i : Nat) : Bool := w.getLsbD i

/-- A register word with bit `i` set. -/
def wset (w : Word) (i : Nat) : Word := w ||| BitVec.ofNat 32 (2 ^ i)

/-- A register word with bit `i` cleared. -/
def wclear (w : Word) (i : Nat) : Word := w &&& ~~~ (BitVec.ofNat 32 (2 ^ i))

/-- A register word with bit `i` given the value `b`. -/
def wassign (w : Word) (i : Nat) (b : Bool) : Word := if b then wset w i else wclear w i

/-- 1 for true, 0 for false. -/
def b2n (b : Bool) : Nat := if b then 1 else 0

/-- The mask of bits [hi:lo]. -/
def maskBits (hi lo : Nat) : Word := BitVec.ofNat 32 ((2 ^ (hi + 1 - lo) - 1) * 2 ^ lo)

/-- Low and high words of a 64-bit value (R14: a _LO/_HI pair). -/
def lo32 (d : Nat) : Word := BitVec.ofNat 32 d
def hi32 (d : Nat) : Word := BitVec.ofNat 32 (d / 2 ^ 32)

/-- A signed reading of an `n`-bit two's-complement number. -/
def signed (n v : Nat) : Int := if v < 2 ^ (n - 1) then (v : Int) else (v : Int) - 2 ^ n

/-- The `n`-bit two's-complement pattern of an integer. -/
def unsigned (n : Nat) (i : Int) : Nat := (i % 2 ^ n).toNat

/-- The smallest multiple of `k` at or above `n`; the quotient rounded up. -/
def ceilDiv (n k : Nat) : Nat := (n + k - 1) / k

/-- Little-endian value of a byte list (R10). -/
def leNat : List Byte → Nat
  | [] => 0
  | b :: bs => b.toNat + 256 * leNat bs

/-- The `n` little-endian bytes of a value (R10). -/
def leBytes : Nat → Nat → List Byte
  | 0, _ => []
  | n + 1, v => BitVec.ofNat 8 v :: leBytes n (v / 256)

/-- The `n` big-endian bytes of a value. -/
def beBytes (n v : Nat) : List Byte := (leBytes n v).reverse

/-- Cut a list into pieces of `n`. -/
def chunks {α : Type} (n : Nat) : Nat → List α → List (List α)
  | 0, _ => []
  | fuel + 1, xs => if xs.isEmpty then [] else xs.take n :: chunks n fuel (xs.drop n)

/-- `n` bytes of a list from offset `o`; what lies past the list's end reads 0. -/
def slice (bs : List Byte) (o n : Nat) : List Byte :=
  let t := (bs.drop o).take n
  t ++ List.replicate (n - t.length) 0

/-- The little-endian number in bytes [o, o + n) of a record. -/
def getLE (bs : List Byte) (o n : Nat) : Nat := leNat (slice bs o n)

/-- `bs` with the bytes from `o` replaced by `v`. -/
def putBytes (bs : List Byte) (o : Nat) (v : List Byte) : List Byte :=
  bs.take o ++ v ++ bs.drop (o + v.length)

/-- All bytes of [o, o + n) are zero: the rule for reserved bytes. -/
def zeroBytes (bs : List Byte) (o n : Nat) : Bool := getLE bs o n == 0

/-! ### Sparse maps keyed by numbers: one canonical form, keys strictly rising. -/

/-- The value held for key `k`. -/
def mget {α : Type} : List (Nat × α) → Nat → Option α
  | [], _ => none
  | (j, v) :: m, k => if j == k then some v else mget m k

/-- The map with `k` holding `v`, its keys still rising. -/
def mset {α : Type} : List (Nat × α) → Nat → α → List (Nat × α)
  | [], k, v => [(k, v)]
  | (j, w) :: m, k, v =>
    if k < j then (k, v) :: (j, w) :: m
    else if j == k then (k, v) :: m
    else (j, w) :: mset m k v

/-- The map without `k`. -/
def mdel {α : Type} : List (Nat × α) → Nat → List (Nat × α)
  | [], _ => []
  | (j, w) :: m, k => if j == k then m else (j, w) :: mdel m k

/-- The map with the entries that satisfy `p`. -/
def mfilter {α : Type} (m : List (Nat × α)) (p : Nat → α → Bool) : List (Nat × α) :=
  m.filter (fun e => p e.1 e.2)

/-- Apply `f` to the value held for `k`, if there is one. -/
def mmod {α : Type} (m : List (Nat × α)) (k : Nat) (f : α → α) : List (Nat × α) :=
  match mget m k with
  | none => m
  | some v => mset m k (f v)

/-- Keys strictly rising: the canonical form of every sparse map. -/
def keysRise {α : Type} : List (Nat × α) → Bool
  | [] => true
  | [_] => true
  | (j, _) :: (k, w) :: m => decide (j < k) && keysRise ((k, w) :: m)

/-- Sorted list insertion without repeats, for sets of numbers. -/
def sinsert : List Nat → Nat → List Nat
  | [], k => [k]
  | j :: m, k => if k < j then k :: j :: m else if j == k then j :: m else j :: sinsert m k

/-- Insertion into a list ordered by `lt`, after the elements that do not lie above; and insertion sort. -/
def insertBy {α : Type} (lt : α → α → Bool) (x : α) : List α → List α
  | [] => [x]
  | y :: ys => if lt x y then x :: y :: ys else y :: insertBy lt x ys
def sortBy {α : Type} (lt : α → α → Bool) (xs : List α) : List α := xs.foldl (fun r x => insertBy lt x r) []

/-- Lexicographic order of equally long keys. -/
def keyLt : List Nat → List Nat → Bool
  | a :: as, b :: bs => if a = b then keyLt as bs else decide (a < b)
  | _, _ => false

/-- The first number `≥ start` below `start + fuel` for which `p` holds, searching upwards and
wrapping at `size`. -/
def searchFrom (size : Nat) (p : Nat → Bool) : Nat → Nat → Option Nat
  | _, 0 => none
  | start, fuel + 1 =>
    let i := if start < size then start else 0
    if p i then some i else searchFrom size p (i + 1) fuel

/-! ### Checksums -/

/-- One bit step of a reflected CRC with polynomial `poly`. -/
def crcBit (poly c : Nat) : Nat := if c % 2 == 1 then Nat.xor (c / 2) poly else c / 2

/-- One byte of a reflected CRC. -/
def crcByte (poly c : Nat) (b : Byte) : Nat :=
  let c0 := Nat.xor c b.toNat
  crcBit poly (crcBit poly (crcBit poly (crcBit poly (crcBit poly (crcBit poly (crcBit poly (crcBit poly c0)))))))

/-- CRC-32C (Castagnoli), reflected, initial value and final exclusive-or all ones (PRESUMED: the
spec names CRC-32C and does not spell the algorithm; log 7). -/
@[irreducible] def crc32c (bs : List Byte) : Nat :=
  Nat.xor (bs.foldl (crcByte 0x82F63B78) 0xFFFFFFFF) 0xFFFFFFFF

/-- One bit step of an unreflected CRC of width `w`. -/
def crcMsbBit (w poly c : Nat) : Nat :=
  if c / 2 ^ (w - 1) % 2 == 1 then Nat.xor (c * 2 % 2 ^ w) poly else c * 2 % 2 ^ w

/-- One byte of an unreflected CRC of width `w`. -/
def crcMsbByte (w poly c : Nat) (b : Byte) : Nat :=
  let c0 := Nat.xor c (b.toNat * 2 ^ (w - 8))
  crcMsbBit w poly (crcMsbBit w poly (crcMsbBit w poly (crcMsbBit w poly
    (crcMsbBit w poly (crcMsbBit w poly (crcMsbBit w poly (crcMsbBit w poly c0)))))))

/-- CRC-8 of SMBus packet error checking, x⁸ + x² + x + 1 (PRESUMED from the SMBus specification; log 7). -/
def crc8 (bs : List Byte) : Nat := bs.foldl (crcMsbByte 8 0x07) 0

/-- CRC-16 of a flit: polynomial 0x1021, initial value 0xFFFF (Table 13-4). -/
def crc16 (bs : List Byte) : Nat := bs.foldl (crcMsbByte 16 0x1021) 0xFFFF

/-! ### Saturating and wrapping counts -/

/-- One more, saturating at 0xFFFF_FFFF. -/
def satInc (w : Word) (n : Nat) : Word := BitVec.ofNat 32 (min 0xFFFFFFFF (w.toNat + n))

end Sys2Proof.Machine
end

