-- ==== Sys2Proof/Machine/Float.lean ====
section
/-!
DEFINITION. Exact arithmetic over binary fractions and the FP32 and BF16 operations built on it
(R86–R89, R109–R112, R114, R115). A value is exact until one named rounding; `ref` selects the
reference mode of R115, in which nothing is flushed.
-/

namespace Sys2Proof.Machine

/-- An exact value: NaN, an infinity, or ± `m` · 2^`e` with its own sign of zero. -/
inductive Num where
  | nan
  | inf (neg : Bool)
  | fin (neg : Bool) (m : Nat) (e : Int)
deriving DecidableEq, Repr

namespace Num

def zero : Num := .fin false 0 0
def negZero : Num := .fin true 0 0
def ofNat (n : Nat) : Num := .fin false n 0

def isNan : Num → Bool
  | .nan => true
  | _ => false

def isInf : Num → Bool
  | .inf _ => true
  | _ => false

/-- NaN or infinite: what the OVERFLOW and NONFINITE counters look for (R104, R133). -/
def nonFinite (x : Num) : Bool := x.isNan || x.isInf

def isZero : Num → Bool
  | .fin _ 0 _ => true
  | _ => false

def isNeg : Num → Bool
  | .nan => false
  | .inf s => s
  | .fin s _ _ => s

/-- The sign flipped. -/
def neg : Num → Num
  | .nan => .nan
  | .inf s => .inf (!s)
  | .fin s m e => .fin (!s) m e

/-- The magnitude. -/
def abs : Num → Num
  | .nan => .nan
  | .inf _ => .inf false
  | .fin _ m e => .fin false m e

/-- Exact multiplication by 2^`k`. -/
def scale (x : Num) (k : Int) : Num :=
  match x with
  | .nan => .nan
  | .inf s => .inf s
  | .fin s m e => .fin s m (e + k)

/-- The signed integer `± m` shifted left to the exponent `e0 ≤ e`. -/
def mantAt (s : Bool) (m : Nat) (e e0 : Int) : Int :=
  let v : Int := (m * 2 ^ (e - e0).toNat : Nat)
  if s then -v else v

/-- Exact product; a product that is zero takes the exclusive OR of the signs (R114), and an infinity
times a zero is NaN (R98). -/
def mul : Num → Num → Num
  | .nan, _ => .nan
  | _, .nan => .nan
  | .inf s, .inf t => .inf (s != t)
  | .inf s, .fin t m _ => if m == 0 then .nan else .inf (s != t)
  | .fin s m _, .inf t => if m == 0 then .nan else .inf (s != t)
  | .fin s m e, .fin t n f => .fin (s != t) (m * n) (e + f)

/-- Exact sum; infinities of both signs give NaN (R98), an exact zero is +0 unless every term is −0 (R114). -/
def add : Num → Num → Num
  | .nan, _ => .nan
  | _, .nan => .nan
  | .inf s, .inf t => if s == t then .inf s else .nan
  | .inf s, .fin _ _ _ => .inf s
  | .fin _ _ _, .inf t => .inf t
  | .fin s m e, .fin t n f =>
    let e0 := min e f
    let v := mantAt s m e e0 + mantAt t n f e0
    if v == 0 then .fin (s && t && m == 0 && n == 0) 0 0
    else .fin (decide (v < 0)) v.natAbs e0

def sub (x y : Num) : Num := add x y.neg

/-- Exact sum of a list of terms; −0 is the neutral term. -/
def sum (xs : List Num) : Num := xs.foldl add negZero

/-- Order of two numbers that are not NaN: `x < y`. Zeros of either sign are equal. -/
def lt : Num → Num → Bool
  | .nan, _ => false
  | _, .nan => false
  | .inf s, .inf t => s && !t
  | .inf s, .fin _ _ _ => s
  | .fin _ _ _, .inf t => !t
  | .fin s m e, .fin t n f =>
    let e0 := min e f
    decide (mantAt s m e e0 < mantAt t n f e0)

def le (x y : Num) : Bool := !x.isNan && !y.isNan && !lt y x

/-- The larger of two values: NaN prevails and +0 ranks above −0 (R101). -/
def max (x y : Num) : Num :=
  if x.isNan || y.isNan then .nan
  else if lt x y then y
  else if lt y x then x
  else if x.isNeg then y else x

/-- Largest integer at or below a finite value. -/
def floor : Num → Int
  | .fin s m e =>
    if 0 ≤ e then mantAt s m e 0
    else
      let v : Int := if s then -(m : Int) else (m : Int)
      v.fdiv (2 ^ (-e).toNat)
  | _ => 0

end Num

/-- A binary floating-point format: significand width, exponent of the smallest normal, largest exponent,
stored mantissa bits and bias. -/
structure FFmt where
  prec : Nat
  emin : Int
  emax : Int
  mbits : Nat
  ebits : Nat
  bias : Nat
deriving DecidableEq, Repr

/-- FP32 (Table 03-1). -/
def fmt32 : FFmt := ⟨24, -126, 127, 23, 8, 127⟩
/-- BF16 (Table 03-1). -/
def fmt16 : FFmt := ⟨8, -126, 127, 7, 8, 127⟩

/-- The canonical NaN of a format: 0x7FC0_0000 in FP32, 0x7FC0 in BF16 (R89). -/
def FFmt.nan (f : FFmt) : Nat := (2 ^ f.ebits - 1) * 2 ^ f.mbits + 2 ^ (f.mbits - 1)

/-- The infinity of a sign. -/
def FFmt.inf (f : FFmt) (s : Bool) : Nat :=
  b2n s * 2 ^ (f.mbits + f.ebits) + (2 ^ f.ebits - 1) * 2 ^ f.mbits

/-- Read an FP32 or BF16 pattern (R86, R87); outside reference mode a subnormal reads as a zero of its
sign (R89). -/
def FFmt.decode (f : FFmt) (ref : Bool) (p : Nat) : Num :=
  let s := bit p (f.mbits + f.ebits)
  let e := p / 2 ^ f.mbits % 2 ^ f.ebits
  let m := p % 2 ^ f.mbits
  if e == 2 ^ f.ebits - 1 then (if m == 0 then .inf s else .nan)
  else if e == 0 then (if ref then .fin s m (1 - f.bias - f.mbits) else .fin s 0 0)
  else .fin s (m + 2 ^ f.mbits) ((e : Int) - f.bias - f.mbits)

/-- Round `m` down by `k` bits, to nearest, ties to even. -/
def rne (m k : Nat) : Nat :=
  if k = 0 then m else
  let q := m / 2 ^ k
  let r := m % 2 ^ k
  let h := 2 ^ (k - 1)
  if r > h || (r == h && q % 2 == 1) then q + 1 else q

/-- Number of significant bits. -/
def bitLen (m : Nat) : Nat := if m = 0 then 0 else Nat.log2 m + 1

/-- Round an exact value once to a format and encode it. Normal mode rounds to the significand width as if
the exponent were unbounded, then flushes below 2^emin to a zero of the exact result's sign (R89);
reference mode keeps subnormals (R114, R115). Overflow becomes an infinity. -/
def FFmt.round (f : FFmt) (ref : Bool) : Num → Nat
  | .nan => f.nan
  | .inf s => f.inf s
  | .fin s m e =>
    let sg := b2n s * 2 ^ (f.mbits + f.ebits)
    if m = 0 then sg else
    let n := bitLen m
    let quantum : Int := f.emin - f.mbits
    let k0 : Nat := n - f.prec
    let k : Nat := if ref then Nat.max k0 (quantum - e).toNat else k0
    let q := rne m k
    let e' := e + k
    if q = 0 then sg else
    let top : Int := e' + (bitLen q : Int) - 1
    if top > f.emax then f.inf s
    else if top < f.emin then
      if ref then sg + q * 2 ^ (e' - quantum).toNat
      else sg
    else
      let mant := q * 2 ^ (f.prec - bitLen q) / 2 ^ (bitLen q - f.prec)
      sg + (top + f.bias).toNat * 2 ^ f.mbits + mant % 2 ^ f.mbits

/-- Read and round in FP32. Values inside the machine are FP32 patterns as numbers below 2^32. -/
def d32 (ref : Bool) (p : Nat) : Num := fmt32.decode ref p
def r32 (ref : Bool) (x : Num) : Nat := fmt32.round ref x

def fp32Nan : Nat := fmt32.nan
def fp32One : Nat := 0x3F800000

def fp32Add (ref : Bool) (a b : Nat) : Nat := r32 ref ((d32 ref a).add (d32 ref b))
def fp32Sub (ref : Bool) (a b : Nat) : Nat := r32 ref ((d32 ref a).sub (d32 ref b))
def fp32Mul (ref : Bool) (a b : Nat) : Nat := r32 ref ((d32 ref a).mul (d32 ref b))
/-- A fused multiply-add rounds once (R102). -/
def fp32Fma (ref : Bool) (a b c : Nat) : Nat := r32 ref (((d32 ref a).mul (d32 ref b)).add (d32 ref c))
def fp32Neg (a : Nat) : Nat := Nat.xor a 0x80000000
def fp32Max (ref : Bool) (a b : Nat) : Nat := r32 ref ((d32 ref a).max (d32 ref b))
/-- Multiplication by a power of two; R89 applies on underflow and overflow. -/
def fp32Scale (ref : Bool) (a : Nat) (k : Int) : Nat := r32 ref ((d32 ref a).scale k)

/-- A positive ratio as a binary fraction good to at least `bits` bits, the last one sticky, so that one
later rounding to fewer bits is the rounding of the exact ratio. -/
def ratioNum (neg : Bool) (num den : Nat) (e : Int) (bits : Nat) : Num :=
  let sh := bits + bitLen den
  let q := num * 2 ^ sh / den
  let st := if num * 2 ^ sh % den = 0 then 0 else 1
  .fin neg (q * 2 + st) (e - sh - 1)

/-- Exact quotient of two finite values, sticky beyond 64 bits; the IEEE specials otherwise. -/
def Num.div : Num → Num → Num
  | .nan, _ => .nan
  | _, .nan => .nan
  | .inf _, .inf _ => .nan
  | .inf s, .fin t _ _ => .inf (s != t)
  | .fin s _ _, .inf t => .fin (s != t) 0 0
  | .fin s m e, .fin t n f =>
    if n = 0 then (if m = 0 then .nan else .inf (s != t))
    else if m = 0 then .fin (s != t) 0 0
    else ratioNum (s != t) m n (e - f) (64 + bitLen n)

/-! ### EXP (R109, R110) -/

/-- Binary search, 24 halvings, for the largest `m` in [lo, lo + 2^fuel) with (2m − 1)^64 < bound: the
nearest 24-bit significand. -/
def expSearch (bound : Nat) : Nat → Nat → Nat
  | 0, lo => lo
  | k + 1, lo =>
    let mid := lo + 2 ^ k
    if (2 * mid - 1) ^ 64 < bound then expSearch bound k mid else expSearch bound k lo

/-- T[i] of R109: the FP32 value nearest to 2^(i/64). The significand m minimises |m − 2^(23 + i/64)|, that is
(2m − 1)^64 < 2^(64·24 + i) < (2m + 1)^64. -/
def expT (i : Nat) : Nat :=
  let m := expSearch (2 ^ (64 * 24 + i)) 23 (2 ^ 23)
  127 * 2 ^ 23 + (m - 2 ^ 23)

def expL : Nat := 0x3FB8AA3B
def expC1 : Nat := 0x3F317218
def expC2 : Nat := 0x3E75FDF0
def expC3 : Nat := 0x3D635847

/-- EXP of R110; in reference mode the lower cut-off is −150 and the last scaling may give a subnormal (R115). -/
def fp32Exp (ref : Bool) (x : Nat) : Nat :=
  match d32 ref x with
  | .nan => fp32Nan
  | .inf false => fmt32.inf false
  | .inf true => 0
  | .fin _ _ _ =>
    let t := fp32Mul ref x expL
    let tv := d32 ref t
    if Num.le (Num.ofNat 128) tv then fmt32.inf false
    else if Num.lt tv (.fin true (if ref then 150 else 126) 0) then 0
    else
      let n0 := tv.floor
      let nv : Num := .fin (decide (n0 < 0)) n0.natAbs 0
      let f0 := r32 ref (tv.sub nv)
      let n := if f0 == fp32One then n0 + 1 else n0
      let f := if f0 == fp32One then 0 else f0
      let fv := d32 ref f
      let i := (fv.scale 6).floor.toNat
      let r := r32 ref (fv.sub (.fin false i (-6)))
      let p := fp32Fma ref r expC3 expC2
      let p := fp32Fma ref r p expC1
      let p := fp32Fma ref r p fp32One
      let y := fp32Mul ref (expT i) p
      fp32Scale ref y n

/-! ### RECIP, SQRT and the functions built on them (R111, R112) -/

/-- RS[j] of R109: the FP32 value nearest to 1 / (1 + (j + 0.5) / 128) = 256 / (257 + 2j). -/
def recipRS (j : Nat) : Nat := r32 false (ratioNum false 256 (257 + 2 * j) 0 64)

/-- RECIP of R111. -/
def fp32Recip (ref : Bool) (x : Nat) : Nat :=
  match d32 ref x with
  | .nan => fp32Nan
  | .inf s => b2n s * 2 ^ 31
  | .fin s m e =>
    if m = 0 then fmt32.inf s else
    let n := bitLen m
    let ex : Int := e + n - 1
    let mf := r32 ref (.fin false m (-((n : Int) - 1)))
    let j := (mf - fp32One) / 2 ^ 16
    let s0 := recipRS j
    let nm := fp32Neg mf
    let u := fp32Fma ref nm s0 fp32One
    let s1 := fp32Fma ref s0 u s0
    let u := fp32Fma ref nm s1 fp32One
    let s2 := fp32Fma ref s1 u s1
    let y := fp32Scale ref s2 (-ex)
    if s then fp32Neg y else y

/-- SQRT_RN of Table 03-6: the correctly rounded square root. -/
def fp32Sqrt (ref : Bool) (x : Nat) : Nat :=
  match d32 ref x with
  | .nan => fp32Nan
  | .inf false => fmt32.inf false
  | .inf true => fp32Nan
  | .fin s m e =>
    if m = 0 then b2n s * 2 ^ 31
    else if s then fp32Nan
    else
      let odd : Nat := (e % 2).toNat
      let v := m * 2 ^ (odd + 80)
      let q := Nat.sqrt v
      let st := if q * q = v then 0 else 1
      r32 ref (.fin false (q * 2 + st) ((e - odd - 80) / 2 - 1))

def fp32Rsqrt (ref : Bool) (x : Nat) : Nat := fp32Recip ref (fp32Sqrt ref x)
def fp32Sigmoid (ref : Bool) (x : Nat) : Nat :=
  fp32Recip ref (fp32Add ref fp32One (fp32Exp ref (fp32Neg (r32 ref (d32 ref x)))))
def fp32SiluMul (ref : Bool) (x y : Nat) : Nat :=
  fp32Mul ref (fp32Mul ref x (fp32Sigmoid ref x)) y

/-! ### Row reductions (R101) -/

/-- The pairwise tree over a list: adjacent pairs combined at each level. -/
def pairUp (f : Nat → Nat → Nat) : List Nat → List Nat
  | a :: b :: rest => f a b :: pairUp f rest
  | xs => xs

def treeLevels (f : Nat → Nat → Nat) : Nat → List Nat → List Nat
  | 0, xs => xs
  | k + 1, xs => treeLevels f k (pairUp f xs)

/-- Columns of lane `l`: l, l + 512, l + 1,024 and so on. -/
def laneCols (row : List Nat) (l : Nat) : List Nat :=
  (List.range (ceilDiv (row.length - l) 512)).map (fun i => row.getD (l + 512 * i) 0)

/-- A 512-lane sum: each lane in ascending column order from +0.0, then nine levels of pairs. `acc` combines
one column into a lane. -/
def laneSum (ref : Bool) (acc : Nat → Nat → Nat) (row : List Nat) : Nat :=
  let lanes := (List.range 512).map (fun l => (laneCols row l).foldl acc 0)
  (treeLevels (fp32Add ref) 9 lanes).headD 0

/-- ROWSUM. In reference mode the sum is exact and rounded once to FP32 (Table 03-8). -/
def rowSum (ref : Bool) (row : List Nat) : Nat :=
  if ref then r32 true (Num.sum (row.map (d32 true)))
  else laneSum false (fp32Add false) row

/-- ROWMAX: a lane that holds no column takes no part, NaN prevails, +0 ranks above −0. -/
def rowMax (ref : Bool) (row : List Nat) : Nat :=
  match row with
  | [] => 0
  | x :: xs => r32 ref ((xs.map (d32 ref)).foldl Num.max (d32 ref x))

/-- The lane sum of squares by fused multiply-add, for RMSNORM. -/
def rowSquares (ref : Bool) (row : List Nat) : Nat :=
  if ref then r32 true (Num.sum (row.map (fun x => (d32 true x).mul (d32 true x))))
  else laneSum false (fun a x => fp32Fma false x x a) row

/-- SOFTMAX of one row (Table 03-6). -/
def rowSoftmax (ref : Bool) (row : List Nat) : List Nat :=
  let m := rowMax ref row
  let e := row.map (fun x => fp32Exp ref (fp32Sub ref x m))
  let r := fp32Recip ref (rowSum ref e)
  e.map (fun x => fp32Mul ref x r)

/-- RMSNORM of one row (Table 03-6). -/
def rowRmsnorm (ref : Bool) (imm : Nat) (row w : List Nat) : List Nat :=
  let q := rowSquares ref row
  let c := fp32Mul ref q (fp32Recip ref (r32 ref (Num.ofNat row.length)))
  let r := fp32Rsqrt ref (fp32Add ref c imm)
  List.zipWith (fun x wj => fp32Mul ref (fp32Mul ref x r) wj) row w

/-! ### FP32 and BF16 data in memory -/

/-- Widen a BF16 pattern exactly to FP32 (R99). A BF16 subnormal is an FP32 subnormal. -/
def widen16 (p : Nat) : Nat := p * 2 ^ 16

/-- Round an FP32 pattern to BF16 (R89). -/
def narrow16 (ref : Bool) (p : Nat) : Nat := fmt16.round ref (d32 ref p)

end Sys2Proof.Machine
end

