-- ==== Sys2Proof/Machine/Formats.lean ====
section
/-!
DEFINITION. Element and block formats, their layout in memory, quantisation and the accumulation order of
MATMUL (R65, R86–R108, R114, R127). Rotation by SplitMix64 and Walsh–Hadamard butterflies (R118–R121).
-/

namespace Sys2Proof.Machine

/-! ### Format codes (Table 02-5) -/

/-- Elements per block; 0 for a format without blocks. -/
def blockSize (fmt : Nat) : Nat :=
  if fmt == 2 || fmt == 3 || fmt == 4 || fmt == 5 then 32
  else if fmt == 6 || fmt == 7 then 16 else 0

/-- Bits per element. -/
def elemBits (fmt : Nat) : Nat :=
  if fmt == 0 || fmt == 9 then 32
  else if fmt == 1 then 16
  else if fmt == 5 || fmt == 6 || fmt == 7 then 4 else 8

def isMX (fmt : Nat) : Bool := fmt == 2 || fmt == 3 || fmt == 4 || fmt == 5
def isBB16 (fmt : Nat) : Bool := fmt == 6 || fmt == 7
def isFourBit (fmt : Nat) : Bool := fmt == 5 || fmt == 6 || fmt == 7
/-- FMT_A and FMT_B lie in one family of R71. -/
def floatFamily (fmt : Nat) : Bool := fmt == 2 || fmt == 3 || fmt == 5 || fmt == 6
def intFamily (fmt : Nat) : Bool := fmt == 4 || fmt == 7

/-- Rounded up to a multiple of 128 B. -/
def round128 (n : Nat) : Nat := ceilDiv n 128 * 128

/-- Bytes of the data plane of `n` elements; rounded up to 128 B for a block format (R94). -/
def dataBytes (fmt n : Nat) : Nat :=
  let b := ceilDiv (n * elemBits fmt) 8
  if blockSize fmt = 0 then b else round128 b

/-- Bytes of the whole operand of `rows × cols` elements: its extent under R64 and R94. -/
def tensorBytes (fmt rows cols : Nat) : Nat :=
  if blockSize fmt = 0 then dataBytes fmt (rows * cols)
  else dataBytes fmt (rows * cols) + round128 (rows * cols / blockSize fmt)

/-! ### Elements and scales -/

/-- Value of a small float element with `eb` exponent and `mb` mantissa bits (R86); subnormals are exact in
every mode (R89). -/
def smallFloat (eb mb bias : Nat) (c : Nat) : Num :=
  let s := bit c (eb + mb)
  let e := c / 2 ^ mb % 2 ^ eb
  let m := c % 2 ^ mb
  if e = 0 then .fin s m (1 - bias - mb) else .fin s (m + 2 ^ mb) ((e : Int) - bias - mb)

/-- E4M3: 0x7F and 0xFF are NaN (Table 03-3). -/
def e4m3 (c : Nat) : Num := if c % 128 = 127 then .nan else smallFloat 4 3 7 c

/-- E5M2: exponent 31 holds infinity and NaN. -/
def e5m2 (c : Nat) : Num :=
  if c / 4 % 32 = 31 then (if c % 4 = 0 then .inf (bit c 7) else .nan) else smallFloat 5 2 15 c

/-- E2M1 (Table 03-2). -/
def e2m1 (c : Nat) : Num := smallFloat 2 1 1 c

/-- A two's-complement integer of `n` bits times 2^`k`; it has one zero, +0. -/
def intElem (n : Nat) (k : Int) (c : Nat) : Num :=
  let v := signed n (c % 2 ^ n)
  .fin (decide (v < 0)) v.natAbs k

/-- Element value before scaling (R86, R90, R92). -/
def elemValue (fmt : Nat) (ref : Bool) (c : Nat) : Num :=
  match fmt with
  | 0 => d32 ref c
  | 1 => fmt16.decode ref c
  | 2 => e4m3 c
  | 3 => e5m2 c
  | 4 => intElem 8 (-6) c
  | 5 => e2m1 c
  | 6 => e2m1 c
  | 7 => intElem 4 0 c
  | 8 => e4m3 c
  | _ => intElem 32 0 c

/-- E8M0 scale value (R91). -/
def e8m0 (c : Nat) : Num := if c = 255 then .nan else .fin false 1 ((c : Int) - 127)

/-- UE5M3 scale value (R88). -/
def ue5m3 (c : Nat) : Num :=
  if c = 255 then .nan else if c = 0 then .zero
  else .fin false (8 + c % 8) ((c / 8 : Nat) - 16 - 3)

/-- The code of element `i` in a data plane: 4-bit elements two to a byte, the even one low (R94). -/
def elemCode (fmt : Nat) (bs : List Byte) (i : Nat) : Nat :=
  match elemBits fmt with
  | 4 => (bs.getD (i / 2) 0).toNat / 16 ^ (i % 2) % 16
  | 8 => (bs.getD i 0).toNat
  | 16 => getLE bs (2 * i) 2
  | _ => getLE bs (4 * i) 4

/-- A matrix operand as the array sees it: element values before scaling and block scales, by row and
column. -/
structure MatOp where
  elem : Nat → Nat → Num
  scale : Nat → Nat → Num

/-- Read a `rows × cols` operand from its bytes. `alongRow`: blocks run along a row; otherwise down a column
(R95). A block whose UE5M3 scale is the zero scale decodes as +0 (R88, R98). -/
def matOp (fmt : Nat) (ref : Bool) (rows cols : Nat) (alongRow : Bool) (bs : List Byte) : MatOp :=
  let b := blockSize fmt
  if b = 0 then
    { elem := fun r c => elemValue fmt ref (elemCode fmt bs (r * cols + c)), scale := fun _ _ => Num.ofNat 1 }
  else
    let d0 := dataBytes fmt (rows * cols)
    let code := fun r c =>
      let i := if alongRow then r * (cols / b) + c / b else r / b * cols + c
      (bs.getD (d0 + i) 0).toNat
    let scaleOf := fun r c => if isMX fmt then e8m0 (code r c) else ue5m3 (code r c)
    { elem := fun r c =>
        if isBB16 fmt && code r c == 0 then .zero
        else elemValue fmt ref (elemCode fmt bs (r * cols + c))
      scale := fun r c => if isBB16 fmt && code r c == 0 then Num.ofNat 1 else scaleOf r c }

/-! ### MATMUL (R96–R99, R114, R127) -/

/-- The step width W (R96). -/
def stepWidth (fa fb : Nat) : Nat := if isMX fa && isMX fb then 32 else 16

/-- The step partial of R97 and R98: exact products, exact sum, exact scaling, one rounding. `b` is indexed
by k and then the output column. -/
def stepPartial (w : Nat) (a b : MatOp) (i j k0 : Nat) : Nat :=
  let ps := (List.range w).map (fun n => (a.elem i (k0 + n)).mul (b.elem (k0 + n) j))
  r32 false ((Num.sum ps).mul ((a.scale i k0).mul (b.scale k0 j)))

/-- The accumulation over K of one output element (R99), without shim and C_IN. -/
def matAcc (w k : Nat) (a b : MatOp) (i j : Nat) : Nat :=
  (List.range (ceilDiv k 128)).foldl (fun acc t =>
    let p := (List.range (128 / w)).map (fun s =>
      let k0 := t * 128 + s * w
      if k0 < k then stepPartial w a b i j k0 else 0)
    fp32Add false acc ((treeLevels (fp32Add false) 3 p).headD 0)) 0

/-- The exact sum over all of K (R114). -/
def matExact (k : Nat) (a b : MatOp) (i j : Nat) : Num :=
  Num.sum ((List.range k).map (fun n =>
    ((a.elem i n).mul (a.scale i n)).mul ((b.elem n j).mul (b.scale n j))))

/-- The shim of a MATMUL: rank, U and V as E4M3 codes, SIGMA (R125). -/
structure ShimOp where
  rank : Nat
  u : MatOp
  v : Nat → Nat → Num
  sigma : Nat → Nat

/-- shim_value(i, j) of R127. -/
def shimValue (w k : Nat) (a : MatOp) (sh : ShimOp) (i j : Nat) : Nat :=
  (List.range sh.rank).foldl (fun acc c =>
    let t := matAcc w k a sh.u i c
    fp32Fma false (fp32Mul false t (sh.sigma c)) (r32 false (sh.v j c)) acc) 0

/-- shim_exact(i, j) of R127. -/
def shimExact (k : Nat) (a : MatOp) (sh : ShimOp) (i j : Nat) : Num :=
  Num.sum ((List.range sh.rank).map (fun c =>
    ((matExact k a sh.u i c).mul (d32 true (sh.sigma c))).mul (sh.v j c)))

/-- One output element of MATMUL (R99, R114): FMT_D is FP32 (0) or BF16 (1); `cin` is the C_IN pattern in
FMT_D. -/
def matmulElement (ref : Bool) (w k fmtD : Nat) (a b : MatOp) (sh : Option ShimOp)
    (cin : Option Nat) (i j : Nat) : Nat :=
  if ref then
    let t0 := matExact k a b i j
    let t1 := match sh with
      | none => t0
      | some s => t0.add (shimExact k a s i j)
    let t2 := match cin with
      | none => t1
      | some c => t1.add (elemValue fmtD true c)
    if fmtD = 0 then fmt32.round true t2 else fmt16.round true t2
  else
    let t0 := matAcc w k a b i j
    let t1 := match sh with
      | none => t0
      | some s => fp32Add false t0 (shimValue w k a s i j)
    let t2 := match cin with
      | none => t1
      | some c => fp32Add false t1 (if fmtD = 0 then c else widen16 c)
    if fmtD = 0 then r32 false (d32 false t2) else narrow16 false t2

/-! ### Quantisation (R104–R108) -/

/-- EMAX of each block format (R105, R106), as an exact value. -/
def qEmax (fmt : Nat) : Num :=
  match fmt with
  | 2 => Num.ofNat 448
  | 3 => Num.ofNat 57344
  | 4 => .fin false 127 (-6)
  | 5 => Num.ofNat 6
  | 6 => Num.ofNat 6
  | _ => Num.ofNat 7

/-- The largest magnitude code of each element grid. -/
def qTop (fmt : Nat) : Nat :=
  match fmt with
  | 2 => 126
  | 3 => 123
  | 4 => 127
  | 5 => 7
  | 6 => 7
  | _ => 7

/-- The magnitude of grid code `c`. -/
def qGrid (fmt c : Nat) : Num :=
  match fmt with
  | 4 => .fin false c (-6)
  | 7 => Num.ofNat c
  | f => elemValue f false c

/-- log₂ of a positive value, rounded down. -/
def ilog2 : Num → Int
  | .fin _ m e => e + bitLen m - 1
  | _ => 0

/-- The smallest X in −127..127 with amax ≤ EMAX · 2^X, clamped (R105). -/
def mxExponent (fmt : Nat) (amax : Num) : Int :=
  let x0 := ilog2 amax - ilog2 (qEmax fmt) - 1
  let fits := fun (x : Int) => Num.le amax ((qEmax fmt).scale x)
  let x := if fits x0 then x0 else if fits (x0 + 1) then x0 + 1 else x0 + 2
  min (max x (-127)) 127

/-- The smallest UE5M3 code from `c` up with amax ≤ EMAX · s, else 0xFE (R106). -/
def bbScaleFrom (fmt : Nat) (amax : Num) : Nat → Nat → Nat
  | 0, _ => 0xFE
  | fuel + 1, c =>
    if Num.le amax ((qEmax fmt).mul (ue5m3 c)) then c else bbScaleFrom fmt amax fuel (c + 1)

/-- The grid code nearest to |x| / s: thresholds are midpoints times the scale, a tie goes to the even code,
and nothing passes the top (R107). -/
def qNearest (fmt : Nat) (s x : Num) : Nat → Nat → Nat
  | 0, c => c
  | fuel + 1, c =>
    let thr := (((qGrid fmt c).add (qGrid fmt (c + 1))).scale (-1)).mul s
    if Num.lt thr x || (Num.le thr x && c % 2 == 1) then qNearest fmt s x fuel (c + 1) else c

/-- Counts of trouble events of one command (Table 04-4). -/
structure Trouble where
  sat : Nat := 0
  nonfinite : Nat := 0
  overflow : Nat := 0
deriving DecidableEq, Repr

def Trouble.add (a b : Trouble) : Trouble :=
  ⟨a.sat + b.sat, a.nonfinite + b.nonfinite, a.overflow + b.overflow⟩

/-- Encode a magnitude code and a sign as an element; zero is stored as +0 (R107). -/
def qEncode (fmt : Nat) (neg : Bool) (c : Nat) : Nat :=
  if c = 0 then 0
  else match fmt with
    | 4 => if neg then 256 - c else c
    | 7 => if neg then 16 - c else c
    | 5 => c + 8 * b2n neg
    | 6 => c + 8 * b2n neg
    | _ => c + 128 * b2n neg

/-- Quantise one block: the scale code, the element codes and the trouble counted (R104–R108). -/
def quantBlock (fmt : Nat) (xs : List Num) : Nat × List Nat × Trouble :=
  if xs.any Num.nonFinite then (0xFF, xs.map (fun _ => 0), { nonfinite := 1 })
  else
    let amax := (xs.map Num.abs).foldl Num.max .zero
    if amax.isZero then (0, xs.map (fun _ => 0), {})
    else
      let code : Nat := if isMX fmt then (mxExponent fmt amax + 127).toNat else bbScaleFrom fmt amax 254 1
      let s := if isMX fmt then e8m0 code else ue5m3 code
      let cs := xs.map (fun x => qEncode fmt x.isNeg (qNearest fmt s x.abs (qTop fmt) 0))
      let sat := (xs.filter (fun x => Num.lt ((qGrid fmt (qTop fmt)).mul s) x.abs)).length
      (code, cs, { sat := sat })

/-- Pack element codes into bytes (R94). -/
def packCodes (fmt : Nat) : List Nat → List Byte
  | [] => []
  | [a] => if elemBits fmt = 4 then [BitVec.ofNat 8 a] else leBytes (elemBits fmt / 8) a
  | a :: b :: rest =>
    if elemBits fmt = 4 then BitVec.ofNat 8 (a + 16 * b) :: packCodes fmt rest
    else leBytes (elemBits fmt / 8) a ++ packCodes fmt (b :: rest)

/-- `bs` with zero padding up to `n` bytes (R94: a store leaves padding zero). -/
def padTo (n : Nat) (bs : List Byte) : List Byte := bs ++ List.replicate (n - bs.length) 0

/-- Quantise a `rows × cols` tensor given row-major: its bytes in memory and its trouble counts. -/
def quantTensor (fmt : Nat) (xs : List Num) : List Byte × Trouble :=
  let b := blockSize fmt
  let blocks := (chunks b (xs.length / b + 1) xs).map (quantBlock fmt)
  let data := packCodes fmt (blocks.flatMap (fun r => r.2.1))
  let scales := blocks.map (fun r => BitVec.ofNat 8 r.1)
  (padTo (round128 data.length) data ++ padTo (round128 scales.length) scales,
   blocks.foldl (fun t r => t.add r.2.2) {})

/-! ### The rotation (R118–R121) -/

/-- One SplitMix64 draw: the new generator state and the value (R119). -/
def splitmix (st : DWord) : DWord × DWord :=
  let st := st + 0x9E3779B97F4A7C15
  let z := (st ^^^ (st >>> 30)) * 0xBF58476D1CE4E5B9
  let z := (z ^^^ (z >>> 27)) * 0x94D049BB133111EB
  (st, z ^^^ (z >>> 31))

/-- Swap two positions of a list. -/
def swapAt (xs : List Nat) (i j : Nat) : List Nat :=
  let a := xs.getD i 0
  let b := xs.getD j 0
  (xs.set i b).set j a

/-- The permutation draws, i from n − 1 down to 1. -/
def rotPerm : Nat → DWord → List Nat → DWord × List Nat
  | 0, st, p => (st, p)
  | i + 1, st, p =>
    let (st, z) := splitmix st
    rotPerm i st (swapAt p (i + 1) (z.toNat * (i + 2) / 2 ^ 64))

/-- The sign draws, true for −1. -/
def rotSigns : Nat → DWord → List Bool
  | 0, _ => []
  | n + 1, st =>
    let (st, z) := splitmix st
    z.getLsbD 63 :: rotSigns n st

/-- (π, sgn) of a block seed (R119). -/
def makeRotation (seed : Nat) (l : Nat) : List Nat × List Bool :=
  let n := 2 ^ l
  let (st, p) := rotPerm (n - 1) (BitVec.ofNat 64 seed) (List.range n)
  (p, rotSigns n st)

/-- One butterfly stage with stride h over FP32 patterns (R120). -/
def butterfly (ref : Bool) (h : Nat) (u : List Nat) : List Nat :=
  (List.range u.length).map (fun i =>
    if i / h % 2 = 0 then fp32Add ref (u.getD i 0) (u.getD (i + h) 0)
    else fp32Sub ref (u.getD (i - h) 0) (u.getD i 0))

def butterflies (ref : Bool) : Nat → Nat → List Nat → List Nat
  | 0, _, u => u
  | fuel + 1, s, u => butterflies ref fuel (s + 1) (butterfly ref (2 ^ s) u)

/-- (−1)^popcount(i AND j) is −1: the sign of H[i][j]. -/
def oddOnes (n : Nat) : Nat → Bool
  | 0 => false
  | k + 1 => (bit n k) != oddOnes n k

/-- The exact transform H applied to values (reference mode, Table 03-8). -/
def hadamardExact (l : Nat) (u : List Num) : List Num :=
  (List.range u.length).map (fun i =>
    Num.sum ((List.range u.length).map (fun j =>
      let x := u.getD j .zero
      if oddOnes (Nat.land i j) l then x.neg else x)))

/-- Forward rotation of one block of FP32 patterns (R120); the reference form is exact and rounded by the
caller's format. -/
def prismForward (l seed : Nat) (x : List Nat) : List Nat :=
  let (p, sg) := makeRotation seed l
  let u := (List.range x.length).map (fun i =>
    let v := r32 false (d32 false (x.getD (p.getD i 0) 0))
    if sg.getD i false then r32 false (d32 false v).neg else v)
  (butterflies false l 0 u).map (fun v => fp32Scale false v (-((l / 2 : Nat) : Int)))

def prismForwardExact (l seed : Nat) (x : List Num) : List Num :=
  let (p, sg) := makeRotation seed l
  let u := (List.range x.length).map (fun i =>
    let v := x.getD (p.getD i 0) .zero
    if sg.getD i false then v.neg else v)
  (hadamardExact l u).map (fun v => v.scale (-((l / 2 : Nat) : Int)))

/-- Put value `i` at position π(i). -/
def scatterPerm (p : List Nat) (u : List Nat) : List Nat :=
  (List.range u.length).foldl (fun out i => out.set (p.getD i 0) (u.getD i 0)) u

/-- Inverse rotation of one block (R121). -/
def prismInverse (l seed : Nat) (x : List Nat) : List Nat :=
  let (p, sg) := makeRotation seed l
  let u := butterflies false l 0 (x.map (fun v => r32 false (d32 false v)))
  let v := (List.range u.length).map (fun i =>
    let w := d32 false (fp32Scale false (u.getD i 0) (-(((l + 1) / 2 : Nat) : Int)))
    r32 false (if sg.getD i false then w.neg else w))
  scatterPerm p v

def prismInverseExact (l seed : Nat) (x : List Num) : List Num :=
  let (p, sg) := makeRotation seed l
  let u := hadamardExact l x
  let v := (List.range u.length).map (fun i =>
    let w := (u.getD i .zero).scale (-(((l + 1) / 2 : Nat) : Int))
    if sg.getD i false then w.neg else w)
  (List.range v.length).foldl (fun out i => out.set (p.getD i 0) (v.getD i .zero)) v

/-- Rotate every block of one row; block b uses SEED + b (R118). `x` holds FP32 patterns; the result is FP32
patterns, rounded once per element in reference mode. -/
def rotateRow (ref inverse : Bool) (l seed : Nat) (row : List Nat) : List Nat :=
  let n := 2 ^ l
  ((chunks n (row.length / n + 1) row).zipIdx).flatMap (fun bx =>
    let sd := (seed + bx.2) % 2 ^ 64
    if ref then
      let y := bx.1.map (d32 true)
      (if inverse then prismInverseExact l sd y else prismForwardExact l sd y).map (r32 true)
    else if inverse then prismInverse l sd bx.1 else prismForward l sd bx.1)

/-- As `rotateRow`, giving exact values in reference mode, for an output rounded once to another format. -/
def rotateRowExact (inverse : Bool) (l seed : Nat) (row : List Num) : List Num :=
  let n := 2 ^ l
  ((chunks n (row.length / n + 1) row).zipIdx).flatMap (fun bx =>
    let sd := (seed + bx.2) % 2 ^ 64
    if inverse then prismInverseExact l sd bx.1 else prismForwardExact l sd bx.1)

end Sys2Proof.Machine
end

