-- ==== Sys2Proof/Machine/Hash.lean ====
section
/-!
DEFINITION. The hashes and the signature that the spec names by their standards: SHA-256 and SHA-384 (FIPS 180-4; R282, R288, R289, R491) and ECDSA on P-384
(FIPS 186-5; R491, R492). Their constants and steps are the standards' own (log 6).
-/

namespace Sys2Proof.Machine

open Sys2Proof

/-- The number that big-endian bytes spell. -/
def shaNat (bs : List Byte) : Nat := bs.foldl (fun a b => a * 256 + b.toNat) 0

/-! ### The Secure Hash Standard -/

/-- What tells the members of the family apart: word width, round constants, initial hash value, the rotations of the functions Σ0, Σ1, σ0 and σ1 (the last of
a σ is a shift), and the bytes of the digest. -/
structure Sha where
  width : Nat
  consts : List Nat
  init : List Nat
  big0 : Nat × Nat × Nat
  big1 : Nat × Nat × Nat
  small0 : Nat × Nat × Nat
  small1 : Nat × Nat × Nat
  out : Nat

/-- Rotation to the right of a word. -/
def Sha.rotr (h : Sha) (n x : Nat) : Nat := (x / 2 ^ n + x * 2 ^ (h.width - n)) % 2 ^ h.width
def Sha.add (h : Sha) (xs : List Nat) : Nat := xs.foldl (· + ·) 0 % 2 ^ h.width
def Sha.big (h : Sha) (r : Nat × Nat × Nat) (x : Nat) : Nat := Nat.xor (Nat.xor (h.rotr r.1 x) (h.rotr r.2.1 x)) (h.rotr r.2.2 x)
def Sha.small (h : Sha) (r : Nat × Nat × Nat) (x : Nat) : Nat := Nat.xor (Nat.xor (h.rotr r.1 x) (h.rotr r.2.1 x)) (x / 2 ^ r.2.2)

/-- The message schedule, newest word first, after `n` more words. -/
def Sha.schedule (h : Sha) : Nat → List Nat → List Nat
  | 0, ws => ws
  | n + 1, ws =>
    let at_ := fun i => ws.getD i 0
    h.schedule n (h.add [h.small h.small1 (at_ 1), at_ 6, h.small h.small0 (at_ 14), at_ 15] :: ws)

/-- One round on the working variables a to h. -/
def Sha.round (h : Sha) (v : List Nat) (kw : Nat × Nat) : List Nat :=
  let x := fun i => v.getD i 0
  let ch := Nat.xor (Nat.land (x 4) (x 5)) (Nat.land (2 ^ h.width - 1 - x 4) (x 6))
  let maj := Nat.xor (Nat.xor (Nat.land (x 0) (x 1)) (Nat.land (x 0) (x 2))) (Nat.land (x 1) (x 2))
  let t1 := h.add [x 7, h.big h.big1 (x 4), ch, kw.1, kw.2]
  [h.add [t1, h.big h.big0 (x 0), maj], x 0, x 1, x 2, h.add [x 3, t1], x 4, x 5, x 6]

/-- One block's effect on the hash value. -/
def Sha.block (h : Sha) (v : List Nat) (bs : List Byte) : List Nat :=
  let ws := (chunks (h.width / 8) 16 bs).map shaNat
  let sched := (h.schedule (h.consts.length - 16) ws.reverse).reverse
  let r := (h.consts.zip sched).foldl h.round v
  (v.zip r).map (fun x => h.add [x.1, x.2])

/-- The padded message: a 1 bit, zeros, and the length in bits in twice a word's bits. -/
def Sha.pad (h : Sha) (bs : List Byte) : List Byte :=
  let n := h.width / 4
  let b := 2 * h.width
  bs ++ [0x80] ++ List.replicate ((b - (bs.length + 1 + n) % b) % b) 0 ++ beBytes n (8 * bs.length)

/-- The digest of a byte string. -/
def Sha.digest (h : Sha) (bs : List Byte) : List Byte :=
  let p := h.pad bs
  let v := (chunks (2 * h.width) (p.length / (2 * h.width)) p).foldl h.block h.init
  (v.flatMap (beBytes (h.width / 8))).take h.out

/-- The round constants of SHA-256. -/
def sha256Consts : List Nat :=
  [0x428A2F98, 0x71374491, 0xB5C0FBCF, 0xE9B5DBA5, 0x3956C25B, 0x59F111F1, 0x923F82A4, 0xAB1C5ED5,
   0xD807AA98, 0x12835B01, 0x243185BE, 0x550C7DC3, 0x72BE5D74, 0x80DEB1FE, 0x9BDC06A7, 0xC19BF174,
   0xE49B69C1, 0xEFBE4786, 0x0FC19DC6, 0x240CA1CC, 0x2DE92C6F, 0x4A7484AA, 0x5CB0A9DC, 0x76F988DA,
   0x983E5152, 0xA831C66D, 0xB00327C8, 0xBF597FC7, 0xC6E00BF3, 0xD5A79147, 0x06CA6351, 0x14292967] ++
  [0x27B70A85, 0x2E1B2138, 0x4D2C6DFC, 0x53380D13, 0x650A7354, 0x766A0ABB, 0x81C2C92E, 0x92722C85,
   0xA2BFE8A1, 0xA81A664B, 0xC24B8B70, 0xC76C51A3, 0xD192E819, 0xD6990624, 0xF40E3585, 0x106AA070,
   0x19A4C116, 0x1E376C08, 0x2748774C, 0x34B0BCB5, 0x391C0CB3, 0x4ED8AA4A, 0x5B9CCA4F, 0x682E6FF3,
   0x748F82EE, 0x78A5636F, 0x84C87814, 0x8CC70208, 0x90BEFFFA, 0xA4506CEB, 0xBEF9A3F7, 0xC67178F2]

/-- The round constants of SHA-384. -/
def sha512Consts : List Nat :=
  [0x428A2F98D728AE22, 0x7137449123EF65CD, 0xB5C0FBCFEC4D3B2F, 0xE9B5DBA58189DBBC, 0x3956C25BF348B538,
   0x59F111F1B605D019, 0x923F82A4AF194F9B, 0xAB1C5ED5DA6D8118, 0xD807AA98A3030242, 0x12835B0145706FBE,
   0x243185BE4EE4B28C, 0x550C7DC3D5FFB4E2, 0x72BE5D74F27B896F, 0x80DEB1FE3B1696B1, 0x9BDC06A725C71235,
   0xC19BF174CF692694, 0xE49B69C19EF14AD2, 0xEFBE4786384F25E3, 0x0FC19DC68B8CD5B5, 0x240CA1CC77AC9C65,
   0x2DE92C6F592B0275, 0x4A7484AA6EA6E483, 0x5CB0A9DCBD41FBD4, 0x76F988DA831153B5, 0x983E5152EE66DFAB,
   0xA831C66D2DB43210, 0xB00327C898FB213F, 0xBF597FC7BEEF0EE4, 0xC6E00BF33DA88FC2, 0xD5A79147930AA725,
   0x06CA6351E003826F, 0x142929670A0E6E70, 0x27B70A8546D22FFC, 0x2E1B21385C26C926, 0x4D2C6DFC5AC42AED,
   0x53380D139D95B3DF, 0x650A73548BAF63DE, 0x766A0ABB3C77B2A8, 0x81C2C92E47EDAEE6, 0x92722C851482353B] ++
  [0xA2BFE8A14CF10364, 0xA81A664BBC423001, 0xC24B8B70D0F89791, 0xC76C51A30654BE30, 0xD192E819D6EF5218,
   0xD69906245565A910, 0xF40E35855771202A, 0x106AA07032BBD1B8, 0x19A4C116B8D2D0C8, 0x1E376C085141AB53,
   0x2748774CDF8EEB99, 0x34B0BCB5E19B48A8, 0x391C0CB3C5C95A63, 0x4ED8AA4AE3418ACB, 0x5B9CCA4F7763E373,
   0x682E6FF3D6B2B8A3, 0x748F82EE5DEFB2FC, 0x78A5636F43172F60, 0x84C87814A1F0AB72, 0x8CC702081A6439EC,
   0x90BEFFFA23631E28, 0xA4506CEBDE82BDE9, 0xBEF9A3F7B2C67915, 0xC67178F2E372532B, 0xCA273ECEEA26619C,
   0xD186B8C721C0C207, 0xEADA7DD6CDE0EB1E, 0xF57D4F7FEE6ED178, 0x06F067AA72176FBA, 0x0A637DC5A2C898A6,
   0x113F9804BEF90DAE, 0x1B710B35131C471B, 0x28DB77F523047D84, 0x32CAAB7B40C72493, 0x3C9EBE0A15C9BEBC,
   0x431D67C49C100D4C, 0x4CC5D4BECB3E42B6, 0x597F299CFC657E2A, 0x5FCB6FAB3AD6FAEC, 0x6C44198C4A475817]

def sha256Params : Sha :=
  { width := 32, consts := sha256Consts, big0 := (2, 13, 22), big1 := (6, 11, 25), small0 := (7, 18, 3), small1 := (17, 19, 10), out := 32
    init := [0x6A09E667, 0xBB67AE85, 0x3C6EF372, 0xA54FF53A, 0x510E527F, 0x9B05688C, 0x1F83D9AB, 0x5BE0CD19] }

def sha384Params : Sha :=
  { width := 64, consts := sha512Consts, big0 := (28, 34, 39), big1 := (14, 18, 41), small0 := (1, 8, 7), small1 := (19, 61, 6), out := 48
    init := [0xCBBB9D5DC1059ED8, 0x629A292A367CD507, 0x9159015A3070DD17, 0x152FECD8F70E5939,
             0x67332667FFC00B31, 0x8EB44A8768581511, 0xDB0C2E0D64F98FA7, 0x47B5481DBEFA4FA4] }

/-- SHA-256 of a byte string. -/
@[irreducible] def sha256 (bs : List Byte) : List Byte := sha256Params.digest bs
/-- SHA-384 of a byte string. -/
@[irreducible] def sha384 (bs : List Byte) : List Byte := sha384Params.digest bs

/-! ### ECDSA on P-384 -/

/-- The prime of the field, the order of the group, and the base point. -/
def p384 : Nat := 2 ^ 384 - 2 ^ 128 - 2 ^ 96 + 2 ^ 32 - 1
def p384Order : Nat := 0xFFFFFFFFFFFFFFFFFFFFFFFFFFFFFFFFFFFFFFFFFFFFFFFFC7634D81F4372DDF581A0DB248B0A77AECEC196ACCC52973
def p384Base : Nat × Nat :=
  (0xAA87CA22BE8B05378EB1C71EF320AD746E1D3B628BA79B9859F741E082542A385502F25DBF55296C3A545E3872760AB7,
   0x3617DE4A96262C6F5D9E98BF9292DC29F8F41DBD289A147CE9DA3113B5F0B8C00A60B1CE1D7E819D7A431D7C90EA0E5F)

/-- `x` to a power, modulo `m`; `bits` bits of the exponent. -/
def powMod (m : Nat) : Nat → Nat → Nat → Nat
  | 0, _, _ => 1 % m
  | bits + 1, x, e => (if e % 2 = 1 then x else 1) * powMod m bits (x * x % m) (e / 2) % m

/-- The inverse modulo a prime of 384 bits. -/
def invMod (m x : Nat) : Nat := powMod m 384 (x % m) (m - 2)

/-- The sum of two points of the curve y² = x³ − 3x + b; none is the point at infinity. -/
def ecAdd (a b : Option (Nat × Nat)) : Option (Nat × Nat) :=
  match a, b with
  | none, q => q
  | q, none => q
  | some (x1, y1), some (x2, y2) =>
    if x1 = x2 && (y1 + y2) % p384 = 0 then none
    else
      let sl := if x1 = x2 then (3 * x1 * x1 + (p384 - 3)) * invMod p384 (2 * y1) % p384
        else (y2 + p384 - y1) * invMod p384 (x2 + p384 - x1) % p384
      let x := (sl * sl + 2 * p384 - x1 - x2) % p384
      some (x, (sl * (x1 + p384 - x) + p384 - y1) % p384)

/-- A multiple of a point; `bits` bits of the factor. -/
def ecMul : Nat → Nat → Option (Nat × Nat) → Option (Nat × Nat)
  | 0, _, _ => none
  | bits + 1, k, q => ecAdd (if k % 2 = 1 then q else none) (ecMul bits (k / 2) (ecAdd q q))

/-- Verification of a signature, r then s, over a 384-bit digest by a public key. -/
@[irreducible] def ecdsaVerify (key : Nat × Nat) (digest sig : List Byte) : Bool :=
  let r := shaNat (slice sig 0 48)
  let s := shaNat (slice sig 48 48)
  let n := p384Order
  if r = 0 || n ≤ r || s = 0 || n ≤ s then false
  else
    let w := invMod n s
    match ecAdd (ecMul 384 (shaNat digest * w % n) (some p384Base)) (ecMul 384 (r * w % n) (some key)) with
    | none => false
    | some q => q.1 % n == r

end Sys2Proof.Machine
end

