-- ==== Sys2Proof/Config.lean ====
section
/-!
DEFINITION. What an implementation fixes and the spec leaves open: constants without a body, so that no proof can rest on a
value. Each is named in a log entry.
-/

namespace Sys2Proof.Config

/-- The vendor ID PCI-SIG assigned (R459, Table 15-16); the spec gives no number (log 3). -/
opaque vendorId : BitVec 16
/-- The silicon stepping (R459, Table 15-16; log 3). -/
opaque step : BitVec 4
/-- The running firmware version of the image in a boot slot: MAJOR, MINOR, BUILD (Table 15-15; log 3). -/
opaque romVersion : Word
/-- The module's serial number (R271; log 3). -/
opaque serial : DWord
/-- The MAC address of Ethernet port p (R271; log 3). -/
opaque mac : Nat → BitVec 48
/-- The MAC address that ARP or Neighbour Discovery yields on a port for an address its cache does not hold (R324; log 270). -/
opaque neighbourMac : Nat → List Byte → BitVec 48
/-- A byte of the identity block of the settings EEPROM: the spec gives the block no layout (R271; log 72). -/
opaque identityByte : Nat → Byte
/-- The JEP106 manufacturer code in the JTAG IDCODE (R584; log 3). -/
opaque jep106 : BitVec 11

/-- A byte of bay shared memory that no command of the pass has stored to: undefined contents (R50). The first argument is the
state's free-value counter, the second the address in the bay (log 4). -/
opaque bayByte : Nat → Nat → Byte
/-- A byte of the host's memory that no host and no module write has set: outside the module (log 5). -/
opaque hostByte : Nat → Nat → Byte
/-- A value the spec leaves undefined or unstated, of as many bits as asked for: the first argument is the state's free-value
counter (log 4). -/
opaque freeNat : Nat → Nat
/-- The look-aside buffer's index of a line (R152; log 54). -/
opaque labIndex : Nat → Nat

/-- Baslith's public key on P-384, as a point; the spec gives no number (R492; log 6). -/
opaque vendorKey : Nat × Nat

/-- The code of a recipe alarm's record in class 0xB, which the spec does not give (R134; log 101). -/
opaque recipeAlarmCode : Nat
/-- The fetch window index that a broadcast source's descriptor gives (R294, R295; log 80). -/
opaque fetchWindow : List Byte → Nat
/-- The endpoint, window and offset that a storage head's source descriptor gives (Table 09-8A; log 80). -/
opaque descEndpoint : List Byte → Nat
opaque descWindow : List Byte → Nat
opaque descOffset : List Byte → Nat
/-- The receivers, endpoint and fetch window of each, to whom the reader of a broadcast pushes the image it fetches: no entry of the spec names them (R295;
log 150). -/
opaque broadcastGroup : List Byte → List (Nat × Nat)
/-- The erase block that holds a 4 KiB unit or a 64 KiB page of the deep tier's logical map, by logical address (R262; log 65). -/
opaque blockOf : Nat → Nat
/-- The flash package of an erase block (R263; log 65). -/
opaque packageOf : Nat → Nat
/-- Bytes that a relocation of a block programs (R265; log 65). -/
opaque blockBytes : Nat → Nat
/-- Rated life used of the weight and of the park region in %, by the bytes programmed into it, and park-region spare blocks left in % of the initial
count, by the blocks retired (Table 08-19; log 267). -/
opaque weightWear : Nat → Nat
opaque parkWear : Nat → Nat
opaque spareLeft : Nat → Nat

/-- The rate, width and Flit Mode to which the host link trains, by number of the training: the link partner decides (R459; log 255). -/
opaque hostLink : Nat → Nat

/-- The Linear11 word of a value given as numerator and denominator: several words encode one value (R520; log 113). -/
opaque linear11 : Nat → Nat → BitVec 16

end Sys2Proof.Config
end

