-- ==== Sys2Proof/Machine/Copy.lean ====
section
/-!
DEFINITION. A copy of the settings store as its bytes stand in the EEPROM: header, body of records and commit mark (R271–R273, Tables 08-9 and 08-10).
-/

namespace Sys2Proof.Machine

/-- The three parts of a copy; a part that nothing has written is empty and reads as no valid header or mark. -/
structure SettingsCopy where
  header : List Byte := []              -- 64 bytes at copy offset 0
  body : List Byte := []                -- records from offset 64
  mark : List Byte := []                -- 8 bytes at copy offset 0x1_EFF8
deriving DecidableEq, Repr

/-- One record: TYPE, LEN, the value, zeros to a multiple of 4 B. -/
def recordBytes (e : Nat × List Byte) : List Byte :=
  leBytes 2 e.1 ++ leBytes 2 e.2.length ++ e.2 ++ List.replicate (ceilDiv e.2.length 4 * 4 - e.2.length) 0

/-- The records of a body, in ascending TYPE as they are written. -/
def parseBody : Nat → List Byte → List (Nat × List Byte)
  | 0, _ => []
  | fuel + 1, bs =>
    if bs.length < 4 then []
    else
      let n := getLE bs 2 2
      (getLE bs 0 2, slice bs 4 n) :: parseBody fuel (bs.drop (4 + ceilDiv n 4 * 4))

namespace SettingsCopy

def seq (c : SettingsCopy) : Nat := getLE c.header 8 4
def tag (c : SettingsCopy) : Nat := getLE c.header 16 8
/-- The body bytes that LENGTH counts. -/
def used (c : SettingsCopy) : List Byte := slice c.body 0 (getLE c.header 12 4)
def records (c : SettingsCopy) : List (Nat × List Byte) := parseBody c.used.length c.used

/-- The commit mark of a SEQ: its bitwise complement, then 4 B of 0 (R272). -/
def markOf (n : Nat) : List Byte := leBytes 4 (2 ^ 32 - 1 - n % 2 ^ 32) ++ leBytes 4 0

/-- The five conditions of R272. -/
@[irreducible] def valid (c : SettingsCopy) : Bool :=
  getLE c.header 0 4 == 0x534C5342 && getLE c.header 4 2 == 1 &&
  getLE c.header 60 4 == crc32c (slice c.header 0 60) && getLE c.header 24 4 == crc32c c.used &&
  c.mark == markOf c.seq

/-- A mark that is cleared: all ones, which no SEQ's mark equals (log 72). -/
def cleared (c : SettingsCopy) : SettingsCopy := { c with mark := List.replicate 8 0xFF }

/-- The copy with its mark written (R273 step 4). -/
def marked (c : SettingsCopy) : SettingsCopy := { c with mark := markOf c.seq }

/-- A copy of a list of records, prepared: header and body written, the mark cleared (R273 steps 1 to 3). -/
def make (seq tag : Nat) (rs : List (Nat × List Byte)) : SettingsCopy :=
  let body := rs.flatMap recordBytes
  let h := leBytes 4 0x534C5342 ++ leBytes 2 1 ++ leBytes 2 0 ++ leBytes 4 seq ++ leBytes 4 body.length ++ leBytes 8 tag ++ leBytes 4 (crc32c body) ++
    List.replicate 32 0
  cleared { header := h ++ leBytes 4 (crc32c h), body := body }

/-- A byte of a copy by its offset within the 124 KiB; a byte that no part covers is not known (log 72). -/
def byteAt (c : SettingsCopy) (o : Nat) : Option Byte :=
  if o < 64 then c.header[o]?
  else if o < 0x1EFF8 then c.body[o - 64]?
  else c.mark[o - 0x1EFF8]?

end SettingsCopy

end Sys2Proof.Machine
end

