-- ==== Sys2Proof/Machine/Regs.lean ====
section
/-!
DEFINITION. The register table: which page and register a BAR0 offset names, its access masks and its Reset value (R14–R17, R461, R464, Tables 15-2 and 15-3, and the register tables of every chapter). What each register
means stands with the block that owns it; here only masks, resets and pairs.
-/

namespace Sys2Proof.Machine

/-- A register page with its instance (Table 15-2). -/
inductive Page where
  | chip | txn | cadence | pwr | errlog | settings | host
  | bay (b : Nat) | scribe (b : Nat) | dovetail (b : Nat) | baydma (b : Nat) | core (b s : Nat)
  | main (s : Nat) | near (d : Nat) | deep | migrate | bwreg
  | link (n : Nat) | route | window | peg | eth (p : Nat) | media | hdma
deriving DecidableEq, Repr

namespace Page

/-- BAR0 offset of a page (Table 15-2). -/
def base : Page → Nat
  | chip => 0x0000000
  | txn => 0x0001000
  | cadence => 0x0002000
  | pwr => 0x0003000
  | errlog => 0x0004000
  | settings => 0x0005000
  | host => 0x0010000
  | bay b => 0x0100000 + b * 0x20000
  | scribe b => 0x0101000 + b * 0x20000
  | dovetail b => 0x0102000 + b * 0x20000
  | baydma b => 0x0103000 + b * 0x20000
  | core b s => 0x0104000 + b * 0x20000 + s * 0x1000
  | main s => 0x0300000 + s * 0x1000
  | near d => 0x0308000 + d * 0x1000
  | deep => 0x030A000
  | migrate => 0x030B000
  | bwreg => 0x030C000
  | link n => 0x0400000 + n * 0x1000
  | route => 0x0414000
  | window => 0x0420000
  | peg => 0x0421000
  | eth p => 0x0440000 + p * 0x1000
  | media => 0x0442000
  | hdma => 0x0480000

/-- BLK_ID type code (Table 15-2). -/
def typeCode : Page → Nat
  | chip => 0x001
  | txn => 0x002
  | cadence => 0x003
  | pwr => 0x004
  | errlog => 0x005
  | settings => 0x070
  | host => 0x010
  | bay _ => 0x020
  | core _ _ => 0x021
  | scribe _ => 0x022
  | dovetail _ => 0x023
  | baydma _ => 0x024
  | main _ => 0x030
  | near _ => 0x031
  | deep => 0x032
  | migrate => 0x033
  | bwreg => 0x034
  | link _ => 0x040
  | route => 0x041
  | window => 0x042
  | peg => 0x043
  | eth _ => 0x050
  | media => 0x051
  | hdma => 0x060

/-- BLK_ID instance: the bay, slot, stack, die or port number (R464 and each chapter). -/
def inst : Page → Nat
  | bay b => b
  | scribe b => b
  | dovetail b => b
  | baydma b => b
  | core _ s => s
  | main s => s
  | near d => d
  | link n => n
  | eth p => p
  | _ => 0

/-- BLK_CAP, of the variant with `h` true for BSL-VM96-H (the BLK_CAP tables of each chapter; a page for which
none is given reads 0, log 12). -/
def cap (h : Bool) : Page → Word
  | bay _ => 0x00000111
  | scribe _ => 0x01000310
  | dovetail _ => 0x00010710
  | baydma _ => 0x00000010
  | main _ => 0x00002030
  | near _ => 0x00084018
  | deep => if h then 0x00002004 else 0x00002008
  | migrate => 0x00000240
  | bwreg => 0x00000A06
  | link _ => 0x00040800
  | route => 0x00000400
  | window => 0x00401000
  | peg => 0x00008000
  | hdma => 0x00380040
  | errlog => 0x00001010
  | _ => 0

/-- Number of BLK_IRQ_RAW bits a page uses, from bit 0. -/
def irqBits : Page → Nat
  | chip => 2
  | txn => 3
  | cadence => 17
  | pwr => 8
  | errlog => 5
  | settings => 2
  | host => 3
  | bay _ => 4
  | scribe _ => 3
  | dovetail _ => 3
  | baydma _ => 2
  | core _ _ => 1
  | main _ => 5
  | near _ => 5
  | deep => 5
  | migrate => 3
  | bwreg => 1
  | link _ => 4
  | route => 3
  | window => 4
  | peg => 1
  | eth _ => 2
  | media => 3
  | hdma => 1

/-- The BLK_IRQ_RAW bit that is ERROR: 15 on CADENCE, 0 elsewhere (Table 15-3). -/
def errorBit : Page → Nat
  | cadence => 15
  | _ => 0

/-- Reset value of BLK_IRQ_VEC (Table 15-3; R534, R566, Table 10-11). -/
def vecReset : Page → Nat
  | cadence => 175
  | pwr => 144
  | errlog => 128
  | _ => 2047

/-- BLK_CTRL bits the host may write: bit 2 is TXN_MEMBER. CHIP, HOST, TXN and ERRLOG give the host none (R484,
R485, R486, R566); ETH alone leaves ENABLE and QUIESCE to the host (R347 withholds nothing). -/
def ctrlMask : Page → Word
  | chip => 0
  | txn => 0
  | host => 0
  | errlog => 0
  | eth _ => 7
  | _ => 4

/-- Pages on which a refused write of ENABLE or QUIESCE sets CHIP_STAT.UNMAPPED (R84, R176, R217, R248, R432, R458). -/
def ctrlUnmaps : Page → Bool
  | bay _ => true
  | core _ _ => true
  | scribe _ => true
  | dovetail _ => true
  | baydma _ => true
  | main _ => true
  | near _ => true
  | link _ => true
  | _ => false

/-- The page and offset within it that a BAR0 offset names, if it lies in a page (Table 15-2). -/
def ofOffset (o : Nat) : Option (Page × Nat) :=
  let q := o / 0x1000
  let r := o % 0x1000
  if q = 0 then some (chip, r)
  else if q = 1 then some (txn, r)
  else if q = 2 then some (cadence, r)
  else if q = 3 then some (pwr, r)
  else if q = 4 then some (errlog, r)
  else if q = 5 then some (settings, r)
  else if q = 0x10 then some (host, r)
  else if 0x100 ≤ q ∧ q < 0x300 then
    let b := (q - 0x100) / 0x20
    let k := q % 0x20
    if k = 0 then some (bay b, r)
    else if k = 1 then some (scribe b, r)
    else if k = 2 then some (dovetail b, r)
    else if k = 3 then some (baydma b, r)
    else if k < 21 then some (core b (k - 4), r)
    else none
  else if 0x300 ≤ q ∧ q < 0x308 then some (main (q - 0x300), r)
  else if q = 0x308 then some (near 0, r)
  else if q = 0x309 then some (near 1, r)
  else if q = 0x30A then some (deep, r)
  else if q = 0x30B then some (migrate, r)
  else if q = 0x30C then some (bwreg, r)
  else if 0x400 ≤ q ∧ q < 0x412 then some (link (q - 0x400), r)
  else if q = 0x414 then some (route, r)
  else if q = 0x420 then some (window, r)
  else if q = 0x421 then some (peg, r)
  else if q = 0x440 then some (eth 0, r)
  else if q = 0x441 then some (eth 1, r)
  else if q = 0x442 then some (media, r)
  else if 0x480 ≤ q ∧ q < 0x485 then some (hdma, o - 0x480000)
  else none

end Page

/-- One register: its offset, the masks of its RW, TX, W1C and RC bits and its Reset value. A register with every
mask 0 is RO, or WO where a chapter acts on its write. -/
structure RegRow where
  off : Nat
  rw : Word := 0
  tx : Word := 0
  w1c : Word := 0
  rc : Word := 0
  reset : Word := 0
deriving DecidableEq, Repr

def regRO (off : Nat) (reset : Word := 0) : RegRow := { off := off, reset := reset }
def regRW (off : Nat) (m : Word) (reset : Word := 0) : RegRow := { off := off, rw := m, reset := reset }
def regTX (off : Nat) (m : Word) (reset : Word := 0) : RegRow := { off := off, tx := m, reset := reset }
def regRC (off : Nat) : RegRow := { off := off, rc := 0xFFFFFFFF }
def regW1C (off : Nat) (m : Word) : RegRow := { off := off, w1c := m }

/-- `n` registers at 4 B steps. -/
def regRows (n : Nat) (off : Nat) (f : Nat → RegRow) : List RegRow :=
  (List.range n).map (fun i => f (off + 4 * i))

/-- The registers that answer a _HI half, by the offset of _HI; the _LO half is given. Table of the 64-bit pairs (R14, R16). -/
def Page.pairs : Page → List (Nat × Nat)
  | .chip => [(0x118, 0x11C)]
  | .txn => [(0x108, 0x10C), (0x110, 0x114)]
  | .cadence => [(0x100, 0x104), (0x110, 0x114), (0x120, 0x124), (0x138, 0x13C)] ++
      (List.range 15).map (fun i => (0x180 + 8 * i, 0x184 + 8 * i))
  | .pwr => [(0x130, 0x134), (0x138, 0x13C), (0x148, 0x14C)] ++
      (List.range 12).map (fun i => (0x180 + 8 * i, 0x184 + 8 * i))
  | .errlog => [(0x120, 0x124)]
  | .host => [(0x100, 0x104), (0x118, 0x11C), (0x130, 0x134)]
  | .bay _ => [(0x104, 0x108), (0x128, 0x12C), (0x158, 0x15C), (0x160, 0x164)]
  | .core _ _ => [(0x120, 0x124), (0x128, 0x12C), (0x130, 0x134)]
  | .scribe _ => [(0x108, 0x10C), (0x110, 0x114), (0x118, 0x11C), (0x120, 0x124)]
  | .dovetail _ => [(0x108, 0x10C), (0x110, 0x114), (0x118, 0x11C)]
  | .baydma _ => [(0x188, 0x18C)]
  | .main _ => [(0x118, 0x11C)]
  | .near _ => [(0x118, 0x11C)]
  | .deep => [(0x108, 0x10C), (0x120, 0x124), (0x128, 0x12C), (0x130, 0x134)]
  | .migrate => [(0x110, 0x114), (0x118, 0x11C), (0x148, 0x14C)]
  | .link _ => [(0x118, 0x11C), (0x120, 0x124)]
  | .window => [(0x128, 0x12C), (0x130, 0x134)]
  | .peg => [(0x108, 0x10C), (0x110, 0x114), (0x118, 0x11C)]
  | .eth _ => [(0x110, 0x114), (0x1C0, 0x1C4), (0x1C8, 0x1CC)]
  | .media => [(0x118, 0x11C), (0x120, 0x124)]
  | .hdma => [(0x108, 0x10C), (0x110, 0x114)] ++
      (List.range 64).flatMap (fun n => [(0x1020 + n * 0x100, 0x1024 + n * 0x100), (0x1038 + n * 0x100, 0x103C + n * 0x100)])
  | _ => []

/-- The common page header (Table 15-3). -/
def Page.headerRows (p : Page) : List RegRow :=
  [ regRO 0x000 (BitVec.ofNat 32 (p.typeCode * 2 ^ 20 + p.inst * 2 ^ 12 + 1)),
    regRO 0x004, regRW 0x008 p.ctrlMask 1,
    regRO 0x00C 0x29,
    regW1C 0x010 (maskBits (p.irqBits - 1) 0),
    regRW 0x014 (maskBits (p.irqBits - 1) 0),
    regRO 0x018,
    regRW 0x01C 0x7FF (BitVec.ofNat 32 p.vecReset),
    regRO 0x020, regRO 0x024, regRC 0x028, regRW 0x02C 0xFFFF ]

/-- Registers of one host DMA channel (Table 14-8), at their offset in the HDMA page. -/
def hdmaChanRows (n : Nat) : List RegRow :=
  let o := 0x1000 + n * 0x100
  [ regRW o 0x001F0701 0x00060000, regRO (o + 4), regRO (o + 8) 9, regW1C (o + 0xC) 7, regRW (o + 0x10) 7,
    regRW (o + 0x14) 0xFFFF, regRO (o + 0x18), regRW (o + 0x20) 0xFFFFF000, regRW (o + 0x24) 0xFFFF,
    regRO (o + 0x28), regRO (o + 0x2C), regRO (o + 0x30), regRO (o + 0x38), regRO (o + 0x3C) ]

/-- The block-specific registers of each page (the "block-specific registers" table of its chapter). -/
def Page.blockRows : Page → List RegRow
  | .chip =>
    [ regRO 0x100, { off := 0x104, w1c := 2, reset := 8 }, regRW 0x108 1, regRO 0x10C, regRO 0x110,
      { off := 0x114, rw := 0x00FF0000, reset := 0x00010201 }, regRO 0x118, regRO 0x11C ] ++ regRows 4 0x120 regRO
  | .txn =>
    [ regRO 0x100, regRO 0x104, regRW 0x108 0xFFFFFFFF, regRW 0x10C 0xFFFFFFFF, regRO 0x110, regRO 0x114,
      regRW 0x118 0xFFFF 1000, regRO 0x11C, regRO 0x120, regRC 0x124 ]
  | .cadence =>
    [ regRO 0x100, regRO 0x104, regRO 0x108, regTX 0x10C 7 4, regTX 0x110 0xFFFFFFFF, regTX 0x114 0xFFFFFFFF,
      regTX 0x118 0x77F, regTX 0x11C 0x1FFFFFF 0x1770000, regRO 0x120, regRO 0x124, regRO 0x128, regRO 0x12C,
      regRO 0x130, regRO 0x138, regRO 0x13C, regRW 0x140 0x7FFF ] ++
    regRows 30 0x180 (fun o => regRW o 0xFFFFFFFF)
  | .pwr =>
    [ regRO 0x100, regTX 0x104 0xFFF, regTX 0x108 0xFFF, regTX 0x10C 0xFFF 2000, regRO 0x110 2800, regTX 0x114 0xFFF 1,
      regRW 0x118 0x1FFFF, regRO 0x11C, regRO 0x120, regRO 0x124, regRO 0x128, regRC 0x12C, regRO 0x130, regRO 0x134,
      regRO 0x138, regRO 0x13C, regRO 0x140, regRO 0x144, regRO 0x148, regRO 0x14C, regRC 0x150 ] ++
    regRows 4 0x154 regRO ++ regRows 24 0x180 regRO ++ regRows 28 0x200 regRO
  | .errlog =>
    [ regRO 0x100, regRO 0x104, regRO 0x108, regRW 0x10C 0xFFFFFFFF 0xFFFFFFFF, regRO 0x110, regW1C 0x114 0xFFFF,
      regRW 0x118 0xFFFF, regRO 0x11C 0x00100000, regRO 0x120 0x10000000, regRO 0x124 0x10, regRC 0x128, regRC 0x12C,
      regRO 0x130, regRO 0x134 ] ++ regRows 16 0x180 regRC
  | .settings =>
    [ regRO 0x100, regRO 0x104, regRW 0x108 0x01FFFFFF, regRO 0x10C, regRO 0x110 0x00400000 ] ++
    regRows 64 0x200 (fun o => regRW o 0xFFFFFFFF)
  | .host =>
    [ regRW 0x100 0xFFFFF000, regRW 0x104 0xFFFF, regRW 0x108 0x87FF1F1F 0x00B00606, regRW 0x10C 0xFFFF, regRO 0x110,
      regRO 0x114, regRW 0x118 0xFFFFF000, regRW 0x11C 0xFFFF, regRW 0x120 0x1FF 64, regRO 0x124, regRO 0x128, regRC 0x12C,
      regRO 0x130, regRO 0x134 ] ++ regRows 64 0x800 regRO
  | .bay _ =>
    [ regRO 0x100, regRO 0x104 0x55555555, regRO 0x108, regRO 0x110 0x03020100, regRO 0x114 0x07060504,
      regRO 0x118 0x0B0A0908, regRO 0x11C 0x0F0E0D0C, regRO 0x120, regRO 0x128, regRO 0x12C ] ++
    regRows 8 0x130 regRO ++
    [ regRO 0x150, regRO 0x154, regRO 0x158, regRO 0x15C, regRO 0x160, regRO 0x164 ]
  | .core b s =>
    [ regRO 0x100 (BitVec.ofNat 32 ((if s = 16 then 0x1F else s) * 2 ^ 16 + b * 2 ^ 8 + s)),
      regRO 0x104 (if s = 16 then 0 else 1), regRO 0x108, regRO 0x10C, regRO 0x110, regRO 0x120, regRO 0x124,
      regRO 0x128, regRO 0x12C, regRO 0x130, regRO 0x134, regRC 0x138 ]
  | .scribe _ =>
    [ regRO 0x100, regRO 0x104, regRO 0x108, regRO 0x10C, regRO 0x110, regRO 0x114, regRO 0x118, regRO 0x11C,
      regRO 0x120, regRO 0x124, regRC 0x128, regRC 0x12C, regRO 0x130, regRO 0x134 ] ++ regRows 16 0x180 regRO
  | .dovetail _ =>
    [ regRO 0x100, regRO 0x108, regRO 0x10C, regRO 0x110, regRO 0x114, regRO 0x118, regRO 0x11C, regRC 0x120, regRO 0x124 ] ++
    regRows 32 0x180 regRO
  | .baydma _ => regRows 33 0x100 regRO ++ [ regRO 0x188, regRO 0x18C, regRC 0x190 ]
  | .main _ => [ regRO 0x100, regRO 0x104, regRO 0x108, regRO 0x10C, regRC 0x110, regRO 0x118, regRO 0x11C ]
  | .near _ => [ regRO 0x100, regRO 0x104, regRO 0x108, regRO 0x10C, regRC 0x110, regRO 0x118, regRO 0x11C ]
  | .deep =>
    [ regRO 0x100, regTX 0x104 0x7F7FF7FF 0x04100140, regRO 0x108, regRO 0x10C, regRO 0x110, regRO 0x114 ] ++
    regRows 6 0x120 regRO ++ regRows 9 0x140 regRO
  | .migrate =>
    [ regTX 0x100 0xFFFFFF03 0x20021003, regTX 0x104 0xFFFF 6000, regRO 0x108, regRO 0x110, regRO 0x114, regRO 0x118,
      regRO 0x11C, regRC 0x120, regRC 0x124, regRC 0x128, regRO 0x130, regRO 0x134, regRO 0x138, regRO 0x140, regRO 0x148,
      regRO 0x14C ]
  | .bwreg =>
    [ regTX 0x100 0xFFFF03FF 0x43E801F4, regTX 0x104 0xFFFF03FF 0x43E800C8, regTX 0x108 0xFFFF03FF 0x41F40078,
      regTX 0x10C 0xFFFF03FF 0x412C003C, regTX 0x110 0xFFFF03FF 0x412C003C, regTX 0x114 0xFFFF03FF 0x4032000A ] ++
    regRows 6 0x120 regRC
  | .link n =>
    [ regRO 0x100 (if n < 16 then 1 else 0), regTX 0x104 0x33 (if n < 16 then 3 else 2), regRO 0x108, regRO 0x10C,
      regRO 0x110, regRO 0x114, regRO 0x118, regRO 0x11C, regRO 0x120, regRO 0x124, regRC 0x128, regRC 0x12C, regRC 0x130,
      regRC 0x134, regRC 0x138 ]
  | .route =>
    [ regRO 0x100, regTX 0x104 0x800003FF 0x3FF, regRO 0x108 0x0302, regRO 0x10C, regRC 0x110, regRC 0x114 ] ++
    regRows 8 0x180 regRO
  | .window =>
    [ regRO 0x100, regRO 0x104 64, regRC 0x108, regRC 0x10C, regRO 0x110, regRO 0x114, regRC 0x118, regRC 0x11C,
      regRC 0x120, regRO 0x124, regRO 0x128, regRO 0x12C, regRO 0x130, regRO 0x134 ] ++ regRows 8 0x180 regRO
  | .peg => [ regRO 0x100, regRO 0x108, regRO 0x10C, regRO 0x110, regRO 0x114, regRO 0x118, regRO 0x11C, regRC 0x120 ]
  | .eth _ =>
    [ regRO 0x100, regTX 0x104 0x7FFF7FFF 1500, regTX 0x108 0xFFFFFFFF 0x50015000, regRO 0x110, regRO 0x114,
      regTX 0x120 0xFFFFFFFF, regTX 0x124 0xFFFFFFFF, regTX 0x128 0xFFFFFFFF, regTX 0x12C 0xFFFFFFFF ] ++
    regRows 12 0x130 (fun o => regTX o 0xFFFFFFFF) ++ regRows 16 0x180 (fun o => regTX o 0xFFFFFFFF) ++
    regRows 4 0x1C0 regRO ++ regRows 3 0x1D0 regRC
  | .media =>
    [ regRO 0x100, regRW 0x104 0x3FFF, regTX 0x108 0x000FFFFF 0x00004028, regTX 0x10C 0xFFFFFFFF 491520,
      regTX 0x110 0xFFFFFFFF, regRO 0x118, regRO 0x11C, regRO 0x120, regRO 0x124 ] ++ regRows 14 0x128 regRC ++
    regRows 32 0x200 regRO
  | .hdma =>
    [ regRO 0x100, regRO 0x108, regRO 0x10C, regRO 0x110, regRO 0x114, regRC 0x118 ] ++
    (List.range 64).flatMap hdmaChanRows

/-- The row of a register, header first. -/
def Page.row (p : Page) (o : Nat) : Option RegRow :=
  if o < 0x30 then p.headerRows.find? (fun r => r.off == o)
  else match p with
    | .hdma =>
      if o < 0x1000 then p.blockRows.find? (fun r => r.off == o)
      else (hdmaChanRows ((o - 0x1000) / 0x100)).find? (fun r => r.off == o)
    | _ => p.blockRows.find? (fun r => r.off == o)

/-- Regions of BAR0 that hold words without a page header. -/
inductive Region where
  | msixTable (v w : Nat)     -- vector, word 0–3
  | doorbell (c o : Nat)      -- client page, offset
  | pegWord (p w : Nat)       -- peg, word 0–3
  | windowWord (j w k : Nat)  -- job, window, word 0–7
  | routeWord (e h : Nat)     -- routing entry, half
deriving DecidableEq, Repr

/-- The region word a BAR0 offset names (Table 15-2, R376, R396, R422). -/
def Region.ofOffset (o : Nat) : Option Region :=
  if 0x20000 ≤ o ∧ o < 0x28000 then some (.msixTable ((o - 0x20000) / 16) (o % 16 / 4))
  else if 0x418000 ≤ o ∧ o < 0x41A000 then some (.routeWord ((o - 0x418000) / 8) (o % 8 / 4))
  else if 0x800000 ≤ o ∧ o < 0x840000 then some (.doorbell ((o - 0x800000) / 0x1000) (o % 0x1000))
  else if 0xC00000 ≤ o ∧ o < 0xC80000 then some (.pegWord ((o - 0xC00000) / 16) (o % 16 / 4))
  else if 0x1000000 ≤ o ∧ o < 0x1100000 then
    some (.windowWord ((o - 0x1000000) / 0x20000) ((o - 0x1000000) / 32 % 4096) (o % 32 / 4))
  else none

/-- What a register word that nothing has changed since reset holds: the Reset column. DEEP_BUDGET differs on the
BSL-VM96-H (Table 08-18); MSI-X vector control resets to masked (PRESUMED from the PCIe specification, log 8). -/
def resetWord (h : Bool) (o : Nat) : Word :=
  match Page.ofOffset o with
  | some (p, r) =>
    if h && p == .deep && r == 0x104 then 0x041000A0
    else if r = 4 then p.cap h
    else match p.row r with
      | some row => row.reset
      | none => 0
  | none => match Region.ofOffset o with
    | some (.msixTable _ 3) => 1
    | _ => 0

end Sys2Proof.Machine
end

