-- ==== Sys2Proof/Machine/State.lean ====
section
/-!
DEFINITION. The state of the module: plain data, every field at its reset value by default. A register of BAR0 lives in `regs` and
nowhere else, unless its read is computed from another field.
-/

namespace Sys2Proof.Machine

/-- The two orderable variants (R5). -/
inductive Variant where
  | vm96
  | vm96h
deriving DecidableEq, Repr

/-- A unit of the module that sends requests, waits or parks (Table 07-7, R386). -/
inductive UnitId where
  | core (b l : Nat)
  | bayDma (b n : Nat)
  | hostDma (n : Nat)
  | dovetail (b : Nat)
  | scribe (b : Nat)
  | sched
  | media
  | weights
  | fetch
deriving DecidableEq, Repr

/-- What left the module: the observable output of a command, newest first in `State.out`. -/
inductive Output where
  | msix (v : Nat)                            -- an MSI-X message of vector v (R466)
  | readWord (off : Nat) (v : Word)           -- a BAR0 read returned v (R16)
  | readBar2 (addr : Nat) (bs : List Byte) (poisoned : Bool)
  | packet (port : Nat) (bs : List Byte)       -- a fabric packet placed in a flit of a port; 18: turned around inside the module (R371, R390)
  | linkMsg (port kind arg : Nat)             -- a link-layer message (R411)
  | frame (port : Nat) (bs : List Byte)       -- an Ethernet frame without its FCS
  | smbus (bs : List Byte)                    -- bytes returned on the SMBus (R520)
  | hostWrite (addr : Nat) (bs : List Byte)   -- a write to host memory over PCIe (R442)
  | jtag (bits : List Bool)                   -- bits shifted out of the TAP (R584)
  | pin (name : String) (level : Option Bool) -- a sideband output driven, or tri-stated (R13)
deriving DecidableEq, Repr

/-! ### Streams, jobs, passes -/

/-- A pass (R354–R363). -/
structure Pass where
  seq : Nat := 0
  label : Nat := 0
  start : Option Nat := none            -- S, known once the previous pass's barrier completed
  streams : List Nat := []              -- in the order of R356
  recipeBank : Nat := 0
  placementBank : Nat := 0
  level : Nat := 2
  preempts : Nat := 0                   -- pre-emptions suffered, and ticks spent pre-empted (R369)
  preemptCt : Nat := 0
  onB : List Nat := []                  -- privileged layers the pass reads from set B (R305)
  begun : Bool := false                 -- step 3 has begun
  replay : Bool := false                -- this run is a replay (R359)
  doneCt : Nat := 0                     -- the tick step 8 finished
  barrierSent : Bool := false
  barrierBase : Nat := 0
  formBase : Nat := 0
  pegBases : List (Nat × Nat) := []     -- recorded bases of the expert pegs (R207, R208)
  trouble : List (Nat × List Nat) := [] -- recipe ↦ SAT, NONFINITE, OVERFLOW sums, then the largest of one command (R133, R134)
  fallback : List (Nat × Nat) := []     -- fallback log, stream/layer/group/page packed ↦ 0, or 1 once its record has failed (R168, R173)
  penumbra : List (Nat × Nat) := []     -- stream ↦ penumbra pages (R169)
  scribe : List (Nat × Nat × Nat) := [] -- bay, kind 0 at a cutoff or 1 penumbra only, count (Table 05-17)
  degraded : List Nat := []             -- streams flagged DEGRADED (R172)
  refused : List (Nat × Nat) := []      -- stream ↦ refused choices (R192)
  ports : List (Nat × Nat) := []        -- bay ↦ choices refused through its port (R217)
  scatterBays : List (Nat × Nat) := []  -- layer ↦ substitute port, fixed at formation (R187)
  scatter : List (Nat × Nat) := []      -- (layer, expert, kind) packed ↦ count (R193)
  scattered : List Nat := []            -- layers whose SCATTER has been handed over (R187)
  chunks : List (Nat × Nat) := []       -- slot · 256 + layer ↦ chunks whose GATHERs are out (R200)
  deferrals : List (Nat × Nat × Nat × Nat) := []  -- client ↦ CAP, FRAMES, PEER (R358)
  waits : List (Nat × Nat) := []        -- stream ↦ first formation tick meeting the horizon (R369)
deriving DecidableEq, Repr

/-- A formation in progress: bitmap sent, FORM_PEG awaited (R357). -/
structure Forming where
  seq : Nat := 0
  label : Nat := 0
  eligible : List Nat := []             -- eligible streams in the order of R356
  framesFailed : List Nat := []         -- streams whose reservation failed (R161)
  capped : List Nat := []               -- candidates beyond PASS_MAX when the walk stopped
  formBase : Nat := 0
deriving DecidableEq, Repr

/-- A bank switch, a level change or a destroy that waits for its tick (R136, R210, R428, R368). -/
structure Switch where
  ring : Ring := .admin
  cookie : Nat := 0
  value : Nat := 0
  effective : Nat := 0
  applied : Option Nat := none          -- PASS_SEQ of the first pass on the new value
deriving DecidableEq, Repr

/-- A bank-like quantity of a job with its one pending switch. -/
structure Banked where
  active : Nat := 0
  pending : Option Switch := none
deriving DecidableEq, Repr

/-- An episode of containment (R550). -/
structure Episode where
  seq : Nat := 0                        -- the named pass
  e : Nat := 0
  attempt : Nat := 1
  culprits : Nat := 0                   -- episodes of this pass with a culprit line (R554)
  culpritHere : Bool := false
  drained : Bool := false
  localOverruns : Nat := 0              -- consecutive local overruns (R552)
deriving DecidableEq, Repr

/-- A promotion accepted and not yet complete (R559). -/
structure Promote where
  ring : Ring := .admin
  cookie : Nat := 0
  priv : Nat := 0                       -- the part's index in the job's manifest
  bank : Nat := 0                       -- the placement bank for the role
  ranges : List (Nat × Nat) := []       -- first virtual page and pages of each range of the part
deriving DecidableEq, Repr

inductive JobPhase where
  | loading | serving | destroying
deriving DecidableEq, Repr

/-- A unit's hold on a page: the page is in the deep tier and the unit is parked (Table 07-7). -/
structure Parked where
  unit : UnitId
  job : Nat
  vpage : Nat
  deadline : Nat
  resolved : Bool := false
deriving DecidableEq, Repr

/-- A key-value arena's allocation (R146, R161): what is taken. -/
structure Arena where
  used : List Nat := []                 -- frames taken: in pages, held by staging descriptors, or reserved
  reserved : List (Nat × List (Nat × Nat)) := []  -- stream ↦ reserved pages of frames: (first frame, 1 or 2)
  usedPen : List Nat := []              -- penumbra records taken
deriving DecidableEq, Repr

structure Job where
  phase : JobPhase := .loading
  block : List Byte := []               -- the 4 KiB creation block (Table 15-10)
  manifest : List Byte := []            -- the manifest of its generation slot, as read at creation (R349)
  startCt : Nat := 0
  myMember : Nat := 0
  priv : Option Nat := none             -- private part index; none: a standby job (R559)
  promoted : Bool := false
  promoting : Option Promote := none
  recipe : Banked := {}
  placement : Banked := {}
  level : Banked := {}
  destroy : Option Switch := none
  nextSeq : Nat := 0
  executing : Option Pass := none
  formed : Option Pass := none
  forming : Option Forming := none
  lastLabel : Option Nat := none        -- label of the pass last formed
  lastStart : Nat := 0                  -- start tick of the pass last started
  lastB : Nat := 0                      -- barrier value of the last committed pass
  formAt : Option Nat := none           -- tick at which the next formation begins
  barrierBase : Nat := 0
  formBase : Nat := 0
  pegBase : List (Nat × Nat) := []      -- expert peg ↦ base of the next pass (R207)
  commitCt : Nat := 0                   -- tick of the last step 9
  onB : List Nat := []                  -- privileged layers whose active set is B (R305)
  arena : Arena := {}
  waits : List (Nat × Nat) := []        -- stream ↦ first formation tick meeting the horizon
  episode : Option Episode := none
  culprits : List (Nat × Nat) := []     -- PASS_SEQ ↦ culprit episodes so far (R554)
  attempts : List (Nat × Nat) := []     -- PASS_SEQ ↦ episodes so far (R550)
  suspended : Bool := false
  lossWait : List Nat := []             -- endpoints of lost members awaited (R557)
  misProd : Nat := 1                    -- misroute queue producer (R197)
  misSeq : Nat := 0
  failed : List (Nat × Nat) := []       -- destination with the failure flag ↦ code of the refusal that set it (R387)
  relabel : Option Nat := none          -- label of the first pass formed after a rejoin (R559)
  joinHeld : Option (Nat × Nat) := none -- a JOIN to be answered once the drain is complete: endpoint, J (Table 18-13)
  syncFrom : Option Nat := none         -- promoted: the tick J of the JOIN sent, until a SYNC answers (R559)
  tailBank : Nat := 0                   -- recipe bank of the last committed pass, which its step 10 uses (R137)
  tail : List (Nat × Nat) := []         -- (stream, OUT_SEQ) of committed frames that step 10 has still to ready (R36)
deriving DecidableEq, Repr

/-- A client (R350). -/
structure Client where
  job : Nat := 0
  classes : Nat := 0                    -- classes present, one bit each
  sqLog : Nat := 6
  cqLog : Nat := 6
  sqBase : Nat := 0
  cqBase : Nat := 0
  acct : Nat := 0
  heads : List (Nat × Nat) := []        -- class ↦ HEAD
  tails : List (Nat × Nat) := []        -- class ↦ TAIL
  error : Bool := false                 -- DB_STAT.ERROR
  armed : Bool := false                 -- DB_STAT.ARMED
  prod : Nat := 1
  phaseBit : Bool := true
  backlog : List (List Byte) := []      -- records held, oldest first (R469)
  lost : Bool := false                  -- the next record carries FLAGS.LOST
  waiting : List (Nat × Nat) := []      -- class ↦ entries taken that have posted no completion yet (BARRIER, Table 15-5)
  dying : Option Nat := none            -- COOKIE of a CLIENT_DESTROY that waits for the entries already taken (Table 15-14)
deriving DecidableEq, Repr

/-- A run (R353). -/
structure Run where
  uid : Nat := 0                        -- MODEL: names the run in this state
  client : Nat := 0
  cls : Nat := 0
  job : Nat := 0
  cookie : Nat := 0
  id : Nat := 0
  template : Nat := 0
  args : Nat := 0
  start : Nat := 0
  limit : Nat := 0
  arrival : Nat := 0
  held : Nat := 0
  heldFrom : Option Nat := none         -- tick since which it holds the cores
  preempts : Nat := 0
  preemptCt : Nat := 0
  begun : Option Nat := none            -- tick at which it first took the cores
  first : Option Nat := none            -- tick of its first command
deriving DecidableEq, Repr

/-- What holds the cores (R364). -/
inductive Holder where
  | pass (job : Nat)
  | tail (job : Nat)                    -- step 10 of the job's committed passes (R32, R36)
  | run (uid : Nat)
deriving DecidableEq, Repr

/-- A core command queue of one logical core (R54). -/
structure CoreQ where
  q : List (List Byte) := []            -- unretired descriptors, oldest first
  head : Nat := 0
  tail : Nat := 0
  job : Option Nat := none              -- job of the last command (R47)
  st : Nat := 1                         -- CORE_STATE.STATE of the slot that presents it (Table 02-28)
  prevJob : Option Nat := none          -- job for which the scratchpad was last zeroed (R47)
  started : Bool := false               -- the head command has started and not retired
  executed : Bool := false              -- its stores are done; retirement is due (R55)
  halted : Bool := false                -- the queue is halted on an illegal command (R82)
  lines : List (Nat × List Byte) := []  -- remote lines read for the head command, outside the cache (R52, R390)
  waitPage : Option Nat := none         -- the deep key-value page an ATTN waits for, packed (R167)
  waitFrom : Option Nat := none         -- tick since which a descriptor waits with no credit and the queue has not moved (R30)
deriving DecidableEq, Repr

/-- A dovetail port (R186): descriptors held, and how far the head has come. -/
structure Dove where
  q : List (List Byte) := []
  job : Nat := 0
  phase : Nat := 0                      -- 0 not started; 1 answers awaited; 2 counts sent, the grant peg awaited (R213)
  parked : Bool := false
deriving DecidableEq, Repr

/-- A DMA channel's descriptors and progress (R438, R451). -/
structure Chan where
  q : List (List Byte) := []            -- descriptors held; a host channel holds the one at HEAD
  job : Nat := 0
  started : Bool := false               -- its wait was met and the descriptor has started
  pos : Nat := 0                        -- output bytes issued
  fencing : Bool := false
  done : Bool := false                  -- every write issued and the fence complete; retirement is due
  stopping : Bool := false              -- ABORT accepted, the present burst not finished (R452)
  lines : List (Nat × List Byte) := []  -- remote lines read for it
deriving DecidableEq, Repr

/-- The saved state of a pre-empted unit (R365, R453). -/
structure Saved where
  holder : Holder
  at_ : Nat                             -- the tick of pre-emption
  cores : List (Nat × List (List Byte)) := []
  chans : List (Nat × Chan) := []
  doves : List (Nat × Dove) := []
  held : List (UnitId × Nat × Nat × List Byte) := []
deriving DecidableEq, Repr

/-! ### Streams and staging -/

/-- A committed egress frame not yet sent: SEQ, egress tick, whether its slot is ready (R341, R342). -/
structure OutFrame where
  seq : Nat
  tick : Nat
  last : Bool := false
deriving DecidableEq, Repr

/-- How a parking stream's pages are held once its set commits: place in its lists, kind, park-unit reference, penumbra record. Kinds: 0 deep
as it was, 1 written as a full page or tail, 2 its record put into a pack, 3 penumbra only as it was, 4 penumbra only with no record. -/
structure ParkPlan where
  mode : Nat := 1                       -- 1 full, 2 penumbra (R256)
  pages : List (Nat × Nat × Nat × Nat) := []
deriving DecidableEq, Repr

/-- A stream that is not free (R328–R344). -/
structure Stream where
  e : List Byte                         -- the 128 bytes of Table 10-6
  op : Option (Ring × Nat × Nat) := none  -- OPEN, PARK or RESUME in progress: ring, cookie, opcode
  close : Option (Ring × Nat) := none   -- CLOSE accepted
  key : Nat := 0                        -- PARK_KEY of the park or of the set it opens from
  release : Bool := false               -- PARK carried RELEASE = 1
  out : List OutFrame := []
  woken : Bool := false                 -- an onset has been detected since the park (R344)
  voiced : Bool := false                -- the last accepted frame was loud
  fullTold : Bool := false              -- the stream-full event has been posted
  bound : Bool := true                  -- a peer is bound; false under PEER_LEARN until the first accepted frame (R339)
  inSlots : List (Nat × Nat) := []      -- ingress slot ↦ SEQ its header holds
  endSent : Bool := false               -- a frame with END has been sent (R336)
  freePen : List Nat := []              -- penumbra records released at the next commit (R160)
  refs : List (Nat × Nat) := []         -- place of a page with FLASH = 1 ↦ its park unit (R257)
  plan : Option ParkPlan := none        -- the park is written and its set not yet committed
deriving DecidableEq, Repr

/-- A page-staging descriptor and where it stands (R164–R166). -/
structure Stage where
  bay : Nat
  desc : List Byte                      -- the 32 bytes of Table 05-7; FRAME 0 and no SEQ until issued
  issued : Bool := false
  started : Bool := false
  dropped : Bool := false               -- the stream closed: complete, then free the frame (R174)
deriving DecidableEq, Repr

/-- A page being moved (R229, R235). -/
inductive MoveKind where
  | demand | hint | evacuate | counter | mapPromote | prefer
deriving DecidableEq, Repr

structure Move where
  job : Nat
  vpage : Nat
  kind : MoveKind
  dest : Nat                            -- tier wanted: 0 near, 1 main, 2 deep
  deadline : Nat
  age : Nat
  started : Bool := false
  page : Nat := 0                       -- destination page once started
  late : Bool := false
deriving DecidableEq, Repr

/-- An outstanding request of this module (R373); `sent` is false while it waits as if it had no credit (R419). -/
structure Req where
  unit : UnitId
  job : Nat
  pkt : Packet
  sent : Bool := true
  stale : Bool := false                 -- a line read older than an invalidation of its bay's cache for its job (R53)
deriving DecidableEq, Repr

/-- A fence that has not completed: the requests it waits on (R386). -/
structure Fence where
  unit : UnitId
  job : Nat
  dst : FenceDst
  waits : List (Nat × Nat)              -- (destination, SEQ)
  error : Option Nat := none            -- the refusal's code
  next : List Packet := []              -- requests sent once it has completed (R382)
deriving DecidableEq, Repr

/-- A Lydijan port (R408–R419): the transmit queue, the replay buffer and the receive side. -/
structure Port where
  queue : List Packet := []             -- packets waiting for a flit, oldest first
  unacked : List (Nat × List Packet) := []  -- data flits held: SEQ, packets whose last slot they hold
  nextSeq : Nat := 0
  expect : Nat := 0
  nakAt : Option Nat := none            -- tick of the NAK that answers the present gap
  ackAt : Nat := 0                      -- tick at which ACK last advanced or the oldest flit was sent
  replays : Nat := 0                    -- replays in a row without ACK progress
  credits : Nat × Nat := (0, 0)         -- slots the peer granted: request, response
  healthy : List Nat := []              -- lanes that lock
  testing : Option Nat := none          -- tick a lane test began
  newWidth : Option Nat := none         -- width agreed to by WIDTH, awaiting WIDTH_ACK
  testDue : Nat := 0                    -- tick of the next test of disabled lanes (R417)
  adapt : Bool := false                 -- a re-adaptation is requested (R414)
deriving DecidableEq, Repr

/-- What a receiver keeps of one source's requests (R419). -/
structure DedupRec where
  highest : Nat := 0
  answered : List (Nat × Nat) := []     -- SEQ ↦ 0, or the code of the refusal sent
  applying : List Nat := []
  lastAt : Nat := 0
deriving DecidableEq, Repr

/-- A peg accumulator of a port (R385): the responses that wait for its flush. -/
structure Accum where
  port : Nat
  peg : Nat
  sum : Nat
  acks : List Packet
deriving DecidableEq, Repr

/-- An open error record that may still coalesce (R538). -/
structure OpenRec where
  code : Nat
  source : Nat
  key : Nat
  firstCt : Nat
  slot : Nat
deriving DecidableEq, Repr

/-- PCIe configuration space as far as a command reads it (Table 15-1, R460). -/
structure Pcie where
  linkUp : Bool := true
  d3hot : Bool := false
  bar2Log : Nat := 36                   -- BAR2 size, 64 GiB after reset
  trains : Nat := 0                     -- MODEL: number of the present training of the link
deriving DecidableEq, Repr

/-- The admin rings (R467–R469, R485). -/
structure Admin where
  prod : Nat := 1
  phaseBit : Bool := true
  armed : Bool := false
  backlog : List (List Byte) := []
  lost : Bool := false
  waiting : Nat := 0
deriving DecidableEq, Repr

/-- A committed park set (R257): its record and, for each page of its lists, what it holds: 0 in full, 1 a record in a pack, 2 nothing. -/
structure ParkSet where
  record : List Byte                    -- the 64 bytes of Table 08-4
  pages : List (Nat × Nat × Nat) := []  -- place in the lists ↦ (kind, reference)
  units : List Nat := []                -- park units it lists, both of a pair
deriving DecidableEq, Repr

/-- An erase block of the flash as the controller tracks it (R262, R263): `age` in units of 2^-32 s. -/
structure Block where
  reads : Nat := 0
  age : Nat := 0
  moving : Nat := 0                     -- a relocation in progress: 0 none, 1 read disturb, 2 refresh
  scanned : Bool := false               -- read by the retention scan in progress (R264)
deriving DecidableEq, Repr

/-- A MAP whose completion has not been posted (R223). -/
structure MapWait where
  ring : Ring
  cookie : Nat
  job : Nat
  vpage : Nat
  pages : Nat
deriving DecidableEq, Repr

/-- The settings store and its engine (R271–R277). -/
structure Settings where
  copyA : SettingsCopy := (SettingsCopy.make 1 0 []).marked   -- as manufactured: valid, with no record (log 111)
  copyB : SettingsCopy := (SettingsCopy.make 0 0 []).marked
  staged : List (Nat × Option (List Byte)) := []      -- type ↦ value, or none: a deletion
  txnStaged : List (Nat × Option (List Byte)) := []   -- staged in the open transaction (R277)
  preparing : Option SettingsCopy := none             -- being written; not valid before its mark
  inTxn : Bool := false                               -- the prepare belongs to a transaction
  plainWait : Bool := false                           -- a COMMIT waits for a credit or for the store (R275)
  txnWait : Bool := false                             -- the prepare of the scheduled transaction waits likewise (R277)
  fwWait : Bool := false                              -- a change of firmware's own records waits for the mark or the roll-back (R278)
  fwEdits : List (Nat × Option (List Byte)) := []     -- further record changes that wait with it
  mirror : List (Nat × List Byte) := []               -- firmware's own records, mirrored in the deep tier (R275)
deriving DecidableEq, Repr

/-- The discipline of the cadence counter (R314–R320). -/
structure Cadence where
  good : Nat := 0                       -- consecutive measurements within ±500 ns
  load : Option Nat := none             -- count to be applied at the next CADENCE_IN edge (R316)
  holdFrom : Option Nat := none         -- tick at which HOLDOVER was entered
  validFrom : List (Nat × Nat) := []    -- Ethernet port ↦ tick since which it carries a valid PTP reference
deriving DecidableEq, Repr

/-- What the last checkpoint of the deep tier's metadata holds (R270). -/
structure Checkpoint where
  level : Option Int := none
  ptp : Option Nat := none              -- PTP seconds
  counters : List (Nat × Word) := []    -- register offset in the DEEP page ↦ value
  short : Bool := false                 -- the last loss came before its sequence had finished (R268)
deriving DecidableEq, Repr

/-- A weight generation slot (R283, R294): IN_USE is read off the leaves. -/
structure GenSlot where
  st : Nat := 0                         -- 0 EMPTY, 1 FILLING, 2 COMMITTED
  repair : List Byte := []              -- source descriptor of the fetch that filled it
deriving DecidableEq, Repr

/-- The fetch in progress (R292–R295). -/
structure Fetch where
  ring : Ring
  cookie : Nat
  slot : Nat
  block : List Byte                     -- the 512-byte fetch block
  rate : Nat := 24
  known : Bool := false                 -- header and manifest are in and match
  todo : List Nat := [0]                -- slot pages still to be written, in order
  tries : Nat := 0                      -- failures of the page read now
  treeTries : Nat := 0                  -- failures of the tree that is being read (R293)
  got : List (Nat × List Byte) := []    -- lines read from a storage head for the page read now (R294)
  gap : Bool := false                   -- a broadcast has ended; the gap source serves
  held : List (Nat × List Byte) := []   -- slot page ↦ its bytes: page 0 and the manifest until they match, and pages pushed in part (R292, R295)
  lines : List (Nat × Nat) := []        -- slot page ↦ lines pushed so far, one bit each (R295)
  was : Nat := 0                        -- the slot's state before the fetch
deriving DecidableEq, Repr

/-- A weight load in progress (R307). -/
structure WLoad where
  ring : Ring
  cookie : Nat
  job : Nat
  bytes : List Byte                     -- the entry
  pos : Nat := 0                        -- pages written
  lines : List (Nat × List Byte) := []  -- fabric lines read for the present page
deriving DecidableEq, Repr

/-- A swap accepted and not yet released (R302–R305). -/
structure Swap where
  ring : Ring
  cookie : Nat
  job : Nat
  layer : Nat
  slot : Nat
  bank : Option Nat := none             -- recipe bank to activate
  effective : Nat
  shadow : Bool := false
  pages : List (Nat × Nat × Nat) := []  -- virtual page ↦ its page of the weight region, DRAM page staged (0: not staged)
  executed : Option Nat := none         -- PASS_SEQ of the first pass on the new weights
deriving DecidableEq, Repr

/-- A page-table leaf (Table 07-3). -/
structure Leaf where
  write : Bool := false
  cls : Nat := 0
  mstate : Nat := 0
  copy : Bool := false
  affinity : Nat := 0
  page : Nat := 0                       -- module physical address bits [47:16]
  resv : Nat := 0                       -- reserved bits, always 0 as the module writes them
deriving DecidableEq, Repr

/-- A cap held by SMBus or Ethernet (R518). -/
structure CapSrc where
  watts : Nat := 0                      -- 0: none
  expiry : Option Nat := none           -- tick at which its lease ends
  failsafe : Bool := false              -- the value substituted when a lease expired
deriving DecidableEq, Repr

/-- A CAP_REPLY owed (R521): the port, the peer's address and UDP port, the message's SEQ and the tick it came. -/
structure Owed where
  port : Nat
  addr : List Byte
  sport : Nat
  seq : Nat
  at_ : Nat
deriving DecidableEq, Repr

/-- What power, clock and thermal control keeps beside its registers (R510–R533). A limit is held under reason · 16 + bay; sensors are numbered
0–15 die of bay, 16–23 near tier, 24–31 stack, 32–59 regulator of rail, 60–75 flash package, 76 coolant inlet (log 110). -/
structure Power where
  smbus : CapSrc := {}
  eth : CapSrc := {}
  nextLease : Nat := 0                  -- MFR_CAP_LEASE for the next MFR_CAP_SET
  sensors : List (Nat × Nat) := []      -- sensor ↦ °C
  limits : List (Nat × Nat) := []       -- reason · 16 + bay ↦ highest point it allows
  downAt : List (Nat × Nat) := []       -- bay ↦ tick of its last thermal step down
  upAt : List (Nat × Nat) := []         -- bay ↦ tick of its last rise
  brake : Bool := false                 -- PWR_BRAKE_N is asserted
  capBrake : Bool := false              -- the brake path holds a cap that the core has not acknowledged (R519)
  unacked : Option Nat := none          -- tick of a lowered SMBus or Ethernet cap not yet acknowledged
  hold : Option Nat := none             -- tick at which the hold began (R530)
  inputLow : Bool := false
  current : Bool := false               -- IIN is above its limit
  vinOut : Bool := false                -- VIN is below 41.0 V (R517)
  railsOut : List Nat := []             -- rails whose calibration record lies outside its window (R524)
  broken : Option (Nat × Nat) := none   -- plumb mode broken: start tick, reason
  energyUj : Nat := 0                   -- energy below one mJ, in µJ
  excFrom : Option Nat := none          -- tick at which the excursion in progress began
  after : Option (Nat × Nat × Nat) := none  -- after an excursion: its end, sum and number of the averages since
  replies : List Owed := []             -- CAP_REPLYs owed
deriving DecidableEq, Repr

/-- The condition of the whole module (R571–R585, R495, R530). -/
inductive Life where
  | boot      -- out of reset, READY not reached yet
  | up        -- booted
  | recovery  -- the ROM serves the CHIP, HOST and SETTINGS pages only
  | held      -- MOD_RESET_N is asserted
  | down      -- the rails have fallen, or no input
  | lost      -- powered, clocks stopped: the hold expired
deriving DecidableEq, Repr

/-- A slot of the boot flash (R490, R493): its entry of Table 16-4, the fields of its image's header and the image. -/
structure FwSlot where
  st : Nat := 0                         -- 0 EMPTY, 1 STAGING, 2 STAGED, 3 TRIAL, 4 CONFIRMED, 5 FAILED
  result : Nat := 0
  version : Nat := 0
  svn : Nat := 0
  fabMin : Nat := 0
  fabMax : Nat := 0
  ringMin : Nat := 0
  ringMax : Nat := 0
  manMin : Nat := 0
  manMax : Nat := 0
  flags : Nat := 0
  stateCt : Nat := 0
  image : List Byte := []
deriving DecidableEq, Repr

/-- Firmware's state (R493–R505). -/
structure Boot where
  running : Nat := 0
  confirmed : Nat := 0
  floor : Nat := 0
  slotA : FwSlot := { version := Config.romVersion.toNat, st := 4, result := 1, svn := 1, fabMin := 2, fabMax := 3, ringMin := 1, ringMax := 2, manMin := 1, manMax := 1 }
  slotB : FwSlot := {}
  activate : Option Nat := none         -- slot that FW_ACTIVATE named, while jobs exist
  jobStart : Option Nat := none         -- tick of the first JOB_START that the running image completed
  since : Nat := 0                      -- tick of t = 0, or of the activation's start
deriving DecidableEq, Repr

/-- A configuration transaction (R480–R482). -/
structure Txn where
  staged : List (Nat × Word × Word) := []  -- BAR0 offset ↦ staged value, committed value when it was staged
  openAt : Nat := 0
  persisting : Bool := false            -- the last one committed, and the mark of its settings is not written yet
  full : Bool := false                  -- a write beyond 16,384 was ignored
deriving DecidableEq, Repr

/-- The boundary-scan port (R584). -/
structure Tap where
  ir : Nat := 1                         -- 0 BYPASS, 1 IDCODE, 2 SAMPLE/PRELOAD, 3 EXTEST, 4 CLAMP, 5 HIGHZ
  cells : List (String × Bool) := []    -- outputs preloaded in the boundary register
  driven : List String := []            -- outputs that EXTEST or CLAMP drives now (R13)
deriving DecidableEq, Repr

/-- Faults: the module's own stops. An access that the spec's transport cannot carry. -/
inductive Fault where
  /-- A BAR0 access that is not 32-bit aligned, or lies outside BAR0 (R16, R461): raised by REGISTER_READ and
  REGISTER_WRITE. Safe: the spec gives such an access no effect. -/
  | badRegisterAccess (off : Nat)
  /-- A BAR2 access beyond the BAR's size: it reaches no address of the function; raised by BAR2_ACCESS. Safe. -/
  | badBar2Access (off : Nat)
deriving DecidableEq, Repr

/-- Refusals. -/
inductive Refusal where
  /-- The command has no meaning in the model yet: raised by `exec` alone. Safe. -/
  | notModelled (mnemonic : String)
deriving DecidableEq, Repr

/-- The whole module. -/
structure State where
  pending : List Instr := []
  now : DWord := 0                      -- the cadence counter, 0 at power-up (R312)
  cad : Cadence := {}
  freeCtr : Nat := 0                    -- MODEL: index of the next free value (log 4)
  variant : Variant := .vm96            -- MODEL: which part number this is (log 2)
  out : List Output := []               -- MODEL: what left the module, newest first
  -- registers
  regs : List (Nat × Word) := []        -- BAR0 words that differ from their Reset value
  hiLatch : List (Nat × Word) := []     -- armed _HI latches (R16)
  pcie : Pcie := {}
  admin : Admin := {}
  -- memories
  mem : List Host.Cell := []            -- module physical memory, bytes that are not 0
  bayMem : List Host.Cell := []         -- bay shared memory stored to in this pass
  hostMem : List Host.Cell := []        -- host memory as far as it is known
  poison : List Nat := []               -- poisoned lines (module physical address / 128)
  scrubbed : List Nat := []             -- lines that the scrub has poisoned and no boundary has repaired yet (R564)
  -- jobs
  jobs : List (Nat × Job) := []
  clients : List (Nat × Client) := []
  lastServed : List (Nat × Nat) := []   -- class ↦ client last served (R351)
  runs : List Run := []
  runUid : Nat := 0                     -- MODEL: number of the next run
  holder : Option Holder := none
  saved : List Saved := []              -- pre-empted units
  preempting : Option Holder := none    -- a pre-emption requested and not yet effective: the newcomer
  doves : List (Nat × Dove) := []       -- bay ↦ dovetail port
  chans : List (Nat × Chan) := []       -- host channel n, or 1,000 + bay · 16 + n
  lab : List (Nat × List Nat) := []     -- bay ↦ look-aside entries, most recently used first (R152)
  streams : List (Nat × Stream) := []
  stages : List Stage := []
  stageSeq : Nat := 0
  notes : List (Nat × Nat) := []        -- (bay, TAG) posted to the control cores by NOTIFY, oldest first (R60)
  ccHeld : List (Nat × Nat × List Byte) := []  -- descriptors a control core holds for lack of credits: core, job, descriptor (R42)
  unitHeld : List (UnitId × Nat × Nat × List Byte) := []  -- descriptors held for a full port or bay channel: unit, job, tick since which it stands, descriptor
  cores : List (Nat × CoreQ) := []      -- bay · 16 + logical core ↦ queue
  failedSlots : List Nat := []          -- bay · 17 + slot of failed slots: persistent by their firmware record (R39)
  absentSlots : List Nat := []          -- MODEL: bay · 17 + slot disabled at manufacture (R38)
  scratch : List (Nat × Nat) := []      -- bay · 17 + slot ↦ job whose data its scratchpad may hold; absent: zeroed (R47)
  clocks : List (Nat × Nat × Nat) := [] -- BAR0 offset of a count of clocks or held requests ↦ value, tick of that value
  clockBase : Nat := 0                  -- tick of the last reset, at which every such count was 0
  bayZero : List (Nat × Nat) := []      -- parts of bay memory, start and length, zeroed for the job and not used by a pass yet (R49)
  rrc : List (Nat × List Byte) := []    -- remote read cache lines, packed key ↦ line (R52)
  rrcInv : List (Nat × Nat) := []       -- bay ↦ job mask of the invalidation in progress (R53)
  -- memory tiers
  tables : List (Nat × Nat) := []       -- page table, by its level and the addresses it serves ↦ its place in units of 32 KiB (R221, log 30)
  leaves : List (Nat × Leaf) := []      -- job · 2^36 + virtual page ↦ leaf
  usedPages : List Nat := []            -- physical pages that hold a mapped page or a module structure
  counters : List (Nat × Nat) := []     -- job · 2^36 + virtual page ↦ access counter (R231)
  ages : List (Nat × Nat) := []         -- decay intervals at or below DEMOTE_DEEP
  copies : List (Nat × Nat) := []       -- main-tier page of a COPY = 1 leaf (R230)
  moves : List Move := []
  parked : List Parked := []
  homes : List (Nat × Nat) := []        -- DRAM page of a resident weight page ↦ its page of the weight region (R296)
  maps : List MapWait := []
  trainQueue : List (Nat × Bool) := []  -- tiers waiting for a retraining (R242); true: withdraw after evacuation
  goneTiers : List Nat := []            -- tiers withdrawn until power-up (R242)
  calStored : List (Nat × Word) := []   -- tier ↦ its stored calibration record, as CAL shows it (R240)
  -- deep tier
  sets : List (Nat × ParkSet) := []     -- PARK_KEY ↦ committed set
  unitKeys : List (Nat × Nat) := []     -- park unit in use ↦ the key it was written under (R257), plus 2^64 in the second unit of a pair
  writeSeq : Nat := 0                   -- WRITE_SEQ of the next park unit (Table 08-3)
  blocks : List (Nat × Block) := []
  flashTemp : List (Nat × Nat) := []    -- flash package ↦ temperature, °C
  sparesLow : Bool := false             -- spare blocks of the park region below 0.5 %: it is read-only from then on (R261)
  genSlots : List (Nat × GenSlot) := []
  fetch : Option Fetch := none
  loads : List WLoad := []
  swaps : List Swap := []
  loaded : List (Nat × List Byte × Nat × Nat) := []  -- job · 2^36 + virtual page written by a weight load ↦ its digest, ROLE and index (R299, R307)
  reload : List Nat := []               -- resident copies to be reloaded in the drain phase (R301)
  commits : Nat := 0                    -- passes committed on the module
  cleanAt : List (Nat × Nat) := []      -- page ↦ passes committed at its last clean check (R301)
  lostPages : List Nat := []            -- pages of the weight region marked lost (R300)
  checkpoint : Checkpoint := {}
  settings : Settings := {}
  -- fabric
  txSeq : List (Nat × Nat) := []        -- destination ↦ next SEQ (R373)
  reqs : List Req := []
  fences : List Fence := []
  txHeld : List Packet := []            -- packets whose destination has no usable port (R421)
  ports : List (Nat × Port) := []       -- Lydijan port ↦ its link state; absent: down, nothing held
  dedup : List (Nat × DedupRec) := []   -- source endpoint ↦ record
  accums : List Accum := []
  draining : List (Nat × Packet) := []  -- requests admitted by a window and not yet answered, with their job (R378)
  heard : List (Nat × Nat) := []        -- endpoint ↦ tick of the last packet from it (R552, R556)
  quietUntil : Nat := 0                 -- no request leaves before this tick (R419)
  lineGrant : Nat := 0                  -- WINDOW_CREDITS.LINE while a job exists (R425)
  -- Ethernet
  neigh : List (Nat × List Byte × List Byte) := []  -- neighbour caches: port, address, MAC address; newest first (R324)
  echoes : List (Nat × Nat × Nat) := []             -- port ↦ start of the present second, echoes answered in it (R324)
  -- power, firmware, transactions, sideband
  life : Life := .boot
  power : Power := {}
  boot : Boot := {}
  txn : Txn := {}
  tap : Tap := {}
  alert : Bool := false                 -- MOD_ALERT_N is asserted
  input : Bool := true                  -- 48 V is applied
  resetN : Bool := false                -- MOD_RESET_N is asserted
  tripped : Bool := false               -- THERM_TRIP_N is held until the input is removed (R582)
  slotId : Nat := 0x3F                  -- SLOT_ID as sampled (R577)
  -- error log
  errSeq : Nat := 0                     -- SEQ of the next record (R537)
  openRecs : List OpenRec := []
  fatalSlots : List Nat := []           -- slots with an unreleased fatal record
  faultCt : Option Nat := none          -- FAULT_CT of the containment in progress (R544)
  scratchErrs : List (Nat × Nat) := []  -- bay · 17 + slot ↦ tick of its last uncorrectable scratchpad error (Table 18-10)
deriving DecidableEq, Repr

/-- The machine right after reset: every field at its default, the Reset column of the register tables (R17). -/
def State.reset : State := {}

end Sys2Proof.Machine
end

