-- ==== Sys2Proof/Machine/Flags.lean ====
section
/-!
DEFINITION. Register words, interrupt bits, vectors, the first-error capture and the error log: everything a block does to report
an event (R15–R17, R464–R466, R535–R541).
-/

namespace Sys2Proof.Machine

/-- The variant is BSL-VM96-H. -/
def State.isH (s : State) : Bool := s.variant == .vm96h

/-- The stored word at a BAR0 offset: what was last stored, or the Reset column. -/
def State.reg (s : State) (o : Nat) : Word := (mget s.regs o).getD (resetWord s.isH o)

/-- Store a word at a BAR0 offset, keeping the register file canonical. -/
def State.setReg (s : State) (o : Nat) (v : Word) : State :=
  { s with regs := if v == resetWord s.isH o then mdel s.regs o else mset s.regs o v }

def State.preg (s : State) (p : Page) (r : Nat) : Word := s.reg (p.base + r)
def State.setPreg (s : State) (p : Page) (r : Nat) (v : Word) : State := s.setReg (p.base + r) v

/-- One field of a page register replaced. -/
def State.putPreg (s : State) (p : Page) (r hi lo v : Nat) : State :=
  s.setPreg p r (wput (s.preg p r) hi lo v)

/-- A 64-bit value stored in a _LO/_HI pair. -/
def State.preg64 (s : State) (p : Page) (lo hi : Nat) : Nat :=
  (s.preg p lo).toNat + (s.preg p hi).toNat * 2 ^ 32

def State.setPreg64 (s : State) (p : Page) (lo hi v : Nat) : State :=
  (s.setPreg p lo (lo32 v)).setPreg p hi (hi32 v)

/-- A 64-bit wrapping count in a _LO/_HI pair. -/
def State.count64 (s : State) (p : Page) (lo hi n : Nat) : State :=
  s.setPreg64 p lo hi ((s.preg64 p lo hi + n) % 2 ^ 64)

/-- A 32-bit count that saturates at 0xFFFF_FFFF. -/
def State.count (s : State) (p : Page) (r n : Nat) : State :=
  s.setPreg p r (satInc (s.preg p r) n)

/-- A 32-bit count that wraps. -/
def State.countWrap (s : State) (p : Page) (r n : Nat) : State :=
  s.setPreg p r (s.preg p r + BitVec.ofNat 32 n)

/-- Put an output at the front of what left the module. -/
def State.emit (s : State) (o : Output) : State := { s with out := o :: s.out }

/-- The next free value index, and the state that has used it. -/
def State.useFree (s : State) : State := { s with freeCtr := s.freeCtr + 1 }

def State.nowN (s : State) : Nat := s.now.toNat

/-! ### Vectors -/

/-- Raise MSI-X vector `v`: the message leaves when the vector is unmasked and the link is up; otherwise its
pending bit is held in the PBA (R460, R466). -/
def State.raise (s : State) (v : Nat) : State :=
  if v ≥ 2048 then s
  else if s.pcie.linkUp && !wbit (s.reg (0x20000 + v * 16 + 12)) 0 then s.emit (.msix v)
  else
    let o := 0x10800 + v / 32 * 4
    s.setReg o (wset (s.reg o) (v % 32))

/-- The vector that bit `i` of a page's BLK_IRQ_RAW raises: PWR 144 + i (R534), cadence alarm n on 160 + n (R322),
otherwise BLK_IRQ_VEC (R466). -/
def State.vectorOf (s : State) (p : Page) (i : Nat) : Nat :=
  match p with
  | .pwr => 144 + i
  | .cadence => if i < 15 then 160 + i else wfield (s.preg p 0x01C) 10 0
  | _ => wfield (s.preg p 0x01C) 10 0

/-- Raise the page's vector once for each bit of `new` that is not in `old`, lowest bit first. -/
def State.raiseBits (s : State) (p : Page) (old new : Word) : Nat → State
  | 0 => s
  | k + 1 =>
    let s := s.raiseBits p old new k
    if wbit new k && !wbit old k then s.raise (s.vectorOf p k) else s

/-- Store RAW and EN words and raise for every bit of RAW & EN that changes from 0 to 1 (R466). -/
def State.setIrq (s : State) (p : Page) (raw en : Word) : State :=
  let old := s.preg p 0x010 &&& s.preg p 0x014
  let s := (s.setPreg p 0x010 raw).setPreg p 0x014 en
  s.raiseBits p old (raw &&& en) 32

/-- Set one BLK_IRQ_RAW bit. -/
def State.irq (s : State) (p : Page) (i : Nat) : State :=
  s.setIrq p (wset (s.preg p 0x010) i) (s.preg p 0x014)

/-- Set CHIP_STAT.UNMAPPED and CHIP_BLK_IRQ_RAW.UNMAPPED (R17, R484). -/
def State.unmapped (s : State) : State :=
  (s.setPreg .chip 0x104 (wset (s.preg .chip 0x104) 1)).irq .chip 1

/-- Sideband outputs are tri-stated: unpowered, in reset, or the power-management core is resetting (R343, R574). -/
def State.tristated (s : State) : Bool := s.life == .held || s.life == .down || s.life == .lost || s.power.hold.isSome

/-- Assert MOD_ALERT_N; a cause that arises while it is asserted adds nothing (R576). -/
def State.alertN (s : State) : State :=
  if s.alert then s
  else
    let s := { s with alert := true }
    if s.tristated then s else s.emit (.pin "MOD_ALERT_N" (some false))

/-! ### First-error capture (R465) -/

/-- Report an error on a page: count it, and capture it if its class is unmasked and the page is armed. `code` holds the
class in [15:12] and the code in [11:0] (R535). -/
def State.pageError (s : State) (p : Page) (code : Nat) : State :=
  let k := code / 4096 % 16
  let c := s.preg p 0x028
  let s := s.setPreg p 0x028
    (BitVec.ofNat 32 ((Nat.lor (wfield c 31 16) (2 ^ k)) * 2 ^ 16 + min 0xFFFF (wfield c 15 0 + 1)))
  if wbit (s.preg p 0x02C) k then s
  else if wbit (s.preg p 0x00C) 2 then s
  else
    let t := s.nowN
    let s := s.setPreg p 0x020 (BitVec.ofNat 32 (code % 2 ^ 16 * 2 ^ 16 + t % 2 ^ 16))
    let s := s.setPreg p 0x024 (BitVec.ofNat 32 (t / 2 ^ 16))
    let s := s.setPreg p 0x00C (wset (s.preg p 0x00C) 2)
    s.irq p p.errorBit

/-- A write of 1 to BLK_IRQ_RAW.ERROR: both ERROR bits clear and the page is armed again (R465). -/
def State.rearm (s : State) (p : Page) : State :=
  (s.setPreg p 0x00C (wclear (s.preg p 0x00C) 2)).setPreg p 0x010 (wclear (s.preg p 0x010) p.errorBit)

/-! ### The error log (R537–R541) -/

/-- Base of the error-log ring (R539). -/
def logBase : Nat := 0x001010000000

/-- One byte of module physical memory; what nothing has written reads 0 (R226). -/
def State.byte (s : State) (a : Nat) : Byte := (mget s.mem a).getD 0

/-- Store one byte, keeping the canonical form: a zero byte is not listed. -/
def putByte (m : List Host.Cell) (a : Nat) (b : Byte) : List Host.Cell :=
  if b == 0 then mdel m a else mset m a b

def putBytesAt (m : List Host.Cell) (a : Nat) : List Byte → List Host.Cell
  | [] => m
  | b :: bs => putBytesAt (putByte m a b) (a + 1) bs

def State.readPa (s : State) (a n : Nat) : List Byte := (List.range n).map (fun i => s.byte (a + i))

/-- Store bytes at a module physical address, poison apart. -/
def State.rawWrite (s : State) (a : Nat) (bs : List Byte) : State := { s with mem := putBytesAt s.mem a bs }

/-- What the writer of an error record gives (Table 18-3). -/
structure ErrRec where
  code : Nat
  sev : Nat
  source : Nat := 0
  key : Nat := 0
  detail : List Byte := []
  job : Option Nat := none
  pass : Option Nat := none
  halt : Bool := false

/-- SOURCE of a page: type code, instance and unit (Table 18-3). -/
def Page.source (p : Page) (unit : Nat := 0) : Nat := p.typeCode * 2 ^ 20 + p.inst * 2 ^ 12 + unit

/-- The slice of a job: byte 92 of its creation block (R375). -/
def Job.slice (j : Job) : Nat := getLE j.block 92 1 % 64

def State.sliceOf (s : State) (j : Nat) : Nat :=
  match mget s.jobs j with
  | some x => x.slice
  | none => 0

/-- The 64 bytes of a new record. -/
def State.recBytes (s : State) (r : ErrRec) : List Byte :=
  let flags := b2n r.job.isSome + 2 * b2n r.pass.isSome + 8 * b2n r.halt
  let job := r.job.getD 0
  leBytes 2 r.code ++ leBytes 1 (r.sev % 8) ++ leBytes 1 flags ++ leBytes 4 s.errSeq ++ leBytes 8 s.nowN ++
    leBytes 4 0 ++ leBytes 4 1 ++ leBytes 4 r.source ++ leBytes 1 (job % 8) ++
    leBytes 1 (if r.job.isSome then s.sliceOf job else 0) ++ leBytes 2 0 ++ leBytes 8 r.key ++
    leBytes 8 (r.pass.getD 0) ++ slice r.detail 0 16

/-- A loss is counted for class `k` (R540). -/
def State.logOverflow (s : State) (k : Nat) : State :=
  (s.count .errlog (0x180 + 4 * (k % 16)) 1).irq .errlog 1

/-- SEQ `q` lies after CONS under 32-bit serial-number arithmetic (R540). -/
def serialAfter (q cons : Nat) : Bool :=
  let d := (q + 2 ^ 32 - cons) % 2 ^ 32
  decide (0 < d) && decide (d < 2 ^ 31)

/-- Write a new record at the write pointer (R540), set its class bit and raise its vector (R541). -/
def State.newRecord (s : State) (r : ErrRec) : State :=
  let k := r.code / 4096 % 16
  match searchFrom 65536 (fun i => !s.fatalSlots.contains i) (wfield (s.preg .errlog 0x104) 15 0) 65536 with
  | none =>
    let s := s.setPreg .errlog 0x100 (wset (s.preg .errlog 0x100) 19)
    (s.logOverflow k).irq .errlog 2
  | some slot =>
    let a := logBase + slot * 64
    let old := s.readPa a 8
    let oc := getLE old 0 2
    let s := if oc != 0 && serialAfter (getLE old 4 4) (s.preg .errlog 0x10C).toNat
      then s.logOverflow (oc / 4096 % 16) else s
    let s := s.rawWrite a (s.recBytes r)
    let opens := s.openRecs.filter (fun o => o.slot != slot && decide (s.nowN < o.firstCt + 24576))
    let s := { s with
      openRecs := ⟨r.code, r.source, r.key, s.nowN, slot⟩ :: opens
      fatalSlots := if r.sev ≥ 3 then sinsert s.fatalSlots slot else s.fatalSlots }
    let s := s.putPreg .errlog 0x100 16 0 s.fatalSlots.length
    let s := s.setPreg .errlog 0x104 (BitVec.ofNat 32 ((slot + 1) % 65536))
    let s := s.setPreg .errlog 0x108 (BitVec.ofNat 32 s.errSeq)
    let s := { s with errSeq := (s.errSeq + 1) % 2 ^ 32 }
    let s := s.setPreg .errlog 0x114 (wset (s.preg .errlog 0x114) k)
    let s := if r.sev ≥ 3 then s.alertN else s
    if wbit (s.preg .errlog 0x118) k then s.raise (128 + k) else s

/-- Add a repeat to an open record: LAST_DELTA, REPEAT and FLAGS.COALESCED (R538). -/
def State.repeatRecord (s : State) (o : OpenRec) : State :=
  let a := logBase + o.slot * 64
  let n := getLE (s.readPa (a + 20) 4) 0 4
  let s := s.rawWrite (a + 16) (leBytes 4 (min 0xFFFFFFFF (s.nowN - o.firstCt)) ++ leBytes 4 (min 0xFFFFFFFF (n + 1)))
  let f := getLE (s.readPa (a + 3) 1) 0 1
  s.rawWrite (a + 3) (leBytes 1 (Nat.lor f 4))

/-- Write a record to the error log: a repeat within 24,576 ct of an open record with the same CODE, SOURCE and KEY
coalesces (R537, R538). -/
def State.record (s : State) (r : ErrRec) : State :=
  match s.openRecs.find? (fun o => o.code == r.code && o.source == r.source && o.key == r.key &&
      decide (s.nowN < o.firstCt + 24576)) with
  | some o => s.repeatRecord o
  | none => s.newRecord r

/-- An error of a page with its record. -/
def State.report (s : State) (p : Page) (r : ErrRec) : State :=
  (s.pageError p r.code).record { r with source := if r.source = 0 then p.source else r.source }

/-- A refused register value: configuration class, code 0x001, severity notice; KEY the BAR0 offset, DETAIL the value
(Tables 18-2 and 18-4). `p` is the page whose BLK_STAT.ERROR sets. -/
def State.refuseReg (s : State) (p : Page) (off : Nat) (v : Word) : State :=
  s.report p { code := 0xA001, sev := 1, key := off, detail := leBytes 4 v.toNat }

end Sys2Proof.Machine
end

