-- ==== Sys2Proof/Machine/Ops.lean ====
section
/-!
DEFINITION. The named operations over memory, translation, pegs and jobs that every family uses (R218–R236, R385, R396–R399, R562).
-/

namespace Sys2Proof.Machine

open Sys2Proof

/-! ### The module physical map (Table 07-1) -/

/-- What a module physical address lies in. -/
inductive Place where
  | near (die : Nat)
  | main (stack : Nat)
  | deep
  | bay (b : Nat)
  | scratch (b s : Nat)
  | hole
deriving DecidableEq, Repr

def deepBase : Nat := 0x100000000000
/-- Bytes of the deep-tier window that are populated (Table 07-1). -/
def deepSize (h : Bool) : Nat := if h then 0x018000000000 else 0x028000000000

def place (h : Bool) (a : Nat) : Place :=
  if a < 0x000600000000 then .near 0
  else if a < 0x000C00000000 then .near 1
  else if 0x001000000000 ≤ a ∧ a < 0x007000000000 then .main ((a - 0x001000000000) / 0x000C00000000)
  else if deepBase ≤ a ∧ a < deepBase + deepSize h then .deep
  else if 0x7E0000000000 ≤ a ∧ a < 0x7E0010000000 then .bay ((a - 0x7E0000000000) / 0x01000000)
  else if 0x7F0000000000 ≤ a ∧ a < 0x7F0000000000 + 272 * 0x00400000 ∧ (a - 0x7F0000000000) % 0x00400000 < 0x00300000 then
    .scratch ((a - 0x7F0000000000) / 0x00400000 / 17) ((a - 0x7F0000000000) / 0x00400000 % 17)
  else .hole

/-- The tier of a mapped page: 0 near, 1 main, 2 deep (R221). -/
def tierOf (h : Bool) (a : Nat) : Option Nat :=
  match place h a with
  | .near _ => some 0
  | .main _ => some 1
  | .deep => some 2
  | _ => none

/-- The page of a near or main controller that an address belongs to. -/
def memPage (h : Bool) (a : Nat) : Option Page :=
  match place h a with
  | .near d => some (.near d)
  | .main s => some (.main s)
  | _ => none

/-! ### Lines, poison and stores (R562) -/

def State.poisoned (s : State) (line : Nat) : Bool := s.poison.contains line

/-- The first poisoned line that [a, a + n) touches. -/
def State.poisonIn (s : State) (a n : Nat) : Option Nat :=
  if n = 0 then none
  else s.poison.find? (fun l => decide (a / 128 ≤ l) && decide (l ≤ (a + n - 1) / 128))

/-- Mark a line poisoned. -/
def State.setPoison (s : State) (line : Nat) : State := { s with poison := sinsert s.poison line }

/-- Store bytes at a physical address: a line written whole loses its poison, a partly written line keeps it (R562).
BYTES of the controller counts the bytes served. -/
def State.writePa (s : State) (a : Nat) (bs : List Byte) : State :=
  let n := bs.length
  let s := s.rawWrite a bs
  { s with poison := s.poison.filter (fun l => !(decide (a ≤ l * 128) && decide (l * 128 + 128 ≤ a + n))) }

/-! ### Jobs -/

def Job.u (j : Job) (o n : Nat) : Nat := getLE j.block o n
def Job.genSlot (j : Job) : Nat := j.u 89 1
def Job.passClass (j : Job) : Nat := j.u 93 1
def Job.passCt (j : Job) : Nat := j.u 96 4
def Job.formCt (j : Job) : Nat := j.u 100 4
def Job.horizonCt (j : Job) : Nat := j.u 104 4
def Job.passMax (j : Job) : Nat := j.u 108 2
def Job.members (j : Job) : Nat := j.u 110 2
def Job.barrierWindow (j : Job) : Nat := j.u 114 2
def Job.barrierPeg (j : Job) : Nat := j.u 116 2
def Job.formWindow (j : Job) : Nat := j.u 118 2
def Job.formPeg (j : Job) : Nat := j.u 120 2
def Job.formPeers (j : Job) : Nat := j.u 122 1
def Job.peer (j : Job) (i : Nat) : Nat := j.u (128 + 2 * i) 2
def Job.member (j : Job) (i : Nat) : Nat := j.u (1024 + 2 * i) 2
def Job.misroute (j : Job) : Nat := j.u 80 8 % 2 ^ 56
def Job.misrouteLog (j : Job) : Nat := j.u 88 1
def Job.bankVa (j : Job) (b : Nat) : Nat := j.u (64 + 8 * b) 8
/-- A job created with no private part is a standby until promoted (R559). -/
def Job.standby (j : Job) : Bool := j.priv.isNone && !j.promoted

def State.job (s : State) (j : Nat) : Option Job := mget s.jobs j
def State.setJob (s : State) (j : Nat) (x : Job) : State := { s with jobs := mset s.jobs j x }
def State.modJob (s : State) (j : Nat) (f : Job → Job) : State := { s with jobs := mmod s.jobs j f }

/-- This module's endpoint, when assigned (Table 13-21). -/
def State.endpoint (s : State) : Nat := wfield (s.preg .route 0x104) 9 0

/-- A job exists on the module. -/
def State.anyJob (s : State) : Bool := !s.jobs.isEmpty

/-- The receiving job of a slice (R375). -/
def State.jobOfSlice (s : State) (sl : Nat) : Option (Nat × Job) :=
  s.jobs.find? (fun e => e.2.slice == sl)

/-- Every job in ascending number. -/
def State.jobNums (s : State) : List Nat := s.jobs.map (·.1)

/-! ### Translation (R221, R234) -/

/-- The outcome of an access that may have to wait or fault. -/
inductive Acc (α : Type) where
  | ok (a : α)
  | deep (job vpage : Nat)          -- resolvable: the page lies in the deep tier
  | bad (code job va : Nat)         -- unresolvable, code of Table 07-6
  | poison (pa va : Nat)            -- a poisoned line (R562)
  | remote (dst win off n : Nat)    -- `n` remote lines from an offset, not yet here (R390)
deriving DecidableEq, Repr

def Acc.bind {α β : Type} (x : Acc α) (f : α → Acc β) : Acc β :=
  match x with
  | .ok a => f a
  | .deep j v => .deep j v
  | .bad c j v => .bad c j v
  | .poison p v => .poison p v
  | .remote d w o n => .remote d w o n

def vkey (job vpage : Nat) : Nat := job * 2 ^ 36 + vpage
/-- The tables of a job: its level-1 table, and the level-2 and level-3 tables that serve a virtual page (R221). -/
def level1Key (job : Nat) : Nat := job
def level2Key (job vpage : Nat) : Nat := 2 ^ 40 + job * 2 ^ 12 + vpage / 2 ^ 24
def level3Key (job vpage : Nat) : Nat := 2 ^ 41 + job * 2 ^ 24 + vpage / 4096
/-- The job a table belongs to. -/
def tableJob (k : Nat) : Nat := if 2 ^ 41 ≤ k then (k - 2 ^ 41) / 2 ^ 24 else if 2 ^ 40 ≤ k then (k - 2 ^ 40) / 2 ^ 12 else k

/-- Translate one job virtual address (R234; the lowest code applies). -/
def State.translate (s : State) (job va : Nat) (write : Bool) : Acc Nat :=
  if va ≥ 2 ^ 52 || (s.job job).isNone then .bad 1 job va
  else
    let vp := va / 65536
    if (mget s.tables (level3Key job vp)).isNone then .bad 1 job va
    else match mget s.leaves (vkey job vp) with
      | none => .bad 2 job va
      | some l =>
        if write && !l.write then .bad 3 job va
        else
          let pa := l.page * 65536
          match tierOf s.isH pa with
          | none => .bad 4 job va
          | some t =>
            if l.resv != 0 || l.mstate == 3 || l.affinity == 3 then .bad 4 job va
            else if t == 2 then .deep job vp
            else .ok (pa + va % 65536)

/-- Split [va, va + n) at page boundaries: (va, length) pieces. -/
def pieces (unit : Nat) : Nat → Nat → Nat → List (Nat × Nat)
  | 0, _, _ => []
  | fuel + 1, va, n =>
    if n = 0 then []
    else
      let k := min n (unit - va % unit)
      (va, k) :: pieces unit fuel (va + k) (n - k)

def pagePieces (va n : Nat) : List (Nat × Nat) := pieces 65536 (n / 65536 + 2) va n

/-- Translate a list of pieces in order. -/
def State.transPieces (s : State) (job : Nat) (write : Bool) : List (Nat × Nat) → Acc (List (Nat × Nat))
  | [] => .ok []
  | (va, k) :: rest =>
    (s.translate job va write).bind fun pa =>
      (s.transPieces job write rest).bind fun r => .ok ((pa, k) :: r)

def State.transRange (s : State) (job va n : Nat) (write : Bool) : Acc (List (Nat × Nat)) :=
  s.transPieces job write (pagePieces va n)

/-- Where a piece of a page is read: at its place or, where its near-tier lines are poisoned, in the main-tier copy that a page with COPY = 1 keeps
(Table 07-10). -/
def State.readFrom (s : State) (pa k : Nat) : Nat :=
  match mget s.copies (pa / 65536) with
  | some m => if (s.poisonIn pa k).isSome && (s.poisonIn (m * 65536 + pa % 65536) k).isNone then m * 65536 + pa % 65536 else pa
  | none => pa

/-- Read bytes at a job virtual address; a poisoned line ends the read (R562). -/
def State.readPieces (s : State) (va : Nat) : List (Nat × Nat) → Acc (List Byte)
  | [] => .ok []
  | (pa, k) :: rest =>
    let pa := s.readFrom pa k
    match s.poisonIn pa k with
    | some l => .poison (l * 128) va
    | none => (s.readPieces (va + k) rest).bind fun r => .ok (s.readPa pa k ++ r)

def State.readVa (s : State) (job va n : Nat) : Acc (List Byte) :=
  (s.transRange job va n false).bind fun ps => s.readPieces va ps

/-- Store bytes over translated pieces. -/
def State.writePieces (s : State) : List (Nat × Nat) → List Byte → State
  | [], _ => s
  | (pa, k) :: rest, bs => (s.writePa pa (bs.take k)).writePieces rest (bs.drop k)

def State.writeVa (s : State) (job va : Nat) (bs : List Byte) : Acc State :=
  (s.transRange job va bs.length true).bind fun ps => .ok (s.writePieces ps bs)

/-- BYTES of the near or main controller that serves an address (Table 07-12). -/
def State.served (s : State) (pa n : Nat) : State :=
  match memPage s.isH pa with
  | some p => s.count64 p 0x118 0x11C n
  | none => s

/-! ### Pages, leaves and the queue of moves (R221, R229–R232) -/

/-- The die a physical address lies on: its near tier or its stack; the deep tier counts with die 0 (log 50). -/
def dieOf (h : Bool) (pa : Nat) : Nat :=
  match place h pa with
  | .near d => d
  | .main st => st / 4
  | _ => 0

/-- MIGRATE_STAT from the moves (Table 07-24). -/
def State.showMigrate (s : State) : State :=
  let d := (s.moves.filter (fun m => m.kind == .demand)).length
  let fl := fun die => (s.moves.filter (fun m => m.started && dieOf s.isH (m.page * 65536) == die)).length
  s.setPreg .migrate 0x108 (BitVec.ofNat 32 (min 1023 d * 2 ^ 16 + min 64 (fl 1) * 2 ^ 7 + min 64 (fl 0)))

def State.dropPage (s : State) (page : Nat) : State := { s with usedPages := s.usedPages.filter (· != page) }

def State.leafOf (s : State) (job vp : Nat) : Option Leaf := mget s.leaves (vkey job vp)
def State.setLeaf (s : State) (job vp : Nat) (l : Leaf) : State := { s with leaves := mset s.leaves (vkey job vp) l }

/-- Rewrite every leaf that names a page. -/
def State.eachLeaf (s : State) (page : Nat) (f : Leaf → Leaf) : State :=
  { s with leaves := s.leaves.map (fun e => if e.2.page == page then (e.1, f e.2) else e) }

/-- The moves of a page. -/
def Move.isOf (m : Move) (job vp : Nat) : Bool := m.job == job && m.vpage == vp

/-- A move of a physical page, through whichever leaf it was asked for (R296). -/
def State.movesPage (s : State) (page : Nat) (m : Move) : Bool :=
  match s.leafOf m.job m.vpage with
  | some l => l.page == page
  | none => false

/-- Where a leaf's CLASS lets it lie (Table 07-3). -/
def classAllows (cls tier : Nat) : Bool :=
  match cls with
  | 0 => true
  | 1 => decide (tier < 2)
  | 2 => tier == 0
  | _ => tier == 1

/-- Queue a move of a mapped page unless one stands or the page is there. -/
def State.queueMove (s : State) (job vp : Nat) (kind : MoveKind) (dest deadline : Nat) : State :=
  match s.leafOf job vp with
  | none => s
  | some l =>
    if s.moves.any (s.movesPage l.page) ||
        (tierOf s.isH (l.page * 65536) == some dest && kind != .evacuate && kind != .counter && kind != .mapPromote) || !classAllows l.cls dest then s
    else
      let m : Move := { job := job, vpage := vp, kind := kind, dest := dest, deadline := deadline, age := s.nowN }
      ({ s with moves := s.moves ++ [m] }).showMigrate

/-- Abandon a move: its destination is free, and the page stays stable at its source (Tables 07-8 and 07-10). -/
def State.abandonMove (s : State) (m : Move) : State :=
  let s := { s with moves := s.moves.filter (fun x => !x.isOf m.job m.vpage) }
  let s := if m.started then s.dropPage m.page else s
  (match s.leafOf m.job m.vpage with
   | some l => s.eachLeaf l.page (fun l => { l with mstate := 0 })
   | none => s).showMigrate

def State.accessCount (s : State) (k : Nat) : Nat := (mget s.counters k).getD 0 / 4096
def State.policy (s : State) (hi lo : Nat) : Nat := wfield (s.preg .migrate 0x100) hi lo

/-- A page of the main tier whose counter has reached PROMOTE_NEAR is a candidate for promotion (R231). -/
def State.nearCandidate (s : State) (k : Nat) (l : Leaf) : Bool :=
  tierOf s.isH (l.page * 65536) == some 1 && wbit (s.preg .migrate 0x100) 0 && decide (s.policy 31 24 ≤ s.accessCount k) && classAllows l.cls 0

/-- An access to a page of a job: BYTES of its controller and the page's counter grow by the bytes served, a page whose counter reaches PROMOTE_NEAR is
to be promoted (R231), and a demotion of the page to the deep tier that is copying is aborted (R229, Table 07-5). -/
def State.touchPage (s : State) (job vp n : Nat) : State :=
  match s.leafOf job vp with
  | none => s
  | some l =>
    let s := s.served (l.page * 65536) n
    let k := vkey job vp
    let s := { s with counters := mset s.counters k (min (255 * 4096 + 4095) ((mget s.counters k).getD 0 + n)) }
    let s := match s.moves.find? (fun m => m.started && m.dest == 2 && s.movesPage l.page m) with
      | some m => (s.abandonMove m).count .migrate 0x120 1
      | none => s
    if s.nearCandidate k l then s.queueMove job vp .counter 0 0 else s

def State.touch (s : State) (job va n : Nat) : State :=
  (pagePieces va n).foldl (fun s p => s.touchPage job (p.1 / 65536) p.2) s

/-! ### Bay shared memory (R49–R51, R59) -/

def bayPa (b : Nat) : Nat := 0x7E0000000000 + b * 0x01000000

/-- A job's partition in a bay: base and size in bytes (Table 02-23). -/
def State.partition (s : State) (b job : Nat) : Nat × Nat :=
  let w := s.preg (.bay b) (0x130 + 4 * job)
  (wfield w 7 0 * 65536, wfield w 24 16 * 65536)

/-- A byte of bay memory that nothing has stored to: 0 where the partition has been zeroed for its job, undefined contents after that (R49, R50). -/
def State.bayRest (s : State) (a : Nat) : Byte :=
  if s.bayZero.any (fun z => decide (z.1 ≤ a) && decide (a < z.1 + z.2)) then 0 else Config.bayByte s.freeCtr a

/-- A byte of bay memory: what this pass stored, or what stands there otherwise. -/
def State.bayByte (s : State) (a : Nat) : Byte := (mget s.bayMem a).getD (s.bayRest a)

def State.readBay (s : State) (b off n : Nat) : Acc (List Byte) :=
  let a := b * 0x01000000 + off
  match s.poisonIn (bayPa b + off) n with
  | some l => .poison (l * 128) 0
  | none => .ok ((List.range n).map (fun i => s.bayByte (a + i)))

/-- Store a run of bytes in a sparse map, listing every byte. -/
def listBytes (m : List Host.Cell) (a : Nat) : List Byte → List Host.Cell
  | [] => m
  | b :: bs => listBytes (mset m a b) (a + 1) bs

def State.writeBay (s : State) (b off : Nat) (bs : List Byte) : State :=
  let a := b * 0x01000000 + off
  let pa := bayPa b + off
  { s with
    bayMem := listBytes s.bayMem a bs
    poison := s.poison.filter (fun l => !(decide (pa ≤ l * 128) && decide (l * 128 + 128 ≤ pa + bs.length))) }

/-! ### Host memory -/

/-- Bytes of host memory: what is known of it, or any value (log 5). -/
def State.readHost (s : State) (a n : Nat) : List Byte :=
  (List.range n).map (fun i => (mget s.hostMem (a + i)).getD (Config.hostByte s.freeCtr (a + i)))

def State.writeHost (s : State) (a : Nat) (bs : List Byte) : State :=
  { s with hostMem := listBytes s.hostMem a bs }.emit (.hostWrite a bs)

/-! ### Pegs (R385, R396–R399) -/

def pegOff (p w : Nat) : Nat := 0xC00000 + p * 16 + w * 4
def State.pegValue (s : State) (p : Nat) : Nat := (s.reg (pegOff p 0)).toNat
def State.pegCtrl (s : State) (p : Nat) : Word := s.reg (pegOff p 1)
/-- The peg is assigned to the job (Table 12-7). -/
def State.pegOwned (s : State) (p job : Nat) : Bool :=
  decide (p < 32768) && wbit (s.pegCtrl p) 3 && wfield (s.pegCtrl p) 2 0 == job

/-- VALUE − target as a 32-bit two's-complement difference is zero or positive (R57). -/
def reached (value target : Nat) : Bool := decide ((value + 2 ^ 32 - target % 2 ^ 32) % 2 ^ 32 < 2 ^ 31)

/-- Raise the peg's vector once its value has reached IRQ_TARGET, and clear IRQ_EN (R399). -/
def State.pegIrq (s : State) (p : Nat) : State :=
  let c := s.pegCtrl p
  if wbit c 8 && reached (s.pegValue p) (s.reg (pegOff p 2)).toNat then
    (s.setReg (pegOff p 1) (wclear c 8)).raise (wfield (s.reg (pegOff p 3)) 10 0)
  else s

def State.setPeg (s : State) (p v : Nat) : State := (s.setReg (pegOff p 0) (BitVec.ofNat 32 v)).pegIrq p

/-- Add to a peg, modulo 2^32 (R385, R397). -/
def State.pegAdd (s : State) (p n : Nat) : State := s.setPeg p ((s.pegValue p + n) % 2 ^ 32)

/-- A local increment (R58, R397). -/
def State.pegLocal (s : State) (p n : Nat) : State := (s.pegAdd p n).count64 .peg 0x108 0x10C 1

/-! ### Recording the faults of an access (R234, R562) -/

/-- Record an unresolvable translation fault in MIGRATE_LAST_FAULT (R234); `unit` as in Table 07-27. -/
def State.lastFault (s : State) (code job va unit bay : Nat) : State :=
  let w := 2 ^ 31 + job % 8 * 2 ^ 28 + unit % 16 * 2 ^ 24 + bay % 16 * 2 ^ 20 + code % 4096
  let s := s.setPreg .migrate 0x140 (BitVec.ofNat 32 w)
  (s.setPreg64 .migrate 0x148 0x14C (va % 2 ^ 52)).irq .migrate 1

/-- KEY of a physical line (Table 18-4, class 0x5). -/
def lineKey (pa : Nat) : Nat := pa / 128 % 2 ^ 41 * 128

/-- DETAIL of a memory-class record: tier, die, stack or bay, channel, job virtual address (Table 18-4, R219). -/
def memDetail (h : Bool) (pa va : Nat) : List Byte :=
  let t : Nat × Nat × Nat := match place h pa with
    | .near d => (0, d, field pa 13 8)
    | .main st => (1, st, field pa 12 8)
    | .bay b => (2, b, 0)
    | .scratch b _ => (3, b, 0)
    | _ => (4, 0, 0)
  leBytes 1 t.1 ++ leBytes 1 t.2.1 ++ leBytes 1 t.2.2 ++ leBytes 5 0 ++ leBytes 8 va

end Sys2Proof.Machine
end

