-- ==== Sys2Proof/Machine/Send.lean ====
section
/-!
DEFINITION. Sending over the fabric: routing, sequence numbers, ports, fences (R371–R373, R386–R389, R409–R413, R419–R424).
-/

namespace Sys2Proof.Machine

open Sys2Proof

/-! ### The packet header (Table 12-2) -/

def tLineRead : Nat := 1
def tLineWrite : Nat := 2
def tPegInc : Nat := 3
def tReadData : Nat := 8
def tAck : Nat := 9
def tRefuse : Nat := 10

/-- Slots of 16 B that a packet takes (R409). -/
def pktSlots (p : Packet) : Nat := if p.typ == tLineWrite || p.typ == tReadData then 10 else 2
/-- TYPE is one of Table 12-1. -/
def pktKnown (p : Packet) : Bool := [tLineRead, tLineWrite, tPegInc, tReadData, tAck, tRefuse].contains p.typ
def pktRequest (p : Packet) : Bool := p.typ == tLineRead || p.typ == tLineWrite || p.typ == tPegInc

/-- Header bytes 0–27 (Table 12-2). -/
def pktHeader (p : Packet) : List Byte :=
  leBytes 1 (p.typ % 16) ++ leBytes 1 (b2n p.shared) ++ leBytes 2 (p.src % 1024 + p.srcJob % 8 * 1024) ++
    leBytes 2 (p.dst % 1024) ++ leBytes 1 (p.slice % 64) ++ leBytes 1 p.epoch ++ leBytes 4 p.seq ++
    leBytes 2 (p.window % 4096) ++ leBytes 2 (p.peg % 32768) ++ leBytes 8 (p.offset % 2 ^ 40) ++ leBytes 2 p.inc ++
    leBytes 2 (p.reason % 4096)

/-- The CRC of bytes 28–31, over header bytes 0–27 and the line (R372). -/
def pktCrc (p : Packet) : Nat :=
  crc32c (pktHeader p ++ (if p.typ == tLineWrite || p.typ == tReadData then slice p.line 0 128 else []))

/-- A packet as it stands in its slots: header, CRC, and the line if any (R372). -/
def pktBytes (p : Packet) : List Byte :=
  pktHeader p ++ leBytes 4 (pktCrc p) ++ (if p.typ == tLineWrite || p.typ == tReadData then slice p.line 0 128 else [])

/-! ### Routing (R422–R424) -/

def routeOff (e : Nat) : Nat := 0x418000 + 8 * e
def State.routeEntry (s : State) (e : Nat) : Nat :=
  (s.reg (routeOff e)).toNat + (s.reg (routeOff e + 4)).toNat * 2 ^ 32

/-- Entry `e` is VALID with the bit of job `j` set in JOB_MASK (R424). -/
def State.routed (s : State) (e j : Nat) : Bool :=
  decide (e < 1024) && bit (s.routeEntry e) 63 && bit (field (s.routeEntry e) 55 48) j

/-- Sources S of R425: valid entries with a non-zero JOB_MASK. -/
def State.sources (s : State) : Nat :=
  ((List.range 1024).filter (fun e => bit (s.routeEntry e) 63 && field (s.routeEntry e) 55 48 != 0)).length

/-- The line-credit grant for S sources (R383). -/
def grantFor (n : Nat) : Nat := min 256 (max 16 (32768 / n))

def State.portUp (s : State) (n : Nat) : Bool := wfield (s.preg (.link n) 0x100) 3 0 == 3
def State.portWidth (s : State) (n : Nat) : Nat := wfield (s.preg (.link n) 0x100) 6 4
def State.port (s : State) (n : Nat) : Port := (mget s.ports n).getD {}
def State.setPort (s : State) (n : Nat) (p : Port) : State := { s with ports := mset s.ports n p }
def State.modPort (s : State) (n : Nat) (f : Port → Port) : State := s.setPort n (f (s.port n))

def Port.queued (p : Port) : Nat := (p.queue.map pktSlots).foldl (· + ·) 0

/-- The plane port with the fewest queued slots for each active lane; ties to the lowest port (R420). -/
def State.bestPort (s : State) : List Nat → Option Nat
  | [] => none
  | n :: rest =>
    match s.bestPort rest with
    | none => some n
    | some m => if (s.port m).queued * s.portWidth n < (s.port n).queued * s.portWidth m then some m else some n

/-- The port by which a packet for endpoint `e` leaves now, if one is usable (R405, R420–R422). -/
def State.choosePort (s : State) (e : Nat) : Option Nat :=
  let r := s.routeEntry e
  match field r 57 56 with
  | 1 => some 16
  | 2 => some 17
  | _ => s.bestPort ((List.range 16).filter (fun n => bit r n && s.portUp n))

/-! ### The transmit side of a port (R409, R411, R413) -/

/-- Whether the peer's credits cover a packet's slots. -/
def Port.hasCredit (p : Port) (k : Packet) : Bool :=
  if pktRequest k then decide (pktSlots k ≤ p.credits.1) else decide (pktSlots k ≤ p.credits.2)

def Port.spend (p : Port) (k : Packet) : Port :=
  if pktRequest k then { p with credits := (p.credits.1 - pktSlots k, p.credits.2) }
  else { p with credits := (p.credits.1, p.credits.2 - pktSlots k) }

/-- The first packet that may leave, and the queue without it. A packet that lacks credit in its class, request or response, holds up the later
packets of that class alone (R27, R28); `q` and `r` say that a request or a response is held up. -/
def Port.nextReady (p : Port) : Bool → Bool → List Packet → Option (Packet × List Packet)
  | _, _, [] => none
  | q, r, k :: rest =>
    if p.hasCredit k && !(if pktRequest k then q else r) then some (k, rest)
    else (p.nextReady (q || pktRequest k) (r || !pktRequest k) rest).map (fun x => (x.1, k :: x.2))

/-- Packets taken from the queue for which credits are held, each class in order. -/
def Port.takeReady : Nat → Port → List Packet → Port × List Packet
  | 0, p, acc => (p, acc)
  | fuel + 1, p, acc =>
    match p.nextReady false false p.queue with
    | none => (p, acc)
    | some (k, rest) => Port.takeReady fuel ({ p with queue := rest }.spend k) (acc ++ [k])

/-- Pack packets into flits of 16 slots, a packet running on into the next flit (R409): the packets whose last slot each holds. -/
def packFlits : Nat → List Packet → List Packet → List (List Packet)
  | used, cur, [] => if used = 0 && cur.isEmpty then [] else [cur]
  | used, cur, k :: rest =>
    let n := used + pktSlots k
    if n < 16 then packFlits n (cur ++ [k]) rest
    else if n = 16 then (cur ++ [k]) :: packFlits 0 [] rest
    else cur :: packFlits (n - 16) [k] rest

/-- Data flits leave in SEQ order, at most 2,048 unacknowledged (R411). -/
def Port.sendFlits (now : Nat) (p : Port) : List (List Packet) → Port
  | [] => p
  | f :: fs =>
    let p' := { p with
      ackAt := if p.unacked.isEmpty then now else p.ackAt
      unacked := p.unacked ++ [(p.nextSeq, f)]
      nextSeq := (p.nextSeq + 1) % 4096 }
    p'.sendFlits now fs

/-- Move what may leave from a port's queue into flits. A port takes from its queue only while the flits it holds stay at or below
2,048 (R411): a packet adds at most one flit. -/
def State.pumpPort (s : State) (n : Nat) : State :=
  let p := s.port n
  if !s.portUp n || p.newWidth.isSome then s
  else
    let (p', ks) := Port.takeReady (2048 - p.unacked.length) p []
    if ks.isEmpty then s
    else
      let fs := packFlits 0 [] ks
      let s := (s.setPort n (p'.sendFlits s.nowN fs)).count64 (.link n) 0x120 0x124 fs.length
      ks.foldl (fun s k => s.emit (.packet n (pktBytes k))) s

/-- Hand a packet to the port its destination's entry chooses. With no usable port it waits in the sender's queue (R421). A packet for
the module's own endpoint uses no port: it turns around to the module's own ingress (R390, R406). -/
def State.transmit (s : State) (k : Packet) : State :=
  if k.dst == s.endpoint then s.emit (.packet 18 (pktBytes k))
  else match s.choosePort k.dst with
    | some n => (s.modPort n (fun p => { p with queue := p.queue ++ [k] })).pumpPort n
    | none => { s with txHeld := s.txHeld ++ [k] }

/-- Offer again the packets that had no usable port. -/
def State.retryHeld (s : State) : State :=
  let ks := s.txHeld
  ks.foldl (fun s k => s.transmit k) { s with txHeld := [] }

/-! ### Requests (R373, R419, R424) -/

/-- Serial-number distance of request sequence numbers. -/
def seqDist (a b : Nat) : Nat := (a + 2 ^ 32 - b) % 2 ^ 32

/-- The oldest unanswered request that has been sent to a destination. -/
def State.oldestReq (s : State) (dst : Nat) : Option Nat :=
  (s.reqs.find? (fun r => r.pkt.dst == dst && r.sent)).map (·.pkt.seq)

/-- A request may leave: the settling time after power-up is over, its SEQ lies less than 2,048 beyond the oldest unanswered one (R419)
and credits for the destination remain: 64 requests, and the line grant of R383 by this module's own count of sources (log 40). A core keeps at
most 64 line reads outstanding (R390). -/
def State.maySend (s : State) (u : UnitId) (k : Packet) : Bool :=
  decide (s.quietUntil ≤ s.nowN) &&
  (match u with
   | .core _ _ => k.typ != tLineRead || decide ((s.reqs.filter (fun r => r.unit == u && r.sent && r.pkt.typ == tLineRead)).length < 64)
   | _ => true) &&
  (match s.oldestReq k.dst with
   | none => true
   | some q => decide (seqDist k.seq q < 2048)) &&
  (let out := s.reqs.filter (fun r => r.pkt.dst == k.dst && r.sent)
   if k.typ == tLineWrite then decide ((out.filter (fun r => r.pkt.typ == tLineWrite)).length < max 16 s.lineGrant)
   else decide ((out.filter (fun r => r.pkt.typ != tLineWrite)).length < 64))

/-- The failure flag of a job for a destination (R387). -/
def State.setFailed (s : State) (j dst code : Nat) : State :=
  (s.modJob j (fun x => if (mget x.failed dst).isSome then x else { x with failed := mset x.failed dst code })).putPreg .window 0x124 7 0
    (Nat.lor (wfield (s.preg .window 0x124) 7 0) (2 ^ j))

/-- KEY of a fabric-class record (Table 18-4). -/
def fabricKey (peer window code : Nat) (sender : Bool) : Nat :=
  peer % 1024 + window % 4096 * 2 ^ 10 + code % 4096 * 2 ^ 22 + b2n sender * 2 ^ 34

/-- DETAIL of a fabric-class record (Table 18-4). -/
def fabricDetail (k : Packet) : List Byte :=
  leBytes 8 k.offset ++ leBytes 4 k.seq ++ leBytes 1 k.srcJob ++ leBytes 3 0

/-- The record of a refusal at the sender (R387, Table 18-1: a contained-class severity at the sender falls to the fence or read that
R388 makes the fault; the record itself carries severity 3, log 41). -/
def State.refusalRecord (s : State) (k : Packet) (code : Nat) : State :=
  s.report .window
    { code := 0x6000 + code, sev := 3, key := fabricKey k.dst k.window code true, detail := fabricDetail k
      job := some k.srcJob }

/-- A request refused locally: code 0x00C, no path or no permission (R424, R387). -/
def State.localRefusal (s : State) (k : Packet) : State :=
  let s := (s.count .route 0x110 1).irq .route 1
  (s.refusalRecord k 0x00C).setFailed k.srcJob k.dst 0x00C

/-- Lines and increments sent through a dovetail port's descriptors are counted as they leave; the engine's own grant lines (bay number 16) are no
port's (R217). -/
def State.countSent (s : State) (u : UnitId) (k : Packet) : State :=
  match u with
  | .dovetail b =>
    if 16 ≤ b then s
    else if k.typ == tLineWrite then s.count64 (.dovetail b) 0x108 0x10C 1
    else if k.typ == tPegInc then s.count64 (.dovetail b) 0x110 0x114 1 else s
  | _ => s

/-- Issue one request of a unit for a job. A request that may not leave yet waits (R27, R419). -/
def State.sendReq (s : State) (u : UnitId) (job : Nat) (k : Packet) : State :=
  let q := (mget s.txSeq k.dst).getD 0
  let k := { k with src := s.endpoint, srcJob := job, slice := s.sliceOf job, seq := q }
  if !s.routed k.dst job then s.localRefusal k
  else
    let go := s.maySend u k
    let s := { s with
      txSeq := mset s.txSeq k.dst ((q + 1) % 2 ^ 32)
      reqs := s.reqs ++ [({ unit := u, job := job, pkt := k, sent := go } : Req)] }
    if go then (s.countSent u k).transmit k else s

/-- A request header with nothing but its kind and addressing. -/
def pktBase (typ dst window : Nat) : Packet :=
  { typ := typ, shared := false, src := 0, srcJob := 0, dst := dst, slice := 0, epoch := 0, seq := 0, window := window, peg := 0,
    offset := 0, inc := 0, reason := 0, line := [] }

def pktWrite (dst window offset epoch : Nat) (line : List Byte) : Packet :=
  { pktBase tLineWrite dst window with offset := offset, epoch := epoch, line := slice line 0 128 }

def pktRead (dst window offset : Nat) : Packet :=
  { pktBase tLineRead dst window with offset := offset }

def pktInc (dst window peg inc epoch : Nat) : Packet :=
  { pktBase tPegInc dst window with peg := peg, inc := inc, epoch := epoch }

/-- Release the waiting requests that may now leave, in order. -/
def State.pumpReqs : Nat → State → State
  | 0, s => s
  | fuel + 1, s =>
    match s.reqs.find? (fun r => !r.sent && s.maySend r.unit r.pkt) with
    | none => s
    | some r =>
      if s.routed r.pkt.dst r.job then
        let s := { s with reqs := s.reqs.map (fun (x : Req) => if x.pkt == r.pkt then { x with sent := true } else x) }
        ((s.countSent r.unit r.pkt).transmit r.pkt).pumpReqs fuel
      else
        let s := { s with reqs := s.reqs.filter (fun (x : Req) => x.pkt != r.pkt) }
        (s.localRefusal r.pkt).pumpReqs fuel

def State.pump (s : State) : State := s.pumpReqs s.reqs.length

/-! ### Fences (R386) -/

/-- The requests a fence of a unit waits on: its unanswered LINE_WRITE and PEG_INC for the job and destination. -/
def State.fenceWaits (s : State) (u : UnitId) (job : Nat) (dst : FenceDst) : List (Nat × Nat) :=
  (s.reqs.filter (fun r => r.unit == u && r.job == job && r.pkt.typ != tLineRead &&
    (match dst with
     | none => true
     | some d => r.pkt.dst == d))).map (fun r => (r.pkt.dst, r.pkt.seq))

/-- The job's failure flag for the fence's destination is set; the refusal's code is in the record (R386). -/
def State.fenceFailed (s : State) (job : Nat) (dst : FenceDst) : Bool :=
  match s.job job with
  | none => false
  | some x => match dst with
    | none => !x.failed.isEmpty
    | some d => (mget x.failed d).isSome

/-- Every request of a list, in order. -/
def State.sendAll (s : State) (u : UnitId) (job : Nat) (ks : List Packet) : State :=
  ks.foldl (fun s k => s.sendReq u job k) s

/-- Issue a fence, to be followed by the requests of `next` (R382). It stands until FENCE_COMPLETE finds nothing outstanding; one with
nothing outstanding and no failure completes at once. -/
def State.fence (s : State) (u : UnitId) (job : Nat) (dst : FenceDst) (next : List Packet) : State :=
  let w := s.fenceWaits u job dst
  if w.isEmpty && !s.fenceFailed job dst then s.sendAll u job next
  else { s with fences := s.fences ++ [{ unit := u, job := job, dst := dst, waits := w, next := next }] }

end Sys2Proof.Machine
end

