-- ==== Sys2Proof/Machine/Manifest.lean ====
section
/-!
DEFINITION. The generation image and the model manifest: their fields, and the rules under which the module refuses one (R282–R287,
R201; Tables 09-1 to 09-7).
-/

namespace Sys2Proof.Machine

open Sys2Proof

/-- First byte of generation slot `k` in the deep-tier window (Table 08-1). -/
def slotBase (k : Nat) : Nat := deepBase + k % 2 * 0x004000000000
/-- Pages of a generation slot (R282). -/
def slotPages : Nat := 4194304
/-- Module physical address of page `p` of slot `k`. -/
def slotPage (k p : Nat) : Nat := slotBase k + p * 65536

/-! ### Sections (R284) -/

/-- A directory entry of the manifest. -/
structure Section where
  typ : Nat
  off : Nat
  len : Nat
  count : Nat
deriving DecidableEq, Repr

def manSections (m : List Byte) : List Section :=
  (List.range (min 16 (getLE m 6 2))).map (fun i =>
    let o := 128 + 16 * i
    ⟨getLE m o 2, getLE m (o + 4) 4, getLE m (o + 8) 4, getLE m (o + 12) 4⟩)

def manSection (m : List Byte) (t : Nat) : Option Section := (manSections m).find? (fun x => x.typ == t)

def secOff (m : List Byte) (t : Nat) : Nat :=
  match manSection m t with
  | some x => x.off
  | none => 0
def secCount (m : List Byte) (t : Nat) : Nat :=
  match manSection m t with
  | some x => x.count
  | none => 0

def manTag (m : List Byte) : Nat := getLE m 8 8
def manRev (m : List Byte) : Nat := getLE m 16 4
def manLayers (m : List Byte) : Nat := getLE m 20 2
def manHG (m : List Byte) : Nat := getLE m 22 1
def manAdapters (m : List Byte) : Nat := getLE m 24 2
def manRecipes (m : List Byte) : Nat := getLE m 28 2
def manWithdrawUnit (m : List Byte) : Nat := getLE m 30 2

/-- A part record (Table 09-5). -/
structure Part where
  role : Nat
  kind : Nat
  first : Nat
  pages : Nat
  tree : Nat
  treePages : Nat
  root : List Byte
deriving DecidableEq, Repr

def manPart (m : List Byte) (i : Nat) : Part :=
  let o := secOff m 1 + 64 * i
  ⟨getLE m o 2, getLE m (o + 2) 1, getLE m (o + 4) 4, getLE m (o + 8) 4, getLE m (o + 12) 4, getLE m (o + 16) 4,
   slice m (o + 32) 32⟩
def manParts (m : List Byte) : List Part := (List.range (secCount m 1)).map (manPart m)

/-- A range record (Table 09-7). -/
structure RangeRec where
  va : Nat
  pages : Nat
  partPage : Nat
  part : Nat
  attr : Nat
  layer : Nat
  kind : Nat
deriving DecidableEq, Repr

def manRange (m : List Byte) (i : Nat) : RangeRec :=
  let o := secOff m 3 + 32 * i
  ⟨getLE m o 8, getLE m (o + 8) 4, getLE m (o + 12) 4, getLE m (o + 16) 1, getLE m (o + 17) 1, getLE m (o + 18) 1,
   getLE m (o + 19) 1⟩
def manRanges (m : List Byte) : List RangeRec := (List.range (secCount m 3)).map (manRange m)
def RangeRec.shadow (r : RangeRec) : Nat := field r.attr 6 5
def RangeRec.cls (r : RangeRec) : Nat := field r.attr 1 0
def RangeRec.aff (r : RangeRec) : Nat := field r.attr 3 2
def RangeRec.preferNear (r : RangeRec) : Bool := bit r.attr 4

/-- A layer record (Table 09-6). -/
def manLayer (m : List Byte) (l : Nat) (o n : Nat) : Nat := getLE m (secOff m 2 + 16 * l + o) n
def manCutoff (m : List Byte) (l : Nat) : Nat := manLayer m l 0 4
def manScatterBay (m : List Byte) (l : Nat) : Nat := manLayer m l 4 1
def manPrivileged (m : List Byte) (l : Nat) : Bool := bit (manLayer m l 5 1) 0
def manKv8 (m : List Byte) (l : Nat) : Bool := bit (manLayer m l 5 1) 1
def manStep (m : List Byte) (l : Nat) : Nat := manLayer m l 8 2
def manTrips (m : List Byte) (l : Nat) : Nat := manLayer m l 10 2

/-- The recipes section: bank and status addresses, and bank 0's initial bytes (Table 09-4). -/
def manRecipeVa (m : List Byte) (b : Nat) : Nat := getLE m (secOff m 4 + 8 * b) 8
def manRecipeInit (m : List Byte) : List Byte := slice m (secOff m 4 + 64) (32 * manRecipes m)

/-- The range record of queue slot `k` for layer `l`, if the expert residency section gives one (Table 09-4). -/
def manResidency (m : List Byte) (k l : Nat) : Option Nat :=
  match manSection m 5 with
  | none => none
  | some x =>
    let v := getLE m (x.off + (k * manLayers m + l) * 4) 4
    if k * manLayers m + l < x.count && v != 0xFFFF then some v else none

/-! ### The rules (R284–R287, R290) -/

/-- Pages of the tree area over `n` leaf digests: every level below the root starts on a page boundary (R289, R290). -/
def treePagesFor : Nat → Nat → Nat
  | 0, _ => 0
  | fuel + 1, n => if n ≤ 1 then 0 else ceilDiv (32 * n) 65536 + treePagesFor fuel (ceilDiv n 256)

/-- The first offset of a list of checks that fails. -/
def firstFail : List (Nat × Bool) → Option Nat
  | [] => none
  | (o, ok) :: rest => if ok then firstFail rest else some o

/-- Two half-open ranges do not meet. -/
def apart (a n b k : Nat) : Bool := decide (a + n ≤ b) || decide (b + k ≤ a)

/-- Every pair of a list satisfies `p`. -/
def pairwiseB {α : Type} (p : α → α → Bool) : List α → Bool
  | [] => true
  | x :: xs => xs.all (p x) && pairwiseB p xs

/-- Checks of the header and the directory (Table 09-3, R284). -/
def manHeaderChecks (m : List Byte) : List (Nat × Bool) :=
  let ss := manSections m
  let has := fun t => (ss.filter (fun x => x.typ == t)).length == 1
  [ (0, getLE m 0 4 == 0x4D464E42), (4, getLE m 4 2 == 1), (6, decide (1 ≤ getLE m 6 2 ∧ getLE m 6 2 ≤ 16)),
    (8, manTag m != 0), (20, decide (1 ≤ manLayers m ∧ manLayers m ≤ 256)), (22, decide (1 ≤ manHG m ∧ manHG m ≤ 16)),
    (23, decide (getLE m 23 1 ≤ 32) && getLE m 23 1 % 8 == 0), (24, decide (manAdapters m ≤ 4096)),
    (26, decide (getLE m 26 2 ≤ 16) && (manAdapters m != 0 || getLE m 26 2 == 0)),
    (28, decide (1 ≤ manRecipes m ∧ manRecipes m ≤ 4096)),
    (30, decide (1 ≤ manWithdrawUnit m ∧ manWithdrawUnit m ≤ 3)), (32, (slice m 32 96).all (· == 0)),
    (128, (List.range ss.length).all (fun i => getLE m (130 + 16 * i) 2 == 0)),
    (128, ss.all (fun x => decide (1 ≤ x.typ ∧ x.typ ≤ 7) && x.off % 128 == 0 && decide (x.off + x.len ≤ m.length) &&
      decide (128 + 16 * ss.length ≤ x.off))),
    (128, pairwiseB (fun x y => x.typ != y.typ && apart x.off x.len y.off y.len) ss),
    (128, has 1 && has 2 && has 3 && has 4 && has 7),
    (128, if manAdapters m = 0 then !has 6 else has 6) ]

/-- First slot page beyond page 0 and the manifest (R282). -/
def manEnd (m : List Byte) : Nat := 1 + ceilDiv m.length 65536

/-- Checks of one part record (Table 09-5): its pages and its tree lie within the slot, beyond page 0 and the manifest (R282). -/
def partChecks (m : List Byte) (i : Nat) : List (Nat × Bool) :=
  let o := secOff m 1 + 64 * i
  let p := manPart m i
  [ (o, (p.kind == 0 && p.role == 0xFFFF) || (p.kind == 1 && decide (p.role < 1024)) || (p.kind == 2 && p.role == 0xFFFE)),
    (o + 3, getLE m (o + 3) 1 == 0),
    (o + 4, decide (manEnd m ≤ p.first) && decide (p.first + p.pages ≤ slotPages)),
    (o + 8, decide (1 ≤ p.pages ∧ p.pages < 4194304)),
    (o + 12, (p.treePages == 0 || decide (manEnd m ≤ p.tree)) && decide (p.tree + p.treePages ≤ slotPages)),
    (o + 16, p.treePages == treePagesFor 8 p.pages),
    (o + 20, (slice m (o + 20) 12).all (· == 0)) ]

/-- Checks of one layer record (Table 09-6). -/
def layerChecks (m : List Byte) (l : Nat) : List (Nat × Bool) :=
  let o := secOff m 2 + 16 * l
  [ (o, decide (1 ≤ manCutoff m l ∧ manCutoff m l ≤ 4915200)), (o + 4, decide (manScatterBay m l < 16)),
    (o + 5, decide (manLayer m l 5 1 < 8)), (o + 6, decide (2 ≤ manLayer m l 6 1 ∧ manLayer m l 6 1 ≤ 7)),
    (o + 7, manLayer m l 7 1 == 0), (o + 8, manStep m l != 0), (o + 10, manTrips m l != 0), (o + 12, manLayer m l 12 4 == 0) ]

/-- Checks of one range record (Table 09-7, R286). -/
def rangeChecks (m : List Byte) (i : Nat) : List (Nat × Bool) :=
  let o := secOff m 3 + 32 * i
  let r := manRange m i
  let pt := manPart m r.part
  [ (o, r.va % 65536 == 0 && decide (r.va + r.pages * 65536 ≤ 2 ^ 52)), (o + 8, r.pages != 0),
    (o + 12, if r.kind = 3 then r.partPage == 0 else decide (r.partPage + r.pages ≤ pt.pages)),
    (o + 16, if r.kind = 3 then r.part == 0 else decide (r.part < secCount m 1)),
    (o + 17, decide (r.attr < 128) && r.aff != 3 && (r.kind != 3 || r.cls != 0) && (r.cls != 0 || r.kind == 2) && r.shadow != 3 &&
      (if manPrivileged m r.layer then r.shadow != 0 else r.shadow == 0)),
    (o + 18, decide (r.layer < manLayers m)), (o + 19, decide (r.kind ≤ 3)), (o + 20, (slice m (o + 20) 12).all (· == 0)) ]

/-- Whether two range records may stand together: apart, or of two different private parts (R286). -/
def rangesAgree (m : List Byte) (x y : RangeRec) : Bool :=
  apart x.va (x.pages * 65536) y.va (y.pages * 65536) ||
  (x.kind != 3 && y.kind != 3 && x.part != y.part && (manPart m x.part).kind == 1 && (manPart m y.part).kind == 1)

/-- Every set-A range has a set-B range of the same LAYER, PAGES and PART_PAGE (R286). -/
def shadowsPaired (rs : List RangeRec) : Bool :=
  (rs.filter (fun r => r.shadow == 1)).all (fun a =>
    rs.any (fun b => b.shadow == 2 && b.layer == a.layer && b.pages == a.pages && b.partPage == a.partPage))

/-- Checks of one adapter record (R297). -/
def adapterChecks (m : List Byte) (i : Nat) : List (Nat × Bool) :=
  let o := secOff m 6 + 16 * i
  let v := getLE m o 1
  let rank := getLE m (o + 1) 1
  [ (o, decide (v < 2) && (i != 0 || v == 0)),
    (o + 1, v == 0 || (decide (8 ≤ rank) && decide (rank ≤ getLE m 23 1) && rank % 8 == 0)),
    (o + 2, getLE m (o + 2) 2 == 0),
    (o + 4, v == 0 || (decide (getLE m (o + 4) 4 < secCount m 3) && (manRange m (getLE m (o + 4) 4)).kind == 2)) ]

/-- COUNT records of a section's size lie within its LENGTH (R284, Table 09-4). -/
def manLengths (m : List Byte) : List (Nat × Bool) :=
  let size := fun (t : Nat) => match t with
    | 1 => 64
    | 2 => 16
    | 3 => 32
    | 5 => 4
    | 6 => 16
    | _ => 0
  (manSections m).map (fun x => (x.off,
    if x.typ = 4 then decide (64 + 32 * manRecipes m ≤ x.len) else decide (x.count * size x.typ ≤ x.len)))

/-- The words of the expert residency section: bits [31:16] 0, and the index of a range record or 0xFFFF (Table 09-4). -/
def residencyChecks (m : List Byte) : List (Nat × Bool) :=
  (List.range (secCount m 5)).map (fun i =>
    let o := secOff m 5 + 4 * i
    (o, getLE m (o + 2) 2 == 0 && (getLE m o 2 == 0xFFFF || decide (getLE m o 2 < secCount m 3))))

/-- The byte offset of the first rule a manifest breaks, if any (R287). -/
def manifestBad (m : List Byte) : Option Nat :=
  (firstFail (manHeaderChecks m)).orElse fun _ =>
  let np := secCount m 1
  let nr := secCount m 3
  let sizes : List (Nat × Bool) :=
    [ (secOff m 1, decide (1 ≤ np ∧ np ≤ 8)), (secOff m 2, secCount m 2 == manLayers m),
      (secOff m 3, decide (1 ≤ nr ∧ nr ≤ 65536)), (secOff m 6, secCount m 6 == manAdapters m),
      (secOff m 4, (slice m (secOff m 4 + 24) 40).all (· == 0)) ] ++ manLengths m ++ residencyChecks m
  (firstFail sizes).orElse fun _ =>
  let parts := manParts m
  let ranges := manRanges m
  (firstFail ((List.range np).flatMap (partChecks m))).orElse fun _ =>
  (firstFail [ (secOff m 1, pairwiseB (fun x y => apart x.first x.pages y.first y.pages && apart x.tree x.treePages y.tree y.treePages &&
      apart x.first x.pages y.tree y.treePages && apart y.first y.pages x.tree x.treePages) parts &&
      parts.all (fun x => apart x.first x.pages x.tree x.treePages)) ]).orElse fun _ =>
  (firstFail ((List.range (manLayers m)).flatMap (layerChecks m))).orElse fun _ =>
  (firstFail ((List.range nr).flatMap (rangeChecks m))).orElse fun _ =>
  (firstFail [ (secOff m 3, pairwiseB (rangesAgree m) ranges && shadowsPaired ranges) ]).orElse fun _ =>
  firstFail ((List.range (manAdapters m)).flatMap (adapterChecks m))

/-! ### Digest trees (R288–R290) -/

/-- The prefix of a tree digest: level 0 names a leaf. -/
def treePrefix (level role idx : Nat) : List Byte := leBytes 1 level ++ leBytes 2 role ++ leBytes 4 idx ++ leBytes 9 0

def leafDigest (role i : Nat) (page : List Byte) : List Byte := sha256 (treePrefix 0 role i ++ page)

/-- The stored leaf digest of a part's page: the first level of its tree area, or ROOT for a part of one page (R289, R290). -/
def State.storedLeaf (s : State) (slot : Nat) (p : Part) (i : Nat) : List Byte :=
  if p.pages ≤ 1 then p.root else s.readPa (slotPage slot p.tree + 32 * i) 32

/-- The check of one digest up to ROOT through the stored levels: digest `i` of a level of `n` digests that starts at slot page `page`, its group of 256 hashed
and compared with the node stored above it, and so on (R289–R291). -/
def State.pathOk (s : State) (slot : Nat) (p : Part) : Nat → Nat → Nat → Nat → Nat → Bool
  | 0, _, _, _, _ => false
  | fuel + 1, level, page, n, i =>
    let g := i / 256
    let node := sha256 (treePrefix (level + 1) p.role g ++ s.readPa (slotPage slot page + 8192 * g) (32 * min 256 (n - 256 * g)))
    let n' := ceilDiv n 256
    let page' := page + ceilDiv (32 * n) 65536
    if n' ≤ 1 then node == p.root
    else node == s.readPa (slotPage slot page' + 32 * g) 32 && s.pathOk slot p fuel (level + 1) page' n' g

/-- A digest's group does not hash to the node above it, which itself checks up to ROOT: the digest's own page is at fault. -/
def State.groupBad (s : State) (slot : Nat) (p : Part) (level page n i : Nat) : Bool :=
  let g := i / 256
  let node := sha256 (treePrefix (level + 1) p.role g ++ s.readPa (slotPage slot page + 8192 * g) (32 * min 256 (n - 256 * g)))
  let n' := ceilDiv n 256
  let page' := page + ceilDiv (32 * n) 65536
  if n' ≤ 1 then node != p.root
  else node != s.readPa (slotPage slot page' + 32 * g) 32 && s.pathOk slot p 8 (level + 1) page' n' g

/-- The level, first page, digests and first digest that a page of a tree area holds (R290). -/
def treeLevel : Nat → Nat → Nat → Nat → Nat → Option (Nat × Nat × Nat × Nat)
  | 0, _, _, _, _ => none
  | fuel + 1, level, page, n, w =>
    let k := ceilDiv (32 * n) 65536
    if w < page + k then some (level, page, n, (w - page) * 2048) else treeLevel fuel (level + 1) (page + k) (ceilDiv n 256) w

/-- A page of a tree area fails its check against ROOT. -/
def State.treePageBad (s : State) (slot : Nat) (p : Part) (w : Nat) : Bool :=
  match treeLevel 8 0 p.tree p.pages w with
  | none => true
  | some (level, page, n, first) => (List.range 8).any (fun g => decide (first + 256 * g < n) && s.groupBad slot p level page n (first + 256 * g))

/-- Every page of a part's tree checks against ROOT (R290, R291). -/
def State.treeOk (s : State) (slot : Nat) (p : Part) : Bool :=
  (List.range p.treePages).all (fun i => !s.treePageBad slot p (p.tree + i))

/-- A page of a slot checks against its stored leaf digest, and the leaf digest up to ROOT (R291). -/
def State.pageChecks (s : State) (slot : Nat) (p : Part) (i : Nat) : Bool :=
  leafDigest p.role i (s.readPa (slotPage slot (p.first + i)) 65536) == s.storedLeaf slot p i &&
  (decide (p.pages ≤ 1) || s.pathOk slot p 8 0 p.tree p.pages i)

/-- The manifest stored in a slot: MANIFEST_LEN bytes from page 1 (R282). -/
def State.slotManifest (s : State) (slot : Nat) : List Byte :=
  s.readPa (slotPage slot 1) (getLE (s.readPa (slotBase slot + 20) 4) 0 4)

/-- The image header of page 0 is well formed, and the manifest matches it (Table 09-1). -/
def State.headerOk (s : State) (slot : Nat) : Bool :=
  let h := s.readPa (slotBase slot) 64
  let m := s.slotManifest slot
  getLE h 0 4 == 0x474D4942 && getLE h 4 2 == 1 && getLE h 6 2 == 0 && getLE h 8 8 != 0 && getLE h 8 8 == manTag m &&
    getLE h 16 4 == manRev m && decide (128 ≤ getLE h 20 4) && decide (getLE h 20 4 ≤ 16777216) &&
    sha256 m == slice h 24 32 && getLE h 56 8 == 0

end Sys2Proof.Machine
end

