-- ==== Sys2Proof/Machine/Rings.lean ====
section
/-!
DEFINITION. Submission entries and completion records: which entry is taken next, and how a record reaches its completion ring (R350, R351,
R467–R473, R476–R479).
-/

namespace Sys2Proof.Machine

open Sys2Proof

/-! ### Status codes (Table 15-7) -/

def stDone : Nat := 0x0000
def stApplied : Nat := 0x0001
def stReleased : Nat := 0x0002
def stCancelled : Nat := 0x0003
def stOpened : Nat := 0x0004
def stParked : Nat := 0x0005
def stNotParked : Nat := 0x0006
def stResumed : Nat := 0x0007
def stClosed : Nat := 0x0008
def stListed : Nat := 0x0009
def stDeleted : Nat := 0x000A
def stPromoted : Nat := 0x000B
def stAbandoned : Nat := 0x000C
def stOpcode : Nat := 0x0100
def stInvalid : Nat := 0x0101
def stBusy : Nat := 0x0102
def stLate : Nat := 0x0103
def stState : Nat := 0x0104
def stModel : Nat := 0x0105
def stMissing : Nat := 0x0106
def stFrames : Nat := 0x0107
def stSlot : Nat := 0x0108
def stManifest : Nat := 0x0109
def stMismatch : Nat := 0x010A
def stRoom : Nat := 0x010B
def stSize : Nat := 0x010C
def stJob : Nat := 0x010D
def stFailedSource : Nat := 0x0200
def stFailedDigest : Nat := 0x0201

/-- A completion record but for its PHASE and LOST flags (Table 15-6). -/
structure Comp where
  opcode : Nat
  more : Bool := false
  status : Nat := 0
  detail : Nat := 0
  cookie : Nat := 0
  result : List Byte := []

/-- Byte 1 holds MORE; PHASE and LOST are filled in when the record is written. -/
def Comp.bytes (c : Comp) : List Byte :=
  leBytes 1 c.opcode ++ leBytes 1 (2 * b2n c.more) ++ leBytes 2 c.status ++ leBytes 4 c.detail ++ leBytes 8 c.cookie ++
    slice c.result 0 16

/-- A record with its PHASE and LOST flags. -/
def stampFlags (r : List Byte) (phase lost : Bool) : List Byte :=
  putBytes r 1 (leBytes 1 (Nat.lor (getLE r 1 1) (b2n phase + 4 * b2n lost)))

/-! ### The two kinds of completion ring -/

def State.acqBase (s : State) : Nat := s.preg64 .host 0x118 0x11C
def State.asqBase (s : State) : Nat := s.preg64 .host 0x100 0x104
def State.acqSize (s : State) : Nat := 2 ^ wfield (s.preg .host 0x108) 12 8
def State.asqSize (s : State) : Nat := 2 ^ wfield (s.preg .host 0x108) 4 0
def State.adminOn (s : State) : Bool := wbit (s.preg .host 0x108) 31

/-- The slot after `p` in a ring of `n` slots whose slot 0 is the control slot (R468). -/
def nextSlot (n p : Nat) : Nat := if p + 1 ≥ n then 1 else p + 1

/-- Records that still fit (R468: full when the slot after PRODUCER is CONSUMER). -/
def ringRoom (n prod cons : Nat) : Nat := n - 2 - (prod + (n - 1) - cons % n) % (n - 1)

/-- CONSUMER from the control slot of the admin completion ring. -/
def State.adminCons (s : State) : Nat := getLE (s.readPa s.acqBase 4) 0 4

/-- Write one record to the admin completion ring and advance PRODUCER. -/
def State.adminPut (s : State) (r : List Byte) : State :=
  let a := s.admin
  let n := s.acqSize
  let s := s.rawWrite (s.acqBase + 32 * a.prod) (stampFlags r a.phaseBit a.lost)
  let p := nextSlot n a.prod
  let s := s.rawWrite (s.acqBase + 8) (leBytes 8 p)
  { s with admin := { a with prod := p, phaseBit := if a.prod + 1 ≥ n then !a.phaseBit else a.phaseBit, lost := false } }

/-- Raise the admin vector once if armed and the ring is not empty (R478). -/
def State.adminArm (s : State) : State :=
  if s.admin.armed && s.admin.prod != s.adminCons then
    ({ s with admin := { s.admin with armed := false } }).raise (wfield (s.preg .host 0x108) 26 16)
  else s

/-- A dropped record is counted in HOST_CQ_LOST and in one error record (R469, Table 18-2). -/
def State.cqLost (s : State) (n : Nat) : State :=
  ((s.count .host 0x12C n).irq .host 2).report .host { code := 0xA003, sev := 1, key := 0x1012C }

/-- Write a run of records to the admin ring, or hold it in the backlog when the ring has no room for the whole run (R469, R476). -/
def State.adminPost (s : State) (rs : List (List Byte)) : State :=
  if s.admin.backlog.isEmpty && decide (rs.length ≤ ringRoom s.acqSize s.admin.prod s.adminCons) then
    (rs.foldl State.adminPut s).adminArm
  else if s.admin.backlog.length + rs.length ≤ 4096 then
    { s with admin := { s.admin with backlog := s.admin.backlog ++ rs } }
  else ({ s with admin := { s.admin with lost := true } }).cqLost rs.length

/-- CONSUMER of a client's completion ring; an unreadable control slot counts as empty. -/
def State.clientCons (s : State) (c : Client) : Nat :=
  match s.readVa c.job c.cqBase 4 with
  | .ok bs => getLE bs 0 4
  | _ => c.prod

/-- Write one record to a client's completion ring, with LOST after a drop (log 276); none when the ring's page does not translate. -/
def State.clientPut (s : State) (k : Nat) (r : List Byte) : Option State :=
  match mget s.clients k with
  | none => some s
  | some c =>
    let n := 2 ^ c.cqLog
    match s.writeVa c.job (c.cqBase + 32 * c.prod) (stampFlags r c.phaseBit c.lost) with
    | .ok s =>
      let p := nextSlot n c.prod
      match s.writeVa c.job (c.cqBase + 8) (leBytes 8 p) with
      | .ok s =>
        let c' : Client :=
          { c with prod := p, phaseBit := if c.prod + 1 ≥ n then !c.phaseBit else c.phaseBit, lost := false }
        some { s with clients := mset s.clients k c' }
      | _ => none
    | _ => none

/-- Raise vector `k` once if the client's ring is armed and not empty (R478). -/
def State.clientArm (s : State) (k : Nat) : State :=
  match mget s.clients k with
  | none => s
  | some c =>
    if c.armed && c.prod != s.clientCons c then
      ({ s with clients := mset s.clients k { c with armed := false } }).raise k
    else s

def State.clientPuts (s : State) (k : Nat) : List (List Byte) → Option State
  | [] => some s
  | r :: rs => (s.clientPut k r).bind fun s => s.clientPuts k rs

/-- Write a run of records to a client's ring, or to its backlog (R469, R476). A record for a client that no longer exists
goes nowhere; a ring page that does not translate leaves the run in the backlog (log 20). -/
def State.clientPost (s : State) (k : Nat) (rs : List (List Byte)) : State :=
  match mget s.clients k with
  | none => s
  | some c =>
    let hold : State :=
      if c.backlog.length + rs.length ≤ 4096 then
        { s with clients := mset s.clients k { c with backlog := c.backlog ++ rs } }
      else ({ s with clients := mset s.clients k { c with lost := true } }).cqLost rs.length
    if c.backlog.isEmpty && decide (rs.length ≤ ringRoom (2 ^ c.cqLog) c.prod (s.clientCons c)) then
      match s.clientPuts k rs with
      | some s => s.clientArm k
      | none => hold
    else hold

/-- Post records to the completion ring that serves a submission ring. -/
def State.post (s : State) (r : Ring) (rs : List (List Byte)) : State :=
  match r with
  | .admin => s.adminPost rs
  | .client c _ => s.clientPost c rs

/-- An entry of the admin ring has posted its first completion. -/
def State.adminDone (s : State) : State := { s with admin := { s.admin with waiting := s.admin.waiting - 1 } }

/-- The client is gone, and its CLIENT_DESTROY completes on the admin ring (Table 15-14). -/
def State.endClient (s : State) (c cookie : Nat) : State :=
  ({ s with clients := mdel s.clients c }.adminPost [Comp.bytes { opcode := 0x05, cookie := cookie }]).adminDone

/-- A client that is being destroyed and whose entries have all posted their first completion ends. -/
def State.reapClient (s : State) (c : Nat) : State :=
  match mget s.clients c with
  | some x => match x.dying with
    | some k => if x.waiting.all (fun w => w.2 == 0) then s.endClient c k else s
    | none => s
  | none => s

/-- An entry of the ring has posted its first completion (BARRIER, Table 15-5). -/
def State.firstDone (s : State) (r : Ring) : State :=
  match r with
  | .admin => s.adminDone
  | .client c k => { s with clients := mmod s.clients c (fun x =>
      { x with waiting := mset x.waiting k ((mget x.waiting k).getD 0 - 1) }) }.reapClient c

/-! ### Taking entries (R351, R467, R473, R479) -/

/-- An entry that has been taken. -/
structure Entry where
  ring : Ring
  bytes : List Byte
  job : Nat

def Entry.opcode (e : Entry) : Nat := getLE e.bytes 0 1
def Entry.cookie (e : Entry) : Nat := getLE e.bytes 8 8
def Entry.f (e : Entry) (o n : Nat) : Nat := getLE e.bytes o n
def Entry.isAdmin (e : Entry) : Bool := e.ring == .admin

/-- Post one completion of an entry and count it as its first. -/
def State.complete (s : State) (e : Entry) (status : Nat) (detail : Nat := 0) (result : List Byte := []) : State :=
  (s.post e.ring [Comp.bytes { opcode := e.opcode, status := status, detail := detail, cookie := e.cookie, result := result }]).firstDone e.ring

/-- Post a completion for an entry kept aside by its ring, opcode and cookie. `first`: it is the entry's first. -/
def State.completeLater (s : State) (r : Ring) (opcode cookie status : Nat) (result : List Byte := []) (first : Bool := true)
    (detail : Nat := 0) : State :=
  let s := s.post r [Comp.bytes { opcode := opcode, status := status, detail := detail, cookie := cookie, result := result }]
  if first then s.firstDone r else s

def Client.headOf (c : Client) (k : Nat) : Nat := (mget c.heads k).getD 0
def Client.tailOf (c : Client) (k : Nat) : Nat := (mget c.tails k).getD 0

/-- READY: ring work is taken (R479). -/
def State.ready (s : State) : Bool := wbit (s.preg .chip 0x104) 0

def State.ringLevel (s : State) : Nat := wfield (s.preg .chip 0x114) 23 16

/-- The 64 bytes at a ring's HEAD, when the ring holds an entry that may be taken: entries present, backlog at most 3,072
records (R469), and no BARRIER entry waiting for earlier ones (Table 15-5). -/
def State.headEntry (s : State) (r : Ring) : Option (List Byte × Nat) :=
  let barrierOk := fun (bs : List Byte) (w : Nat) =>
    !(bit (getLE bs 1 1) 0 && s.ringLevel == 2) || w == 0
  match r with
  | .admin =>
    let h := wfield (s.preg .host 0x110) 15 0
    if s.adminOn && h != wfield (s.preg .host 0x10C) 15 0 && decide (s.admin.backlog.length ≤ 3072) then
      let bs := s.readPa (s.asqBase + 64 * h) 64
      if barrierOk bs s.admin.waiting then some (bs, getLE bs 2 1 % 8) else none
    else none
  | .client c k =>
    match mget s.clients c with
    | none => none
    | some x =>
      if x.dying.isNone && bit x.classes k && decide (k < 4) && x.headOf k != x.tailOf k && decide (x.backlog.length ≤ 3072) then
        match s.readVa x.job (x.sqBase + k * 64 * 2 ^ x.sqLog + 64 * x.headOf k) 64 with
        | .ok bs => if barrierOk bs ((mget x.waiting k).getD 0) then some (bs, x.job) else none
        | _ => none
      else none

/-- The client of class `k` whose turn it is: the first above the one last served that has an entry, else the first (R351). -/
def State.turn (s : State) (k : Nat) : Option Nat :=
  let cs := (s.clients.map (·.1)).filter (fun c => (s.headEntry (.client c k)).isSome)
  let last := (mget s.lastServed k).getD 64
  match cs.find? (fun c => decide (last < c) && decide (last < 64)) with
  | some c => some c
  | none => cs.head?

/-- The ring whose entry is taken next: admin first, then the lowest class, round-robin within it (R351, R473). -/
def State.nextRing (s : State) : Option Ring :=
  if (s.headEntry .admin).isSome then some .admin
  else match s.turn 0, s.turn 1, s.turn 2, s.turn 3 with
    | some c, _, _, _ => some (.client c 0)
    | none, some c, _, _ => some (.client c 1)
    | none, none, some c, _ => some (.client c 2)
    | none, none, none, some c => some (.client c 3)
    | none, none, none, none => none

/-- Advance a ring's HEAD past an entry just copied. -/
def State.advanceHead (s : State) (r : Ring) : State :=
  match r with
  | .admin =>
    let s := s.putPreg .host 0x110 15 0 ((wfield (s.preg .host 0x110) 15 0 + 1) % s.asqSize)
    { s with admin := { s.admin with waiting := s.admin.waiting + 1 } }
  | .client c k =>
    { s with
      lastServed := mset s.lastServed k c
      clients := mmod s.clients c (fun x => { x with
        heads := mset x.heads k ((x.headOf k + 1) % 2 ^ x.sqLog)
        waiting := mset x.waiting k ((mget x.waiting k).getD 0 + 1) }) }

/-- Which rings an opcode may stand in (Table 15-8): 1 admin, 2 client, 3 either, 0 reserved. -/
def opcodeRings (op : Nat) : Nat :=
  match op with
  | 0x00 => 3
  | 0x01 => 1
  | 0x02 => 1
  | 0x03 => 1
  | 0x04 => 1
  | 0x05 => 1
  | 0x10 => 3
  | 0x11 => 3
  | 0x12 => 3
  | 0x20 => 3
  | 0x21 => 3
  | 0x22 => 3
  | 0x30 => 2
  | 0x31 => 2
  | 0x32 => 2
  | 0x33 => 2
  | 0x34 => 3
  | 0x35 => 3
  | 0x40 => 2
  | 0x50 => 1
  | 0x51 => 3
  | 0x52 => 3
  | 0x53 => 1
  | 0x54 => 1
  | _ => 0

/-- Opcodes whose entry header names a job on the admin ring (Table 15-5, Table 15-8). -/
def opcodeNamesJob (op : Nat) : Bool :=
  !(op == 0x00 || op == 0x04 || op == 0x05 || op == 0x50 || op == 0x54)

/-- The byte offset of the first header field outside its legal values (Table 15-5). -/
def headerBad (e : Entry) (lvl : Nat) : Option Nat :=
  let fl := e.f 1 1
  if fl / 2 != 0 || (lvl < 2 && bit fl 0) then some 1
  else if (if e.isAdmin && opcodeNamesJob e.opcode then e.f 2 1 / 8 != 0 else e.f 2 1 != 0) then some 2
  else if e.f 3 5 != 0 then some 3
  else none

/-- Take the entry at the head of the ring whose turn it is, as the command of opcode `op`. `none`: this is not what happens next.
An entry whose opcode is reserved, stands in the wrong ring or needs a higher interface level completes with
REFUSED_OPCODE, and one with an illegal header with REFUSED_INVALID, whichever command takes it (log 21). -/
def State.takeEntry (s : State) (r : Ring) (op : Nat) : Option (State × Option Entry) :=
  if !s.ready || s.nextRing != some r then none
  else match s.headEntry r with
    | none => none
    | some (bs, job) =>
      let e : Entry := ⟨r, bs, job⟩
      let where_ := opcodeRings e.opcode
      let legal := if e.isAdmin then where_ % 2 == 1 else where_ / 2 == 1
      let above := bit (e.f 1 1) 0 && s.ringLevel < 2
      let t := (s.advanceHead r).count64 .host 0x130 0x134 1
      if !legal || above then some (t.complete e stOpcode, none)
      else if e.opcode != op then none
      else match headerBad e s.ringLevel with
        | some o => some (t.complete e stInvalid o, none)
        | none => some (t, some e)

/-- Run `f` on the entry taken, or leave the state as taking left it; a command that is not what happens next changes nothing
(log 10). -/
def State.onEntry (s : State) (r : Ring) (op : Nat) (f : State → Entry → State) : State :=
  match s.takeEntry r op with
  | none => s
  | some (s, none) => s
  | some (s, some e) => f s e

/-- Offset of the first non-zero byte of payload bytes [o, o + n), if any: payload bytes not listed must be 0 (R472). -/
def firstNonzero (bs : List Byte) (o : Nat) : Nat → Option Nat
  | 0 => none
  | n + 1 => if getLE bs o 1 != 0 then some o else firstNonzero bs (o + 1) n

/-- The first offset of a list of reserved runs that is not zero. -/
def reservedBad (bs : List Byte) : List (Nat × Nat) → Option Nat
  | [] => none
  | (o, n) :: rest => match firstNonzero bs o n with
    | some x => some x
    | none => reservedBad bs rest

end Sys2Proof.Machine
end

