-- ==== Sys2Proof/Machine/Contain.lean ====
section
/-!
DEFINITION. What a contained fault does at once: the record, the halt lines, the episode and the abandonment of every unit (R361, R367, R387,
R544–R554, R556, Tables 02-13, 07-8, 14-7). The drain and the replay are commands of their own.
-/

namespace Sys2Proof.Machine

open Sys2Proof

/-! ### Cores (R37–R40, Tables 02-26 to 02-31) -/

/-- The slot that presents logical core `l` of bay `b`; 0x1F when the bay is withdrawn (Table 02-20). -/
def State.slotOf (s : State) (b l : Nat) : Nat := wfield (s.preg (.bay b) (0x110 + l / 4 * 4)) (l % 4 * 8 + 4) (l % 4 * 8)

def State.withdrawn (s : State) (b : Nat) : Bool := wbit (s.preg (.bay b) 0x100) 16

/-- A bay is power-gated (R529). -/
def State.gated (s : State) (b : Nat) : Bool := wbit (s.preg .pwr 0x11C) b

/-- A bay presents no cores: withdrawn or gated (R187). -/
def State.absent (s : State) (b : Nat) : Bool := s.withdrawn b || s.gated b

/-- State of a physical slot: 0 spare, 1 active, 2 failed, 3 absent (R38, Tables 02-18 and 02-19). -/
def State.slotState (s : State) (b slot : Nat) : Nat :=
  if slot < 16 then wfield (s.preg (.bay b) 0x104) (2 * slot + 1) (2 * slot) else wfield (s.preg (.bay b) 0x108) 1 0

/-- A failed or absent slot: the block-specific registers of its CORE page hold their values (R85; log 249). -/
def State.slotFrozen (s : State) (b slot : Nat) : Bool := decide (2 ≤ s.slotState b slot)

/-- The core zeroes the scratchpad of a slot (R47). -/
def State.zeroScratch (s : State) (b slot : Nat) : State := { s with scratch := mdel s.scratch (b * 17 + slot) }
/-- A command of a job runs in a slot: its scratchpad may hold that job's data until it is zeroed (R46, R47). -/
def State.fillScratch (s : State) (b slot job : Nat) : State := { s with scratch := mset s.scratch (b * 17 + slot) job }

def coreKey (b l : Nat) : Nat := b * 16 + l
def State.core (s : State) (b l : Nat) : CoreQ := (mget s.cores (coreKey b l)).getD {}

/-- Show a core's queue in the registers of its slot; a failed slot's registers stand (R85). -/
def State.showCore (s : State) (b l : Nat) (c : CoreQ) : State :=
  let slot := s.slotOf b l
  if decide (slot > 16) || s.slotFrozen b slot then s
  else
    let p : Page := .core b slot
    let d := c.q.headD []
    let valid := !c.q.isEmpty
    let s := s.setPreg p 0x108 (BitVec.ofNat 32 (c.q.length * 2 ^ 16 + c.tail * 2 ^ 8 + c.head))
    let s := s.setPreg p 0x10C (BitVec.ofNat 32 (if valid then
      b2n (c.st == 3) * 2 ^ 25 + 2 ^ 24 + getLE d 0 1 * 2 ^ 16 + getLE d 2 2 else 0))
    s.setPreg p 0x104 (BitVec.ofNat 32 (c.st + (match c.job with
      | some j => 2 ^ 11 + j % 8 * 2 ^ 8
      | none => 0)))

def State.putCore (s : State) (b l : Nat) (c : CoreQ) : State :=
  ({ s with cores := mset s.cores (coreKey b l) c }).showCore b l c

/-! ### DMA channels and dovetail ports as registers show them -/

/-- Offset in the HDMA page of a register of host channel `n`. -/
def hOff (n o : Nat) : Nat := 0x1000 + n * 0x100 + o
def State.hReg (s : State) (n o : Nat) : Word := s.preg .hdma (hOff n o)
def State.setHReg (s : State) (n o : Nat) (v : Word) : State := s.setPreg .hdma (hOff n o) v
def State.hState (s : State) (n : Nat) : Nat := wfield (s.hReg n 8) 3 0

/-- Set bits of HDMA_CHn_IRQ; a newly set enabled bit raises vector 64 + n (R450, R457). -/
def State.hIrq (s : State) (n i : Nat) : State :=
  let o := s.hReg n 0xC
  let s' := s.setHReg n 0xC (wset o i)
  if !wbit o i && wbit (s.hReg n 0x10) i then s'.raise (64 + n) else s'

/-- HDMA_STAT from the channels' states (Table 14-10). -/
def State.showHdma (s : State) : State :=
  let sts := (List.range 64).map s.hState
  let parked := (sts.filter (· == 3)).length
  let act := (sts.filter (fun x => x == 1 || x == 2 || x == 4)).length
  s.setPreg .hdma 0x100 (BitVec.ofNat 32 (parked * 2 ^ 16 + act))

def State.setHState (s : State) (n st : Nat) : State := (s.setHReg n 8 (wput (s.hReg n 8) 3 0 st)).showHdma

def chanKey (c : DmaChan) : Nat :=
  match c with
  | .host n => n
  | .bay b n => 1000 + b * 16 + n
def State.chan (s : State) (c : DmaChan) : Chan := (mget s.chans (chanKey c)).getD {}

/-- The bay channel's status and residue words (Table 14-17). -/
def State.showBayChan (s : State) (b n : Nat) (c : Chan) (st residue : Nat) : State :=
  let tag := getLE (c.q.headD []) 2 2
  let s := s.setPreg (.baydma b) (0x100 + 4 * n) (BitVec.ofNat 32 (tag * 2 ^ 16 + c.q.length * 2 ^ 11 + c.job % 8 * 2 ^ 8 + st))
  s.setPreg (.baydma b) (0x140 + 4 * n) (BitVec.ofNat 32 residue)

/-- Put a dovetail port's state, and show it in DOVETAIL_STAT (Table 06-15). -/
def State.putDove (s : State) (b : Nat) (d : Dove) : State :=
  ({ s with doves := mset s.doves b d }).setPreg (.dovetail b) 0x100 (BitVec.ofNat 32 (b2n d.parked * 2 ^ 16 + d.q.length))
def State.dove (s : State) (b : Nat) : Dove := (mget s.doves b).getD {}

/-! ### Descriptors held for want of a credit (R27, R30, Table 01-5) -/

/-- The control core holds a descriptor for a full dovetail port or bay DMA channel. -/
def State.holdUnit (s : State) (u : UnitId) (job : Nat) (d : List Byte) : State :=
  { s with unitHeld := s.unitHeld ++ [(u, job, s.nowN, slice d 0 64)] }

/-- A descriptor has been held for a unit for 2,048 ct in which its queue has not moved. -/
def State.heldFor (s : State) (u : UnitId) : Bool := s.unitHeld.any (fun x => x.1 == u && decide (x.2.2.1 + 2048 ≤ s.nowN))

/-- The oldest descriptor held for a unit. -/
def State.heldHead (s : State) (u : UnitId) : Option (Nat × List Byte) := (s.unitHeld.find? (fun x => x.1 == u)).map (fun x => (x.2.1, x.2.2.2))

/-- It leaves; those that stay wait from now on. -/
def State.dropHeld (s : State) (u : UnitId) : State :=
  { s with unitHeld := (s.unitHeld.eraseP (fun x => x.1 == u)).map (fun x => if x.1 == u then (x.1, x.2.1, s.nowN, x.2.2.2) else x) }

/-! ### Accounting (R369) -/

/-- Replace the counts of a client's accounting record: `f` maps the old record's bytes to the new ones. UPDATE_SEQ ends at the next even
value and LAST_CT is the present tick. None when the record cannot be written. -/
def State.account (s : State) (c : Nat) (f : List Byte → List Byte) : Option State :=
  match mget s.clients c with
  | none => some s
  | some x =>
    match s.readVa x.job x.acct 128 with
    | .ok r =>
      let r := putBytes (putBytes (f r) 0 (leBytes 8 ((getLE r 0 8 / 2 * 2 + 2) % 2 ^ 64))) 8 (leBytes 8 s.nowN)
      match s.writeVa x.job x.acct r with
      | .ok s => some s
      | _ => none
    | _ => none

/-- Add to a wrapping 8-byte or saturating 4-byte count of a record. -/
def addWrap8 (r : List Byte) (o n : Nat) : List Byte := putBytes r o (leBytes 8 ((getLE r o 8 + n) % 2 ^ 64))
def addSat4 (r : List Byte) (o n : Nat) : List Byte := putBytes r o (leBytes 4 (min 0xFFFFFFFF (getLE r o 4 + n)))
def maxSat4 (r : List Byte) (o n : Nat) : List Byte := putBytes r o (leBytes 4 (max (getLE r o 4) (min 0xFFFFFFFF n)))

/-- The completion of a run (Table 15-8): RUN_ID and the tick of the end. -/
def State.endRun (s : State) (r : Run) (status : Nat) : State :=
  s.completeLater (.client r.client r.cls) 0x40 r.cookie status (leBytes 4 r.id ++ leBytes 4 0 ++ leBytes 8 s.nowN)

/-- Runs in progress of the jobs concerned end with ABANDONED (R367). -/
def State.abandonRuns (s : State) (p : Nat → Bool) (all : Bool) : State :=
  let go := fun (r : Run) => p r.job && (all || r.begun.isSome)
  let gone := s.runs.filter go
  let s := { s with runs := s.runs.filter (fun r => !go r) }
  gone.foldl (fun s r =>
    ((s.account r.client (fun b => addSat4 b 88 1)).getD s).endRun r stAbandoned) s

/-! ### Abandoning units (Tables 02-13, 07-8, R454) -/

/-- Empty a core's queue: the command is abandoned, with no signal, notification or retirement. -/
def CoreQ.emptied (c : CoreQ) : CoreQ :=
  { c with q := [], head := c.tail, started := false, executed := false, halted := false, lines := [], waitPage := none, st := 1, waitFrom := none }

def State.abandonCores (s : State) (p : Nat → Bool) : State :=
  s.cores.foldl (fun s e =>
    match e.2.job with
    | some j => if p j && !e.2.q.isEmpty then s.putCore (e.1 / 16) (e.1 % 16) e.2.emptied else s
    | none => s) s

def State.abandonDoves (s : State) (p : Nat → Bool) : State :=
  s.doves.foldl (fun s e => if p e.2.job && !e.2.q.isEmpty then s.putDove e.1 {} else s) s

/-- Bay channels are emptied; a host channel that is not idle enters HALTED (R454). -/
def State.abandonChans (s : State) (p : Nat → Bool) : State :=
  s.chans.foldl (fun s e =>
    if !p e.2.job then s
    else if e.1 ≥ 1000 then
      if e.2.q.isEmpty then s
      else ({ s with chans := mdel s.chans e.1 }).showBayChan ((e.1 - 1000) / 16) ((e.1 - 1000) % 16) {} 0 0
    else
      let st := s.hState e.1
      if 1 ≤ st && decide (st ≤ 5) then
        let c : Chan := { e.2 with fencing := false, stopping := false, lines := [] }
        (({ s with chans := mset s.chans e.1 c }).setHState e.1 7).hIrq e.1 1
      else s) s

/-- Holder's job. -/
def State.holderJob (s : State) : Holder → Option Nat
  | .pass j => some j
  | .tail j => some j
  | .run i => (s.runs.find? (fun r => r.uid == i)).map (·.job)

/-- Every unit of the jobs that `p` selects is abandoned: cores, ports, channels, waiting walks, saved state, reads and fences. Requests
that have not left are dropped; the scheduler core's own fences stand, since it is no unit (log 42). -/
def State.abandonUnits (s : State) (p : Nat → Bool) : State :=
  let s := ((s.abandonCores p).abandonDoves p).abandonChans p
  let heldBy := fun (h : Holder) => match s.holderJob h with
    | some j => p j
    | none => true
  { s with
    saved := s.saved.filter (fun x => !heldBy x.holder)
    holder := if (s.holder.map heldBy).getD false then none else s.holder
    preempting := if (s.preempting.map heldBy).getD false then none else s.preempting
    parked := s.parked.filter (fun x => !p x.job || x.unit == .media)
    ccHeld := s.ccHeld.filter (fun x => !p x.2.1)
    unitHeld := s.unitHeld.filter (fun x => !p x.2.1)
    reqs := s.reqs.filter (fun r => !(p r.job && (r.pkt.typ == tLineRead || (!r.sent && r.unit != .sched))))
    fences := s.fences.filter (fun f => !(p f.job && f.unit != .sched)) }

/-! ### Episodes (R548–R554) -/

/-- The earliest formed pass of a job for which the module has not sent its barrier line (R361, R548). -/
def Job.named (j : Job) : Option Pass :=
  match j.executing with
  | some p => if p.barrierSent then j.formed else some p
  | none => j.formed

/-- An episode names the pass: it is discarded and waits for its replay (R550). -/
def Job.halts (j : Job) (seq : Nat) : Bool :=
  match j.episode with
  | some e => e.seq == seq
  | none => false

/-- A containment line (Table 18-7). -/
def containLine (kind : Nat) (culprit : Bool) (member code attempt : Nat) (pass : Option (Nat × Nat)) (ev endpoint : Nat) : List Byte :=
  leBytes 1 kind ++ leBytes 1 (b2n pass.isSome + 2 * b2n culprit) ++ leBytes 2 member ++ leBytes 2 code ++ leBytes 1 attempt ++ [0] ++
    leBytes 8 ((pass.map (·.1)).getD 0) ++ leBytes 8 ((pass.map (·.2)).getD 0) ++ leBytes 8 ev ++ leBytes 2 endpoint ++ leBytes 94 0

/-- The other members of a job's slice by endpoint. -/
def Job.others (j : Job) : List Nat :=
  ((List.range j.members).filter (fun i => i != j.myMember)).map j.member

/-- Offset of this member's line in the containment area (R546). -/
def Job.containOff (j : Job) (i : Nat) : Nat := (2 * j.members + i) * 128

/-- Issue a request at once, ahead of every queued packet and outside the credit grant (R548). -/
def State.sendUrgent (s : State) (job : Nat) (k : Packet) : State :=
  let q := (mget s.txSeq k.dst).getD 0
  let k := { k with src := s.endpoint, srcJob := job, slice := s.sliceOf job, seq := q }
  if !s.routed k.dst job then s.localRefusal k
  else
    let s := { s with
      txSeq := mset s.txSeq k.dst ((q + 1) % 2 ^ 32)
      reqs := s.reqs ++ [({ unit := .sched, job := job, pkt := k } : Req)] }
    match s.choosePort k.dst with
    | some n => (s.modPort n (fun p => { p with queue := k :: p.queue })).pumpPort n
    | none => { s with txHeld := k :: s.txHeld }

/-- Send a containment line of a job to every other member that has not been declared lost; a standby job sends none (R559). -/
def State.sendContain (s : State) (n : Nat) (line : Job → List Byte) : State :=
  match s.job n with
  | none => s
  | some j =>
    if j.standby then s
    else (j.others.filter (fun e => !j.lossWait.contains e)).foldl (fun s e =>
      s.sendUrgent n (pktWrite e j.barrierWindow (j.containOff j.myMember) 0 (line j))) s

/-- The counts of a discarded pass are dropped; its label, streams, banks, bases and fallback log are kept (R135, R168, R359). -/
def Pass.discard (p : Pass) : Pass :=
  { p with begun := false, replay := true, barrierSent := false, doneCt := 0, trouble := [], penumbra := [], scribe := [], degraded := [], refused := [], ports := [],
           scatter := [], scattered := [], chunks := [] }

def Job.discard (j : Job) : Job :=
  match j.executing with
  | some p => if p.barrierSent then { j with formed := j.formed.map Pass.discard } else { j with executing := some p.discard }
  | none => { j with formed := j.formed.map Pass.discard }

/-- CONTAINING reads 1 while some job has an episode (Table 18-17). -/
def State.showContaining (s : State) : State :=
  s.setPreg .errlog 0x100 (wassign (s.preg .errlog 0x100) 17 (s.jobs.any (fun e => e.2.episode.isSome)))

/-- Pass abandoned, job suspended (R554). -/
def State.suspend (s : State) (n : Nat) : State :=
  let s := s.modJob n (fun j => { j with
    suspended := true, episode := none, executing := none, formed := none, forming := none, formAt := none })
  let s := s.putPreg .errlog 0x130 7 0 (Nat.lor (wfield (s.preg .errlog 0x130) 7 0) (2 ^ n))
  let s := s.abandonRuns (fun j => j == n) true
  (s.record { code := 0x0007, sev := 3, source := Page.source .errlog, key := s.endpoint, job := some n }).showContaining

/-- An episode has opened on the module: the count, the interrupt and CONTAINING. -/
def State.showEpisode (s : State) : State :=
  let s := (s.count .errlog 0x128 1).irq .errlog 3
  s.setPreg .errlog 0x100 (wset (s.preg .errlog 0x100) 17)

/-- A HALT or LOSS line that names pass `seq` of job `n`, received or sent: it joins the episode of that pass or opens a new one (R550). The
third culprit episode suspends the job (R554). -/
def State.episodeLine (s : State) (n seq ev : Nat) (culprit : Bool) : State :=
  match s.job n with
  | none => s
  | some j =>
    let old := (mget j.culprits seq).getD 0
    let joins := match j.episode with
      | some e => e.seq == seq && decide (ev < e.e + 11776)
      | none => false
    let cnt := fun (ep : Episode) => if culprit && !ep.culpritHere then 1 else 0
    let ep : Episode := match j.episode with
      | some e =>
        if joins then { e with e := min e.e ev }
        else if e.seq == seq then { e with e := ev, attempt := e.attempt + 1, culpritHere := false, drained := false }
        else { seq := seq, e := ev, attempt := (mget j.attempts seq).getD 0 + 1 }
      | none => { seq := seq, e := ev, attempt := (mget j.attempts seq).getD 0 + 1 }
    let c := old + cnt ep
    let ep := { ep with culpritHere := ep.culpritHere || culprit, culprits := c }
    let s := s.setJob n { j with
      episode := some ep, culprits := mset j.culprits seq c, attempts := mset j.attempts seq ep.attempt }
    let s := if joins then s else s.showEpisode
    if c ≥ 3 && !j.suspended then s.suspend n else s

/-- The containment of a fault on this module, after its record (R544, R548, R361, R367): halt lines for every job, the named passes
discarded and every unit abandoned. `culprit`: the job in whose work the fault arose. -/
def State.containAll (s : State) (code : Nat) (culprit : Option Nat) : State :=
  if s.jobs.isEmpty then s
  else
    let f := s.nowN
    let s := { s with faultCt := some f }
    let jobs := s.jobNums
    let s := s.abandonUnits (fun _ => true)
    let s := s.abandonRuns (fun _ => true) false
    jobs.foldl (fun s n =>
      match s.job n with
      | none => s
      | some j =>
        let nm := j.named
        let cul := culprit == some n
        let s := s.setJob n j.discard
        let s := match nm with
          | some p => if j.standby then s else s.episodeLine n p.seq f cul
          | none => s
        let att := match s.job n with
          | some j' => match j'.episode with
            | some e => e.attempt
            | none => 1
          | none => 1
        s.sendContain n (fun j =>
          containLine 1 cul j.myMember code (min 3 (max 1 att)) (nm.map (fun p => (p.seq, p.label))) f s.endpoint)) s

/-- Halt lines will be sent for some job: HALT_SENT of the record. -/
def State.haltGoes (s : State) : Bool :=
  s.jobs.any (fun e => !e.2.standby && (e.2.others.any (fun x => !e.2.lossWait.contains x)))

/-- PASS_SEQ for a record of a job's work. -/
def State.passOf (s : State) (j : Option Nat) : Option Nat :=
  (j.bind s.job).bind (fun x => x.named.map (·.seq))

/-- A contained fault of page `p`: one record of severity 3 and containment. With no job on the module it is a record only (R565). -/
def State.contained (s : State) (p : Page) (r : ErrRec) (culprit : Bool := true) : State :=
  let r := { r with sev := 3, pass := s.passOf r.job, halt := s.haltGoes }
  (s.report p r).containAll r.code (if culprit then r.job else none)

/-- A contained fault whose record the refusal has already written (R387, R388). -/
def State.containedQuiet (s : State) (code : Nat) (job : Nat) : State := s.containAll code (some job)

/-- An unresolvable translation fault of a unit (R234): MIGRATE_LAST_FAULT and a contained fault of class 0x4. `unit` as in Table 07-27. -/
def State.transFault (s : State) (code job va unit bay : Nat) : State :=
  (s.lastFault code job va unit bay).contained .migrate
    { code := 0x4000 + code, sev := 3, key := va % 2 ^ 52, detail := leBytes 1 unit ++ leBytes 1 bay, job := some job }

/-- A poisoned line read by pass or run work (R562): code 0x003 of the memory class. -/
def State.poisonFault (s : State) (job pa va : Nat) : State :=
  s.contained ((memPage s.isH pa).getD .migrate)
    { code := 0x5003, sev := 3, key := lineKey pa, detail := memDetail s.isH pa va, job := some job }

end Sys2Proof.Machine
end

