-- ==== Sys2Proof/Machine/Operands.lean ====
section
/-!
DEFINITION. Core command descriptors: fields, operand addresses, extents and the legality check in its two stages (R60–R82, R116, R122,
R126–R131).
-/

namespace Sys2Proof.Machine

open Sys2Proof

/-! ### Operand addresses (R62) -/

/-- Space selector of an operand address: 0 unified, 1 bay memory, 2 fabric, 3 reserved. -/
def adSpace (a : Nat) : Nat := field a 63 62
def adVa (a : Nat) : Nat := a % 2 ^ 52
def adOff (a : Nat) : Nat := a % 2 ^ 24
def adEp (a : Nat) : Nat := field a 61 52
def adWin (a : Nat) : Nat := field a 51 40
def adFabOff (a : Nat) : Nat := a % 2 ^ 40
/-- The address within its space, for extents. -/
def adLocal (a : Nat) : Nat := if adSpace a = 1 then adOff a else if adSpace a = 2 then adFabOff a else adVa a

/-- The bits that Table 02-4 requires to be 0 are 0. -/
def adBitsOk (a : Nat) : Bool :=
  match adSpace a with
  | 0 => field a 61 52 == 0
  | 1 => field a 61 24 == 0
  | _ => true

/-- The extent of one operand (R64). -/
structure Ext where
  addr : Nat
  size : Nat
  out : Bool
deriving DecidableEq, Repr

/-! ### Recipes (R129–R131) -/

/-- A recipe entry as 32 bytes, or none. -/
structure Recipe where
  bytes : List Byte
deriving DecidableEq, Repr

def Recipe.valid (r : Recipe) : Bool := bit (getLE r.bytes 0 1) 0
def Recipe.actOverride (r : Recipe) : Bool := bit (getLE r.bytes 0 1) 1
def Recipe.shimOff (r : Recipe) : Bool := field (getLE r.bytes 0 1) 3 2 == 1
def Recipe.actFmt (r : Recipe) : Nat := getLE r.bytes 1 1 % 16
def Recipe.rotLog (r : Recipe) : Nat := getLE r.bytes 2 1
def Recipe.layer (r : Recipe) : Nat := getLE r.bytes 4 2
def Recipe.rotSeed (r : Recipe) : Nat := getLE r.bytes 8 8
def Recipe.limit (r : Recipe) (i : Nat) : Nat := getLE r.bytes (16 + 4 * i) 4

/-- Table 04-2 holds for an entry; entry 0 has no override, shim mode or rotation (R130). -/
def recipeLegal (i : Nat) (b : List Byte) : Bool :=
  let r : Recipe := ⟨b⟩
  let fl := getLE b 0 1
  let ov := r.actOverride
  decide (fl / 16 = 0) && decide (field fl 3 2 ≤ 1) && decide (getLE b 1 1 / 16 = 0) &&
  (!ov || (decide (2 ≤ r.actFmt) && decide (r.actFmt ≤ 7))) &&
  (r.rotLog == 0 || (decide (5 ≤ r.rotLog) && decide (r.rotLog ≤ 12))) && getLE b 3 1 == 0 && decide (r.layer < 256) &&
  getLE b 6 2 == 0 && getLE b 28 4 == 0 &&
  (i != 0 || (!ov && field fl 3 2 == 0 && r.rotLog == 0))

/-- The address of recipe entry `i` in the bank in force for the unit that runs (R129, R137). -/
def Job.recipeVa (j : Job) (bank i : Nat) : Nat := manRecipeVa j.manifest bank + 32 * i
def Job.statusVa (j : Job) (i : Nat) : Nat := manRecipeVa j.manifest 2 + 32 * i

/-! ### The effective fields (R131) -/

/-- What the second stage settles. `none`: not known yet in the first stage. -/
structure Eff where
  fmt : Option Nat                        -- FMT_A of MATMUL, or QUANT's output format
  shim : Option Bool                      -- whether the shim takes part
  desc : Option (List Byte) := none       -- the shim descriptor
  rotLog : Option Nat := none             -- the recipe's ROT_LOG
  recipeOk : Bool := true
  streams : Option (List Nat) := none     -- the STREAMS entries of an ATTN
  streamsOk : Bool := true                -- every stream named belongs to the job

/-- Descriptor fields. -/
def cOp (d : List Byte) : Nat := getLE d 0 1
def cWaitEn (d : List Byte) : Bool := bit (getLE d 1 1) 0
def cSignalEn (d : List Byte) : Bool := bit (getLE d 1 1) 1
def cNotify (d : List Byte) : Bool := bit (getLE d 1 1) 2
def cRef (d : List Byte) : Bool := bit (getLE d 1 1) 3
def cTag (d : List Byte) : Nat := getLE d 2 2
def cWaitPeg (d : List Byte) : Nat := getLE d 4 2
def cSignalPeg (d : List Byte) : Nat := getLE d 6 2
def cWaitTarget (d : List Byte) : Nat := getLE d 8 4
def cRecipe (d : List Byte) : Nat := getLE d 12 2
def cSignalInc (d : List Byte) : Nat := getLE d 14 2

def opNop : Nat := 0x00
def opCopy : Nat := 0x01
def opGather : Nat := 0x02
def opMatmul : Nat := 0x10
def opAttn : Nat := 0x18
def opVector : Nat := 0x20
def opQuant : Nat := 0x28
def opPrism : Nat := 0x30
def opTopk : Nat := 0x38

/-- Opcodes of Table 02-6. -/
def opListed (op : Nat) : Bool := [opNop, opCopy, opGather, opMatmul, opAttn, opVector, opQuant, opPrism, opTopk].contains op

/-- Element size of format code 0 or 1. -/
def wideSize (f : Nat) : Nat := if f = 0 then 4 else 2

/-- VECTOR sub-operations that use Y, and those that use W (Table 02-10). -/
def subUsesY (x : Nat) : Bool := [0x01, 0x02, 0x03, 0x0B, 0x18].contains x
def subUsesW (x : Nat) : Bool := [0x03, 0x10, 0x18].contains x
def subListed (x : Nat) : Bool :=
  [0x01, 0x02, 0x03, 0x04, 0x08, 0x09, 0x0A, 0x0B, 0x0C, 0x10, 0x11, 0x12, 0x13, 0x18].contains x

/-- The shim takes part, as far as is known. -/
def Eff.shimYes (e : Eff) : Bool := e.shim == some true

/-- The extents whose size is known (R64). A fabric address appears as an input like any other. -/
def cmdExts (d : List Byte) (e : Eff) : List Ext :=
  let a := fun o => getLE d o 8
  match cOp d with
  | 0x01 => [⟨a 16, getLE d 32 4, false⟩, ⟨a 24, getLE d 32 4, true⟩]
  | 0x02 =>
    let rb := getLE d 40 4
    let rows := getLE d 44 2
    [⟨a 16, getLE d 48 4 * rb, false⟩, ⟨a 24, 4 * rows, false⟩, ⟨a 32, rows * rb, true⟩]
  | 0x10 =>
    let m := getLE d 56 2
    let n := getLE d 58 2
    let k := getLE d 60 2
    let fs := getLE d 62 2
    let fd := field fs 11 8
    let fb := field fs 7 4
    (match e.fmt with
      | some fa => [⟨a 16, tensorBytes fa m k, false⟩]
      | none => []) ++
    [⟨a 24, tensorBytes fb k n, false⟩] ++
    (if bit fs 12 then [⟨a 32, m * n * wideSize fd, false⟩] else []) ++
    [⟨a 40, m * n * wideSize fd, true⟩] ++
    (if e.shimYes then
      ⟨a 48, 256, false⟩ ::
      (match e.desc with
       | some b => [⟨getLE b 0 8, round128 (k * getLE b 16 1), false⟩, ⟨getLE b 8 8, round128 (n * getLE b 16 1), false⟩]
       | none => [])
     else [])
  | 0x18 =>
    let p := getLE d 48 2 * getLE d 52 1
    [⟨a 16, p * getLE d 53 1 * 256, false⟩, ⟨a 24, p * getLE d 53 1 * 256, true⟩, ⟨a 32, 4 * getLE d 48 2, false⟩,
     ⟨a 40, 512 * p, false⟩]
  | 0x20 =>
    let r := getLE d 48 2
    let c := getLE d 50 2
    let sub := getLE d 52 1
    let fi := wideSize (field (getLE d 53 1) 3 0)
    let fo := wideSize (field (getLE d 53 1) 7 4)
    let yb := bit (getLE d 54 1) 0
    let ck := getLE d 55 1
    [⟨a 16, r * c * fi, false⟩] ++
    (if subUsesY sub then [⟨a 24, (if yb then c else if sub = 0x18 then r * ck * c else r * c) * fi, false⟩] else []) ++
    [⟨a 32, (if sub = 0x12 || sub = 0x13 then r else r * c) * fo, true⟩] ++
    (if subUsesW sub then [⟨a 40, if sub = 0x18 then r * ck * 4 else if sub = 0x10 then c * fi else r * c * fi, false⟩] else [])
  | 0x28 =>
    let r := getLE d 32 2
    let c := getLE d 34 2
    [⟨a 16, r * c * wideSize (getLE d 36 1 % 16), false⟩] ++
    (match e.fmt with
      | some f => [⟨a 24, tensorBytes f r c, true⟩]
      | none => [])
  | 0x30 =>
    let n := getLE d 32 2 * getLE d 34 2 * wideSize (getLE d 37 1 % 16)
    [⟨a 16, n, false⟩, ⟨a 24, n, true⟩]
  | 0x38 =>
    let r := getLE d 40 2
    let c := getLE d 42 2
    let k := getLE d 44 1
    [⟨a 16, r * c * wideSize (getLE d 46 1 % 16), false⟩, ⟨a 24, round128 (r * k * 4) + round128 (r * k * 2), true⟩] ++
    (if bit (getLE d 45 1) 0 then [⟨a 32, 4 * c, false⟩] else [])
  | _ => []

/-- Every operand address that is checked for form: (address, is an output). -/
def cmdAddrs (d : List Byte) (e : Eff) : List (Nat × Bool) :=
  let a := fun o => getLE d o 8
  match cOp d with
  | 0x10 => (a 16, false) :: (cmdExts d { e with fmt := none }).map (fun x => (x.addr, x.out))
  | 0x28 => [(a 16, false), (a 24, true)]
  | _ => (cmdExts d e).map (fun x => (x.addr, x.out))

/-! ### The causes, code by code (Table 02-11) -/

/-- Reserved bits and bytes of each layout, and fields required to be 0: code 0x002. -/
def cause2 (d : List Byte) (e : Eff) : Bool :=
  let op := cOp d
  let fl := getLE d 1 1
  let nz := fun o n => getLE d o n != 0
  let header := decide (fl / 16 ≠ 0) || decide (32768 ≤ cWaitPeg d) || decide (32768 ≤ cSignalPeg d) || decide (4096 ≤ cRecipe d) ||
    (!cWaitEn d && (cWaitPeg d != 0 || cWaitTarget d != 0)) ||
    (!cSignalEn d && (cSignalPeg d != 0 || cSignalInc d != 0)) || (cSignalEn d && cSignalInc d == 0) ||
    (op != opMatmul && op != opQuant && cRecipe d != 0) ||
    (cRef d && !([opMatmul, opAttn, opVector, opQuant, opPrism].contains op))
  let body := match op with
    | 0x00 => nz 16 48
    | 0x01 => nz 36 28
    | 0x02 => nz 46 2 || nz 52 12
    | 0x10 =>
      let fs := getLE d 62 2
      bit fs 15 || (!bit fs 12 && nz 32 8) || (!bit fs 13 && nz 48 8) ||
      (match e.desc with
       | some b => (slice b 17 111).any (· != 0) || (slice b (128 + 4 * min 32 (getLE b 16 1)) (128 - 4 * min 32 (getLE b 16 1))).any (· != 0) ||
           !adBitsOk (getLE b 0 8) || !adBitsOk (getLE b 8 8)
       | none => false)
    | 0x18 => decide (8 ≤ getLE d 54 2) || nz 60 4 ||
      (match e.streams with
       | some xs => xs.any (fun x => decide (16384 ≤ x))
       | none => false)
    | 0x20 =>
      let sub := getLE d 52 1
      !subListed sub || decide (2 ≤ getLE d 54 1) || (sub != 0x18 && nz 55 1) || nz 60 4 || (!subUsesY sub && nz 24 8) ||
      (!subUsesW sub && nz 40 8)
    | 0x28 => decide (2 ≤ getLE d 37 1) || nz 38 26
    | 0x30 => decide (16 ≤ getLE d 37 1) || decide (2 ≤ getLE d 38 1) || nz 39 1 || nz 48 16
    | 0x38 => decide (4 ≤ getLE d 45 1) || decide (16 ≤ getLE d 46 1) || nz 47 1 || nz 48 16 || (!bit (getLE d 45 1) 0 && nz 32 8)
    | _ => false
  header || body || (cmdAddrs d e).any (fun x => !adBitsOk x.1)

/-- Family of a MATMUL operand format (R71): 1 float, 2 integer, 3 BF16, 0 none. -/
def fmtFamily (f : Nat) : Nat := if floatFamily f then 1 else if intFamily f then 2 else if f = 1 then 3 else 0

/-- Formats and pairings: code 0x004. -/
def cause4 (d : List Byte) (e : Eff) : Bool :=
  let wide := fun f => decide (f ≤ 1)
  match cOp d with
  | 0x10 =>
    let fs := getLE d 62 2
    let fb := fmtFamily (field fs 7 4)
    !wide (field fs 11 8) || fb == 0 ||
    (match e.fmt with
     | some fa => fmtFamily fa != fb
     | none => false) || (e.shimYes && fb == 3)
  | 0x20 => !wide (getLE d 53 1 % 16) || !wide (getLE d 53 1 / 16)
  | 0x28 => !wide (getLE d 36 1 % 16) ||
    (match e.fmt with
     | some f => !(decide (2 ≤ f) && decide (f ≤ 7))
     | none => false)
  | 0x30 => !wide (getLE d 37 1 % 16)
  | 0x38 => !wide (getLE d 46 1 % 16)
  | _ => false

/-- An FP32 pattern is finite and positive. -/
def fp32FinitePos (p : Nat) : Bool := decide (0 < p) && decide (p < 0x7F800000)

/-- Dimensions and numeric fields: code 0x005. `layers` is the manifest's layer count. -/
def cause5 (layers : Nat) (d : List Byte) (e : Eff) : Bool :=
  match cOp d with
  | 0x01 => getLE d 32 4 % 16 != 0 || decide (getLE d 32 4 < 16) || decide (4194304 < getLE d 32 4)
  | 0x02 => getLE d 40 4 % 16 != 0 || decide (getLE d 40 4 < 16) || decide (65536 < getLE d 40 4) || getLE d 44 2 == 0 || getLE d 48 4 == 0
  | 0x10 =>
    let k := getLE d 60 2
    let mx := isMX (field (getLE d 62 2) 7 4) || (match e.fmt with
      | some fa => isMX fa
      | none => false)
    getLE d 56 2 == 0 || getLE d 58 2 == 0 || decide (k < 16) || decide (65520 < k) || k % (if mx then 32 else 16) != 0 ||
    (match e.desc with
     | some b => !([8, 16, 24, 32].contains (getLE b 16 1))
     | none => false)
  | 0x18 => decide (layers ≤ getLE d 50 1) || getLE d 53 1 == 0 || decide (16 < getLE d 53 1) || !fp32FinitePos (getLE d 56 4)
  | 0x20 => getLE d 48 2 == 0 || getLE d 50 2 == 0 || (getLE d 52 1 == 0x18 && (getLE d 55 1 == 0 || decide (16 < getLE d 55 1)))
  | 0x28 => getLE d 32 2 == 0 || getLE d 34 2 == 0 ||
    (match e.fmt with
     | some f => decide (blockSize f ≠ 0) && getLE d 34 2 % blockSize f != 0
     | none => getLE d 34 2 % 16 != 0) ||
    (match e.rotLog with
     | some l => bit (getLE d 37 1) 0 && l != 0 && getLE d 34 2 % 2 ^ l != 0
     | none => false)
  | 0x30 =>
    let l := getLE d 36 1
    getLE d 32 2 == 0 || getLE d 34 2 == 0 || decide (l < 5) || decide (12 < l) || getLE d 34 2 % 2 ^ l != 0
  | 0x38 =>
    let k := getLE d 44 1
    let c := getLE d 42 2
    getLE d 40 2 == 0 || c == 0 || decide (1024 < c) || k == 0 || decide (16 < k) || decide (c < k)
  | _ => false

/-- Two extents of one space meet. -/
def extsMeet (x y : Ext) : Bool :=
  adSpace x.addr == adSpace y.addr && decide (adLocal x.addr < adLocal y.addr + y.size) && decide (adLocal y.addr < adLocal x.addr + x.size)

/-- The stream and head-group limits of ATTN are broken (R73). -/
def attnOver (d : List Byte) : Bool :=
  let sc := getLE d 48 2
  let hg := getLE d 51 1
  let hc := getLE d 52 1
  sc == 0 || decide (64 < sc) || decide (15 < hg) || hc == 0 || decide (4 < hc) || decide (16 < hg + hc) || decide (64 < sc * hc)

/-- Array-work and load-byte limits: code 0x00A (R72, R78, R128); for a reference command every limit, those of R73 among them (R116). -/
def causeA (d : List Byte) (e : Eff) : Bool :=
  let load := ((cmdExts d e).filter (fun x => !x.out)).foldl (fun t x => t + x.size) 0
  match cOp d with
  | 0x18 => cRef d && attnOver d
  | 0x02 => decide (4194304 < getLE d 44 2 * getLE d 40 4 + 4 * getLE d 44 2)
  | 0x10 =>
    let m := getLE d 56 2
    let n := getLE d 58 2
    let k := getLE d 60 2
    let arr := ceilDiv k 128 * ceilDiv n 256 * max m 32
    let rank := match e.desc with
      | some b => if e.shimYes then getLE b 16 1 else 0
      | none => 0
    decide (4194304 < load) ||
    (if cRef d then decide (65536 < arr * 128 + ceilDiv (m * rank * (k + n)) 64)
     else decide (65536 < arr) || decide (65536 < ceilDiv (m * rank * (k + n)) 1024))
  | _ => decide (4194304 < load)

/-- Recipe index: code 0x00B. -/
def causeB (d : List Byte) (e : Eff) : Bool :=
  !e.recipeOk || (cOp d == opQuant && bit (getLE d 37 1) 0 && (cRecipe d == 0 || e.rotLog == some 0))

/-- Stream and head-group limits of ATTN: code 0x00C (R73). -/
def causeC (d : List Byte) : Bool := cOp d == opAttn && attnOver d

/-- The lowest code of Table 02-11 that applies, with what is known. `owned` tells the pegs of the job, `part` its partition size. -/
def cmdCause (owned : Nat → Bool) (part layers : Nat) (d : List Byte) (e : Eff) : Option Nat :=
  let exts := cmdExts d e
  let align := if cOp d == opCopy then 16 else 128
  let addrs := cmdAddrs d e
  if !opListed (cOp d) then some 0x001
  else if cause2 d e then some 0x002
  else if (cWaitEn d && !owned (cWaitPeg d)) || (cSignalEn d && !owned (cSignalPeg d)) then some 0x003
  else if cause4 d e then some 0x004
  else if cause5 layers d e then some 0x005
  else if addrs.any (fun x => x.1 % align != 0) then some 0x006
  else if addrs.any (fun x => adSpace x.1 == 3 || (x.2 && adSpace x.1 == 2)) then some 0x007
  else if exts.any (fun x => adSpace x.addr == 1 && decide (part < adOff x.addr + x.size)) then some 0x008
  else if exts.any (fun o => o.out && exts.any (fun i => !i.out && extsMeet i o)) then some 0x009
  else if causeA d e then some 0x00A
  else if causeB d e then some 0x00B
  else if causeC d then some 0x00C
  else if !e.streamsOk then some 0x00D
  else none

/-- What the first stage knows: with RECIPE 0 the fields stand as written; under a named recipe the field it may override waits (R82). -/
def stage1Eff (d : List Byte) : Eff :=
  if cOp d == opMatmul then
    let fs := getLE d 62 2
    if cRecipe d = 0 then { fmt := some (fs % 16), shim := some (bit fs 13) }
    else { fmt := none, shim := if bit fs 13 then none else some false }
  else if cOp d == opQuant then { fmt := if cRecipe d = 0 then some (getLE d 36 1 / 16) else none, shim := some false }
  else { fmt := none, shim := some false }

/-- The first stage of R82. -/
def State.legal1 (s : State) (b job : Nat) (d : List Byte) : Option Nat :=
  let layers := match s.job job with
    | some j => manLayers j.manifest
    | none => 0
  cmdCause (fun p => s.pegOwned p job) (s.partition b job).2 layers d (stage1Eff d)

end Sys2Proof.Machine
end

