-- ==== Sys2Proof/Machine/Waits.lean ====
section
/-!
DEFINITION. How a unit's access ends when it cannot be served: the wait on a deep-tier page, the fault on a bad mapping or a poisoned line, and the
loads of operands in the three spaces (R52, R62, R234–R237, R390, R562).
-/

namespace Sys2Proof.Machine

open Sys2Proof

/-! ### Waiting and faulting (Tables 07-7 and 07-27) -/

/-- UNIT and BAY of MIGRATE_LAST_FAULT. -/
def unitCode : UnitId → Nat × Nat
  | .core b _ => (0, b)
  | .bayDma b _ => (1, b)
  | .dovetail b => (2, b)
  | .scribe b => (3, b)
  | .hostDma _ => (4, 0)
  | .media => (6, 0)
  | .sched => (4, 0)
  | .weights => (4, 0)
  | .fetch => (4, 0)

/-- The cores run a pass, not a run. -/
def State.inPass (s : State) : Bool :=
  match s.holder with
  | some (.pass _) => true
  | some (.tail _) => true
  | _ => false

/-- An access of pass work: MIGRATE_DEMAND_PASS counts it when it meets a page of the deep tier (R236). -/
def State.passUnit (s : State) (u : UnitId) : Bool :=
  match u with
  | .core _ _ => s.inPass
  | .scribe _ => s.inPass
  | _ => false

/-- A resolvable fault: the unit parks, and the resolver issues a demand promotion with a deadline 9,830 ct away unless the page is being
promoted already, through this leaf or another one (R235, R236, R296, Table 07-8). -/
def State.park (s : State) (u : UnitId) (job vp : Nat) : State :=
  let again := s.parked.any (fun x => x.unit == u && x.job == job && x.vpage == vp)
  let s := if again then s
    else { s with parked := s.parked ++ [{ unit := u, job := job, vpage := vp, deadline := s.nowN + 9830 }] }
  let s := if !again && s.passUnit u then s.count .migrate 0x128 1 else s
  let page := (s.leafOf job vp).map (·.page)
  if s.moves.any (fun m => m.dest != 2 && (m.isOf job vp || (match page with
      | some p => s.movesPage p m
      | none => false))) then s
  else
    let near := match s.leafOf job vp with
      | some l => l.cls == 2
      | none => false
    let m : Move := { job := job, vpage := vp, kind := .demand, dest := if near then 0 else 1, deadline := s.nowN + 9830, age := s.nowN }
    (({ s with moves := s.moves ++ [m] }).count .migrate 0x124 1).showMigrate

/-- A unit's wait on a page has ended. -/
def State.unpark (s : State) (u : UnitId) : State := { s with parked := s.parked.filter (fun x => x.unit != u) }

/-- An unresolvable access of pass or run work: a contained fault of the translation or memory class (R234, R562). A poisoned line of bay
memory is reported by the bay. -/
def State.unitFault (s : State) (u : UnitId) (code job va : Nat) : State := s.transFault code job va (unitCode u).1 (unitCode u).2

def State.unitPoison (s : State) (job pa va : Nat) : State :=
  match place s.isH pa with
  | .bay b => s.contained (.bay b)
      { code := 0x5003, sev := 3, key := lineKey pa, detail := memDetail s.isH pa va, job := some job }
  | _ => s.poisonFault job pa va

/-! ### The remote read cache (R52, R53) -/

/-- Key of a line: bay, job, endpoint, window, line of the window. -/
def rrcKey (b job ep win line : Nat) : Nat := (((b * 8 + job % 8) * 1024 + ep % 1024) * 4096 + win % 4096) * 2 ^ 33 + line % 2 ^ 33
def rrcJobOf (k : Nat) : Nat := k / 2 ^ 33 / 4096 / 1024 % 8
def rrcBayOf (k : Nat) : Nat := k / 2 ^ 33 / 4096 / 1024 / 8

/-- Fill one line: 2,048 sets of 16 ways, the set chosen by the line number, the way given up by a free value (log 51). -/
def State.rrcFill (s : State) (b k : Nat) (line : List Byte) : State :=
  let set := (s.rrc.filter (fun e => rrcBayOf e.1 == b && e.1 % 2048 == k % 2048 && e.1 != k)).map (·.1)
  if set.length < 16 then { s with rrc := mset s.rrc k line }
  else
    let v := set.getD (Config.freeNat s.freeCtr % 16) 0
    { s.useFree with rrc := mset (mdel s.rrc v) k line }

/-- Reads outstanding for bays and jobs that `p` selects fill the cache no more: what they return may be older than the invalidation (R53). -/
def State.staleReads (s : State) (p : Nat → Nat → Bool) : State :=
  { s with reqs := s.reqs.map (fun (r : Req) => match r.unit with
    | .core b _ => if p b r.job && r.pkt.typ == tLineRead then { r with stale := true } else r
    | _ => r) }

/-- Key of a line in a unit's own list. -/
def lineKeyOf (ep win line : Nat) : Nat := (ep % 1024 * 4096 + win % 4096) * 2 ^ 33 + line % 2 ^ 33

/-- The lines of a fabric extent. -/
def fabLines (addr n : Nat) : List Nat :=
  if n = 0 then [] else (List.range ((adFabOff addr + n - 1) / 128 - adFabOff addr / 128 + 1)).map (· + adFabOff addr / 128)

/-! ### Loads (R62) -/

/-- Bytes of a fabric extent from the lines read. -/
def fabBytes (lines : List (Nat × List Byte)) (addr n : Nat) : List Byte :=
  let bs := (fabLines addr n).flatMap (fun l => slice ((mget lines (lineKeyOf (adEp addr) (adWin addr) l)).getD []) 0 128)
  slice bs (adFabOff addr % 128) n

/-- Load an operand of a unit of a bay: job memory, the job's partition, or fabric lines already here. -/
def State.load (s : State) (b job : Nat) (lines : List (Nat × List Byte)) (addr n : Nat) : Acc (List Byte) :=
  match adSpace addr with
  | 0 => s.readVa job (adVa addr) n
  | 1 => s.readBay b ((s.partition b job).1 + adOff addr) n
  | _ => .ok (fabBytes lines addr n)

/-- Store an operand; a fabric address is never an output of a core. -/
def State.store (s : State) (b job addr : Nat) (bs : List Byte) : Acc State :=
  match adSpace addr with
  | 0 => s.writeVa job (adVa addr) bs
  | _ => .ok (s.writeBay b ((s.partition b job).1 + adOff addr) bs)

/-- The accesses of a unit to job memory are counted. -/
def State.touchAddr (s : State) (job addr n : Nat) : State :=
  if adSpace addr == 0 && n != 0 then s.touch job (adVa addr) n else s

def Acc.map2 {α β γ : Type} (f : α → β → γ) (x : Acc α) (y : Acc β) : Acc γ := x.bind (fun a => y.bind (fun b => .ok (f a b)))

end Sys2Proof.Machine
end

