-- ==== Sys2Proof/Machine/Arena.lean ====
section
/-!
DEFINITION. Stream entries, the key-value arena and its page tables, and the staging descriptors (R139–R150, R154, R161, R164–R174, R328).
-/

namespace Sys2Proof.Machine

open Sys2Proof

/-! ### Stream entries (Table 10-6) -/

def Stream.u (x : Stream) (o n : Nat) : Nat := getLE x.e o n
def Stream.put (x : Stream) (o n v : Nat) : Stream := { x with e := putBytes x.e o (leBytes n v) }
/-- STATE: 1 active, 2 parking, 3 parked, 4 resuming, 5 closing. -/
def Stream.st (x : Stream) : Nat := x.u 0 1 % 16
def Stream.job (x : Stream) : Nat := x.u 1 1 % 8
def Stream.client (x : Stream) : Nat := x.u 2 1 % 64
def Stream.cls (x : Stream) : Nat := x.u 2 1 / 64
def Stream.flag (x : Stream) (i : Nat) : Bool := bit (x.u 3 1) i
def Stream.len (x : Stream) : Nat := x.u 4 4
def Stream.dir (x : Stream) : Nat := x.u 8 8
def Stream.adapter (x : Stream) : Nat := x.u 16 2 % 4096
def Stream.maxPages (x : Stream) : Nat := x.u 18 2
def Stream.frameCt (x : Stream) : Nat := x.u 20 4
def Stream.nextOut (x : Stream) : Nat := x.u 24 8
def Stream.lead (x : Stream) : Nat := x.u 32 4
def Stream.inNext (x : Stream) : Nat := x.u 36 4
def Stream.outSeq (x : Stream) : Nat := x.u 100 4
/-- Pages below the committed length. -/
def Stream.pages (x : Stream) : Nat := ceilDiv x.len 16

def State.stream (s : State) (n : Nat) : Option Stream := mget s.streams n
def State.setStream (s : State) (n : Nat) (x : Stream) : State := { s with streams := mset s.streams n x }
def State.modStream (s : State) (n : Nat) (f : Stream → Stream) : State := { s with streams := mmod s.streams n f }

/-- Flag a stream DEGRADED in its entry (Table 10-6). -/
def State.degrade (s : State) (n : Nat) : State :=
  s.modStream n (fun x => x.put 3 1 (Nat.lor (x.u 3 1) 1))

/-! ### The arena (Table 05-3) -/

def Job.dataBase (j : Job) : Nat := j.u 0 8
def Job.sideBase (j : Job) : Nat := j.u 8 8
def Job.frames (j : Job) : Nat := j.u 16 4
def Job.penRecords (j : Job) : Nat := j.u 20 4
def Job.penBase (j : Job) : Nat := j.u 24 8
def Job.layers (j : Job) : Nat := j.u 32 2
def Job.hg (j : Job) : Nat := j.u 34 1
def Job.frameVa (j : Job) (f : Nat) : Nat := j.dataBase + f * 2048
def Job.sideVa (j : Job) (f : Nat) : Nat := j.sideBase + f * 128
def Job.penVa (j : Job) (p : Nat) : Nat := j.penBase + p * 640

def Arena.resv (a : Arena) : Nat := (a.reserved.flatMap (·.2)).foldl (fun t x => t + x.2) 0

/-- SCRIBE_JOB_FREEj and RESVj on every bay's page (R146, R176). -/
def State.showArena (s : State) (n : Nat) : State :=
  let v : Nat × Nat := match s.job n with
    | some j => (j.frames - j.arena.used.length, j.arena.resv)
    | none => (0, 0)
  (List.range 16).foldl (fun s b =>
    (s.setPreg (.scribe b) (0x180 + 4 * n) (BitVec.ofNat 32 v.1)).setPreg (.scribe b) (0x1A0 + 4 * n) (BitVec.ofNat 32 v.2)) s

def State.modArena (s : State) (n : Nat) (f : Arena → Arena) : State :=
  (s.modJob n (fun j => { j with arena := f j.arena })).showArena n

/-- A free frame, or an even-aligned free pair: the search starts anywhere (log 52). -/
def Job.findFrame (j : Job) (start n : Nat) : Option Nat :=
  if n = 1 then searchFrom j.frames (fun f => !j.arena.used.contains f) (start % (j.frames + 1)) j.frames
  else (searchFrom (j.frames / 2) (fun f => !j.arena.used.contains (2 * f) && !j.arena.used.contains (2 * f + 1))
    (start % (j.frames / 2 + 1)) (j.frames / 2)).map (2 * ·)

def Arena.take (a : Arena) (f n : Nat) : Arena :=
  { a with used := if n = 2 then sinsert (sinsert a.used f) (f + 1) else sinsert a.used f }
def Arena.drop (a : Arena) (f n : Nat) : Arena :=
  { a with used := a.used.filter (fun x => x != f && (n != 2 || x != f + 1)) }

/-- A free penumbra record: index 0 is never used; the search starts anywhere (log 52). -/
def Job.findPen (j : Job) (start : Nat) : Option Nat :=
  searchFrom j.penRecords (fun p => p != 0 && !j.arena.usedPen.contains p) (start % (j.penRecords + 1)) j.penRecords

/-- Release a penumbra record. -/
def Arena.dropPen (a : Arena) (p : Nat) : Arena := { a with usedPen := a.usedPen.filter (· != p) }

/-- A stream's reservation ends: its frames are free (R161). -/
def Arena.unreserve (a : Arena) (n : Nat) : Arena :=
  ((mget a.reserved n).getD []).foldl (fun a x => a.drop x.1 x.2) { a with reserved := mdel a.reserved n }

/-! ### Page lists (R139, R147, Tables 05-4 to 05-6) -/

/-- One page list: job, stream, layer, head group. -/
structure ListKey where
  job : Nat
  stream : Nat
  layer : Nat
  group : Nat
deriving DecidableEq, Repr

def listNum (k : ListKey) : Nat := ((k.job % 8 * 16384 + k.stream % 16384) * 256 + k.layer % 256) * 16 + k.group % 16
/-- A page of a list as one number, for the fallback log. -/
def pageNum (k : ListKey) (p : Nat) : Nat := listNum k * 4096 + p % 4096

def dirVa (x : Stream) (hg layer g : Nat) : Nat := x.dir + (layer * hg + g) * 8
def dirValid (d : Nat) : Bool := bit d 63 && field d 61 52 == 0 && field d 6 0 == 0
def dirKv8 (d : Nat) : Bool := bit d 62
def dirSpan (d : Nat) : Nat := field d 51 7 * 128
def spanValid (x : Nat) : Bool := bit x 63 && field x 62 52 == 0 && field x 10 0 == 0
def spanLeaf (x : Nat) : Nat := field x 51 11 * 2048

def pteState (e : Nat) : Nat := field e 63 62
def pteFlash (e : Nat) : Bool := bit e 61
def ptePen (e : Nat) : Nat := field e 59 32
def pteFrame (e : Nat) : Nat := e % 2 ^ 32
def pteMake (st : Nat) (flash : Bool) (pen frame : Nat) : Nat :=
  st % 4 * 2 ^ 62 + b2n flash * 2 ^ 61 + pen % 2 ^ 28 * 2 ^ 32 + frame % 2 ^ 32

/-- Read an aligned 8-byte word of a job. -/
def State.readWord8 (s : State) (job va : Nat) : Acc Nat := (s.readVa job va 8).bind (fun bs => .ok (getLE bs 0 8))

/-- Where the entry of page `p` lies, from the list's directory entry; none when a table above it is not valid. -/
def State.pteVa (s : State) (k : ListKey) (x : Stream) (hg p : Nat) : Acc (Option Nat) :=
  (s.readWord8 k.job (dirVa x hg k.layer k.group)).bind fun d =>
    if !dirValid d then .ok none
    else (s.readWord8 k.job (dirSpan d + p / 256 * 8)).bind fun sp =>
      if !spanValid sp then .ok none else .ok (some (spanLeaf sp + p % 256 * 8))

/-- Show a bay's look-aside occupancy (Table 05-15). -/
def State.showLab (s : State) (b : Nat) : State :=
  s.putPreg (.scribe b) 0x100 8 0 ((mget s.lab b).getD []).length

def labKey (k : ListKey) (p : Nat) : Nat := listNum k * 256 + p / 16 % 256

/-- The job and stream of a look-aside line , from its tag (R152). -/
def labStream (key : Nat) : Nat × Nat := (key / 2 ^ 20 / 16384, key / 2 ^ 20 % 16384)

/-- Drop look-aside lines in every bay (R154). -/
def State.labDrop (s : State) (gone : Nat → Bool) : State :=
  let s := { s with lab := s.lab.map (fun e => (e.1, e.2.filter (fun x => !gone x))) }
  (List.range 16).foldl State.showLab s

/-- Change a page-table entry: the leaf line leaves every look-aside buffer first, then one 8-byte store (R150, R154). -/
def State.setPte (s : State) (k : ListKey) (x : Stream) (hg p v : Nat) : State :=
  match s.pteVa k x hg p with
  | .ok (some va) =>
    match (s.labDrop (· == labKey k p)).writeVa k.job va (leBytes 8 v) with
    | .ok s => s
    | _ => s
  | _ => s

/-- The entry of a page, 0 where no table reaches it. -/
def State.pte (s : State) (k : ListKey) (x : Stream) (hg p : Nat) : Nat :=
  match s.pteVa k x hg p with
  | .ok (some va) => (match s.readWord8 k.job va with
    | .ok e => e
    | _ => 0)
  | _ => 0

/-- Zero a whole page: frames and sidecars (R160). -/
def State.zeroPage (s : State) (j : Job) (job : Nat) (f w : Nat) : Acc State :=
  (s.writeVa job (j.frameVa f) (List.replicate (2048 * w) 0)).bind fun s =>
    s.writeVa job (j.sideVa f) (List.replicate (128 * w) 0)

/-! ### Penumbra records (Table 05-8) -/

/-- A record and whether its CRC holds. -/
def penOk (r : List Byte) : Bool := getLE r 636 4 == crc32c (slice r 0 636)
def penRef (r : List Byte) : Nat := getLE r 512 4

/-- A stored-state record about an arena page (R173, R279); the spec gives class 0xC no SOURCE but its page: the DEEP page. -/
def State.storedState (s : State) (code : Nat) (k : ListKey) (detail : List Byte) (key : Nat := 0) : State :=
  s.report .deep { code := 0xC000 + code, sev := 2, key := key, detail := detail, job := some k.job }

/-- A park unit is freed once no committed set and no stream names it, and no park in progress has written it (R257). -/
def State.sweepUnits (s : State) : State :=
  let held := s.sets.flatMap (fun e => e.2.units) ++ s.streams.flatMap (fun e =>
    e.2.refs.map (fun r => r.2 % 2 ^ 29) ++
    (match e.2.plan with
     | some p => p.pages.map (fun x => x.2.2.1 % 2 ^ 29)
     | none => []))
  { s with unitKeys := s.unitKeys.filter (fun u => held.contains (if u.2 < 2 ^ 64 then u.1 else u.1 - 1)) }

/-- Place of a page in its stream's lists. -/
def pagePlace (layer group p : Nat) : Nat := (layer % 256 * 16 + group % 16) * 4096 + p % 4096

/-- One page more of a stream is penumbra only: its reference on a park unit ends (R257, Table 10-6). -/
def State.penOnlyPage (s : State) (k : ListKey) (p : Nat) : State :=
  (s.modStream k.stream (fun x => { x.put 104 4 (x.u 104 4 + 1) with
    refs := x.refs.filter (fun r => r.1 != pagePlace k.layer k.group p) })).sweepUnits

/-- An entry becomes penumbra only with no record: FLASH 0, PEN 0, the record released (R165, R173). -/
def State.losePen (s : State) (k : ListKey) (x : Stream) (hg p pen : Nat) : State :=
  (s.setPte k x hg p (pteMake 3 false 0 0)).modArena k.job (·.dropPen pen)

/-! ### Staging descriptors (Table 05-7, R164–R166) -/

def stageDesc (ref deadline : Nat) (k : ListKey) (kv8 : Bool) (p origin : Nat) : List Byte :=
  leBytes 4 ref ++ leBytes 4 0 ++ leBytes 8 deadline ++ leBytes 2 k.stream ++ leBytes 1 k.layer ++ leBytes 1 (k.group + 16 * b2n kv8) ++
    leBytes 2 p ++ leBytes 1 (k.job % 8 + 8 * origin) ++ [0] ++ leBytes 4 0 ++ leBytes 4 0

def Stage.ref (g : Stage) : Nat := getLE g.desc 0 4
def Stage.frame (g : Stage) : Nat := getLE g.desc 4 4
def Stage.deadline (g : Stage) : Nat := getLE g.desc 8 8
def Stage.kv8 (g : Stage) : Bool := bit (getLE g.desc 19 1) 4
def Stage.page (g : Stage) : Nat := getLE g.desc 20 2 % 4096
def Stage.seq (g : Stage) : Nat := getLE g.desc 24 4
def Stage.key (g : Stage) : ListKey := ⟨getLE g.desc 22 1 % 8, getLE g.desc 16 2 % 16384, getLE g.desc 18 1, getLE g.desc 19 1 % 16⟩
def Stage.width (g : Stage) : Nat := if g.kv8 then 2 else 1

/-- The outstanding descriptor of a page. -/
def State.stageOf (s : State) (k : ListKey) (p : Nat) : Option Stage :=
  s.stages.find? (fun g => g.key == k && g.page == p && !g.dropped)

/-- SCRIBE_STAGE_OUT of every bay (Table 05-16). -/
def State.showStages (s : State) : State :=
  (List.range 16).foldl (fun s b =>
    s.setPreg (.scribe b) 0x104 (BitVec.ofNat 32 ((s.stages.filter (fun g => g.issued && g.bay == b)).length))) s

/-- Issue one waiting descriptor when a credit and a frame of its job are free. `held`: jobs with an earlier descriptor that waits for a
frame. -/
def State.issueOne (s : State) (held : List Nat) (g : Stage) : Option (State × Stage) :=
  if held.contains g.key.job || decide (1024 ≤ (s.stages.filter (·.issued)).length) then none
  else match s.job g.key.job with
    | none => none
    | some j =>
      match j.findFrame (Config.freeNat s.freeCtr) g.width with
      | none => none
      | some f =>
        let s := s.useFree.modArena g.key.job (·.take f g.width)
        let d := putBytes (putBytes g.desc 4 (leBytes 4 f)) 24 (leBytes 4 s.stageSeq)
        let s := { s with stageSeq := (s.stageSeq + 1) % 2 ^ 32 }
        some (s.count64 (.scribe g.bay) 0x120 0x124 1, { g with desc := d, issued := true })

/-- Issue in order whatever may be issued (R165). -/
def State.issueLoop (s : State) (held : List Nat) : List Stage → List Stage → State
  | [], acc => { s with stages := acc }
  | g :: rest, acc =>
    if g.issued then s.issueLoop held rest (acc ++ [g])
    else
      match { s with stages := acc ++ g :: rest }.issueOne held g with
      | some (s, g') => s.issueLoop held rest (acc ++ [g'])
      | none => s.issueLoop (g.key.job :: held) rest (acc ++ [g])

def State.issueStages (s : State) : State := (s.issueLoop [] s.stages []).showStages

/-- Lines of a stream leave every look-aside buffer (R154). -/
def State.labDropStream (s : State) (job n : Nat) : State := s.labDrop (fun key => labStream key == (job % 8, n % 16384))

/-- Lines of a job leave every look-aside buffer (R154). -/
def State.labDropJob (s : State) (job : Nat) : State := s.labDrop (fun key => (labStream key).1 == job % 8)

/-- A partial tail page: it holds 1 to 15 committed positions (R171). -/
def Stream.tailAt (x : Stream) (p : Nat) : Bool := decide (x.len / 16 ≤ p)

/-- A tail page whose parked copy cannot be read is never penumbra only (R171): frame `f` is zeroed and becomes the page, resident with no copy and no
record, and the stream is DEGRADED, as R563 repairs a tail page (log 256). -/
def State.zeroTail (s : State) (k : ListKey) (x : Stream) (j : Job) (p pen f w : Nat) : State :=
  match s.zeroPage j k.job f w with
  | .ok s =>
    let s := ((s.setPte k x j.hg p (pteMake 1 false 0 f)).modArena k.job (·.dropPen pen)).degrade k.stream
    (s.modStream k.stream (fun x => { x with refs := x.refs.filter (fun r => r.1 != pagePlace k.layer k.group p) })).sweepUnits
  | _ => s

/-- Ask for a deep page: read its record, and issue a descriptor unless one is outstanding. Whether the record failed its CRC, in which case
the page becomes penumbra only with no record, one error record is written and the stream is flagged DEGRADED (R165); a tail page becomes a page
of zeros instead, or stays deep until a frame is free (log 256). -/
def State.askStage (s : State) (bay : Nat) (k : ListKey) (x : Stream) (j : Job) (p pen : Nat) (kv8 : Bool) (deadline origin : Nat) : Acc (State × Bool) :=
  if (s.stageOf k p).isSome then .ok (s, false)
  else (s.readVa k.job (j.penVa pen) 640).bind fun r =>
    if penOk r then
      let g : Stage := { bay := bay, desc := stageDesc (penRef r) deadline k kv8 p origin }
      .ok ({ s with stages := s.stages ++ [g] }.issueStages, false)
    else
      let told := fun (s : State) => s.storedState 0x109 k (stageDesc 0 deadline k kv8 p origin)
      if x.tailAt p then
        match j.findFrame (Config.freeNat s.freeCtr) (if kv8 then 2 else 1) with
        | none => .ok (s, true)
        | some f =>
          let w := if kv8 then 2 else 1
          .ok (told ((s.useFree.modArena k.job (·.take f w)).zeroTail k x j p pen f w), true)
      else .ok (told (((s.losePen k x j.hg p pen).degrade k.stream).penOnlyPage k p), true)

end Sys2Proof.Machine
end

