-- ==== Sys2Proof/Machine/Compute.lean ====
section
/-!
DEFINITION. What each core command computes from its operand bytes: the output bytes and the trouble it counts (R70, R74–R77, R96–R108,
R114, R120–R122, R133, R177, R178). Nothing here reads the state.
-/

namespace Sys2Proof.Machine

open Sys2Proof

/-! ### Wide data -/

/-- Element `i` of FP32 (0) or BF16 (1) data, as an FP32 pattern; BF16 widens exactly. -/
def wideAt (f : Nat) (bs : List Byte) (i : Nat) : Nat :=
  if f = 0 then getLE bs (4 * i) 4 else widen16 (getLE bs (2 * i) 2)

def wideList (f : Nat) (bs : List Byte) (n : Nat) : List Nat := (List.range n).map (wideAt f bs)

/-- An exact value rounded once to the output format. -/
def roundWide (f : Nat) (ref : Bool) (x : Num) : Nat := if f = 0 then r32 ref x else fmt16.round ref x

/-- An FP32 result rounded to the output format. -/
def toWide (f : Nat) (ref : Bool) (p : Nat) : Nat := if f = 0 then p else narrow16 ref p

def storeWide (f : Nat) (ps : List Nat) : List Byte := ps.flatMap (leBytes (wideSize f))

/-- Output elements stored as NaN or infinity (Table 04-4). -/
def overflows (f : Nat) (ps : List Nat) : Nat :=
  (ps.filter (fun p => if f = 0 then field p 30 23 == 255 else field p 14 7 == 255)).length

/-! ### MATMUL -/

/-- D of a MATMUL. `sh`: the shim descriptor, U plane and V plane. -/
def matmulOut (d : List Byte) (fa : Nat) (a b cin : List Byte) (sh : Option (List Byte × List Byte × List Byte)) :
    List Byte × Trouble :=
  let m := getLE d 56 2
  let n := getLE d 58 2
  let k := getLE d 60 2
  let fs := getLE d 62 2
  let fb := field fs 7 4
  let fd := field fs 11 8
  let ref := cRef d
  let opA := matOp fa ref m k true a
  let opB : MatOp :=
    if bit fs 14 then
      let t := matOp fb ref n k true b
      { elem := fun i j => t.elem j i, scale := fun i j => t.scale j i }
    else matOp fb ref k n false b
  let w := stepWidth fa fb
  let shim : Option ShimOp := sh.map (fun x =>
    let r := getLE x.1 16 1
    { rank := r
      u := matOp 8 ref k r true x.2.1
      v := fun j c => e4m3 (getLE x.2.2 (j * r + c) 1)
      sigma := fun c => getLE x.1 (128 + 4 * c) 4 })
  let ps := (List.range (m * n)).map (fun i =>
    let cv := if bit fs 12 then some (getLE cin (wideSize fd * i) (wideSize fd)) else none
    matmulElement ref w k fd opA opB shim cv (i / n) (i % n))
  (storeWide fd ps, { overflow := overflows fd ps })

/-! ### VECTOR -/

/-- One element of an element-wise sub-operation, in the output format (R102, R112, Table 03-8). -/
def vecElem (sub fo : Nat) (ref : Bool) (imm x y w : Nat) : Nat :=
  let nx := d32 ref x
  let ny := d32 ref y
  match sub with
  | 0x01 => roundWide fo ref (nx.add ny)
  | 0x02 => roundWide fo ref (nx.mul ny)
  | 0x03 => roundWide fo ref ((nx.mul ny).add (d32 ref w))
  | 0x04 => roundWide fo ref (nx.mul (d32 ref imm))
  | 0x08 => toWide fo ref (fp32Exp ref x)
  | 0x09 => toWide fo ref (fp32Recip ref x)
  | 0x0A => toWide fo ref (fp32Rsqrt ref x)
  | 0x0B => toWide fo ref (fp32SiluMul ref x y)
  | _ => toWide fo ref (fp32Sigmoid ref x)

/-- One element of COMBINE (R102); in reference mode the sum is exact and rounded once to FP32. -/
def vecCombine (ref : Bool) (x : Nat) (ws ys : List Nat) : Nat :=
  if ref then r32 true (Num.sum (d32 true x :: List.zipWith (fun w y => (d32 true w).mul (d32 true y)) ws ys))
  else (List.zip ws ys).foldl (fun acc p => fp32Fma false p.1 p.2 acc) x

/-- Z of a VECTOR. -/
def vectorOut (d : List Byte) (x y w : List Byte) : List Byte × Trouble :=
  let r := getLE d 48 2
  let c := getLE d 50 2
  let sub := getLE d 52 1
  let fi := getLE d 53 1 % 16
  let fo := getLE d 53 1 / 16
  let yb := bit (getLE d 54 1) 0
  let ck := getLE d 55 1
  let imm := getLE d 56 4
  let ref := cRef d
  let row := fun i => (List.range c).map (fun j => wideAt fi x (i * c + j))
  let yAt := fun i j => wideAt fi y (if yb then j else i * c + j)
  let ps : List Nat := (List.range r).flatMap (fun i =>
    match sub with
    | 0x10 => (rowRmsnorm ref imm (row i) (wideList fi w c)).map (toWide fo ref)
    | 0x11 => (rowSoftmax ref (row i)).map (toWide fo ref)
    | 0x12 => [toWide fo ref (rowSum ref (row i))]
    | 0x13 => [toWide fo ref (rowMax ref (row i))]
    | 0x18 => (List.range c).map (fun j =>
        let ws := (List.range ck).map (fun q => getLE w (4 * (i * ck + q)) 4)
        let ys := (List.range ck).map (fun q => yAt (i * ck + q) j)
        toWide fo ref (vecCombine ref (wideAt fi x (i * c + j)) ws ys))
    | _ => (List.range c).map (fun j => vecElem sub fo ref imm (wideAt fi x (i * c + j)) (yAt i j) (wideAt fi w (i * c + j))))
  (storeWide fo ps, { overflow := overflows fo ps })

/-! ### QUANT, PRISM, TOPK -/

/-- Z of a QUANT to format `fo`, rotated by (`l`, `seed`) when ROTATE is set (R75, R122). -/
def quantOut (d : List Byte) (fo l seed : Nat) (x : List Byte) : List Byte × Trouble :=
  let r := getLE d 32 2
  let c := getLE d 34 2
  let fi := getLE d 36 1 % 16
  let ref := cRef d
  let xs := (List.range r).flatMap (fun i =>
    let row := (List.range c).map (fun j => wideAt fi x (i * c + j))
    if bit (getLE d 37 1) 0 then rotateRow ref false l seed row else row)
  quantTensor fo (xs.map (d32 ref))

/-- Z of a PRISM (R118–R121). -/
def prismOut (d : List Byte) (x : List Byte) : List Byte × Trouble :=
  let r := getLE d 32 2
  let c := getLE d 34 2
  let l := getLE d 36 1
  let f := getLE d 37 1 % 16
  let inv := bit (getLE d 38 1) 0
  let seed := getLE d 40 8
  let ref := cRef d
  let ps := (List.range r).flatMap (fun i =>
    let row := (List.range c).map (fun j => wideAt f x (i * c + j))
    if ref then (rotateRowExact inv l seed (row.map (d32 true))).map (roundWide f true)
    else (rotateRow false inv l seed row).map (toWide f false))
  (storeWide f ps, { overflow := overflows f ps })

/-- Biased value `x` of column `i` ranks above `y` of column `j`: a larger value first, a NaN below every number, the lower
column first among equals (R77). -/
def ranksAbove (x : Num) (i : Nat) (y : Num) (j : Nat) : Bool :=
  if x.isNan then (if y.isNan then decide (i < j) else false)
  else if y.isNan then true
  else if Num.lt y x then true
  else if Num.lt x y then false
  else decide (i < j)

/-- Insert a column in rank order. -/
def rankInsert (v : Nat → Num) (i : Nat) : List Nat → List Nat
  | [] => [i]
  | j :: js => if ranksAbove (v i) i (v j) j then i :: j :: js else j :: rankInsert v i js

/-- The columns of a row in rank order. -/
def rankCols (v : Nat → Num) (c : Nat) : List Nat := (List.range c).foldl (fun acc i => rankInsert v i acc) []

/-- Weights and experts of one row of TOPK (R178). -/
def topkRow (k c : Nat) (norm : Bool) (x : Nat → Nat) (bias : Option (Nat → Nat)) : List Nat × List Nat :=
  let biased := fun i => d32 false (match bias with
    | some b => fp32Add false (x i) (b i)
    | none => x i)
  let sel := (rankCols biased c).take k
  let logits := sel.map x
  let ws :=
    if norm then
      let m := rowMax false logits
      let e := logits.map (fun v => fp32Exp false (fp32Sub false v m))
      let r := fp32Recip false (e.foldl (fun t v => fp32Add false t v) 0)
      e.map (fun v => fp32Mul false v r)
    else logits
  (ws, sel)

/-- OUT of a TOPK: the weight plane and the index plane (R177). -/
def topkOut (d : List Byte) (x bias : List Byte) : List Byte :=
  let r := getLE d 40 2
  let c := getLE d 42 2
  let k := getLE d 44 1
  let f := getLE d 46 1 % 16
  let rows := (List.range r).map (fun i =>
    topkRow k c (bit (getLE d 45 1) 1) (fun j => wideAt f x (i * c + j))
      (if bit (getLE d 45 1) 0 then some (fun j => getLE bias (4 * j) 4) else none))
  padTo (round128 (r * k * 4)) ((rows.flatMap (·.1)).flatMap (leBytes 4)) ++
    padTo (round128 (r * k * 2)) ((rows.flatMap (·.2)).flatMap (leBytes 2))

/-! ### Attention arithmetic (R155–R158) -/

/-- The nearest FP32 to ln 16 (R155). -/
def ln16 : Nat := 0x40317218

/-- A key or value vector as decoded elements: 128 element values and the block scale of each. -/
structure KvVec where
  elem : Nat → Num
  scale : Nat → Num

/-- A quantised vector: element codes of format `fmt` and four scale bytes (Table 05-2). -/
def kvDecode (fmt : Nat) (data scales : List Byte) : KvVec :=
  { elem := fun i => elemValue fmt false (elemCode fmt data i), scale := fun b => e8m0 (getLE scales b 1) }

/-- A penumbra mean vector of BF16 elements with scale 1 (R156). -/
def kvMean (ref : Bool) (data : List Byte) : KvVec :=
  { elem := fun i => fmt16.decode ref (getLE data (2 * i) 2), scale := fun _ => Num.ofNat 1 }

def KvVec.value (v : KvVec) (i : Nat) : Num := (v.elem i).mul (v.scale (i / 32))

/-- dot(q, k) of R156: four step partials of 32, summed (p0 + p1) + (p2 + p3). -/
def kvDot (q : List Num) (k : KvVec) : Nat :=
  let p := (List.range 4).map (fun b =>
    r32 false ((Num.sum ((List.range 32).map (fun i => (q.getD (b * 32 + i) .zero).mul (k.elem (b * 32 + i))))).mul (k.scale b)))
  fp32Add false (fp32Add false (p.getD 0 0) (p.getD 1 0)) (fp32Add false (p.getD 2 0) (p.getD 3 0))

/-- The running statistics of one query head: maximum, sum, accumulators. -/
structure AttnAcc where
  m : Nat
  l : Nat
  acc : List Nat

def fp32NegInf : Nat := 0xFF800000

/-- tree16 of R155. -/
def tree16 (xs : List Nat) : Nat :=
  (treeLevels (fp32Add false) 4 (xs ++ List.replicate (16 - xs.length) 0)).headD 0

/-- fold of R155. -/
def attnFold (a : AttnAcc) (s : List Nat) (v : List KvVec) : AttnAcc :=
  let mn := fp32Max false a.m (rowMax false s)
  let c := if a.m == fp32NegInf then 0 else fp32Exp false (fp32Sub false a.m mn)
  let w := s.map (fun x => fp32Exp false (fp32Sub false x mn))
  { m := mn
    l := fp32Fma false a.l c (tree16 w)
    acc := a.acc.zipIdx.map (fun x => fp32Fma false x.1 c
      (tree16 (List.zipWith (fun wp vp => r32 false ((d32 false wp).mul (vp.value x.2))) w v))) }

/-- What one visited page gives the computation: nothing for a masked page (R155). -/
inductive PageView where
  | full (ks vs : List KvVec)
  | penumbra (k v : KvVec)

/-- Normal-mode attention of one query head (R155): the pages in ascending order, then the new token. -/
def attnHead (q : List Num) (scale : Nat) (pages : List PageView) (kn vn : KvVec) : List Nat :=
  let score := fun k => fp32Mul false (kvDot q k) scale
  let a0 : AttnAcc := ⟨fp32NegInf, 0, List.replicate 128 0⟩
  let a := pages.foldl (fun a p =>
    match p with
    | .full ks vs => attnFold a (ks.map score) vs
    | .penumbra k v => attnFold a [fp32Add false (score k) ln16] [v]) a0
  let a := attnFold a [score kn] [vn]
  let r := fp32Recip false a.l
  a.acc.map (fun x => narrow16 false (fp32Mul false x r))

/-- Reference attention of one query head (R114, R158). -/
def attnHeadRef (q : List Num) (scale : Nat) (pages : List PageView) (kn vn : KvVec) : List Nat :=
  let dot := fun (k : KvVec) => Num.sum ((List.range 128).map (fun i => (q.getD i .zero).mul (k.value i)))
  let score := fun k => r32 true ((dot k).mul (d32 true scale))
  let pos : List (Nat × KvVec) := (pages.flatMap (fun p =>
    match p with
    | .full ks vs => List.zip (ks.map score) vs
    | .penumbra k v => [(fp32Add true (score k) ln16, v)])) ++ [(score kn, vn)]
  let m := rowMax true (pos.map (·.1))
  let w := pos.map (fun x => fp32Exp true (fp32Sub true x.1 m))
  let den := Num.sum (w.map (d32 true))
  (List.range 128).map (fun i =>
    let num := Num.sum (List.zipWith (fun wp x => (d32 true wp).mul (x.2.value i)) w pos)
    fmt16.round true (num.div den))

end Sys2Proof.Machine
end

