-- ==== Sys2Proof/Machine/Attention.lean ====
section
/-!
DEFINITION. What ATTN does: the scribe's checks, the visit of every page, the computation and the append (R139–R175).
-/

namespace Sys2Proof.Machine

open Sys2Proof

/-- How a run of a command ends. -/
inductive Ran where
  | done (s : State) (t : Trouble)       -- every store is made
  | wait (s : State)                     -- data or a page is awaited
  | deep (u : UnitId) (job vp : Nat)     -- a unit parks on a deep-tier page
  | bad (u : UnitId) (code job va : Nat) -- an unresolvable translation fault
  | poison (job pa va : Nat)             -- a poisoned line
  | illegal (code : Nat)                 -- an illegal command (Table 02-11)
  | scribe (code : Nat) (k : ListKey) (page : Nat)  -- a walk error (Table 05-11)

/-- Go on with what an access gave, or end as it ended. -/
def Acc.ran {α : Type} (x : Acc α) (u : UnitId) (job : Nat) (k : α → Ran) : Ran :=
  match x with
  | .ok a => k a
  | .deep j v => .deep u j v
  | .bad c j v => .bad u c j v
  | .poison p v => .poison job p v
  | .remote _ _ _ _ => .bad u 1 job 0

/-- What the visits of a command have found so far. -/
structure Visit where
  s : State
  views : List PageView := []           -- the present pair's pages, oldest first
  penumbra : List Nat := []             -- streams, one entry per page at a cutoff
  only : List Nat := []                 -- streams, one entry per penumbra-only page
  degraded : List Nat := []
  looks : List (ListKey × Nat) := []    -- look-ups in order
  reads : List (Nat × Nat) := []        -- frame bytes read: address, length

/-- The executing pass of a job. -/
def State.passNow (s : State) (job : Nat) : Option Pass :=
  if s.holder == some (.pass job) then (s.job job).bind (·.executing) else none

/-- Change the executing pass. -/
def State.modPass (s : State) (job : Nat) (f : Pass → Pass) : State :=
  s.modJob job (fun j => { j with executing := j.executing.map f })

/-- Key or value vector of a slot of a page. -/
def State.kvVec (s : State) (j : Job) (job : Nat) (kv8 : Bool) (f t : Nat) (val : Bool) : Acc KvVec :=
  let va := if kv8 then j.frameVa (if val then f + 1 else f) + t * 128 else j.frameVa f + (if val then 1024 else 0) + t * 64
  (s.readVa job va (if kv8 then 128 else 64)).bind fun data =>
    (s.readVa job (j.sideVa f + (if val then 64 else 0) + t * 4) 4).bind fun sc =>
      .ok (kvDecode (if kv8 then 2 else 5) data sc)

/-- The vectors of slots 0 to n − 1. -/
def State.kvVecs (s : State) (j : Job) (job : Nat) (kv8 : Bool) (f : Nat) (val : Bool) : Nat → Acc (List KvVec)
  | 0 => .ok []
  | n + 1 => (s.kvVecs j job kv8 f val n).bind fun vs => (s.kvVec j job kv8 f n val).bind fun v => .ok (vs ++ [v])

/-- The page's frames, read in full. -/
def State.fullView (s : State) (j : Job) (job : Nat) (kv8 : Bool) (f n : Nat) : Acc PageView :=
  (s.kvVecs j job kv8 f false n).bind fun ks => (s.kvVecs j job kv8 f true n).bind fun vs => .ok (.full ks vs)

/-- The page's penumbra record, if its CRC holds. -/
def State.penView (s : State) (j : Job) (job pen : Nat) (ref : Bool) : Acc (Option PageView) :=
  (s.readVa job (j.penVa pen) 640).bind fun r =>
    .ok (if penOk r then some (.penumbra (kvMean ref (slice r 0 256)) (kvMean ref (slice r 256 256))) else none)

/-- The core waits for a deep page (R167). -/
def State.waitFor (s : State) (b l : Nat) (key : Nat) : State :=
  s.putCore b l { s.core b l with waitPage := some key }

/-- An entry with a reserved bit set or an encoding that no state has (R148, Table 05-6): resident with FLASH needs a record, deep needs FLASH
and a record, penumbra only has no FLASH, and FRAME is 0 unless resident (log 257). -/
def pteEncodingBad (e : Nat) : Bool :=
  let st := pteState e
  bit e 60 || (st == 1 && pteFlash e && ptePen e == 0) || (st == 2 && (!pteFlash e || ptePen e == 0)) || (st == 3 && pteFlash e) ||
    (st != 1 && pteFrame e != 0)

/-- FRAME or PEN lies beyond the arena, or FRAME is odd for an 8-bit page. -/
def pteBeyond (j : Job) (kv8 : Bool) (e : Nat) : Bool :=
  (pteState e == 1 && (decide (j.frames ≤ pteFrame e + b2n kv8) || (kv8 && pteFrame e % 2 == 1))) || decide (j.penRecords ≤ ptePen e)

/-- The walk error of an entry below the committed length, if any (Table 05-11, codes 5 and 6). -/
def pteBad (j : Job) (kv8 : Bool) (e : Nat) : Option Nat :=
  if pteState e == 0 || pteEncodingBad e then some 5 else if pteBeyond j kv8 e then some 6 else none

/-- The fallback log of the pass that executes (R168): 0 at a page it names, 1 once the page's record has failed its CRC, from
which step 4 of R167 holds for it (R173). -/
def State.logged (s : State) (k : ListKey) (p : Nat) : Option Nat :=
  (s.passNow k.job).bind (fun q => mget q.fallback (pageNum k p))

/-- Note a page in the fallback log. -/
def State.noteLog (s : State) (k : ListKey) (p v : Nat) : State :=
  s.modPass k.job (fun q => { q with fallback := mset q.fallback (pageNum k p) v })

/-- The deadline of the page's staging descriptor; 0: it has none. -/
def State.stageDue (s : State) (k : ListKey) (p : Nat) : Nat :=
  match s.stageOf k p with
  | some g => g.deadline
  | none => 0

/-- The pass's fallback log has room (R168). -/
def logRoom (pass : Option Pass) : Bool :=
  match pass with
  | some q => decide (q.fallback.length < 4096)
  | none => false

/-- A page's penumbra record fails its CRC: one stored-state record (R173). -/
def State.penFails (s : State) (k : ListKey) (p deadline : Nat) (kv8 : Bool) : State :=
  s.storedState 0x109 k (stageDesc 0 deadline k kv8 p 0)

/-- The page is taken as its penumbra record, in the state `s`. -/
def Visit.stood (v : Visit) (s : State) (j : Job) (k : ListKey) (e : Nat) (w : PageView) : Visit :=
  { v with s := s, views := v.views ++ [w], penumbra := v.penumbra ++ [k.stream], reads := v.reads ++ [(j.penVa (ptePen e), 640)] }

/-- The page is read from its frame. -/
def visitFull (v : Visit) (u : UnitId) (j : Job) (k : ListKey) (x : Stream) (kv8 : Bool) (p e : Nat) (next : Visit → Ran) : Ran :=
  (v.s.fullView j k.job kv8 (pteFrame e) (min 16 (x.len - p * 16))).ran u k.job fun w =>
    next { v with
      views := v.views ++ [w]
      reads := v.reads ++ [(j.frameVa (pteFrame e), if kv8 then 4096 else 2048), (j.sideVa (pteFrame e), 128)] }

/-- Visit one page of a pair (R151, R165, R167, R169, R172, R173): what follows goes on with the page's view, or the walk waits. A descriptor issued at a
visit in a run carries ORIGIN 1, as none of a pass (log 258). -/
def visitPage (v : Visit) (b l : Nat) (u : UnitId) (j : Job) (d : List Byte) (k : ListKey) (x : Stream) (kv8 : Bool) (p : Nat)
    (next : Visit → Ran) : Ran :=
  (v.s.pteVa k x j.hg p).ran u k.job fun mva =>
  match mva with
  | none => .scribe 4 k p
  | some va =>
  (v.s.readWord8 k.job va).ran u k.job fun e =>
  match pteBad j kv8 e with
  | some c => .scribe c k p
  | none =>
    let v := { v with looks := v.looks ++ [(k, p)] }
    match pteState e with
    | 1 =>
      if v.s.logged k p == some 0 && pteFlash e then
        (v.s.penView j k.job (ptePen e) (cRef d)).ran u k.job fun w => match w with
          | some w => next (v.stood v.s j k e w)
          | none => visitFull { v with s := (v.s.penFails k p 0 kv8).noteLog k p 1 } u j k x kv8 p e next
      else visitFull v u j k x kv8 p e next
    | 3 =>
      let v := { v with degraded := sinsert v.degraded k.stream, s := v.s.degrade k.stream }
      if ptePen e = 0 then next v
      else (v.s.penView j k.job (ptePen e) (cRef d)).ran u k.job fun w => match w with
        | some w => next { v with views := v.views ++ [w], only := v.only ++ [k.stream] }
        | none => next { v with s := (v.s.losePen k x j.hg p (ptePen e)).penFails k p 0 kv8 }
    | _ =>
      let pass := v.s.passNow k.job
      let deadline := (pass.map (fun (q : Pass) => q.label + manCutoff j.manifest k.layer)).getD 0
      (v.s.askStage b k x j p (ptePen e) kv8 deadline (if pass.isSome then 0 else 1)).ran u k.job fun r =>
        if r.2 then next { v with s := r.1, degraded := sinsert v.degraded k.stream }
        else
          let dl := r.1.stageDue k p
          match r.1.logged k p with
          | some 0 => (r.1.penView j k.job (ptePen e) (cRef d)).ran u k.job fun w => match w with
            | some w => next (v.stood r.1 j k e w)
            | none => .wait (((r.1.penFails k p dl kv8).noteLog k p 1).waitFor b l (pageNum k p))
          | some _ => .wait (r.1.waitFor b l (pageNum k p))
          | none =>
            if bit (getLE d 54 2) 1 && logRoom pass && dl != 0 && decide (dl ≤ r.1.nowN) then
              (r.1.penView j k.job (ptePen e) (cRef d)).ran u k.job fun w => match w with
                | some w => next (v.stood ((r.1.noteLog k p 0).irq (.scribe b) 1) j k e w)
                | none => .wait (((r.1.penFails k p dl kv8).noteLog k p 1).waitFor b l (pageNum k p))
            else .wait (r.1.waitFor b l (pageNum k p))

/-- Visit pages p, p + 1, … of a pair. -/
def visitPages (b l : Nat) (u : UnitId) (j : Job) (d : List Byte) (k : ListKey) (x : Stream) (kv8 : Bool) :
    Nat → Nat → Visit → (Visit → Ran) → Ran
  | 0, _, v, next => next v
  | n + 1, p, v, next => visitPage v b l u j d k x kv8 p (fun v => visitPages b l u j d k x kv8 n (p + 1) v next)

/-- One vector quantised: element bytes, scale bytes, trouble (R144, R163); a reference command keeps subnormal inputs (R104, R115). -/
def kvQuant (ref kv8 : Bool) (bs : List Byte) : List Byte × List Byte × Trouble :=
  let fmt := if kv8 then 2 else 5
  let xs := (List.range 128).map (fun i => fmt16.decode ref (getLE bs (2 * i) 2))
  let blocks := (chunks 32 5 xs).map (quantBlock fmt)
  (packCodes fmt (blocks.flatMap (fun r => r.2.1)), blocks.map (fun r => BitVec.ofNat 8 r.1), blocks.foldl (fun t r => t.add r.2.2) {})

/-- The result of one pair: output bytes, trouble, and its append. -/
def pairOut (d : List Byte) (kv8 : Bool) (q kv : List Byte) (views : List PageView) : List Byte × Trouble :=
  let qpk := getLE d 53 1
  let scale := getLE d 56 4
  let ref := cRef d
  let kq := kvQuant ref kv8 (slice kv 0 256)
  let vq := kvQuant ref kv8 (slice kv 256 256)
  let fmt := if kv8 then 2 else 5
  let kn := kvDecode fmt kq.1 kq.2.1
  let vn := kvDecode fmt vq.1 vq.2.1
  let outs := (List.range qpk).flatMap (fun r =>
    let qs := (List.range 128).map (fun i => fmt16.decode ref (getLE q ((r * 128 + i) * 2) 2))
    if ref then attnHeadRef qs scale views kn vn else attnHead qs scale views kn vn)
  (storeWide 1 outs, (kq.2.2.add vq.2.2).add { overflow := overflows 1 outs })

/-- Write the append's slot into frame `f` (R159). -/
def State.writeSlot (s : State) (j : Job) (job : Nat) (ref kv8 : Bool) (f t : Nat) (kv : List Byte) : Acc State :=
  let kq := kvQuant ref kv8 (slice kv 0 256)
  let vq := kvQuant ref kv8 (slice kv 256 256)
  let ka := if kv8 then j.frameVa f + t * 128 else j.frameVa f + t * 64
  let va := if kv8 then j.frameVa (f + 1) + t * 128 else j.frameVa f + 1024 + t * 64
  (s.writeVa job ka kq.1).bind fun s => (s.writeVa job va vq.1).bind fun s =>
    (s.writeVa job (j.sideVa f + t * 4) kq.2.1).bind fun s => s.writeVa job (j.sideVa f + 64 + t * 4) vq.2.1

/-- The reserved page of frames that an append takes (R160). -/
def Arena.reservedFor (a : Arena) (stream w : Nat) : Option Nat :=
  (((mget a.reserved stream).getD []).find? (fun r => r.2 == w)).map (·.1)

/-- Use up one reservation. -/
def Arena.useReserved (a : Arena) (stream f : Nat) : Arena :=
  { a with reserved := mmod a.reserved stream (fun rs => rs.filter (fun r => r.1 != f)) }

/-- Append one pair's token (R159, R160). The caller has checked the entry. -/
def State.append (s : State) (b : Nat) (k : ListKey) (x : Stream) (ref kv8 : Bool) (kv : List Byte) : Acc State :=
  match s.job k.job with
  | none => .ok s
  | some j =>
    let p := x.len / 16
    let t := x.len % 16
    let w := if kv8 then 2 else 1
    let e := s.pte k x j.hg p
    if pteState e == 1 then
      (s.writeSlot j k.job ref kv8 (pteFrame e) t kv).bind fun s =>
        if pteFlash e then
          .ok (((s.setPte k x j.hg p (pteMake 1 false 0 (pteFrame e))).modStream k.stream
            (fun x => { x with freePen := x.freePen ++ [ptePen e] })).count64 (.scribe b) 0x118 0x11C 1)
        else .ok (s.count64 (.scribe b) 0x118 0x11C 1)
    else match j.arena.reservedFor k.stream w with
      | none => .ok s
      | some f =>
        (s.zeroPage j k.job f w).bind fun s => (s.writeSlot j k.job ref kv8 f t kv).bind fun s =>
          .ok (((s.setPte k x j.hg p (pteMake 1 false 0 f)).modArena k.job (·.useReserved k.stream f)).count64 (.scribe b) 0x118 0x11C 1)

/-- The walk error of the append page, if any (Table 05-11, codes 4 to 9). -/
def State.appendBad (s : State) (k : ListKey) (x : Stream) (j : Job) (kv8 : Bool) : Acc (Option Nat) :=
  (s.pteVa k x j.hg (x.len / 16)).bind fun mva =>
    match mva with
    | none => .ok (some 4)
    | some va => (s.readWord8 k.job va).bind fun e =>
      .ok (if pteEncodingBad e then some 5
        else if pteBeyond j kv8 e then some 6
        else if decide (2 ≤ pteState e) then some 7
        else if pteState e == 0 && (j.arena.reservedFor k.stream (if kv8 then 2 else 1)).isNone then some 9
        else none)

/-- The checks of one pair when the command starts (R175): the lowest of codes 1, 2, 3, 8 and 0xA. A head group beyond HG has no directory
entry to read. -/
def State.pairBad (s : State) (d : List Byte) (j : Job) (k : ListKey) : Acc (Option Nat) :=
  match s.stream k.stream with
  | none => .ok (some 1)
  | some x =>
    if x.job != k.job || !([1, 2, 5].contains x.st) then .ok (some 1)
    else if j.hg ≤ k.group then .ok (some (if bit (getLE d 54 2) 0 && decide (65536 ≤ x.len) then 8 else 0xA))
    else (s.readWord8 k.job (dirVa x j.hg k.layer k.group)).bind fun e =>
      let afl := getLE d 54 2
      if !dirValid e then .ok (some 2)
      else if dirKv8 e != bit afl 2 then .ok (some 3)
      else if bit afl 0 && decide (65536 ≤ x.len) then .ok (some 8)
      else .ok none

/-- The pairs of a command: stream index outermost, then head group (R141). -/
def attnPairs (job : Nat) (d : List Byte) (streams : List Nat) : List (Nat × Nat × ListKey) :=
  (streams.zipIdx).flatMap (fun x => (List.range (getLE d 52 1)).map (fun h =>
    (x.2, h, ⟨job, x.1, getLE d 50 1, getLE d 51 1 + h⟩)))

/-- Check every pair; the lowest code over all pairs is reported, at the first pair that has it (R175). -/
def State.startBad (s : State) (d : List Byte) (j : Job) : List (Nat × Nat × ListKey) → Acc (Option (Nat × ListKey))
  | [] => .ok none
  | (_, _, k) :: rest =>
    (s.pairBad d j k).bind fun a =>
      (s.startBad d j rest).bind fun r =>
        match a, r with
        | some c, some (c', k') => .ok (some (if c ≤ c' then (c, k) else (c', k')))
        | some c, none => .ok (some (c, k))
        | none, r => .ok r

/-- Compute every pair in turn: visits, output, append checks; an append page beyond the visited ones is looked up too (R151). The outputs are gathered, and nothing is stored until all are known. -/
def attnPairsRun (b l : Nat) (u : UnitId) (j : Job) (d q kv : List Byte) :
    List (Nat × Nat × ListKey) → Visit → List Byte → Trouble → (Visit → List Byte → Trouble → Ran) → Ran
  | [], v, out, t, next => next v out t
  | (i, h, k) :: rest, v, out, t, next =>
    match v.s.stream k.stream with
    | none => .scribe 1 k 0
    | some x =>
      let afl := getLE d 54 2
      let kv8 := bit afl 2
      let idx := i * getLE d 52 1 + h
      let qpk := getLE d 53 1
      visitPages b l u j d k x kv8 x.pages 0 { v with views := [] } fun v =>
        let finish := fun (v : Visit) =>
          let o := pairOut d kv8 (slice q (idx * qpk * 256) (qpk * 256)) (slice kv (idx * 512) 512) v.views
          attnPairsRun b l u j d q kv rest v (out ++ o.1) (t.add o.2) next
        if bit afl 0 then
          (v.s.appendBad k x j kv8).ran u k.job fun e =>
            match e with
            | some c => .scribe c k (x.len / 16)
            | none => finish (if x.len % 16 = 0 then { v with looks := v.looks ++ [(k, x.len / 16)] } else v)
        else finish v

/-- All appends of a command, in pair order. -/
def State.appendAll (s : State) (b : Nat) (d kv : List Byte) : List (Nat × Nat × ListKey) → Acc State
  | [] => .ok s
  | (i, h, k) :: rest =>
    match s.stream k.stream with
    | none => s.appendAll b d kv rest
    | some x => (s.append b k x (cRef d) (bit (getLE d 54 2) 2) (slice kv ((i * getLE d 52 1 + h) * 512) 512)).bind fun s =>
        s.appendAll b d kv rest

/-- The set of the look-aside buffer that a line's tag selects: the spec gives 16 sets and no index, so it is free (R152, log 54). -/
def labSet (key : Nat) : Nat := Config.labIndex key % 16

/-- One look-up: a hit moves the line to the front; a miss installs it, the least recently used line of a full set leaving (R152). -/
def labLook (m : List Nat) (key : Nat) : List Nat × Bool :=
  if m.contains key then (key :: m.filter (· != key), true)
  else
    let set := m.filter (fun x => labSet x == labSet key)
    let m := if set.length < 16 then m else m.filter (fun x => some x != set.getLast?)
    (key :: m, false)

/-- The look-ups of a command in one bay: SCRIBE_LAB_HITS, MISSES and VALID (R153). -/
def State.labLooks (s : State) (b : Nat) (keys : List Nat) : State :=
  let r := keys.foldl (fun (a : List Nat × Nat × Nat) k =>
    let x := labLook a.1 k
    (x.1, a.2.1 + b2n x.2, a.2.2 + b2n (!x.2))) (((mget s.lab b).getD []), 0, 0)
  let s := { s with lab := mset s.lab b r.1 }
  ((s.count64 (.scribe b) 0x108 0x10C r.2.1).count64 (.scribe b) 0x110 0x114 r.2.2).showLab b

/-- Add one to the count of every stream listed. -/
def countAll (m : List (Nat × Nat)) (xs : List Nat) : List (Nat × Nat) :=
  xs.foldl (fun m x => mset m x ((mget m x).getD 0 + 1)) m

/-- What a completed ATTN leaves in the pass: penumbra pages per stream, degraded streams, counts of the bay's scribe (R169, R172, Table 05-17). -/
def State.notePass (s : State) (b job : Nat) (v : Visit) : State :=
  s.modPass job (fun q => { q with
    penumbra := countAll q.penumbra (v.penumbra ++ v.only)
    degraded := v.degraded.foldl sinsert q.degraded
    scribe := q.scribe ++ [(b, 0, v.penumbra.length), (b, 1, v.only.length)] })

/-- ATTN: the checks, the visits, the outputs, the stores (R155–R163, R175). `qs` and `kv` are the loaded operands. -/
def State.attnRun (s : State) (b l job : Nat) (d : List Byte) (streams : List Nat) (qs kv : List Byte) : Ran :=
  match s.job job with
  | none => .bad (.core b l) 1 job 0
  | some j =>
    let u : UnitId := .scribe b
    let pairs := attnPairs job d streams
    (s.startBad d j pairs).ran u job fun e =>
    match e with
    | some (c, k) => .scribe c k 0
    | none => attnPairsRun b l u j d qs kv pairs { s := s } [] {} fun v out t =>
      let core : UnitId := .core b l
      let s := (v.reads.foldl (fun s r => s.touch job r.1 r.2) v.s).notePass b job v
      let s := s.labLooks b (v.looks.map (fun x => labKey x.1 x.2))
      (s.store b job (getLE d 24 8) out).ran core job fun s =>
        let s := s.touchAddr job (getLE d 24 8) out.length
        if bit (getLE d 54 2) 0 then
          (s.appendAll b d kv pairs).ran u job fun s => .done s t
        else .done s t

end Sys2Proof.Machine
end

