-- ==== Sys2Proof/Machine/Store.lean ====
section
/-!
DEFINITION. The settings store: which copy is current, how a new copy is written, and firmware's own records in it (R271–R275, R277, R278, R39, R240,
R493).
-/

namespace Sys2Proof.Machine

/-! ### The copies (R271–R273) -/

/-- `a` is greater than `b` under 32-bit serial-number arithmetic. -/
def serialGreater (a b : Nat) : Bool := serialAfter a b

/-- The current copy is B. -/
def Settings.onB (t : Settings) : Bool := t.copyB.valid && (!t.copyA.valid || serialGreater t.copyB.seq t.copyA.seq)
def Settings.current (t : Settings) : SettingsCopy := if t.onB then t.copyB else t.copyA
/-- Records of the current copy; none when no copy is valid. -/
def Settings.records (t : Settings) : List (Nat × List Byte) := if t.current.valid then t.current.records else []
/-- A new copy goes into the slot that does not hold the current one. -/
def Settings.putOther (t : Settings) (f : SettingsCopy → SettingsCopy) : Settings :=
  if t.onB then { t with copyA := f t.copyA } else { t with copyB := f t.copyB }

/-- A byte of the EEPROM (Table 08-9): the identity block and its mirror, whose layout the spec does not give, and the two copies. -/
def State.eepromByte (s : State) (a : Nat) : Option Byte :=
  if 0x40000 ≤ a then none
  else if a % 0x20000 < 0x1000 then some (Sys2Proof.Config.identityByte (a % 0x1000))
  else (if a < 0x20000 then s.settings.copyA else s.settings.copyB).byteAt (a % 0x20000 - 0x1000)

/-- A staged set applied to records kept in ascending TYPE. -/
def applyStaged (rs : List (Nat × List Byte)) (st : List (Nat × Option (List Byte))) : List (Nat × List Byte) :=
  st.foldl (fun rs e => match e.2 with
    | some v => mset rs e.1 v
    | none => mdel rs e.1) rs

/-- Body bytes of a list of records (R272). -/
def bodyBytes (rs : List (Nat × List Byte)) : Nat := rs.foldl (fun n e => n + 4 + ceilDiv e.2.length 4 * 4) 0

def State.setSettings (s : State) (f : Settings → Settings) : State := { s with settings := f s.settings }

/-! ### SETTINGS_STAT and SETTINGS_CREDITS (Tables 08-21 and 08-24) -/

def State.settingsBusy (s : State) : Bool := wbit (s.preg .settings 0x100) 0
def State.putStat (s : State) (i : Nat) (b : Bool) : State := s.setPreg .settings 0x100 (wassign (s.preg .settings 0x100) i b)
def State.credits (s : State) : Nat := wfield (s.preg .settings 0x110) 22 16

/-- STAGED, COPY and SEQ from the store. -/
def State.showSettings (s : State) : State :=
  let t := s.settings
  ((s.putStat 2 (!t.staged.isEmpty)).putStat 5 t.onB).setPreg .settings 0x104 (BitVec.ofNat 32 t.current.seq)

/-- WAIT_CREDIT: a commit waits and no credit is held. -/
def State.showWait (s : State) : State := s.putStat 3 ((s.settings.plainWait || s.settings.txnWait) && s.credits == 0)

/-- One credit is spent; the count to the next begins when none was running. -/
def State.takeCredit (s : State) : State :=
  let s := s.putPreg .settings 0x110 22 16 (s.credits - 1)
  if wfield (s.preg .settings 0x110) 15 0 = 0 then s.putPreg .settings 0x110 15 0 600 else s

/-! ### Preparing and marking (R273) -/

/-- A prepare begins: the mark of the other copy is cleared, and the new copy is being written. -/
def State.beginPrepare (s : State) (st : List (Nat × Option (List Byte))) (tag : Nat) (inTxn : Bool) : State :=
  s.setSettings fun k => { k.putOther SettingsCopy.cleared with
    preparing := some (SettingsCopy.make ((k.current.seq + 1) % 2 ^ 32) tag (applyStaged k.records st)), inTxn := inTxn }

/-- Body and header are written: the copy is prepared and not marked. -/
def State.putPrepared (s : State) : State :=
  s.setSettings fun k => match k.preparing with
    | none => k
    | some c => k.putOther (fun _ => c)

/-- The mark is written: the prepared copy is current. -/
def State.markCopy (s : State) : State :=
  (s.setSettings fun k =>
    match k.preparing with
    | none => k
    | some c => { k.putOther (fun _ => c.marked) with preparing := none, inTxn := false }).putStat 1 false

/-- A prepared or half-written copy is left uncommitted. -/
def State.dropPrepare (s : State) : State := (s.setSettings (fun k => { k with preparing := none, inTxn := false })).putStat 1 false

/-! ### Firmware's own records (R39, R240, R275, R278, R493) -/

def Boot.slot (b : Boot) (n : Nat) : FwSlot := if n = 0 then b.slotA else b.slotB
def Boot.setSlot (b : Boot) (n : Nat) (f : FwSlot) : Boot := if n = 0 then { b with slotA := f } else { b with slotB := f }
def otherSlot (n : Nat) : Nat := if n = 0 then 1 else 0

/-- A slot's entry in record 0x0010 (Table 16-4). -/
def FwSlot.bytes (f : FwSlot) : List Byte :=
  leBytes 1 f.st ++ leBytes 1 f.result ++ leBytes 2 0 ++ leBytes 4 f.version ++ leBytes 4 f.svn ++ leBytes 1 f.fabMin ++ leBytes 1 f.fabMax ++
    leBytes 1 f.ringMin ++ leBytes 1 f.ringMax ++ leBytes 8 f.stateCt

/-- Record 0x0010. -/
def Boot.record (b : Boot) : List Byte :=
  leBytes 1 b.running ++ leBytes 1 b.confirmed ++ leBytes 2 0 ++ leBytes 4 b.floor ++ b.slotA.bytes ++ b.slotB.bytes ++ leBytes 8 0

/-- The record of the slot failures: one bit for each slot, bay · 17 + slot. Its TYPE and its layout are the model's (log 248). -/
def slotRecordType : Nat := 0x0011
def slotRecord (fs : List Nat) : List Byte :=
  (List.range 34).map (fun i => BitVec.ofNat 8 ((fs.filter (fun x => x / 8 == i)).foldl (fun v x => v + 2 ^ (x % 8)) 0))
def slotsOfRecord (r : List Byte) : List Nat := (List.range 272).filter (fun x => bit (getLE r (x / 8) 1) (x % 8))

/-- The record of the calibrations: the word of each tier as CAL shows it, 0 where there is none. Its TYPE and its layout are the model's (log 248). -/
def calRecordType : Nat := 0x0012
def calRecord (m : List (Nat × Word)) : List Byte := (List.range 10).flatMap (fun t => leBytes 4 ((mget m t).getD 0).toNat)
def calsOfRecord (r : List Byte) : List (Nat × Word) :=
  ((List.range 10).map (fun t => (t, BitVec.ofNat 32 (getLE r (4 * t) 4)))).filter (fun e => e.2 != 0)

/-- Firmware's records as they should stand. -/
def State.fwRecords (s : State) : List (Nat × Option (List Byte)) :=
  [(0x0010, some s.boot.record), (slotRecordType, if s.failedSlots.isEmpty then none else some (slotRecord s.failedSlots)),
   (calRecordType, if s.calStored.isEmpty then none else some (calRecord s.calStored))]

/-- Firmware's records become current in one commit. -/
def State.fwNow (s : State) (edits : List (Nat × Option (List Byte))) : State :=
  (((s.beginPrepare (edits ++ s.fwRecords) s.nowN false).markCopy).setSettings (fun k => { k with fwWait := false, fwEdits := [] })).showSettings

/-- Firmware commits a change of its own: it is mirrored in the deep tier at once, and current at once unless a copy is being prepared, when it waits for
the mark or the roll-back (R273, R275, R278, R498). -/
def State.fwCommit (s : State) (edits : List (Nat × Option (List Byte))) : State :=
  let s := s.setSettings (fun k => { k with
    mirror := (applyStaged (k.mirror.filter (fun r => decide (r.1 < 0x1000))) s.fwRecords) })
  if s.settings.preparing.isSome then s.setSettings (fun k => { k with fwWait := true, fwEdits := k.fwEdits ++ edits })
  else s.fwNow edits

/-! ### What waits for the store (R275, R277, R278) -/

/-- Spend a credit and prepare the staged set. -/
def State.spendCredit (s : State) : State :=
  let s := s.takeCredit
  (s.setSettings (fun k => { k with plainWait := false })).beginPrepare s.settings.staged s.nowN false

/-- The commit instant of the scheduled transaction. -/
def State.txnInstant (s : State) : Nat := s.preg64 .txn 0x110 0x114

/-- Spend a credit and prepare the settings of the scheduled transaction, TXN_TAG its commit instant (R277). -/
def State.spendTxnCredit (s : State) : State :=
  let s := s.takeCredit
  (s.setSettings (fun k => { k with txnWait := false })).beginPrepare s.settings.txnStaged s.txnInstant true

/-- The store is free or a credit has come: firmware's change goes first, then the scheduled transaction's prepare, then the COMMIT that waits. -/
def State.serveStore (s : State) : State :=
  if s.settings.preparing.isSome then s.showWait
  else
    let s := if s.settings.fwWait then s.fwNow s.settings.fwEdits else s
    let s :=
      if s.credits = 0 then s
      else if s.settings.txnWait then s.spendTxnCredit
      else if s.settings.plainWait then s.spendCredit
      else s
    s.showWait

end Sys2Proof.Machine
end

