-- ==== Sys2Proof/Machine/Slots.lean ====
section
/-!
DEFINITION. Slots that fail, the spare that replaces one, and the withdrawal of a bay (R37–R43, R84, R85, R555).
-/

namespace Sys2Proof.Machine

open Sys2Proof

/-! ### Counts of clocks and of held requests -/

/-- The registers that count clocks, requests that a regulator holds back (R246), or writes that wait behind another to their line (R384): no event of the model
moves them, and each grows by a free value as ticks pass (log 240). The offset of the count's low word, and whether a read clears it. -/
def Page.clockReg : Page → Nat → Option (Nat × Bool)
  | .core _ _, r => if r = 0x128 ∨ r = 0x12C then some (0x128, false) else if r = 0x130 ∨ r = 0x134 then some (0x130, false) else none
  | .bwreg, r => if 0x120 ≤ r ∧ r < 0x138 ∧ r % 4 = 0 then some (r, true) else none
  | .window, r => if r = 0x120 then some (0x120, true) else none
  | _, _ => none

/-- The page is that of a slot whose registers hold their values (R85). -/
def State.pageFrozen (s : State) (p : Page) : Bool :=
  match p with
  | .core b slot => s.slotFrozen b slot
  | _ => false

/-- The value of such a count: what it was at its last reading, and more once a tick has passed. -/
def State.clockVal (s : State) (p : Page) (lo : Nat) : Nat :=
  let x := (mget s.clocks (p.base + lo)).getD (0, s.clockBase)
  if x.2 = s.nowN || s.pageFrozen p then x.1 else (x.1 + Config.freeNat s.freeCtr) % 2 ^ 64

/-- The count is read: its value stands for this tick; a count that a read clears starts again from 0. -/
def State.clockRead (s : State) (p : Page) (lo : Nat) (clears : Bool) : State :=
  { s.useFree with clocks := mset s.clocks (p.base + lo) (if clears then 0 else s.clockVal p lo, s.nowN) }

/-! ### The states of a slot (R38–R40, R85) -/

def State.setSlotState (s : State) (b slot v : Nat) : State :=
  if slot < 16 then s.putPreg (.bay b) 0x104 (2 * slot + 1) (2 * slot) v else s.putPreg (.bay b) 0x108 1 0 v

/-- The bay's spare slot: healthy and not mapped (R38). -/
def State.spareSlot (s : State) (b : Nat) : Option Nat := (List.range 17).find? (fun x => s.slotState b x == 0)

/-- Bays presenting cores. -/
def State.baysUp (s : State) : Nat := ((List.range 16).filter (fun b => !s.absent b)).length

/-- ERRLOG_CAPACITY (Table 18-19). -/
def State.showCapacity (s : State) : State :=
  s.setPreg .errlog 0x11C (BitVec.ofNat 32 (s.baysUp * 2 ^ 16 + s.failedSlots.length))

/-- A pass formation: gate requests of bays take effect, and the cores of a bay that has changed have no previous command (R47, R529). -/
def State.gateBays (s : State) : State :=
  let want := wfield (s.preg .pwr 0x118) 15 0
  let have_ := wfield (s.preg .pwr 0x11C) 15 0
  if want = have_ then s
  else
    let s := (s.putPreg .pwr 0x11C 15 0 want).irq .pwr 7
    let s := { s with cores := s.cores.map (fun (e : Nat × CoreQ) =>
      if bit want (e.1 / 16) == bit have_ (e.1 / 16) then e else (e.1, { e.2 with job := none, prevJob := none })) }
    s.showCapacity

/-- Failed slots of a bay. -/
def State.failedIn (s : State) (b : Nat) : Nat := (s.failedSlots.filter (fun x => x / 17 == b)).length

/-- A slot enters the failed state: counted, its CORE_STATE reads failed, and firmware commits its record, which takes no credit (R39, R85, R275). -/
def State.failSlot (s : State) (b slot : Nat) : State :=
  if s.failedSlots.contains (b * 17 + slot) then s
  else
    let wasSpare := s.slotState b slot == 0
    let s := ((s.clockRead (.core b slot) 0x128 false).clockRead (.core b slot) 0x130 false)
    let s := { s with failedSlots := sinsert s.failedSlots (b * 17 + slot) }
    let s := s.setSlotState b slot 2
    let s := s.putPreg (.core b slot) 0x104 3 0 6
    let s := s.putPreg (.bay b) 0x100 4 0 (s.failedIn b)
    let s := if wasSpare then s.putPreg (.bay b) 0x100 9 8 2 else s
    (((s.irq (.bay b) 1).showCapacity).zeroScratch b slot).fwCommit []

/-- Map logical core `l` of a bay to a slot; the core zeroes its scratchpad before its next command (R40, R47). -/
def State.mapSlot (s : State) (b l slot : Nat) : State :=
  let old := s.slotOf b l
  let s := if old ≤ 16 && !s.slotFrozen b old then s.putPreg (.core b old) 0x100 20 16 0x1F else s
  let s := s.putPreg (.bay b) (0x110 + l / 4 * 4) (l % 4 * 8 + 4) (l % 4 * 8) slot
  let s := (s.putPreg (.core b slot) 0x100 20 16 l).setSlotState b slot 1
  s.putCore b l { s.core b l with prevJob := none }

/-- A bay presents no cores: its map reads 0x1F, and its healthy slots are mapped to none (R37, R38, R40). -/
def State.withdrawBay (s : State) (b : Nat) : State :=
  if s.withdrawn b then s
  else
    let slots := (List.range 16).map (s.slotOf b)
    let s := slots.foldl (fun s x => if x ≤ 16 && !s.slotFrozen b x
      then (((s.putPreg (.core b x) 0x100 20 16 0x1F).putPreg (.core b x) 0x104 3 0 0).setSlotState b x 0).zeroScratch b x else s) s
    let s := (List.range 4).foldl (fun s i => s.setPreg (.bay b) (0x110 + 4 * i) 0x1F1F1F1F) s
    let s := s.setPreg (.bay b) 0x100 (wset (s.preg (.bay b) 0x100) 16)
    let s := { s with cores := s.cores.filter (fun e => e.1 / 16 != b), ccHeld := s.ccHeld.filter (fun x => x.1 / 16 != b) }
    (s.irq (.bay b) 2).showCapacity

/-- The spare-remap phase: every logical core on a failed slot moves to the bay's spare, and a bay without one is withdrawn (R40). -/
def State.remapBay (s : State) (b : Nat) : State :=
  (List.range 16).foldl (fun s l =>
    let x := s.slotOf b l
    if decide (x ≤ 16) && s.slotState b x == 2 then
      match s.spareSlot b with
      | some y => (s.mapSlot b l y).putPreg (.bay b) 0x100 9 8 1
      | none => s.withdrawBay b
    else s) s

def State.remap (s : State) : State := (List.range 16).foldl State.remapBay s

/-! ### Moved work (R40, R43, R529) -/

/-- The bay in which work of bay `b` runs: `b` itself while it presents cores; otherwise the absent bays' units are dealt, one at a time, over the bays that
present cores, in ascending order. `u` numbers the unit within the bay; none when no bay presents cores (log 250). -/
def State.receiving (s : State) (b u : Nat) : Option Nat :=
  if !s.absent b then some b
  else
    let up := (List.range 16).filter (fun x => !s.absent x)
    let before := ((List.range b).filter (fun x => s.absent x)).length
    if up.isEmpty then none else up[(before * 16 + u) % up.length]?

/-- KEY of a hardware record: bay, slot, logical core, replacement slot (Table 18-4). -/
def hwKey (b slot l repl : Nat) : Nat := b % 16 + slot % 32 * 2 ^ 4 + l % 32 * 2 ^ 9 + repl % 32 * 2 ^ 16

/-- DETAIL of a hardware record: TAG, opcode, checker, bays presenting cores (Table 18-4). -/
def hwDetail (tag opcode checker bays : Nat) : List Byte := leBytes 2 tag ++ leBytes 1 opcode ++ leBytes 1 checker ++ leBytes 1 bays

end Sys2Proof.Machine
end

