-- ==== Sys2Proof/Machine/Cores.lean ====
section
/-!
DEFINITION. The core command stream: issue, legality, waits, execution and retirement of each command (R44, R47, R52–R82, R116, R129–R135), and
the events of the remote read cache, the control core and the credit watchdog.
-/

namespace Sys2Proof.Machine

open Sys2Proof

/-! ### The second stage of the legality check (R82) -/

/-- The recipe bank in force for what runs: the pass's bank, in step 10 that of the committed pass (R137), and for a run the job's active bank as it stands
when the command runs, which is the model's choice (log 252). -/
def State.bankOf (s : State) (job : Nat) : Nat :=
  match s.passNow job, s.job job with
  | some p, _ => p.recipeBank
  | none, some j => if s.holder == some (.tail job) then j.tailBank else j.recipe.active
  | none, none => 0

/-- The recipe entry a command names: none for recipe 0; `some none` for an index beyond the table or an entry not VALID (R129). -/
def State.recipeOf (s : State) (job : Nat) (d : List Byte) : Acc (Option (Option Recipe)) :=
  match s.job job with
  | none => .ok none
  | some j =>
    if cRecipe d = 0 then .ok none
    else if manRecipes j.manifest ≤ cRecipe d then .ok (some none)
    else (s.readVa job (j.recipeVa (s.bankOf job) (cRecipe d)) 32).bind fun b =>
      .ok (some (if (Recipe.mk b).valid then some ⟨b⟩ else none))

/-- The effective fields once the recipe is known (R131). -/
def recipeEff (d : List Byte) (r : Option (Option Recipe)) : Eff :=
  match r with
  | none => stage1Eff d
  | some none => { stage1Eff d with recipeOk := false, shim := some (cOp d == opMatmul && bit (getLE d 62 2) 13) }
  | some (some r) =>
    if cOp d == opMatmul then
      let fs := getLE d 62 2
      { fmt := some (if r.actOverride then r.actFmt else fs % 16), shim := some (bit fs 13 && !r.shimOff), rotLog := some r.rotLog }
    else { fmt := some (if r.actOverride then r.actFmt else getLE d 36 1 / 16), shim := some false, rotLog := some r.rotLog }

/-- Fabric extents that the second stage reads before it can decide. -/
def checkReads (d : List Byte) (e : Eff) : List (Nat × Nat) :=
  (if e.shimYes then [(getLE d 48 8, 256)] else []) ++
  (if cOp d == opAttn then [(getLE d 32 8, 4 * getLE d 48 2)] else [])

/-- The check reads: the shim descriptor of a MATMUL, the STREAMS array of an ATTN. -/
def State.stage2 (s : State) (b job : Nat) (lines : List (Nat × List Byte)) (d : List Byte) (e : Eff) : Acc Eff :=
  if e.shimYes then
    (s.load b job lines (getLE d 48 8) 256).bind fun x => .ok { e with desc := some x }
  else if cOp d == opAttn then
    (s.load b job lines (getLE d 32 8) (4 * getLE d 48 2)).bind fun x =>
      let xs := (List.range (getLE d 48 2)).map (fun i => getLE x (4 * i) 4)
      .ok { e with
        streams := some xs
        streamsOk := xs.all (fun n => match s.stream n with
          | some y => y.job == job
          | none => false) }
  else .ok e

/-! ### Fabric loads (R52, R390) -/

/-- Whether a LINE_READ of a unit for a line is outstanding. -/
def State.reading (s : State) (u : UnitId) (job ep win off : Nat) : Bool :=
  s.reqs.any (fun r => r.unit == u && r.job == job && r.pkt.typ == tLineRead && r.pkt.dst == ep && r.pkt.window == win && r.pkt.offset == off)

/-- How a unit's fabric lines stand. -/
inductive Lines where
  | here (s : State) (lines : List (Nat × List Byte))
  | waiting (s : State) (lines : List (Nat × List Byte))
  | refused (s : State)

/-- Bring every line of the given extents: from the unit's own list, from the remote read cache when `cached`, or by LINE_READ. A read that the
source may not send is refused locally, code 0x00C (R424). -/
def State.bringLines (s : State) (u : UnitId) (b job : Nat) (cached : Bool) : List (Nat × Nat) → List (Nat × List Byte) → Bool → Lines
  | [], lines, miss => if miss then .waiting s lines else .here s lines
  | (addr, l) :: rest, lines, miss =>
    let ep := adEp addr
    let win := adWin addr
    let k := lineKeyOf ep win l
    if (mget lines k).isSome then s.bringLines u b job cached rest lines miss
    else match (if cached then mget s.rrc (rrcKey b job ep win l) else none) with
      | some x => (s.count64 (.bay b) 0x158 0x15C 1).bringLines u b job cached rest (mset lines k x) miss
      | none =>
        if s.reading u job ep win (l * 128) then s.bringLines u b job cached rest lines true
        else if !s.routed ep job then .refused (s.sendReq u job (pktRead ep win (l * 128)))
        else (s.sendReq u job (pktRead ep win (l * 128))).bringLines u b job cached rest lines true

/-- The fabric lines of a list of extents. -/
def linesOf (xs : List (Nat × Nat)) : List (Nat × Nat) :=
  (xs.filter (fun x => adSpace x.1 == 2)).flatMap (fun x => (fabLines x.1 x.2).map (fun l => (x.1, l)))

/-- Bring extents for a core's head command, then go on. -/
def State.withLines (s : State) (b l job : Nat) (xs : List (Nat × Nat)) (next : State → List (Nat × List Byte) → Ran) : Ran :=
  let c := s.core b l
  match s.bringLines (.core b l) b job true (linesOf xs) c.lines false with
  | .here s lines => next (s.putCore b l { c with lines := lines }) lines
  | .waiting s lines => .wait (s.putCore b l { c with lines := lines })
  | .refused s => .wait (s.containedQuiet 0x600C job)

/-! ### The work of each opcode -/

/-- Load a list of extents in order. -/
def State.loadAll (s : State) (b job : Nat) (lines : List (Nat × List Byte)) : List (Nat × Nat) → Acc (List (List Byte))
  | [] => .ok []
  | (a, n) :: rest => (s.load b job lines a n).bind fun x => (s.loadAll b job lines rest).bind fun r => .ok (x :: r)

/-- Output bytes and trouble of a command from its inputs in the order of its extents. -/
def cmdOut (d : List Byte) (e : Eff) (r : Option Recipe) (ins : List (List Byte)) : List Byte × Trouble :=
  let at_ := fun i => ins.getD i []
  match cOp d with
  | 0x01 => (at_ 0, {})
  | 0x10 =>
    let fs := getLE d 62 2
    let c := b2n (bit fs 12)
    matmulOut d (e.fmt.getD 0) (at_ 0) (at_ 1) (if bit fs 12 then at_ 2 else [])
      (if e.shimYes then some (at_ (2 + c), at_ (3 + c), at_ (4 + c)) else none)
  | 0x20 =>
    let sub := getLE d 52 1
    vectorOut d (at_ 0) (if subUsesY sub then at_ 1 else []) (if subUsesW sub then at_ (1 + b2n (subUsesY sub)) else [])
  | 0x28 =>
    let rot := match r with
      | some r => (r.rotLog, r.rotSeed)
      | none => (0, 0)
    quantOut d (e.fmt.getD 0) rot.1 rot.2 (at_ 0)
  | 0x30 => prismOut d (at_ 0)
  | 0x38 => (topkOut d (at_ 0) (at_ 1), {})
  | _ => ([], {})

/-- The output extent of a command. -/
def outExt (d : List Byte) (e : Eff) : Option Ext := (cmdExts d e).find? (·.out)

/-- Every command but GATHER, ATTN and NOP: load every input, compute, store the output. -/
def State.plainRun (s : State) (b l job : Nat) (d : List Byte) (e : Eff) (r : Option Recipe) : Ran :=
  let u : UnitId := .core b l
  let ins := ((cmdExts d e).filter (fun x => !x.out)).map (fun x => (x.addr, x.size))
  s.withLines b l job ins fun s lines =>
    (s.loadAll b job lines ins).ran u job fun xs =>
      let o := cmdOut d e r xs
      match outExt d e with
      | none => .done s o.2
      | some z =>
        (s.store b job z.addr o.1).ran u job fun s =>
          .done (((ins ++ [(z.addr, o.1.length)]).foldl (fun s x => s.touchAddr job x.1 x.2) s)) o.2

/-- The rows of a GATHER: an index at or beyond the limit zero-fills its row (R69). -/
def State.gatherRows (s : State) (b job : Nat) (lines : List (Nat × List Byte)) (src rb lim : Nat) : List Nat → Acc (List Byte)
  | [] => .ok []
  | i :: rest =>
    (if lim ≤ i then Acc.ok (List.replicate rb 0) else s.load b job lines (src + i * rb) rb).bind fun x =>
      (s.gatherRows b job lines src rb lim rest).bind fun r => .ok (x ++ r)

/-- GATHER (R69). -/
def State.gatherRun (s : State) (b l job : Nat) (d : List Byte) : Ran :=
  let u : UnitId := .core b l
  let src := getLE d 16 8
  let rb := getLE d 40 4
  let rows := getLE d 44 2
  let lim := getLE d 48 4
  s.withLines b l job [(getLE d 24 8, 4 * rows)] fun s lines =>
    (s.load b job lines (getLE d 24 8) (4 * rows)).ran u job fun ix =>
      let idx := (List.range rows).map (fun i => getLE ix (4 * i) 4)
      let live := idx.filter (· < lim)
      s.withLines b l job (live.map (fun i => (src + i * rb, rb))) fun s lines =>
        (s.gatherRows b job lines src rb lim idx).ran u job fun out =>
          (s.store b job (getLE d 32 8) out).ran u job fun s =>
            let s := (live.foldl (fun s i => s.touchAddr job (src + i * rb) rb) s).touchAddr job (getLE d 24 8) (4 * rows)
            let s := s.touchAddr job (getLE d 32 8) out.length
            .done (s.count (.core b (s.slotOf b l)) 0x138 (idx.length - live.length)) {}

/-- Run the head command: the second stage, then the work (R82). -/
def State.runCmd (s : State) (b l job : Nat) (d : List Byte) : Ran :=
  let u : UnitId := .core b l
  let layers := match s.job job with
    | some j => manLayers j.manifest
    | none => 0
  let cause := fun (e : Eff) => cmdCause (fun p => s.pegOwned p job) (s.partition b job).2 layers d e
  (s.recipeOf job d).ran u job fun r =>
    let e := recipeEff d r
    s.withLines b l job (checkReads d e) fun s lines =>
      (s.stage2 b job lines d e).ran u job fun e =>
        match cause e with
        | some c => .illegal c
        | none =>
          if cOp d == opNop then .done s {}
          else if cOp d == opGather then s.gatherRun b l job d
          else if cOp d == opAttn then
            let ins := [(getLE d 16 8, getLE d 48 2 * getLE d 52 1 * getLE d 53 1 * 256), (getLE d 40 8, 512 * (getLE d 48 2 * getLE d 52 1))]
            s.withLines b l job ins fun s lines =>
              (s.loadAll b job lines ins).ran u job fun xs =>
                (ins.foldl (fun s x => s.touchAddr job x.1 x.2) s).attnRun b l job d (e.streams.getD []) (xs.getD 0 []) (xs.getD 1 [])
          else s.plainRun b l job d e (r.getD none)

/-! ### The queue (R47, R54–R58) -/

/-- KEY of a command-class record (Table 18-4). -/
def cmdKey (tag engine unit op : Nat) : Nat := tag % 2 ^ 16 + engine % 16 * 2 ^ 16 + unit % 32 * 2 ^ 20 + op % 256 * 2 ^ 32

/-- An illegal command: CORE_LAST_ERR_TAG, the queue halted, a contained fault of class 0x1 (R82). -/
def State.illegalCmd (s : State) (b l job : Nat) (d : List Byte) (code : Nat) : State :=
  let p : Page := .core b (s.slotOf b l)
  let s := s.setPreg p 0x110 (BitVec.ofNat 32 (2 ^ 28 + code % 4096 * 2 ^ 16 + cTag d))
  let s := s.putCore b l { s.core b l with halted := true }
  s.contained p { code := 0x1000 + code, sev := 3, source := p.source b, key := cmdKey (cTag d) b l (cOp d), detail := slice d 0 16, job := some job }

/-- A walk error: SCRIBE_LAST_ERR and its location, and a contained fault of class 0x2 (R175). -/
def State.scribeFault (s : State) (b l : Nat) (d : List Byte) (code : Nat) (k : ListKey) (page : Nat) : State :=
  let p : Page := .scribe b
  let s := s.setPreg p 0x130 (BitVec.ofNat 32 (2 ^ 31 + k.job % 8 * 2 ^ 28 + code % 4096 * 2 ^ 16 + k.stream % 16384))
  let s := s.setPreg p 0x134 (BitVec.ofNat 32 (k.layer % 256 * 2 ^ 24 + k.group % 16 * 2 ^ 16 + page % 4096))
  let s := s.putCore b l { s.core b l with halted := true }
  s.contained p {
    code := 0x2000 + code, sev := 3
    key := k.stream % 2 ^ 14 + k.layer % 256 * 2 ^ 16 + k.group % 16 * 2 ^ 24 + page % 4096 * 2 ^ 32
    detail := leBytes 2 (cTag d) ++ leBytes 1 b ++ leBytes 1 l, job := some k.job }

/-- Charge a command's trouble to its recipe in the executing pass: sums, and the largest of one command (R133, R134). -/
def State.trouble (s : State) (job idx : Nat) (t : Trouble) : State :=
  if (s.passNow job).isNone then s
  else s.modPass job (fun q =>
    let o := (mget q.trouble idx).getD [0, 0, 0, 0, 0, 0]
    let n := [t.sat, t.nonfinite, t.overflow]
    { q with trouble := mset q.trouble idx (List.zipWith (· + ·) (o.take 3) n ++ List.zipWith max (o.drop 3) n) })

/-- Run the started head command as far as it goes. -/
def State.runHead (s : State) (b l job : Nat) (d : List Byte) : State :=
  match s.runCmd b l job d with
  | .done s t =>
    let s := s.trouble job (cRecipe d) t
    s.putCore b l { s.core b l with executed := true, lines := [], waitPage := none, st := 2 }
  | .wait s => s
  | .deep u j v => (s.park u j v).putCore b l { s.core b l with st := 4 }
  | .bad u c j v => s.unitFault u c j v
  | .poison j pa va => s.unitPoison j pa va
  | .illegal c => s.illegalCmd b l job d c
  | .scribe c k p => s.scribeFault b l d c k p

/-- Advance the head of a core's queue: a started command runs on; one that has not started is checked, waits on its peg, or starts. Nothing starts
while a pre-emption is being taken (R56, R82, R365). A core whose last command was another job's zeroes its scratchpad first (R47). -/
def State.headStep (s : State) (b l : Nat) : State :=
  let c := s.core b l
  match c.q, c.job with
  | d :: _, some job =>
    if c.halted || c.executed || s.withdrawn b then s
    else if c.started then s.runHead b l job d
    else if s.preempting.isSome then s
    else match s.legal1 b job d with
      | some code => s.illegalCmd b l job d code
      | none =>
        if cWaitEn d && !reached (s.pegValue (cWaitPeg d)) (cWaitTarget d) then s.putCore b l { c with st := 3 }
        else
          let slot := s.slotOf b l
          let s := (if c.prevJob == some job then s else s.zeroScratch b slot).fillScratch b slot job
          (s.putCore b l { c with started := true, st := 2, prevJob := some job, waitFrom := c.waitFrom.map (fun _ => s.nowN) }).runHead b l job d
  | _, _ => s

/-- A descriptor enters a core's queue. -/
def State.enqueue (s : State) (b l job : Nat) (d : List Byte) : State :=
  let c := s.core b l
  let s := s.count64 (.bay b) 0x128 0x12C 1
  let first := c.q.isEmpty
  let s := s.putCore b l { c with q := c.q ++ [slice d 0 64], tail := (c.tail + 1) % 64, job := some job }
  if first then s.headStep b l else s

/-- The first command of the run that holds the cores (RUN_WAIT_CT, Table 11-3). -/
def State.noteFirst (s : State) : State :=
  match s.holder with
  | some (.run u) => { s with runs := s.runs.map (fun (r : Run) => if r.uid == u && r.first.isNone then { r with first := some s.nowN } else r) }
  | _ => s

/-- The logical core is under remap: its slot has failed and no other is mapped yet (R42). -/
def State.underRemap (s : State) (b l : Nat) : Bool := decide (s.slotOf b l ≤ 16) && s.slotState b (s.slotOf b l) == 2

/-- The control core holds zero credits for a logical core's queue: 64 descriptors are in it, or the core is under remap (R42, R54). -/
def State.noCredit (s : State) (b l : Nat) : Bool := decide (64 ≤ (s.core b l).q.length) || s.underRemap b l

/-- A descriptor reaches the control core of a bay that presents cores. With no credit, or with an earlier descriptor of the core held, it is held
(R42, R54, R55, Table 01-5). -/
def State.issueAt (s : State) (b l job : Nat) (d : List Byte) : State :=
  if s.noCredit b l || s.ccHeld.any (fun x => x.1 == coreKey b l) then
    let c := s.core b l
    { s with
      ccHeld := s.ccHeld ++ [(coreKey b l, job, slice d 0 64)]
      cores := mset s.cores (coreKey b l) { c with waitFrom := some (c.waitFrom.getD s.nowN) } }
  else s.noteFirst.enqueue b l job d

/-- The unit of work that a descriptor belongs to, by the manifest's WITHDRAW_UNIT: an ATTN's first head group where the unit is a head group, else the
logical core's command list (R43; log 250). -/
def dealUnit (kind l : Nat) (d : List Byte) : Nat := if kind = 2 && cOp d == opAttn then getLE d 51 1 else l

/-- The control core writes a descriptor of the pass or run that holds the cores into a logical core's queue. The work of a bay that presents no cores runs
in the bay that it is dealt to (R43, R529). -/
def State.issue (s : State) (b l : Nat) (d : List Byte) : State :=
  match s.holder.bind s.holderJob with
  | none => s
  | some job =>
    if 16 ≤ b || 16 ≤ l then s
    else
      let kind := (s.job job).elim 0 (fun j => manWithdrawUnit j.manifest)
      match s.receiving b (dealUnit kind l d) with
      | none => s
      | some b => s.issueAt b l job d

/-- A returned credit releases the oldest descriptor held for the core. -/
def State.release (s : State) (b l : Nat) : State :=
  match s.ccHeld.find? (fun x => x.1 == coreKey b l) with
  | none => s
  | some (_, job, d) =>
    if s.noCredit b l then s
    else
      let s := { s with ccHeld := s.ccHeld.eraseP (fun x => x.1 == coreKey b l) }
      let c := s.core b l
      let more := s.ccHeld.any (fun x => x.1 == coreKey b l)
      (s.putCore b l { c with waitFrom := if more then some s.nowN else none }).enqueue b l job d

/-- A command of opcode `op` is written to a core; a descriptor of another opcode is not this command. -/
def State.issueOp (s : State) (op b l : Nat) (d : List Byte) : State := if cOp d == op then s.issue b l d else s

/-- CORE_NOP (R67): the header only. A reserved opcode is written by this command too, and found illegal with code 0x001 (R66). -/
def execCoreNop (bay core : Nat) (d : List Byte) (s : State) : Host.Outcome State Fault Refusal :=
  .next (if cOp d == opNop || !opListed (cOp d) then s.issue bay core d else s)

/-- COPY (R68). -/
def execCopy (bay core : Nat) (d : List Byte) (s : State) : Host.Outcome State Fault Refusal := .next (s.issueOp opCopy bay core d)
/-- GATHER (R69). -/
def execGather (bay core : Nat) (d : List Byte) (s : State) : Host.Outcome State Fault Refusal := .next (s.issueOp opGather bay core d)
/-- MATMUL (R70–R72, R96–R99, R126–R131). -/
def execMatmul (bay core : Nat) (d : List Byte) (s : State) : Host.Outcome State Fault Refusal := .next (s.issueOp opMatmul bay core d)
/-- ATTN (R73, R139–R175). -/
def execAttn (bay core : Nat) (d : List Byte) (s : State) : Host.Outcome State Fault Refusal := .next (s.issueOp opAttn bay core d)
/-- VECTOR (R74, R101, R102, R109–R112). -/
def execVectorOp (bay core : Nat) (d : List Byte) (s : State) : Host.Outcome State Fault Refusal := .next (s.issueOp opVector bay core d)
/-- QUANT (R75, R104–R108, R122). -/
def execQuant (bay core : Nat) (d : List Byte) (s : State) : Host.Outcome State Fault Refusal := .next (s.issueOp opQuant bay core d)
/-- PRISM (R76, R118–R121). -/
def execPrism (bay core : Nat) (d : List Byte) (s : State) : Host.Outcome State Fault Refusal := .next (s.issueOp opPrism bay core d)
/-- TOPK (R77, R177, R178). -/
def execTopk (bay core : Nat) (d : List Byte) (s : State) : Host.Outcome State Fault Refusal := .next (s.issueOp opTopk bay core d)

/-- The effects of retirement (R55, R58): the signal once, the notification, the credit, the count; the next command comes to the head. -/
def State.retireHead (s : State) (b l : Nat) (d : List Byte) : State :=
  let c := s.core b l
  let s := if cSignalEn d then s.pegLocal (cSignalPeg d) (cSignalInc d) else s
  let s := if cNotify d then { s with notes := s.notes ++ [(b, cTag d)] } else s
  let s := s.count64 (.core b (s.slotOf b l)) 0x120 0x124 1
  let rest := c.q.tail
  let s := s.putCore b l { c with
    q := rest, head := (c.head + 1) % 64, started := false, executed := false, waitFrom := c.waitFrom.map (fun _ => s.nowN)
    st := if rest.isEmpty then 1 else 2 }
  (s.headStep b l).release b l

/-- COMMAND_RETIRE (R55): the head command of a core has made its stores. -/
def execCommandRetire (bay core : Nat) (s : State) : Host.Outcome State Fault Refusal :=
  let c := s.core bay core
  .next (match c.q with
    | d :: _ => if c.executed then s.retireHead bay core d else s
    | [] => s)

/-! ### The control core and the watchdog -/

/-- Pass or run work stands in a bay: a command, a descriptor of its port or its DMA engine. -/
def State.bayBusy (s : State) (b : Nat) : Bool :=
  s.cores.any (fun e => e.1 / 16 == b && !e.2.q.isEmpty) || s.doves.any (fun e => e.1 == b && !e.2.q.isEmpty) ||
  s.chans.any (fun e => decide (1000 ≤ e.1) && (e.1 - 1000) / 16 == b && !e.2.q.isEmpty)

/-- A control core fails: its bay is withdrawn; a contained fault when work was in the bay, otherwise a record of severity 0
(R40, R44, R543, Table 18-2). -/
def State.controlFails (s : State) (b checker : Nat) : State :=
  if 16 ≤ b || s.withdrawn b then s
  else
    let s := { s with boot := { s.boot with jobStart := none } }
    let busy := s.bayBusy b
    let r : ErrRec := {
      code := 0x0003, sev := 0, key := hwKey b 0x1F 0x1F 0x1F, detail := hwDetail 0 0 checker (s.baysUp - 1)
      job := if busy then s.holder.bind s.holderJob else none }
    if busy then (s.contained (.bay b) r).withdrawBay b else (s.report (.bay b) r).withdrawBay b

/-- CONTROL_CORE_HEARTBEAT_STALL (R44): BAY_CC_HEARTBEAT of a bay has stood for 24,576 ct. -/
def execControlCoreHeartbeatStall (bay : Nat) (s : State) : Host.Outcome State Fault Refusal := .next (s.controlFails bay 5)

/-- PROGRESS_MONITOR_EXPIRY (R543): a bay with work outstanding has issued and posted nothing for 2,048 ct. -/
def execProgressMonitorExpiry (bay : Nat) (s : State) : Host.Outcome State Fault Refusal :=
  .next (if s.bayBusy bay then s.controlFails bay 4 else s)

/-- A core's queue stands: a descriptor waits for a credit, and for 2,048 ct the core has neither taken a command nor returned a credit (R30). -/
def State.coreStalled (s : State) (b l : Nat) : Bool :=
  match (s.core b l).waitFrom with
  | some t => decide (t + 2048 ≤ s.nowN)
  | none => false

/-- The logical cores that a slot presents. -/
def State.coresOf (s : State) (b slot : Nat) : List Nat := (List.range 16).filter (fun l => s.slotOf b l == slot)

/-- The page has stopped taking items: its producers are not subject to the watchdog (R31). -/
def State.quiesced (s : State) (p : Page) : Bool := wbit (s.preg p 0x00C) 1

/-- A queue whose producer and consumer are both on the module can have expired at this consumer: the producer has work waiting with no credit. A core's
queue, a port's and a bay channel's are judged by what is held for them, and an Ethernet port by its frames; the queues in front of a memory controller are no
state, and theirs is told by the command (R30; log 10). The deep tier's queues and fabric egress have no watchdog. -/
def State.watched (s : State) : Page → Bool
  | .core b slot => (s.coresOf b slot).any (s.coreStalled b)
  | .dovetail b => s.heldFor (.dovetail b)
  | .baydma b => (List.range 16).any (fun n => s.heldFor (.bayDma b n))
  | .eth p => s.streams.any (fun e => b2n (e.2.flag 4) == p && decide (8 ≤ e.2.out.length))
  | .main _ => s.holder.isSome || s.moves.any (fun m => m.started)
  | .near _ => s.holder.isSome || s.moves.any (fun m => m.started)
  | _ => false

/-- KEY of the watchdog's record: the bay and slot of a consumer in a bay, with the logical core whose queue it is (log 251). -/
def State.watchKey (s : State) : Page → Nat
  | .core b slot => hwKey b slot (((s.coresOf b slot).filter (s.coreStalled b)).headD 0x1F) 0x1F
  | .dovetail b => hwKey b 0x1F 0x1F 0x1F
  | .baydma b => hwKey b 0x1F 0x1F 0x1F
  | _ => hwKey 0x1F 0x1F 0x1F 0x1F

/-- SOURCE of a consumer: the page, with its slot for a core. -/
def watchSource (p : Page) : Nat :=
  match p with
  | .core b _ => p.source b
  | _ => p.source

/-- CREDIT_WATCHDOG_EXPIRY (R30): the consumer block at a BAR0 page reports the error, and a contained fault follows, its culprit the job of the unit that
holds the cores (log 251). -/
def State.watchdog (s : State) (p : Page) : State :=
  if !s.watched p || s.quiesced p then s
  else
    s.contained p { code := 0x0004, sev := 3, source := watchSource p, key := s.watchKey p, detail := hwDetail 0 0 5 s.baysUp, job := s.holder.bind s.holderJob }

def execCreditWatchdogExpiry (page : Nat) (s : State) : Host.Outcome State Fault Refusal :=
  .next (match Page.ofOffset page with
    | some (p, _) => s.watchdog p
    | none => s)

/-! ### Invalidation of the remote read cache (R53) -/

/-- A write of a job mask to BAY_RRC_INV: an invalidation begins, or its jobs join the one in progress. -/
def State.rrcInvalidate (s : State) (b mask : Nat) : State :=
  let old := (mget s.rrcInv b).getD 0
  let s := { s with rrcInv := mset s.rrcInv b (Nat.lor old (mask % 256)) }
  s.setPreg (.bay b) 0x154 1

/-- BAY_RRC_INV (R53). -/
def execBayRrcInv (bay mask : Nat) (s : State) : Host.Outcome State Fault Refusal :=
  .next (if bay < 16 then s.rrcInvalidate bay mask else s)

/-- RRC_INV_DONE (R53): every entry of the jobs named is gone, INV_BUSY clears and the interrupt bit sets. -/
def State.rrcInvDone (s : State) (b : Nat) : State :=
  match mget s.rrcInv b with
  | none => s
  | some m =>
    let s := ({ s with
      rrc := s.rrc.filter (fun e => !(rrcBayOf e.1 == b && bit m (rrcJobOf e.1)))
      rrcInv := mdel s.rrcInv b }).staleReads (fun x j => x == b && bit m j)
    (s.setPreg (.bay b) 0x154 0).irq (.bay b) 3

def execRrcInvDone (bay : Nat) (s : State) : Host.Outcome State Fault Refusal := .next (s.rrcInvDone bay)

end Sys2Proof.Machine
end

