-- ==== Sys2Proof/Machine/Windows.lean ====
section
/-!
DEFINITION. The window table as words of BAR0, and reads through a window's own memory (R375–R377, Tables 12-3 and 12-4).
-/

namespace Sys2Proof.Machine

open Sys2Proof

/-- BAR0 offset of word `k` of window `w` of job `j` (R376). -/
def winOff (j w k : Nat) : Nat := 0x1000000 + (j % 8 * 4096 + w % 4096) * 32 + 4 * k

/-- A window-table entry as its eight words. -/
structure Win where
  ctrl : Nat
  senders : Nat
  base : Nat
  size : Nat
  pegs : Nat
  rest : Nat
deriving DecidableEq, Repr

def winOfWords (w : Nat → Nat) : Win := ⟨w 0, w 1, w 2 + w 3 * 2 ^ 32, w 4 + w 5 * 2 ^ 32, w 6, w 7⟩
def State.win (s : State) (j w : Nat) : Win := winOfWords (fun k => (s.reg (winOff j w k)).toNat)

def Win.state (w : Win) : Nat := field w.ctrl 1 0
def Win.read (w : Win) : Bool := bit w.ctrl 2
def Win.write (w : Win) : Bool := bit w.ctrl 3
def Win.peg (w : Win) : Bool := bit w.ctrl 4
def Win.shared (w : Win) : Bool := bit w.ctrl 5
def Win.target (w : Win) : Nat := field w.ctrl 7 6
def Win.epochMode (w : Win) : Nat := field w.ctrl 9 8
def Win.segmented (w : Win) : Bool := bit w.ctrl 10
def Win.epoch (w : Win) : Nat := field w.ctrl 23 16
def Win.qslot (w : Win) : Nat := field w.ctrl 29 24
def Win.first (w : Win) : Nat := field w.senders 9 0
def Win.last (w : Win) : Nat := field w.senders 25 16
def Win.srcJob (w : Win) : Nat := field w.senders 28 26
def Win.anyJob (w : Win) : Bool := bit w.senders 29
def Win.pegFirst (w : Win) : Nat := field w.pegs 14 0
def Win.pegCount (w : Win) : Nat := field w.pegs 31 16
/-- Bay and offset of a window on bay memory. -/
def Win.bay (w : Win) : Nat := field w.base 27 24
def Win.bayOff (w : Win) : Nat := field w.base 23 0

/-- The window admits increments to a peg. -/
def Win.admits (w : Win) (p : Nat) : Bool := w.peg && decide (w.pegFirst ≤ p) && decide (p < w.pegFirst + w.pegCount)

/-- The entry obeys Tables 12-3 and 12-4; asked when its STATE is not closed (R377). -/
def Win.legal (w : Win) : Bool :=
  field w.ctrl 31 30 == 0 && field w.ctrl 15 11 == 0 && w.epochMode != 3 && w.target != 3 && w.state != 3 &&
  field w.senders 15 10 == 0 && field w.senders 31 30 == 0 && decide (w.first ≤ w.last) &&
  (match w.target with
   | 0 => w.base % 128 == 0 && decide (w.base < 2 ^ 52)
   | 1 => w.base % 128 == 0 && field w.base 63 28 == 0
   | _ => decide (w.base ≤ 1)) &&
  w.size % 128 == 0 && decide (128 ≤ w.size) && decide (w.size ≤ 2 ^ 40) &&
  !bit w.pegs 15 && decide (w.pegCount ≤ 32767) && decide (w.pegFirst + w.pegCount ≤ 32768) && w.rest == 0

/-- Read bytes of the memory behind a window of this module's own job. -/
def State.winRead (s : State) (j w off n : Nat) : Acc (List Byte) :=
  let e := s.win j w
  match e.target with
  | 0 => s.readVa j (e.base + off) n
  | 1 => s.readBay e.bay ((s.partition e.bay j).1 + e.bayOff + off) n
  | _ => .ok (List.replicate n 0)

end Sys2Proof.Machine
end

