-- ==== Sys2Proof/Machine/Experts.lean ====
section
/-!
DEFINITION. The dovetail engine and the expert queues: placement banks, SCATTER, RETURN, the Flotal exchange and the work built from counts
(R177–R217).
-/

namespace Sys2Proof.Machine

open Sys2Proof

/-! ### The placement bank (Tables 06-1 to 06-4) -/

/-- What a unit reads of a bank: header and source table, the entries of one layer, the local queue table. -/
structure Bank where
  hd : List Byte
  entries : List Byte
  loc : List Byte

def Bank.u (b : Bank) (o n : Nat) : Nat := getLE b.hd o n
def Bank.sources (b : Bank) : Nat := b.u 0 2
def Bank.experts (b : Bank) : Nat := b.u 2 2
def Bank.layers (b : Bank) : Nat := b.u 4 2
def Bank.mySource (b : Bank) : Nat := b.u 6 2
def Bank.cap (b : Bank) : Nat := b.u 8 2
def Bank.fmt (b : Bank) : Nat := b.u 10 1 % 16
def Bank.queues (b : Bank) : Nat := b.u 11 1
def Bank.h (b : Bank) : Nat := b.u 12 2
def Bank.queueWin (b : Bank) (k : Nat) : Nat := b.u 14 2 + k
def Bank.arrivalPeg (b : Bank) (k : Nat) : Nat := b.u 16 2 + k
def Bank.donePeg (b : Bank) (k : Nat) : Nat := b.u 18 2 + k
def Bank.returnPeg (b : Bank) : Nat := b.u 20 2
def Bank.combineWin (b : Bank) : Nat := b.u 22 2
def Bank.k (b : Bank) : Nat := b.u 24 1
def Bank.exchCap (b : Bank) : Nat := b.u 26 2
def Bank.grantWin (b : Bank) : Nat := b.u 28 2
def Bank.grantPeg (b : Bank) : Nat := b.u 30 2
def Bank.imbalance (b : Bank) : Nat := b.u 32 8
def Bank.exchange (b : Bank) (layer : Nat) : Bool := bit (b.u 64 32) layer
def Bank.source (b : Bank) (i : Nat) : Nat := b.u (128 + 2 * i) 2 % 1024
def Bank.sourceList (b : Bank) : List Nat := (List.range b.sources).map b.source
def Bank.replicas (b : Bank) (e : Nat) : Nat := getLE b.entries (32 * e) 1
def Bank.replica (b : Bank) (e r : Nat) : Nat := getLE b.entries (32 * e + 4 + 4 * r) 4
def repEndpoint (w : Nat) : Nat := field w 9 0
def repSlot (w : Nat) : Nat := field w 15 10
def repEpoch (w : Nat) : Nat := field w 23 16
def Bank.queueBase (b : Bank) (k : Nat) : Nat := getLE b.loc (16 * k) 8
def Bank.queueEpoch (b : Bank) (k : Nat) : Nat := getLE b.loc (16 * k + 8) 1

/-- Sizes of one row: data bytes RD and scale bytes RS (R183). -/
def Bank.rd (b : Bank) : Nat := if isFourBit b.fmt then b.h / 2 else b.h
def Bank.rs (b : Bank) : Nat := if isMX b.fmt then b.h / 32 else b.h / 16
/-- Rows of a segment, or of the whole area in an exchange layer. -/
def Bank.rows (b : Bank) (ex : Bool) : Nat := if ex then b.exchCap else b.cap
def Bank.tl (b : Bank) (ex : Bool) : Nat := ceilDiv (b.rows ex) 32
def Bank.segs (b : Bank) (ex : Bool) : Nat := if ex then 1 else b.sources
def Bank.tagArea (b : Bank) : Nat := b.sources * 128
def Bank.dataArea (b : Bank) (ex : Bool) : Nat := b.tagArea + b.segs ex * b.tl ex * 128
def Bank.scaleArea (b : Bank) (ex : Bool) : Nat := b.dataArea ex + b.segs ex * b.rows ex * b.rd
def Bank.tagOff (b : Bank) (ex : Bool) (seg i : Nat) : Nat := b.tagArea + seg * b.tl ex * 128 + 4 * i
def Bank.dataOff (b : Bank) (ex : Bool) (seg i : Nat) : Nat := b.dataArea ex + (seg * b.rows ex + i) * b.rd
def Bank.scaleOff (b : Bank) (ex : Bool) (seg i : Nat) : Nat := b.scaleArea ex + (seg * b.rows ex + i) * b.rs

/-- The queue instances of a layer: replica words in ascending expert, then ascending replica (R182, R212). -/
def Bank.instances (b : Bank) : List Nat :=
  (List.range b.experts).flatMap (fun e => (List.range (b.replicas e)).map (b.replica e))

/-- Offset of a layer's entries in a bank. -/
def bankLayerOff (experts layer : Nat) : Nat := 2176 + layer * experts * 32

/-- Read a bank's header and source table. -/
def State.bankHead (s : State) (job bank : Nat) : Acc Bank :=
  match s.job job with
  | none => .bad 1 job 0
  | some j => (s.readVa job (j.bankVa bank) 2176).bind fun hd => .ok ⟨hd, [], []⟩

/-- Read a bank for one layer. -/
def State.bank (s : State) (job bank layer : Nat) : Acc Bank :=
  (s.bankHead job bank).bind fun b =>
    let va := (s.job job).elim 0 (·.bankVa bank)
    (s.readVa job (va + bankLayerOff b.experts layer) (32 * b.experts)).bind fun en =>
      (s.readVa job (va + bankLayerOff b.experts b.layers) 1024).bind fun lo => .ok ⟨b.hd, en, lo⟩

/-- The instance counts of the layers below `n`: (exchange, instances N, whether a slot of endpoint `me` serves it). -/
def State.layerInfo (s : State) (job bank me slot : Nat) : Nat → Acc (List (Bool × Nat × Bool))
  | 0 => .ok []
  | l + 1 =>
    (s.layerInfo job bank me slot l).bind fun r =>
      (s.bank job bank l).bind fun b =>
        .ok (r ++ [(b.exchange l, b.instances.length, b.instances.any (fun w => repEndpoint w == me && repSlot w == slot))])

/-- Base of a peg recorded when the pass was formed (R207). -/
def Pass.baseOf (p : Pass) (peg : Nat) : Nat := (mget p.pegBases peg).getD 0

/-! ### Descriptors (R186, R203, R216) -/

def dvRoute (d : List Byte) : Nat := getLE d 16 8
def dvRows (d : List Byte) : Nat := getLE d 48 2
def dvLayer (d : List Byte) : Nat := if cOp d == 1 then getLE d 50 1 else getLE d 26 1
def dvSlot (d : List Byte) : Nat := getLE d 24 2
def dvM (d : List Byte) : Nat := getLE d 28 4

/-- Extents of a descriptor: SCATTER reads ROUTE and ROWS_IN and writes STATUS and COMBINE; RETURN reads OUT. -/
def dvExts (b : Bank) (d : List Byte) : List Ext :=
  if cOp d == 1 then
    let r := dvRows d
    let n := r * getLE d 51 1
    [⟨getLE d 16 8, round128 (n * 4) + round128 (n * 2), false⟩, ⟨getLE d 24 8, tensorBytes b.fmt r b.h, false⟩,
     ⟨getLE d 32 8, 4 * r, true⟩, ⟨getLE d 40 8, n * b.h * 2, true⟩]
  else [⟨getLE d 16 8, dvM d * b.h * 2, false⟩]

/-- An output extent meets an input extent: code 7, behind the content codes (R216). -/
def dvOverlap (b : Bank) (d : List Byte) : Bool :=
  let exts := dvExts b d
  exts.any (fun o => o.out && exts.any (fun i => !i.out && extsMeet i o))

/-- The lowest code of Table 06-11 that comes before every operand's contents, the alignment and address-space checks of code 7 among them
(R216). It needs no more of the bank than its header. -/
def dvCause (owned : Nat → Bool) (part : Nat) (b : Bank) (d : List Byte) : Option Nat :=
  let op := cOp d
  let fl := getLE d 1 1
  let exts := dvExts b d
  let head := decide (fl / 16 ≠ 0) || cRef d || decide (32768 ≤ cWaitPeg d) || decide (32768 ≤ cSignalPeg d) || getLE d 12 2 != 0 ||
    (!cWaitEn d && (cWaitPeg d != 0 || cWaitTarget d != 0)) || (!cSignalEn d && (cSignalPeg d != 0 || cSignalInc d != 0)) ||
    (cSignalEn d && cSignalInc d == 0)
  let body := if op == 1 then !(zeroBytes d 52 12) else !(zeroBytes d 27 1) || !(zeroBytes d 32 32)
  if op != 1 && op != 2 then some 1
  else if head || body || exts.any (fun x => !adBitsOk x.addr) then some 2
  else if (cWaitEn d && !owned (cWaitPeg d)) || (cSignalEn d && !owned (cSignalPeg d)) then some 3
  else if (if op == 1 then dvRows d == 0 || decide (16384 < dvRows d) || decide (b.layers ≤ dvLayer d) || getLE d 51 1 != b.k
      else decide (b.queues ≤ dvSlot d) || decide (b.layers ≤ dvLayer d)) then some 4
  else if exts.any (fun x => x.addr % 128 != 0 || decide (2 ≤ adSpace x.addr) || (adSpace x.addr == 1 && decide (part < adOff x.addr + x.size))) then some 7
  else none

/-- An expert-class error: DOVETAIL_LAST_ERR and a contained fault (R216). -/
def State.dvFault (s : State) (b job code : Nat) (d : List Byte) : State :=
  let p : Page := .dovetail b
  let s := s.setPreg p 0x124 (BitVec.ofNat 32 (2 ^ 31 + job % 8 * 2 ^ 28 + code % 4096 * 2 ^ 16 + cTag d))
  s.contained p { code := 0x3000 + code, sev := 3, key := cmdKey (cTag d) b 0 (cOp d), detail := slice d 0 16, job := some job }

/-! ### Choices (R188–R192) -/

/-- One choice: row, rank, expert. -/
structure Choice where
  t : Nat
  j : Nat
  e : Nat
deriving DecidableEq, Repr

def choicesOf (rows k : Nat) (route : List Byte) : List Choice :=
  let o := round128 (rows * k * 4)
  (List.range (rows * k)).map (fun i => ⟨i / k, i % k, getLE route (o + 2 * i) 2⟩)

/-- Assign choices in order: the instance word of each, by the number of earlier choices of its expert (R188). -/
def assign (b : Bank) : List Choice → List (Nat × Nat) → List (Choice × Nat)
  | [], _ => []
  | c :: cs, seen =>
    let n := (mget seen c.e).getD 0
    (c, b.replica c.e (n % b.replicas c.e)) :: assign b cs (mset seen c.e (n + 1))

/-- The position of each choice at its instance: the number of earlier choices assigned to it. -/
def positions : List (Choice × Nat) → List (Nat × Nat) → List (Choice × Nat × Nat)
  | [], _ => []
  | (c, w) :: cs, seen =>
    let n := (mget seen w).getD 0
    (c, w, n) :: positions cs (mset seen w (n + 1))

/-- The lines of a run of bytes at a line-aligned window offset. -/
def linesAt (off : Nat) (bs : List Byte) : List (Nat × List Byte) :=
  (List.range (ceilDiv bs.length 128)).map (fun i => (off + 128 * i, slice bs (128 * i) 128))

/-- The writes of one accepted row to its instance: data lines and scale lines (R189). -/
def rowWrites (b : Bank) (ex : Bool) (seg pos w : Nat) (rows : Nat) (tensor : List Byte) (t : Nat) : List Packet :=
  let sOff := round128 (rows * b.rd)
  let ls := linesAt (b.dataOff ex seg pos) (slice tensor (t * b.rd) b.rd) ++
    linesAt (b.scaleOff ex seg pos) (slice tensor (sOff + t * b.rs) b.rs)
  ls.map (fun l => pktWrite (repEndpoint w) (b.queueWin (repSlot w)) l.1 (repEpoch w) l.2)

/-- The tag lines of the rows an instance accepted (R184): the lines that hold positions `first` onwards. The
words of a line that belong to other sources of an exchange layer are sent as zeros (log 261). -/
def tagWrites (b : Bank) (ex : Bool) (seg first w : Nat) (tags : List Nat) : List Packet :=
  if tags.isEmpty then []
  else
    let lo := first / 32
    let bs := List.replicate (4 * (first % 32)) (0 : Byte) ++ tags.flatMap (leBytes 4)
    (linesAt (b.tagOff ex seg (32 * lo)) bs).map (fun l => pktWrite (repEndpoint w) (b.queueWin (repSlot w)) l.1 (repEpoch w) l.2)

/-- A count line (Table 06-6). -/
def countLine (b : Bank) (w count layer label : Nat) : List Byte :=
  leBytes 2 count ++ leBytes 1 (repEpoch w) ++ leBytes 1 layer ++ leBytes 4 label ++ leBytes 2 b.mySource ++ leBytes 118 0

/-- The count line and, fenced behind everything sent to the instance's endpoint, the arrival increment (R190, R191). What COUNT
holds of more than 65,535 choices of an exchange layer is not stated: a free value (log 262). -/
def State.announce (s : State) (u : UnitId) (job : Nat) (b : Bank) (layer label : Nat) (counts : List (Nat × Nat)) : State :=
  let s := b.instances.foldl (fun s w =>
    let n := (mget counts w).getD 0
    let c := if n < 65536 then n else Config.freeNat s.freeCtr % 65536
    s.useFree.sendReq u job (pktWrite (repEndpoint w) (b.queueWin (repSlot w)) (b.mySource * 128) (repEpoch w) (countLine b w c layer label))) s
  b.instances.foldl (fun s w =>
    s.fence u job (some (repEndpoint w))
      [pktInc (repEndpoint w) (b.queueWin (repSlot w)) (b.arrivalPeg (repSlot w)) 1 (repEpoch w)]) s

/-- The second arrival increment of an exchange layer to every instance (R213, phase 3). -/
def State.announce2 (s : State) (u : UnitId) (job : Nat) (b : Bank) : State :=
  b.instances.foldl (fun s w =>
    s.fence u job (some (repEndpoint w))
      [pktInc (repEndpoint w) (b.queueWin (repSlot w)) (b.arrivalPeg (repSlot w)) 1 (repEpoch w)]) s

/-- The rows and tags sent, given which choices are accepted and where each goes: (choice, instance, segment, position). -/
def State.sendRows (s : State) (u : UnitId) (job : Nat) (b : Bank) (ex : Bool) (rows : Nat) (tensor : List Byte)
    (acc : List (Choice × Nat × Nat × Nat)) : State :=
  let s := acc.foldl (fun s x => s.sendAll u job (rowWrites b ex x.2.2.1 x.2.2.2 x.2.1 rows tensor x.1.t)) s
  b.instances.foldl (fun s w =>
    let mine := acc.filter (fun x => x.2.1 == w)
    match mine with
    | [] => s
    | x :: _ => s.sendAll u job (tagWrites b ex x.2.2.1 x.2.2.2 w (mine.map (fun y => y.1.t * b.k + y.1.j)))) s

/-- Store zeros into refused combine rows, and every status word (R192). -/
def State.refuseRows (s : State) (bay job : Nat) (b : Bank) (d : List Byte) (refused : List Choice) : Acc State :=
  let zero := List.replicate (b.h * 2) (0 : Byte)
  let rec rowsAt (s : State) : List Choice → Acc State
    | [] => .ok s
    | c :: cs => (s.store bay job (getLE d 40 8 + (c.t * b.k + c.j) * b.h * 2) zero).bind fun s => rowsAt s cs
  (rowsAt s refused).bind fun s =>
    let words := (List.range (dvRows d)).flatMap (fun t =>
      leBytes 4 ((refused.filter (fun c => c.t == t)).foldl (fun m c => m + 2 ^ c.j) 0))
    s.store bay job (getLE d 32 8) words

/-- The pass's counts of one SCATTER: imbalance counts, refused choices by stream and by port (R192, R193, R217). Row t is the token of the t-th
stream of the pass; a row beyond them is no stream's (log 61). -/
def State.noteChoices (s : State) (bay job layer : Nat) (accepted refused : List Choice) : State :=
  s.modPass job (fun p =>
    let key := fun (c : Choice) (kind : Nat) => (layer * 1024 + c.e) * 2 + kind
    let m := countAll (countAll p.scatter (accepted.map (fun c => key c 0))) (refused.map (fun c => key c 1))
    { p with
      scatter := m
      refused := countAll p.refused (refused.filterMap (fun c => p.streams[c.t]?))
      ports := mset p.ports bay ((mget p.ports bay).getD 0 + refused.length) })

/-- Content errors of a SCATTER: codes 5 and 6 (R216). -/
def scatterContent (b : Bank) (cs : List Choice) : Option Nat :=
  if cs.any (fun c => decide (b.experts ≤ c.e)) then some 5
  else if cs.any (fun c => b.replicas c.e == 0 || decide (7 < b.replicas c.e) ||
      (List.range (b.replicas c.e)).any (fun r =>
        let w := b.replica c.e r
        decide (b.queues ≤ repSlot w) || decide (w / 2 ^ 24 ≠ 0) || !b.sourceList.contains (repEndpoint w))) then some 6
  else none

/-! ### Receiving work (R199, R202, R213) -/

/-- The count line of a source in slot `k`'s queue region. -/
def State.countOf (s : State) (job : Nat) (b : Bank) (k src : Nat) : Acc (List Byte) := s.readVa job (b.queueBase k + src * 128) 128

/-- The counts of every source, in source order; code 8 when a line breaks R199. The cap does not bind in an exchange layer. -/
def State.countsOf (s : State) (job : Nat) (b : Bank) (k layer label : Nat) (ex : Bool) : Nat → Acc (Option (List Nat))
  | 0 => .ok (some [])
  | n + 1 => (s.countsOf job b k layer label ex n).bind fun r =>
      (s.countOf job b k n).bind fun l =>
        match r with
        | none => .ok none
        | some cs =>
          if (ex || decide (getLE l 0 2 ≤ b.cap)) && getLE l 3 1 == layer && getLE l 4 4 == label % 2 ^ 32 then .ok (some (cs ++ [getLE l 0 2]))
          else .ok none

/-- Grants in source order: (rows granted, offset) (R213). -/
def grantsOf (cap : Nat) : Nat → List Nat → List (Nat × Nat)
  | _, [] => []
  | done, c :: cs => (min c (cap - done), done) :: grantsOf cap (done + min c (cap - done)) cs

/-- Where each accepted row of a queue lies, in compacted order: (source, segment, position) (R200, R213). -/
def compacted (ex : Bool) (cap : Nat) (counts : List Nat) : List (Nat × Nat × Nat) :=
  if ex then
    ((grantsOf cap 0 counts).zipIdx).flatMap (fun x => (List.range x.1.1).map (fun i => (x.2, 0, x.1.2 + i)))
  else (counts.zipIdx).flatMap (fun x => (List.range x.1).map (fun i => (x.2, x.2, i)))

/-! ### The port (R186, R187, R194, R203) -/

/-- How a step of a port ends. -/
inductive DvRan where
  | to (s : State) (phase : Nat)
  | err (code : Nat)
  | acc (x : Acc Unit)

def Acc.dv {α : Type} (x : Acc α) (k : α → DvRan) : DvRan :=
  match x with
  | .ok a => k a
  | .deep j v => .acc (.deep j v)
  | .bad c j v => .acc (.bad c j v)
  | .poison p v => .acc (.poison p v)
  | .remote d w o n => .acc (.remote d w o n)

/-- SCATTER (R188–R192; phase 1 of R213 in an exchange layer). -/
def State.scatterRun (s : State) (bay job : Nat) (p : Pass) (b : Bank) (d : List Byte) : DvRan :=
  let u : UnitId := .dovetail bay
  let rows := dvRows d
  let n := rows * b.k
  (s.load bay job [] (getLE d 16 8) (round128 (n * 4) + round128 (n * 2))).dv fun route =>
  (s.load bay job [] (getLE d 24 8) (tensorBytes b.fmt rows b.h)).dv fun tensor =>
    let cs := choicesOf rows b.k route
    match (scatterContent b cs).orElse (fun _ => if dvOverlap b d then some 7 else none) with
    | some c => .err c
    | none =>
      let layer := dvLayer d
      let placed := positions (assign b cs []) []
      let s := (s.touchAddr job (getLE d 16 8) (6 * n)).touchAddr job (getLE d 24 8) (tensorBytes b.fmt rows b.h)
      if b.exchange layer then
        .to (s.announce u job b layer p.label (countAll [] (placed.map (·.2.1)))) 2
      else
        let ok := placed.filter (fun x => decide (x.2.2 < b.cap))
        let no := (placed.filter (fun x => decide (b.cap ≤ x.2.2))).map (·.1)
        (s.refuseRows bay job b d no).dv fun s =>
          let s := s.sendRows u job b false rows tensor (ok.map (fun x => (x.1, x.2.1, b.mySource, x.2.2)))
          let s := s.announce u job b layer p.label (countAll [] (ok.map (·.2.1)))
          .to (s.noteChoices bay job layer (ok.map (·.1)) no) 1

/-- Phase 3 of R213: the granted rows of a SCATTER in an exchange layer. -/
def State.grantRun (s : State) (bay job : Nat) (p : Pass) (b : Bank) (d : List Byte) : DvRan :=
  let u : UnitId := .dovetail bay
  let rows := dvRows d
  let n := rows * b.k
  let layer := dvLayer d
  (s.load bay job [] (getLE d 16 8) (round128 (n * 4) + round128 (n * 2))).dv fun route =>
  (s.load bay job [] (getLE d 24 8) (tensorBytes b.fmt rows b.h)).dv fun tensor =>
  (s.winRead job b.grantWin 0 (b.instances.length * 128)).dv fun lines =>
    let placed := positions (assign b (choicesOf rows b.k route) []) []
    let counts := countAll [] (placed.map (·.2.1))
    let inst := b.instances.zipIdx
    let lineOf := fun (q : Nat) => slice lines (128 * q) 128
    let bad := inst.any (fun x =>
      let l := lineOf x.2
      decide ((mget counts x.1).getD 0 < getLE l 0 2) || decide (b.exchCap < getLE l 0 2 + getLE l 4 4) || getLE l 9 1 != layer ||
        getLE l 10 4 != p.label % 2 ^ 32)
    if bad then .err 8
    else
      let grant : Nat → Nat × Nat := fun w => match inst.find? (fun x => x.1 == w) with
        | some x => (getLE (lineOf x.2) 0 2, getLE (lineOf x.2) 4 4)
        | none => (0, 0)
      let ok := placed.filter (fun x => decide (x.2.2 < (grant x.2.1).1))
      let no := (placed.filter (fun x => decide ((grant x.2.1).1 ≤ x.2.2))).map (·.1)
      (s.refuseRows bay job b d no).dv fun s =>
        let s := s.sendRows u job b true rows tensor (ok.map (fun x => (x.1, x.2.1, 0, (grant x.2.1).2 + x.2.2)))
        .to ((s.announce2 u job b).noteChoices bay job layer (ok.map (·.1)) no) 1

/-- The tag of a row of a queue. -/
def State.tagOf (s : State) (job : Nat) (b : Bank) (k : Nat) (ex : Bool) (seg i : Nat) : Acc Nat :=
  (s.readVa job (b.queueBase k + b.tagOff ex seg i) 4).bind fun x => .ok (getLE x 0 4 % 2 ^ 24)

/-- The result rows' packets, in compacted order. -/
def State.returnPkts (s : State) (job : Nat) (b : Bank) (k : Nat) (ex : Bool) (out : List Byte) :
    List ((Nat × Nat × Nat) × Nat) → Acc (List Packet)
  | [] => .ok []
  | ((src, seg, i), p) :: rest =>
    (s.tagOf job b k ex seg i).bind fun tag =>
      (s.returnPkts job b k ex out rest).bind fun r =>
        .ok ((linesAt (tag * b.h * 2) (slice out (p * b.h * 2) (b.h * 2))).map (fun l =>
          pktWrite (b.source src) b.combineWin l.1 0 l.2) ++ r)

/-- RETURN (R203). -/
def State.returnRun (s : State) (bay job : Nat) (p : Pass) (b : Bank) (d : List Byte) : DvRan :=
  let u : UnitId := .dovetail bay
  let k := dvSlot d
  let layer := dvLayer d
  let ex := b.exchange layer
  (s.countsOf job b k layer p.label ex b.sources).dv fun cs =>
    match cs with
    | none => .err 8
    | some counts =>
      let rows := compacted ex b.exchCap counts
      if rows.length != dvM d then .err 0xA
      else
        (s.load bay job [] (getLE d 16 8) (dvM d * b.h * 2)).dv fun out =>
        (s.returnPkts job b k ex out rows.zipIdx).dv fun ks =>
          let s := (s.touchAddr job (getLE d 16 8) (dvM d * b.h * 2)).sendAll u job ks
          let s := b.sourceList.foldl (fun s e => s.fence u job (some e) [pktInc e b.combineWin b.returnPeg 1 0]) s
          .to (s.count64 (.dovetail bay) 0x118 0x11C (dvM d)) 1

/-- Nothing of a unit and job is outstanding: no request, no fence. -/
def State.unitQuiet (s : State) (u : UnitId) (job : Nat) : Bool :=
  !s.reqs.any (fun r => r.unit == u && r.job == job) && !s.fences.any (fun f => f.unit == u && f.job == job)

def State.anyDvOut (s : State) (job : Nat) : Bool := (List.range 16).any (fun b => !s.unitQuiet (.dovetail b) job)

/-- End a step of a port as it ended. -/
def State.dvEnd (s : State) (bay job : Nat) (d : List Byte) (r : DvRan) : State :=
  let v := s.dove bay
  match r with
  | .to s ph => s.putDove bay { v with phase := ph, parked := false }
  | .err c => s.dvFault bay job c d
  | .acc (.deep j vp) => (s.park (.dovetail bay) j vp).putDove bay { v with parked := true }
  | .acc (.bad c j va) => s.unitFault (.dovetail bay) c j va
  | .acc (.poison pa va) => s.unitPoison job pa va
  | .acc _ => s

/-- Retire the head descriptor: its signal, its notification and, after a RETURN, the slot's done peg (R194, R204). -/
def State.dvRetire (s : State) (bay job : Nat) (p : Pass) (d : List Byte) : State :=
  let s := if cSignalEn d then s.pegLocal (cSignalPeg d) (cSignalInc d) else s
  let s := if cNotify d then { s with notes := s.notes ++ [(bay, cTag d)] } else s
  let s := if cOp d == 2 then
      match s.bank job p.placementBank (dvLayer d) with
      | .ok b => s.pegLocal (b.donePeg (dvSlot d)) 1
      | _ => s
    else s
  let more := s.heldHead (.dovetail bay)
  (if more.isSome then s.dropHeld (.dovetail bay) else s).putDove bay
    { s.dove bay with q := (s.dove bay).q.tail ++ (more.map (·.2)).toList, phase := 0, parked := false }

/-- Start the head descriptor: its wait, the check, the fence on the previous pass's traffic, the work. -/
def State.dvStart (s : State) (bay job : Nat) (p : Pass) (d : List Byte) : State :=
  match s.bankHead job p.placementBank with
  | .ok h =>
    match dvCause (fun x => s.pegOwned x job) (s.partition bay job).2 h d with
    | some c => s.dvFault bay job c d
    | none =>
      if cWaitEn d && !reached (s.pegValue (cWaitPeg d)) (cWaitTarget d) then s
      else if cOp d == 1 && p.scatter.isEmpty && s.anyDvOut job then s
      else s.dvEnd bay job d ((s.bank job p.placementBank (dvLayer d)).dv fun b =>
        if cOp d == 1 then s.scatterRun bay job p b d else s.returnRun bay job p b d)
  | x => s.dvEnd bay job d (x.dv fun _ => .err 0)

/-- Advance a port: `fuel` bounds the descriptors that retire in one step. -/
def State.dvLoop (s : State) (bay : Nat) : Nat → State
  | 0 => s
  | fuel + 1 =>
    let v := s.dove bay
    match v.q, s.passNow v.job with
    | d :: _, some p =>
      if v.phase == 0 then
        if s.preempting.isSome then s
        else
          let t := s.dvStart bay v.job p d
          if (t.dove bay).phase == 0 then t else t.dvLoop bay fuel
      else if v.phase == 1 && s.unitQuiet (.dovetail bay) v.job then (s.dvRetire bay v.job p d).dvLoop bay fuel
      else s
    | _, _ => s

def State.dvStep (s : State) (bay : Nat) : State := s.dvLoop bay 34

/-- A descriptor is handed to a bay's port while a pass executes and a place is free (R186). A SCATTER stands at the port that the pass's formation
fixed for its layer, which holds for replays too whatever has become of that bay, and each layer has one (R187); a RETURN, at a bay that presents
cores. -/
def State.dvPush (s : State) (bay : Nat) (d : List Byte) : State :=
  match s.holder with
  | some (.pass job) =>
    let v := s.dove bay
    match s.passNow job with
    | none => s
    | some p =>
      let layer := dvLayer d
      let fits := if cOp d == 2 then !s.absent bay
        else ((mget p.scatterBays layer).getD bay) == bay && !p.scattered.contains layer
      if 16 ≤ bay || 16 ≤ v.q.length || !fits then s
      else
        let s := if cOp d == 1 then s.modPass job (fun p => { p with scattered := sinsert p.scattered layer }) else s
        (s.putDove bay { v with q := v.q ++ [slice d 0 64], job := job }).dvStep bay
  | _ => s

/-- SCATTER (R186–R194, R213). A reserved opcode is handed over by this command too, and found illegal with code 0x001. -/
def execScatter (bay : Nat) (d : List Byte) (s : State) : Host.Outcome State Fault Refusal :=
  .next (if cOp d == 2 then s else s.dvPush bay d)

/-- RETURN (R203, R204). -/
def execReturnRows (bay : Nat) (d : List Byte) (s : State) : Host.Outcome State Fault Refusal :=
  .next (if cOp d == 2 then s.dvPush bay d else s)

/-! ### Pegs that reach their targets -/

/-- Arrival increments a slot has had once layer `layer` is complete, `half` for the first half of an exchange layer (R207, R213). -/
def arrivalTarget (sources : Nat) (below : List (Bool × Nat × Bool)) (ex half : Bool) : Nat :=
  ((below.filter (·.2.2)).map (fun x => if x.1 then 2 * sources else sources)).foldl (· + ·) 0 + (if ex && !half then 2 * sources else sources)

/-- Served layers below. -/
def servedBelow (below : List (Bool × Nat × Bool)) : Nat := (below.filter (·.2.2)).length

/-- A GATHER descriptor of the control core. -/
def gatherDesc (tag : Nat) (wait : Option (Nat × Nat)) (src index dst rowBytes rows limit : Nat) : List Byte :=
  let w := wait.getD (0, 0)
  leBytes 1 0x02 ++ leBytes 1 (b2n wait.isSome) ++ leBytes 2 tag ++ leBytes 2 w.1 ++ leBytes 2 0 ++ leBytes 4 w.2 ++ leBytes 4 0 ++
    leBytes 8 src ++ leBytes 8 index ++ leBytes 8 dst ++ leBytes 4 rowBytes ++ leBytes 2 rows ++ leBytes 2 0 ++ leBytes 4 limit ++ leBytes 12 0

/-- A RETURN of an empty queue (R202). -/
def emptyReturn (tag out slot layer : Nat) : List Byte :=
  leBytes 1 2 ++ leBytes 1 0 ++ leBytes 2 tag ++ leBytes 12 0 ++ leBytes 8 out ++ leBytes 2 slot ++ leBytes 1 layer ++ leBytes 37 0

/-- Bay-memory operand address. -/
def bayAddr (off : Nat) : Nat := 2 ^ 62 + off % 2 ^ 24

/-- The two GATHERs of chunk `c`, after the chunk's index list is written to bay memory (R200). `index`: offset of the index lists in the
partition; `dst`, `stride`: the chunk buffers. -/
def State.gatherChunk (s : State) (bay core job : Nat) (b : Bank) (k : Nat) (ex : Bool) (tag index dst stride step : Nat)
    (wait : Option (Nat × Nat)) (rows : List (Nat × Nat × Nat)) (c : Nat) : State :=
  let mine := (rows.drop (c * step)).take step
  let idx := mine.map (fun r => r.2.1 * b.rows ex + r.2.2)
  let io := index + c * round128 (4 * step)
  let lim := if ex then b.exchCap else b.sources * b.cap
  let s := s.writeBay bay ((s.partition bay job).1 + io) (idx.flatMap (leBytes 4))
  let base := b.queueBase k
  let out := dst + c * stride
  let s := s.issue bay core (gatherDesc tag (if c = 0 then wait else none) (base + b.dataArea ex) (bayAddr io) out b.rd mine.length lim)
  s.issue bay core (gatherDesc tag none (base + b.scaleArea ex) (bayAddr io) (out + round128 (mine.length * b.rd)) b.rs mine.length lim)

/-- Build a slot's work once its arrival peg has reached the layer's target (R199–R202): the next chunk's GATHERs, which the program's commands for
the chunk follow before the next chunk (log 163); the RETURN of an empty queue, once. -/
def State.buildWork (s : State) (bay core slot layer tag index dst stride : Nat) : State :=
  match s.holder with
  | some (.pass job) =>
    match s.passNow job, s.job job with
    | some p, some j =>
      let fake := emptyReturn tag 0 slot layer
      match s.bank job p.placementBank layer, s.layerInfo job p.placementBank s.endpoint slot layer with
      | .ok b, .ok below =>
        let ex := b.exchange layer
        let serves := b.instances.any (fun w => repEndpoint w == s.endpoint && repSlot w == slot)
        let target := p.baseOf (b.arrivalPeg slot) + arrivalTarget b.sources below ex false
        if !serves || decide (16 ≤ bay) || s.absent bay || !reached (s.pegValue (b.arrivalPeg slot)) target then s
        else match s.countsOf job b slot layer p.label ex b.sources with
          | .ok none => s.dvFault bay job 8 fake
          | .ok (some counts) =>
            let rows := compacted ex b.exchCap counts
            let step := max 1 (manStep j.manifest layer)
            let trips := ceilDiv rows.length step
            if manTrips j.manifest layer < trips then s.dvFault bay job 9 fake
            else
              let key := slot * 256 + layer
              let c := (mget p.chunks key).getD 0
              let n := servedBelow below
              let wait := if n = 0 then none else some (b.donePeg slot, (p.baseOf (b.donePeg slot) + n) % 2 ^ 32)
              if max 1 trips ≤ c then s
              else
                let s := s.modPass job (fun p => { p with chunks := mset p.chunks key (c + 1) })
                if rows.isEmpty then s.dvPush bay (emptyReturn tag dst slot layer)
                else s.gatherChunk bay core job b slot ex tag index dst stride step wait rows c
          | .deep jj vp => s.park (.dovetail bay) jj vp
          | .bad c jj va => s.unitFault (.dovetail bay) c jj va
          | .poison pa va => s.unitPoison job pa va
          | .remote _ _ _ _ => s
      | .bad c jj va, _ => s.unitFault (.dovetail bay) c jj va
      | .poison pa va, _ => s.unitPoison job pa va
      | .deep jj vp, _ => s.park (.dovetail bay) jj vp
      | _, _ => s
    | _, _ => s
  | _ => s

/-- ARRIVAL_PEG_TARGET (R199–R202), given again for each further chunk: what the pass plan decides (the core, the bay-memory index list, the chunk buffers and the TAG) is an
operand. -/
def execArrivalPegTarget (bay core slot layer tag index dst stride : Nat) (s : State) : Host.Outcome State Fault Refusal :=
  .next (s.buildWork bay core slot layer tag index dst stride)

/-- Grant lines of one queue (Table 06-9). -/
def grantLine (grant off epoch layer label : Nat) : List Byte :=
  leBytes 2 grant ++ leBytes 2 0 ++ leBytes 4 off ++ leBytes 1 epoch ++ leBytes 1 layer ++ leBytes 4 label ++ leBytes 114 0

/-- The dovetail engine where it acts for no port's descriptor: it serves all ports (R187), and what it sends so counts on no port's page (R217). -/
def dovetailEngine : UnitId := .dovetail 16

/-- Phase 2 of R213: grants in source order, one line and one increment to each source. -/
def State.grantRows (s : State) (bay slot layer : Nat) : State :=
  match s.holder with
  | some (.pass job) =>
    match s.passNow job with
    | some p =>
      match s.bank job p.placementBank layer, s.layerInfo job p.placementBank s.endpoint slot layer with
      | .ok b, .ok below =>
        let target := p.baseOf (b.arrivalPeg slot) + arrivalTarget b.sources below true true
        match (b.instances.zipIdx).find? (fun x => repEndpoint x.1 == s.endpoint && repSlot x.1 == slot) with
        | none => s
        | some (_, q) =>
          if !b.exchange layer || decide (16 ≤ bay) || s.absent bay || !reached (s.pegValue (b.arrivalPeg slot)) target then s
          else match s.countsOf job b slot layer p.label true b.sources with
            | .ok none => s.dvFault bay job 8 (emptyReturn 0 0 slot layer)
            | .ok (some counts) =>
              let u : UnitId := dovetailEngine
              ((grantsOf b.exchCap 0 counts).zipIdx).foldl (fun s x =>
                let e := b.source x.2
                let s := s.sendReq u job (pktWrite e b.grantWin (q * 128) 0 (grantLine x.1.1 x.1.2 (b.queueEpoch slot) layer p.label))
                s.fence u job (some e) [pktInc e b.grantWin b.grantPeg 1 0]) s
            | .bad c jj va => s.unitFault (.dovetail bay) c jj va
            | .poison pa va => s.unitPoison job pa va
            | .deep jj vp => s.park (.dovetail bay) jj vp
            | .remote _ _ _ _ => s
      | _, _ => s
    | none => s
  | _ => s

/-- EXCHANGE_GRANT (R213, phase 2). -/
def execExchangeGrant (bay slot layer : Nat) (s : State) : Host.Outcome State Fault Refusal := .next (s.grantRows bay slot layer)

/-- Phase 3 of R213 at a port whose SCATTER waits on its grants. -/
def State.takeGrants (s : State) (bay : Nat) : State :=
  let v := s.dove bay
  match v.q, s.passNow v.job with
  | d :: _, some p =>
    if v.phase != 2 then s
    else match s.bank v.job p.placementBank (dvLayer d), s.layerInfo v.job p.placementBank s.endpoint 0 (dvLayer d) with
      | .ok b, .ok below =>
        let n := ((below.filter (·.1)).map (·.2.1)).foldl (· + ·) 0 + b.instances.length
        if reached (s.pegValue b.grantPeg) (p.baseOf b.grantPeg + n) then
          (s.dvEnd bay v.job d (s.grantRun bay v.job p b d)).dvStep bay
        else s
      | _, _ => s
  | _, _ => s

/-- GRANT_PEG_TARGET (R213, phase 3). -/
def execGrantPegTarget (bay : Nat) (s : State) : Host.Outcome State Fault Refusal := .next (s.takeGrants bay)

end Sys2Proof.Machine
end

