-- ==== Sys2Proof/Machine/Audio.lean ====
section
/-!
DEFINITION. Audio sample conversion (Table 10-5). G.711 is the recommendation's 16-bit linear form (PRESUMED, log 63).
-/

namespace Sys2Proof.Machine

open Sys2Proof

/-- An exact value rounded to an integer, ties to even; NaN gives 0 and an infinity the bound of its sign. -/
def numToInt (bound : Int) (x : Num) : Int :=
  match x with
  | .fin s m e =>
    let v : Nat := if 0 ≤ e then m * 2 ^ e.toNat else rne m (-e).toNat
    if s then -(v : Int) else v
  | _ => if x.isNan then 0 else if x.isNeg then -bound else bound

/-- FP32 to an `n`-bit linear sample: scaled by 2^(n−1), rounded, saturated. -/
def toLinear (n : Nat) (p : Nat) : Int :=
  let b : Int := 2 ^ (n - 1)
  let v := numToInt b ((d32 true p).scale (n - 1))
  max (-b) (min (b - 1) v)

/-- The segment of a magnitude: the first of 8 ends not below it; 8 beyond the last. -/
def g711Seg (first : Nat) (v : Nat) : Nat :=
  (((List.range 8).find? (fun i => decide (v ≤ (first + 1) * 2 ^ i - 1))).getD 8)

/-- A 16-bit linear sample as G.711 μ-law. -/
def ulawEncode (x : Int) : Nat :=
  let q := x.fdiv 4
  let neg := decide (q < 0)
  let m := min 8159 q.natAbs + 33
  let seg := g711Seg 0x3F m
  let mask := if neg then 0x7F else 0xFF
  if 8 ≤ seg then Nat.xor 0x7F mask else Nat.xor (seg * 16 + m / 2 ^ (seg + 1) % 16) mask

def ulawDecode (c : Nat) : Int :=
  let u := 255 - c % 256
  let t := (u % 16 * 8 + 132) * 2 ^ (u / 16 % 8)
  if u ≥ 128 then 132 - (t : Int) else (t : Int) - 132

/-- A 16-bit linear sample as G.711 A-law. -/
def alawEncode (x : Int) : Nat :=
  let q := x.fdiv 8
  let neg := decide (q < 0)
  let m := if neg then (-q - 1).toNat else q.toNat
  let seg := g711Seg 0x1F m
  let mask := if neg then 0x55 else 0xD5
  if 8 ≤ seg then Nat.xor 0x7F mask
  else Nat.xor (seg * 16 + (if seg < 2 then m / 2 % 16 else m / 2 ^ seg % 16)) mask

def alawDecode (c : Nat) : Int :=
  let a := Nat.xor (c % 256) 0x55
  let seg := a / 16 % 8
  let t0 := a % 16 * 16
  let t := if seg = 0 then t0 + 8 else (t0 + 264) * 2 ^ (seg - 1)
  if a ≥ 128 then (t : Int) else -(t : Int)

/-- Bytes per sample of a format code (Table 10-5). -/
def audioBytes (f : Nat) : Nat :=
  match f with
  | 1 => 2
  | 2 => 4
  | 3 => 4
  | 4 => 1
  | 5 => 1
  | _ => 0

/-- Egress: one FP32 sample as bytes of a format (Table 10-5). -/
def audioOut (f p : Nat) : List Byte :=
  match f with
  | 1 => leBytes 2 (unsigned 16 (toLinear 16 p))
  | 2 => leBytes 4 (unsigned 32 (toLinear 32 p))
  | 3 => leBytes 4 (if (d32 true p).isNan then 0 else p)
  | 4 => leBytes 1 (ulawEncode (toLinear 16 p))
  | _ => leBytes 1 (alawEncode (toLinear 16 p))

/-- An integer scaled down by 2^k, rounded to FP32. -/
def linearToFp32 (x : Int) (k : Int) : Nat := r32 true (.fin (decide (x < 0)) x.natAbs (-k))

/-- Ingress: the FP32 pattern of one sample, and whether it was non-finite and became +0 (Table 10-5). -/
def audioIn (f : Nat) (bs : List Byte) : Nat × Bool :=
  let v := leNat bs
  match f with
  | 1 => (linearToFp32 (signed 16 v) 15, false)
  | 2 => (linearToFp32 (signed 32 v) 31, false)
  | 3 => if field v 30 23 == 255 then (0, true) else (v, false)
  | 4 => (linearToFp32 (ulawDecode v) 15, false)
  | _ => (linearToFp32 (alawDecode v) 15, false)

end Sys2Proof.Machine
end

