-- ==== Sys2Proof/Machine/Dma.lean ====
section
/-!
DEFINITION. The DMA engines: descriptors, reshuffles, bursts, stops and errors of the host and bay channels (R434–R458).
-/

namespace Sys2Proof.Machine

open Sys2Proof

/-! ### The descriptor (Table 14-1) -/

def dOp (d : List Byte) : Nat := getLE d 0 1
def dFlag (d : List Byte) (i : Nat) : Bool := bit (getLE d 1 1) i
def dEpoch (d : List Byte) : Nat := getLE d 12 1
def dSrc (d : List Byte) : Nat := getLE d 16 8
def dDst (d : List Byte) : Nat := getLE d 24 8
def dLen (d : List Byte) : Nat := getLE d 32 4
def dChans (d : List Byte) : Nat := getLE d 36 1
/-- ELEM; 16 bits of a bit plane do not fit the four-bit field as a number and are taken as its code 0 (DESIGN CHOICE, log 64). -/
def dElem (d : List Byte) : Nat :=
  if decide (0x18 ≤ dOp d) && getLE d 37 1 % 16 == 0 then 16 else getLE d 37 1 % 16
def dConv (d : List Byte) : Nat := getLE d 37 1 / 16
def dWin (d : List Byte) : Nat := getLE d 38 2
def dStride (d : List Byte) : Nat := getLE d 40 4
def dSigEp (d : List Byte) : Nat := getLE d 44 2

/-- Operations of Table 14-3. -/
def dmaListed (op : Nat) : Bool := [0x00, 0x01, 0x10, 0x11, 0x18, 0x19].contains op

/-- Output element size of an INTERLEAVE (Table 14-4). -/
def dOutElem (d : List Byte) : Nat := if dConv d = 0 then dElem d else audioBytes (dConv d)

/-- Destination ranges of a descriptor: (offset from DST, bytes), in order (R443, R446, R447). -/
def dRanges (d : List Byte) : List (Nat × Nat) :=
  match dOp d with
  | 0x01 => [(0, dLen d)]
  | 0x10 => [(0, dLen d * dChans d * dOutElem d)]
  | 0x11 => (List.range (dChans d)).map (fun c => (c * dStride d, dLen d * dElem d))
  | 0x18 => (List.range (dElem d)).map (fun b => (b * dStride d, dLen d / 8))
  | 0x19 => [(0, dLen d * dElem d / 8)]
  | _ => []

/-- Source ranges: (offset from SRC, bytes). -/
def dSrcRanges (d : List Byte) : List (Nat × Nat) :=
  match dOp d with
  | 0x01 => [(0, dLen d)]
  | 0x10 => (List.range (dChans d)).map (fun c => (c * dStride d, dLen d * dElem d))
  | 0x11 => [(0, dLen d * dChans d * dElem d)]
  | 0x18 => [(0, dLen d * dElem d / 8)]
  | 0x19 => (List.range (dElem d)).map (fun b => (b * dStride d, dLen d / 8))
  | _ => []

/-- Output bytes of a descriptor. -/
def dTotal (d : List Byte) : Nat := ((dRanges d).map (·.2)).foldl (· + ·) 0

/-- The place of output byte `pos`: range, offset in the range. -/
def dPlace : List (Nat × Nat) → Nat → Nat → Option (Nat × Nat × Nat × Nat)
  | [], _, _ => none
  | (o, n) :: rest, i, pos => if pos < n then some (i, o, n, pos) else dPlace rest (i + 1) (pos - n)

/-! ### Legality (Table 14-6) -/

/-- Space of a DMA address; the host engine's 0b11 is a host bus address (Table 14-2). -/
def dBase (a : Nat) : Nat := if adSpace a = 3 then a % 2 ^ 62 else adLocal a

/-- Ranges of two operands in one space meet. -/
def rangesMeet (a : Nat) (xs : List (Nat × Nat)) (b : Nat) (ys : List (Nat × Nat)) : Bool :=
  adSpace a == adSpace b && (adSpace a != 2 || (adEp a == adEp b && adWin a == adWin b)) &&
  xs.any (fun x => ys.any (fun y =>
    decide (dBase a + x.1 < dBase b + y.1 + y.2) && decide (dBase b + y.1 < dBase a + x.1 + x.2)))

/-- The lowest code of Table 14-6 that a descriptor breaks. -/
def dmaCause (host : Bool) (owned : Nat → Bool) (part : Nat) (d : List Byte) : Option Nat :=
  let op := dOp d
  let w := dFlag d 0
  let sg := dFlag d 1
  let rem := dFlag d 5
  let resh := decide (0x10 ≤ op)
  let nz := fun o n => getLE d o n != 0
  let src := dSrc d
  let dst := dDst d
  let total := dTotal d
  let c2 := decide (64 ≤ getLE d 1 1) || (dFlag d 4 && op != 0) || decide (32768 ≤ cWaitPeg d) || decide (32768 ≤ cSignalPeg d) ||
    (!w && (nz 4 2 || nz 8 4)) || (!sg && (nz 6 2 || nz 14 2)) || (sg && !nz 14 2) || (rem && !sg) || nz 13 1 ||
    (!rem && (nz 38 2 || nz 44 2)) || decide (4096 ≤ dWin d) || decide (1024 ≤ dSigEp d) || !(zeroBytes d 46 18) ||
    (op == 0 && (nz 16 8 || nz 24 8 || nz 32 4)) || (!(op == 0x10 || op == 0x11) && nz 36 1) || (decide (op ≤ 1) && (nz 37 1 || nz 40 4)) ||
    (op != 0 && ((adSpace src != 3 && !adBitsOk src) || (adSpace dst != 3 && !adBitsOk dst)))
  let space := fun (a : Nat) => (host && adSpace a == 1) || (!host && adSpace a == 3)
  let e := if op == 0x10 then dElem d else if op == 0x11 then dElem d else 128
  let eo := if op == 0x10 then dOutElem d else if op == 0x11 then dElem d else 128
  let c5 := op != 0 && (
    (adSpace dst == 2 && (dRanges d).any (fun r => (dBase dst + r.1) % 128 != 0 || r.2 % 128 != 0)) ||
    (resh && (src % max 1 e != 0 || dst % max 1 eo != 0)))
  let c6 := match op with
    | 0x01 => dLen d == 0 || (!host && decide (67108864 < dLen d))
    | 0x10 => dChans d == 0 || decide (16 < dChans d) || dLen d == 0 || decide (16777216 < dLen d) || !([1, 2, 4].contains (dElem d)) ||
        decide (6 ≤ dConv d) || (dConv d != 0 && dElem d != 4) || dStride d % max 1 (dElem d) != 0 || decide (dStride d < dLen d * dElem d) ||
        decide (67108864 < total)
    | 0x11 => dChans d == 0 || decide (16 < dChans d) || dLen d == 0 || decide (16777216 < dLen d) || !([1, 2, 4].contains (dElem d)) ||
        dConv d != 0 || dStride d % max 1 (dElem d) != 0 || decide (dStride d < dLen d * dElem d) || decide (67108864 < total)
    | 0 => false
    | _ => !([4, 8, 16].contains (dElem d)) || dConv d != 0 || dLen d % 1024 != 0 || decide (dLen d < 1024) || decide (16777216 < dLen d) ||
        dStride d % 128 != 0 || decide (dStride d < dLen d / 8)
  if !dmaListed op then some 1
  else if c2 then some 2
  else if (w && !owned (cWaitPeg d)) || (sg && !rem && !owned (cSignalPeg d)) then some 3
  else if op != 0 && (space src || space dst) then some 4
  else if c5 then some 5
  else if c6 then some 6
  else if op != 0 && rangesMeet src (dSrcRanges d) dst (dRanges d) then some 7
  else if op != 0 && ((adSpace src == 1 && (dSrcRanges d).any (fun r => decide (part < adOff src + r.1 + r.2))) ||
      (adSpace dst == 1 && (dRanges d).any (fun r => decide (part < adOff dst + r.1 + r.2)))) then some 8
  else none

/-! ### One burst -/

/-- Source pieces of output bytes [o, o + n) of a range, in order of use, and how they become output bytes. -/
def dPieces (d : List Byte) (range o n : Nat) : List (Nat × Nat) :=
  match dOp d with
  | 0x01 => [(o, n)]
  | 0x10 =>
    let e := max 1 (dOutElem d)
    let ch := max 1 (dChans d)
    (List.range (n / e)).map (fun i =>
      let u := o / e + i
      (u % ch * dStride d + u / ch * dElem d, dElem d))
  | 0x11 =>
    let e := max 1 (dElem d)
    (List.range (n / e)).map (fun i => (((o / e + i) * dChans d + range) * e, e))
  | 0x18 => [(o * dElem d, n * dElem d)]
  | 0x19 =>
    let w := max 1 (dElem d)
    let i0 := o * 8 / w
    let i1 := ceilDiv ((o + n) * 8) w
    (List.range w).map (fun b => (b * dStride d + i0 / 8, ceilDiv i1 8 - i0 / 8))
  | _ => []

/-- Output bytes of a burst from the pieces read. -/
def dAssemble (d : List Byte) (range o n : Nat) (ps : List (List Byte)) : List Byte :=
  match dOp d with
  | 0x10 => ps.flatMap (fun x => if dConv d = 0 then x else audioOut (dConv d) (leNat x))
  | 0x18 =>
    let w := dElem d
    let src := ps.flatten
    (List.range n).map (fun k => BitVec.ofNat 8
      (((List.range 8).map (fun i =>
        let el := k * 8 + i
        let code := if w = 4 then getLE src (el / 2) 1 / 16 ^ (el % 2) % 16 else getLE src (el * (w / 8)) (w / 8)
        b2n (bit code range) * 2 ^ i)).foldl (· + ·) 0))
  | 0x19 =>
    let w := max 1 (dElem d)
    let i0 := o * 8 / w / 8 * 8
    let elem := fun (i : Nat) => ((ps.zipIdx).map (fun p => b2n (bit (getLE p.1 ((i - i0) / 8) 1) (i % 8)) * 2 ^ p.2)).foldl (· + ·) 0
    (List.range n).map (fun k =>
      let byte := o + k
      if w = 4 then BitVec.ofNat 8 (elem (2 * byte) + 16 * elem (2 * byte + 1))
      else if w = 8 then BitVec.ofNat 8 (elem byte)
      else BitVec.ofNat 8 (elem (byte / 2) / 256 ^ (byte % 2)))
  | _ => ps.flatten

/-- Bytes of the burst that starts at `pos` of a range: up to the next 4 KiB boundary of the destination. -/
def burstLen (dst off n pos : Nat) : Nat := min (n - pos) (4096 - (dst + off + pos) % 4096)

def dmaUnit (c : DmaChan) : UnitId :=
  match c with
  | .host n => .hostDma n
  | .bay b n => .bayDma b n
def dmaBay (c : DmaChan) : Nat :=
  match c with
  | .host _ => 0
  | .bay b _ => b
def dmaIsHost (c : DmaChan) : Bool :=
  match c with
  | .host _ => true
  | .bay _ _ => false

/-- Read one source piece. -/
def State.dmaRead (s : State) (c : DmaChan) (job : Nat) (lines : List (Nat × List Byte)) (src off n : Nat) : Acc (List Byte) :=
  match adSpace src with
  | 0 => s.readVa job (adVa src + off) n
  | 1 => s.readBay (dmaBay c) ((s.partition (dmaBay c) job).1 + adOff src + off) n
  | 2 => .ok (fabBytes lines (src + off) n)
  | _ => .ok (s.readHost (dBase src + off) n)

def State.dmaReads (s : State) (c : DmaChan) (job : Nat) (lines : List (Nat × List Byte)) (src : Nat) : List (Nat × Nat) → Acc (List (List Byte))
  | [] => .ok []
  | (o, n) :: rest => (s.dmaRead c job lines src o n).bind fun x => (s.dmaReads c job lines src rest).bind fun r => .ok (x :: r)

/-- Write a burst at its destination. -/
def State.dmaWrite (s : State) (c : DmaChan) (job : Nat) (d : List Byte) (off : Nat) (bs : List Byte) : Acc State :=
  let dst := dDst d
  match adSpace dst with
  | 0 => (s.writeVa job (adVa dst + off) bs).bind fun s => .ok (s.touch job (adVa dst + off) bs.length)
  | 1 => .ok (s.writeBay (dmaBay c) ((s.partition (dmaBay c) job).1 + adOff dst + off) bs)
  | 2 => .ok (s.sendAll (dmaUnit c) job ((linesAt (adFabOff dst + off) bs).map (fun l =>
      pktWrite (adEp dst) (adWin dst) l.1 (dEpoch d) l.2)))
  | _ => .ok ((s.writeHost (dBase dst + off) bs).count64 .hdma 0x110 0x114 bs.length)

/-! ### How a channel shows (Tables 14-13 to 14-17) -/

def Chan.head (x : Chan) : List Byte := x.q.headD []
def Chan.total (x : Chan) : Nat := dTotal x.head

/-- Put a channel in a state: 0 idle, 1 running, 2 waiting, 3 parked, 4 fencing, 5 stopping, 6 STOPPED, 7 HALTED, 8 error. -/
def State.putChan (s : State) (c : DmaChan) (x : Chan) (st : Nat) : State :=
  let s := { s with chans := mset s.chans (chanKey c) x }
  let res := if x.q.isEmpty then 0 else x.total - x.pos
  match c with
  | .bay b n => s.showBayChan b n x st res
  | .host n =>
    let s := s.setHReg n 0x28 (BitVec.ofNat 32 res)
    let s := s.setHReg n 0x2C (BitVec.ofNat 32 (if x.q.isEmpty then 0 else 2 ^ 16 + getLE x.head 2 2))
    s.setHState n st

/-- State of a channel as shown. -/
def State.chanState (s : State) (c : DmaChan) : Nat :=
  match c with
  | .host n => s.hState n
  | .bay b n => wfield (s.preg (.baydma b) (0x100 + 4 * n)) 3 0

def lastErrWord (job code tag : Nat) : Word := BitVec.ofNat 32 (2 ^ 31 + job % 8 * 2 ^ 28 + code % 4096 * 2 ^ 16 + tag % 2 ^ 16)

/-- An error of a descriptor: contained on a bay channel; on a host channel the error state, one record, STOPPED (R455). -/
def State.dmaError (s : State) (c : DmaChan) (job code : Nat) (rec_ : Nat) : State :=
  let x := s.chan c
  let d := x.head
  match c with
  | .bay b n =>
    let s := s.setPreg (.baydma b) 0x180 (lastErrWord job code (cTag d))
    s.contained (.baydma b) { code := rec_, sev := 3, key := cmdKey (cTag d) b n (dOp d), detail := slice d 0 16, job := some job }
  | .host n =>
    let s := (s.putChan c x 8).setHReg n 0x30 (lastErrWord job code (cTag d))
    let s := s.setHReg n 8 (wput (s.hReg n 8) 27 16 code)
    let s := if code == 9 || code == 10 then s.count .hdma 0x118 1 else s
    (s.report .hdma { code := rec_, sev := 1, key := cmdKey (cTag d) 0 n (dOp d), detail := slice d 0 16, job := some job }).hIrq n 1

/-- A channel parks (R451). -/
def State.dmaPark (s : State) (c : DmaChan) (job vp : Nat) : State :=
  let s := (s.park (dmaUnit c) job vp).putChan c (s.chan c) 3
  match c with
  | .host n => s.hIrq n 2
  | .bay b _ => (s.count (.baydma b) 0x190 1).irq (.baydma b) 1

/-- Job of a channel: the host driver's setting, or the job of its descriptors. -/
def State.chanJob (s : State) (c : DmaChan) : Nat :=
  match c with
  | .host n => wfield (s.hReg n 0) 10 8
  | .bay _ _ => (s.chan c).job

/-- A failed access of a channel (R234, R451, R562): a poisoned line read by a host channel is an error of that channel (log 62). -/
def State.dmaFail {α : Type} (s : State) (c : DmaChan) (job : Nat) (x : Acc α) : State :=
  match x with
  | .deep j vp => s.dmaPark c j vp
  | .bad code j va => s.unitFault (dmaUnit c) code j va
  | .poison pa va => if dmaIsHost c then s.dmaError c job 3 0x5004 else s.unitPoison job pa va
  | _ => s

/-! ### The fence and the end of a descriptor (R448, R449) -/

/-- The fence's destination: FENCE_ALL every one; FENCE that of a fabric DST, so none for a NOP (log 275). -/
def dmaFence (d : List Byte) : Option FenceDst :=
  if dFlag d 4 then some none
  else if dFlag d 3 && dOp d != 0 && adSpace (dDst d) == 2 then some (some (adEp (dDst d)))
  else none

/-- After the last write: fence, or done. -/
def State.dmaFinish (s : State) (c : DmaChan) (job : Nat) : State :=
  let x := s.chan c
  match dmaFence x.head with
  | none => s.putChan c { x with done := true, fencing := false } 1
  | some dst =>
    let u := dmaUnit c
    if (s.fenceWaits u job dst).isEmpty && !s.fenceFailed job dst then s.putChan c { x with done := true, fencing := false } 1
    else (s.fence u job dst []).putChan c { x with fencing := true } 4

/-- Move up to a number of bursts (R439, R443, R451). `bad`: host memory answers with an error (code 0x009). -/
def State.dmaBursts (s : State) (c : DmaChan) (job : Nat) (bad : Bool) : Nat → State
  | 0 => s
  | fuel + 1 =>
    let x := s.chan c
    let d := x.head
    match dPlace (dRanges d) 0 x.pos with
    | none => s.dmaFinish c job
    | some (i, off, n, pos) =>
      let k := burstLen (dBase (dDst d)) off n pos
      let ps := dPieces d i pos k
      let src := dSrc d
      let bring := if adSpace src == 2 then
          s.bringLines (dmaUnit c) (dmaBay c) job false (linesOf (ps.map (fun p => (src + p.1, p.2)))) x.lines false
        else .here s x.lines
      match bring with
      | .refused s => s.containedQuiet 0x600C job
      | .waiting s lines => s.putChan c { x with lines := lines } 1
      | .here s lines =>
        if bad && adSpace src == 3 then s.dmaError c job 9 0x8009
        else match s.dmaReads c job lines src ps with
          | .ok xs =>
            let bs := dAssemble d i pos k xs
            match s.dmaWrite c job d (off + pos) bs with
            | .ok s =>
              let s := if adSpace src == 0 then ps.foldl (fun s p => s.touch job (adVa src + p.1) p.2) s else s
              let s := if adSpace src == 3 then s.count64 .hdma 0x108 0x10C ((ps.map (·.2)).foldl (· + ·) 0) else s
              let s := match c with
                | .bay b _ => s.count64 (.baydma b) 0x188 0x18C bs.length
                | .host _ => s
              let s := s.putChan c { x with pos := x.pos + k, lines := [] } 1
              if x.pos + k ≥ x.total then s.dmaFinish c job else s.dmaBursts c job bad fuel
            | e => s.dmaFail c job e
          | e => s.dmaFail c job e

/-- Work on the head descriptor: the check, the wait, then bursts (R441, R455). -/
def State.dmaWork (s : State) (c : DmaChan) (bursts : Nat) (bad : Bool) : State :=
  let x := s.chan c
  let d := x.head
  let job := s.chanJob c
  let st := s.chanState c
  if x.q.isEmpty || x.done || x.fencing || st == 3 || decide (5 ≤ st) then s
  else if x.started then
    (if dTotal d ≤ x.pos then s.dmaFinish c job else s.dmaBursts c job bad bursts)
  else match dmaCause (dmaIsHost c) (fun p => s.pegOwned p job) (s.partition (dmaBay c) job).2 d with
    | some code => s.dmaError c job code (0x8000 + code)
    | none =>
      if dFlag d 0 && !reached (s.pegValue (cWaitPeg d)) (cWaitTarget d) then s.putChan c x 2
      else if !dmaIsHost c && s.preempting.isSome then s
      else
        let s := s.putChan c { x with started := true } 1
        if dTotal d = 0 then s.dmaFinish c job else s.dmaBursts c job bad bursts

/-- The ring of a host channel is valid: RING_LOG2 in range, aligned, in the main tier and outside every job's pages (R435). -/
def State.ringOk (s : State) (n : Nat) : Bool :=
  let log := wfield (s.hReg n 0) 20 16
  let a := (s.hReg n 0x20).toNat + (s.hReg n 0x24).toNat * 2 ^ 32
  decide (6 ≤ log) && decide (log ≤ 16) && a % 4096 == 0 &&
  (match place s.isH a, place s.isH (a + 64 * 2 ^ log - 1) with
   | .main x, .main y => x == y
   | _, _ => false) &&
  !s.leaves.any (fun e => decide (e.2.page * 65536 < a + 64 * 2 ^ log) && decide (a < e.2.page * 65536 + 65536))

def State.ringBase (s : State) (n : Nat) : Nat := (s.hReg n 0x20).toNat + (s.hReg n 0x24).toNat * 2 ^ 32
def State.hHead (s : State) (n : Nat) : Nat := wfield (s.hReg n 0x18) 15 0
def State.hTail (s : State) (n : Nat) : Nat := wfield (s.hReg n 0x14) 15 0

/-- An idle host channel with entries fetches the descriptor at HEAD. -/
def State.hostFetch (s : State) (n : Nat) : State :=
  let c : DmaChan := .host n
  if n < 64 && s.hState n == 0 && s.hHead n != s.hTail n && (s.chan c).q.isEmpty then
    let a := s.ringBase n + 64 * s.hHead n
    match s.poisonIn a 64 with
    | some _ => s.dmaError c (s.chanJob c) 3 0x5004
    | none => s.putChan c { q := [s.readPa a 64], job := s.chanJob c } 1
  else s

/-- A DMA row: a bay channel takes the descriptor given, if any; a host channel the one at HEAD. Then the head descriptor, when its operation is
one of `ops`, advances by up to `bursts` bursts. -/
def State.dmaRow (s : State) (p : Nat → Bool) (c : DmaChan) (d : List Byte) (bursts : Nat) (bad : Bool) : State :=
  match c with
  | .host n =>
    let s := s.hostFetch n
    if p (dOp (s.chan c).head) && !(s.chan c).q.isEmpty then s.dmaWork c bursts bad else s
  | .bay b n =>
    match s.holder.bind s.holderJob with
    | none => s
    | some job =>
      if 16 ≤ b || 16 ≤ n || s.absent b then s
      else
        let x := s.chan c
        let s := if d.isEmpty || !p (dOp d) then s
          else if decide (16 ≤ x.q.length) || (s.heldHead (.bayDma b n)).isSome then s.holdUnit (.bayDma b n) job d
          else s.putChan c { x with q := x.q ++ [slice d 0 64], job := job } (if x.q.isEmpty then 1 else s.chanState c)
        let x := s.chan c
        if !x.q.isEmpty && p (dOp x.head) then s.dmaWork c bursts bad else s

/-- DMA_NOP (R449): wait, fence and signal only. A reserved OP is met by this command too (code 0x001). -/
def execDmaNop (c : DmaChan) (d : List Byte) (s : State) : Host.Outcome State Fault Refusal :=
  .next (s.dmaRow (fun op => op == 0 || !dmaListed op) c d 0 false)
/-- DMA_COPY (R443). -/
def execDmaCopy (c : DmaChan) (d : List Byte) (bursts : Nat) (bad : Bool) (s : State) : Host.Outcome State Fault Refusal :=
  .next (s.dmaRow (· == 0x01) c d bursts bad)
/-- INTERLEAVE (R446). -/
def execInterleave (c : DmaChan) (d : List Byte) (bursts : Nat) (bad : Bool) (s : State) : Host.Outcome State Fault Refusal :=
  .next (s.dmaRow (· == 0x10) c d bursts bad)
/-- DEINTERLEAVE (R446). -/
def execDeinterleave (c : DmaChan) (d : List Byte) (bursts : Nat) (bad : Bool) (s : State) : Host.Outcome State Fault Refusal :=
  .next (s.dmaRow (· == 0x11) c d bursts bad)
/-- BITPLANE (R447). -/
def execBitplane (c : DmaChan) (d : List Byte) (bursts : Nat) (bad : Bool) (s : State) : Host.Outcome State Fault Refusal :=
  .next (s.dmaRow (· == 0x18) c d bursts bad)
/-- BITPLANE_INV (R447). -/
def execBitplaneInv (c : DmaChan) (d : List Byte) (bursts : Nat) (bad : Bool) (s : State) : Host.Outcome State Fault Refusal :=
  .next (s.dmaRow (· == 0x19) c d bursts bad)

/-- The place after a descriptor in its channel: HEAD moves on; the channel is idle until the next is taken. -/
def State.chanNext (s : State) (c : DmaChan) : State :=
  let x := s.chan c
  match c with
  | .host n =>
    let s := s.setHReg n 0x18 (BitVec.ofNat 32 ((s.hHead n + 1) % 2 ^ wfield (s.hReg n 0) 20 16))
    let v := ((s.hReg n 0x38).toNat + (s.hReg n 0x3C).toNat * 2 ^ 32 + 1) % 2 ^ 64
    let s := (s.setHReg n 0x38 (lo32 v)).setHReg n 0x3C (hi32 v)
    s.putChan c {} 0
  | .bay b n =>
    let more := s.heldHead (.bayDma b n)
    let rest := x.q.tail ++ (more.map (·.2)).toList
    (if more.isSome then s.dropHeld (.bayDma b n) else s).putChan c { q := rest, job := (more.map (·.1)).getD x.job } (if rest.isEmpty then 0 else 1)

/-- DMA_RETIRE (R441, R448, R450): signal, report, HEAD. -/
def State.dmaRetire (s : State) (c : DmaChan) : State :=
  let x := s.chan c
  let d := x.head
  let job := s.chanJob c
  let st := s.chanState c
  if !x.done || st == 3 || decide (6 ≤ st) then s
  else
    let s := if !dFlag d 1 then s
      else if dFlag d 5 then s.sendReq (dmaUnit c) job (pktInc (dSigEp d) (dWin d) (cSignalPeg d) (cSignalInc d) (dEpoch d))
      else s.pegLocal (cSignalPeg d) (cSignalInc d)
    let s := if !dFlag d 2 then s
      else match c with
        | .host n => s.hIrq n 0
        | .bay b _ => { s with notes := s.notes ++ [(b, cTag d)] }
    let s := s.chanNext c
    match c with
    | .host n => if st == 5 then (s.setHState n 6).hIrq n 1 else s
    | .bay _ _ => s

def execDmaRetire (c : DmaChan) (s : State) : Host.Outcome State Fault Refusal := .next (s.dmaRetire c)

/-! ### The host channels' registers (R434–R436, R452) -/

/-- Channels 56 to 63 belong to the module: a host write is ignored and sets UNMAPPED (R434). -/
def State.hostChan (s : State) (n : Nat) (f : State → State) : State :=
  if n < 56 then f s else if n < 64 then s.unmapped else s

/-- A TAIL write (R435). -/
def State.hdmaTail (s : State) (n : Nat) (v : Word) : State :=
  s.hostChan n fun s =>
    let t := wfield v 15 0
    let s := s.setHReg n 0x14 (BitVec.ofNat 32 t)
    if 2 ^ wfield (s.hReg n 0) 20 16 ≤ t then s.dmaError (.host n) (s.chanJob (.host n)) 0xB 0x800B
    else s.hostFetch n

/-- HDMA_TAIL (R435). -/
def execHdmaTail (n : Nat) (v : Word) (s : State) : Host.Outcome State Fault Refusal := .next (s.hdmaTail n v)

/-- A CFG write (R436); reserved bits are dropped. -/
def State.hdmaCfg (s : State) (n : Nat) (v : Word) : State :=
  s.hostChan n fun s =>
    let v := v &&& 0x001F0701
    let st := s.hState n
    let ok := st == 9 || st == 0 || (st == 6 && s.hHead n == s.hTail n)
    let en := wbit v 0
    if !ok || (en && (s.job (wfield v 10 8)).isNone) then s.refuseReg .hdma (Page.base .hdma + hOff n 0) v
    else
      let s := s.setHReg n 0 v
      if !en then s.putChan (.host n) {} 9
      else
        let s := s.putChan (.host n) {} 0
        if s.ringOk n then s.hostFetch n else s.dmaError (.host n) (wfield v 10 8) 0xB 0x800B

/-- HDMA_CFG (R436). -/
def execHdmaCfg (n : Nat) (v : Word) (s : State) : Host.Outcome State Fault Refusal := .next (s.hdmaCfg n v)

/-- Enter STOPPED and raise the channel's STOPPED bit. -/
def State.hdmaStop (s : State) (n : Nat) (x : Chan) : State := (s.putChan (.host n) x 6).hIrq n 1

/-- CTRL.ABORT (R452). -/
def State.hdmaAbort (s : State) (n : Nat) : State :=
  s.hostChan n fun s =>
    let c : DmaChan := .host n
    let x := s.chan c
    match s.hState n with
    | 1 => s.putChan c { x with stopping := true } 5
    | 2 => s.hdmaStop n x
    | 3 => (s.unpark (.hostDma n)).hdmaStop n x
    | 4 => { s with fences := s.fences.filter (fun f => f.unit != UnitId.hostDma n) }.hdmaStop n { x with fencing := false }
    | _ => s

/-- HDMA_ABORT (R452). -/
def execHdmaAbort (n : Nat) (s : State) : Host.Outcome State Fault Refusal := .next (s.hdmaAbort n)

/-- HDMA_STOPPED (R452): an aborting channel with no read of a fabric source outstanding stops. -/
def execHdmaStopped (n : Nat) (s : State) : Host.Outcome State Fault Refusal :=
  .next (if s.hState n == 5 && !s.reqs.any (fun r => r.unit == .hostDma n && r.pkt.typ == tLineRead) then
    s.hdmaStop n { s.chan (.host n) with stopping := false }
  else s)

/-- CTRL.RESUME (R452, R454): from STOPPED or HALTED. A descriptor that had started does not evaluate its wait again. -/
def State.hdmaResume (s : State) (n : Nat) : State :=
  s.hostChan n fun s =>
    let c : DmaChan := .host n
    let x := s.chan c
    if s.hState n == 6 || s.hState n == 7 then
      if x.q.isEmpty then (s.putChan c {} 0).hostFetch n
      else
        let s := s.putChan c { x with stopping := false, fencing := false } 1
        if x.started && !x.done && decide (x.total ≤ x.pos) then s.dmaFinish c (s.chanJob c) else s
    else s

/-- HDMA_RESUME (R452). -/
def execHdmaResume (n : Nat) (s : State) : Host.Outcome State Fault Refusal := .next (s.hdmaResume n)

/-- CTRL.SKIP (R452): retire without signal or report, and take the next. -/
def State.hdmaSkip (s : State) (n : Nat) : State :=
  s.hostChan n fun s =>
    if (s.hState n == 6 || s.hState n == 7) && !(s.chan (.host n)).q.isEmpty then (s.chanNext (.host n)).hostFetch n else s

/-- HDMA_SKIP (R452). -/
def execHdmaSkip (n : Nat) (s : State) : Host.Outcome State Fault Refusal := .next (s.hdmaSkip n)

/-- CTRL.RESET (Table 14-12): HEAD becomes TAIL. -/
def State.hdmaReset (s : State) (n : Nat) : State :=
  s.hostChan n fun s =>
    let st := s.hState n
    if st == 6 || st == 7 || st == 8 then
      (s.setHReg n 0x18 (BitVec.ofNat 32 (s.hTail n))).putChan (.host n) {} 0
    else s

/-- HDMA_RESET (R452). -/
def execHdmaReset (n : Nat) (s : State) : Host.Outcome State Fault Refusal := .next (s.hdmaReset n)

/-- A CTRL write: exactly one action, or nothing (Table 14-12). -/
def State.hdmaCtrl (s : State) (n : Nat) (v : Word) : State :=
  match wfield v 3 0 with
  | 1 => s.hdmaAbort n
  | 2 => s.hdmaResume n
  | 4 => s.hdmaSkip n
  | 8 => s.hdmaReset n
  | _ => s.hostChan n id

/-- PCIE_READ_TIMEOUT (R455): a running host channel reading host memory enters the error state with code 0x00A. -/
def execPcieReadTimeout (n : Nat) (s : State) : Host.Outcome State Fault Refusal :=
  let c : DmaChan := .host n
  .next (if s.hState n == 1 && adSpace (dSrc (s.chan c).head) == 3 && !(s.chan c).done then s.dmaError c (s.chanJob c) 0xA 0x800A else s)

end Sys2Proof.Machine
end

