-- ==== Sys2Proof/Machine/Resume.lean ====
section
/-!
DEFINITION. How waiting units go on: a met wait condition, a page that became stable, a line or an answer that came back (R56, R235, R390, R448).
-/

namespace Sys2Proof.Machine

open Sys2Proof

/-- A core goes on with its head command. -/
def State.stepCore (s : State) (b l : Nat) : State :=
  let c := s.core b l
  (if c.st == 4 then s.putCore b l { c with st := 2 } else s).headStep b l

/-- Every core of a bay whose command waits on the scribe or on a page goes on. -/
def State.stepScribe (s : State) (b : Nat) : State :=
  (List.range 16).foldl (fun s l =>
    let c := s.core b l
    if c.started && !c.executed && (c.st == 4 || c.waitPage.isSome) then s.stepCore b l else s) s

def State.stepScribes (s : State) : State := (List.range 16).foldl State.stepScribe s

/-- A waiting unit goes on: a parked channel continues from its residue with the bursts of its next DMA row. -/
def State.stepUnit (s : State) (u : UnitId) : State :=
  match u with
  | .core b l => s.stepCore b l
  | .scribe b => s.stepScribe b
  | .dovetail b => (s.putDove b { s.dove b with parked := false }).dvStep b
  | .bayDma b n => if s.chanState (.bay b n) == 3 then s.putChan (.bay b n) (s.chan (.bay b n)) 1 else s
  | .hostDma n => if s.hState n == 3 then s.putChan (.host n) (s.chan (.host n)) 1 else s
  | _ => s

/-- A unit outside the bays is never pre-empted. -/
def UnitId.outside : UnitId → Bool
  | .core _ _ => false
  | .bayDma _ _ => false
  | .dovetail _ => false
  | .scribe _ => false
  | _ => true

/-- A page became stable, or its entry invalid: every unit that waits on it goes on; a unit of a pre-empted job stays parked, resolved
(Tables 07-7 and 07-8). -/
def State.landed (s : State) (job vp : Nat) : State :=
  let mine := fun (x : Parked) => x.job == job && x.vpage == vp
  let runs := fun (x : Parked) => x.unit.outside || (s.holder.bind s.holderJob) == some job
  let go := (s.parked.filter (fun x => mine x && runs x)).map (·.unit)
  let s := { s with parked := (s.parked.filter (fun x => !(mine x && runs x))).map (fun x =>
    if mine x then { x with resolved := true } else x) }
  go.foldl State.stepUnit s

/-- PEG_WAIT_MET (R56): a head that waits on a peg which has reached its target starts. `core`: 0–15 a core, 16 the dovetail port, 32 + n DMA
channel n of the bay, 64 + n host channel n. -/
def State.pegMet (s : State) (bay core : Nat) : State :=
  if core < 16 then (if (s.core bay core).st == 3 then s.headStep bay core else s)
  else if core = 16 then s.dvStep bay
  else if 32 ≤ core ∧ core < 48 then s.dmaWork (.bay bay (core - 32)) 0 false
  else if 64 ≤ core ∧ core < 128 then s.dmaWork (.host (core - 64)) 0 false
  else s

def execPegWaitMet (bay core : Nat) (s : State) : Host.Outcome State Fault Refusal := .next (s.pegMet bay core)

end Sys2Proof.Machine
end

