-- ==== Sys2Proof/Machine/Deep.lean ====
section
/-!
DEFINITION. The deep tier: its logical map, park units, write budget, erase blocks, lifetime counters, and the staging of parked pages (R251–R270,
R164–R173).
-/

namespace Sys2Proof.Machine

open Sys2Proof

/-! ### The logical map (Table 08-1) -/

/-- Logical address of the park region. -/
def parkBase : Nat := 0x008000000000
/-- Park units of 4 KiB. -/
def unitCount (h : Bool) : Nat := if h then 0x10000000 else 0x20000000
def unitLa (i : Nat) : Nat := parkBase + i * 4096
def unitPa (i : Nat) : Nat := deepBase + unitLa i
/-- A physical page lies in the park region. -/
def parkPage (page : Nat) : Bool := decide (deepBase + parkBase ≤ page * 65536)
/-- First unit of a 64 KiB page of the park region (R252). -/
def pageUnit (page : Nat) : Nat := (page * 65536 - (deepBase + parkBase)) / 4096
def unitPage (i : Nat) : Nat := unitPa i / 65536

/-- DEEP_STAT.STATE: 0 mounting, 1 recovering, 2 ready, 3 park region read-only, 4 failed or gated (Table 08-17). -/
def State.deepState (s : State) : Nat := wfield (s.preg .deep 0x100) 7 4
def State.setDeepState (s : State) (v : Nat) : State :=
  if s.deepState = v then s else (s.putPreg .deep 0x100 7 4 v).irq .deep 1
/-- The deep tier serves reads. -/
def State.deepReads (s : State) : Bool := s.deepState == 2 || s.deepState == 3
/-- Some flash package is at 90 °C or above: programs are suspended (R526). -/
def State.flashHot (s : State) : Bool := s.flashTemp.any (fun e => decide (90 ≤ e.2))

/-! ### Flash blocks (R262, R263) -/

/-- A block of the weight region has a number below 2^48, one of the park region above. -/
def blockKey (la : Nat) : Nat := (if la < parkBase then 0 else 2 ^ 48) + Config.blockOf la % 2 ^ 48
def blockPark (k : Nat) : Bool := decide (2 ^ 48 ≤ k)
def readLimit (k : Nat) : Nat := if blockPark k then 400000 else 60000
/-- Age limit in units of 2^-32 s. -/
def ageLimit (k : Nat) : Nat := (if blockPark k then 157680000 else 31536000) * 2 ^ 32
def State.block (s : State) (k : Nat) : Block := (mget s.blocks k).getD {}
def State.setBlock (s : State) (k : Nat) (b : Block) : State := { s with blocks := mset s.blocks k b }

/-- The unit that a block's read counter counts: a page of 64 KiB in the weight region, a park unit of 4 KiB in the park region (Table 08-1). -/
def blockUnit (k : Nat) : Nat := if blockPark k then 4096 else 65536

/-- `n` bytes of a block are read from flash: its read counter, by pages, and DEEP_READ (R262, R270). -/
def State.blockRead (s : State) (k n : Nat) : State :=
  let b := s.block k
  (s.setBlock k { b with reads := b.reads + ceilDiv n (blockUnit k) }).count64 .deep 0x130 0x134 n

/-- Bytes are read from flash at a logical address. -/
def State.flashRead (s : State) (la n : Nat) : State := s.blockRead (blockKey la) n

/-- DEEP_WEAR, and IRQ WEAR when a used life passes 80 % (Tables 08-16 and 08-19). -/
def State.showWear (s : State) : State :=
  let old := s.preg .deep 0x110
  let w := BitVec.ofNat 32 (min 100 (Config.spareLeft (s.preg .deep 0x150).toNat) * 65536 +
    min 255 (Config.weightWear (s.preg64 .deep 0x128 0x12C)) * 256 + min 255 (Config.parkWear (s.preg64 .deep 0x120 0x124)))
  let passed := fun hi lo => decide (wfield old hi lo ≤ 80) && decide (80 < wfield w hi lo)
  let s := s.setPreg .deep 0x110 w
  if passed 15 8 || passed 7 0 then s.irq .deep 3 else s

/-- Bytes are programmed at a logical address: DEEP_PROG_PARK or DEEP_PROG_WEIGHT, and the wear (R270). -/
def State.flashProgram (s : State) (la n : Nat) : State :=
  let k := blockKey la
  let s := s.setBlock k (s.block k)
  (if blockPark k then s.count64 .deep 0x120 0x124 n else s.count64 .deep 0x128 0x12C n).showWear

/-- floor(2^(32 + r/10)) for r = 0 to 9: the weights of R263 in units of 2^-32 s (DESIGN CHOICE, log 66). -/
def ageTable : List Nat := [4294967296, 4603231970, 4933621867, 5287724991, 5667243323, 6074000999, 6509953083, 6977194956, 7477972397, 8014692369]

/-- The weight 2^((T − 40)/10) of one second at T °C, T clamped to 25–95. -/
def ageWeight (t : Nat) : Nat :=
  let c := max 25 (min 95 t) - 25
  ageTable.getD ((c + 5) % 10) 0 * 2 ^ ((c + 5) / 10) / 4

def State.packageTemp (s : State) (k : Nat) : Nat := (mget s.flashTemp (Config.packageOf k % 16)).getD 0

/-- Ages rise by `f`; a block at 90 % of its limit starts refresh (R263). -/
def State.ageBlocks (s : State) (f : Nat → Nat) : State :=
  { s with blocks := s.blocks.map (fun e =>
      let a := e.2.age + f e.1
      (e.1, { e.2 with age := a, moving := if e.2.moving == 0 && decide (ageLimit e.1 * 9 ≤ a * 10) then 2 else e.2.moving })) }

/-- CHECK_AGE of every tier, saturating (Table 07-16). -/
def State.checkAges (s : State) : State :=
  (List.range 10).foldl (fun s t =>
    let p : Page := if t < 8 then .main t else .near (t - 8)
    s.putPreg p 0x104 7 0 (min 255 (wfield (s.preg p 0x104) 7 0 + 1))) s

/-- RETENTION_AGE_TICK (R263): one second. With it go the other counts of seconds: DEEP_POWER_ON, CHECK_AGE and SETTINGS_CREDITS.NEXT (log 67). -/
def State.second (s : State) : State :=
  let s := s.ageBlocks (fun k => ageWeight (s.packageTemp k))
  let s := (s.count .deep 0x140 1).checkAges
  s.putPreg .settings 0x110 15 0 (wfield (s.preg .settings 0x110) 15 0 - 1)

def execRetentionAgeTick (s : State) : Host.Outcome State Fault Refusal := .next s.second

/-- PTP seconds, once known (R313, R319). -/
def State.ptpTime (s : State) : Option Nat :=
  if wbit (s.preg .cadence 0x108) 8 then some (s.nowN / 24576000 + s.preg64 .cadence 0x110 0x114) else none

/-- PTP time becomes known after a mount: every block ages by 4 × the seconds since the last checkpoint (R264). -/
def State.ageSince (s : State) : State :=
  match s.ptpTime, s.checkpoint.ptp with
  | some t, some c => s.ageBlocks (fun _ => 4 * (t - c) * 2 ^ 32)
  | _, _ => s

/-! ### The write budget (R259–R261) -/

def State.level (s : State) : Int := signed 64 (s.preg64 .deep 0x108 0x10C)
def gib : Nat := 2 ^ 30
def State.budgetRate (s : State) : Nat := wfield (s.preg .deep 0x104) 10 0
def State.budgetDepth (s : State) : Nat := wfield (s.preg .deep 0x104) 22 12 * gib
def State.budgetReserve (s : State) : Nat := wfield (s.preg .deep 0x104) 30 24 * gib

/-- Set LEVEL, with EXHAUSTED and its interrupt. -/
def State.setLevel (s : State) (v : Int) : State :=
  let s := s.setPreg64 .deep 0x108 0x10C (unsigned 64 v)
  let ex := decide (v < s.budgetReserve)
  let was := wbit (s.preg .deep 0x100) 8
  let s := s.setPreg .deep 0x100 (wassign (s.preg .deep 0x100) 8 ex)
  if ex && !was then s.irq .deep 2 else s

/-- program_other: a relocation, refresh or demotion takes from the budget and never waits. -/
def State.programOther (s : State) (n : Nat) : State := s.setLevel (s.level - n)

/-- BUDGET_REFILL (R259): 1 ms. -/
def execBudgetRefill (s : State) : Host.Outcome State Fault Refusal :=
  .next (s.setLevel (min (s.level + s.budgetRate * 1000) s.budgetDepth))

/-- A DEEP_BUDGET value lies within Table 08-5, its reserved bits 0. -/
def budgetLegal (h : Bool) (w : Word) : Bool :=
  !wbit w 31 && !wbit w 23 && !wbit w 11 && decide (wfield w 30 24 ≤ 64) && decide (1 ≤ wfield w 22 12) && decide (wfield w 22 12 ≤ 1024) &&
  decide (1 ≤ wfield w 10 0) && decide (wfield w 10 0 ≤ (if h then 640 else 1280))

/-- DEEP_BUDGET takes effect: lowering DEPTH clamps LEVEL at once (R260). -/
def State.setBudget (s : State) (w : Word) : State :=
  let s := s.setPreg .deep 0x104 w
  s.setLevel (min s.level s.budgetDepth)

/-! ### Relocation (R262–R265) -/

/-- READ_DISTURB_RELOCATION (R262): the block's read counter has reached its limit, or a read needed `ecc` % of the correction capability. -/
def execReadDisturbRelocation (block ecc : Nat) (s : State) : Host.Outcome State Fault Refusal :=
  let b := s.block block
  .next (if b.moving == 0 && (mget s.blocks block).isSome && (decide (readLimit block ≤ b.reads) || decide (70 < ecc)) then
    s.setBlock block { b with moving := 1 }
  else s)

/-- STATE of a mounted deep tier: ready, or its park region read-only (R261). -/
def State.showReady (s : State) : State := s.setDeepState (if s.sparesLow then 3 else 2)

/-- RELOCATION_COMMIT (R265): the map update commits and the old block is erased, its counters 0. `retired`: a program or erase failed on the
way; `low`: the park region's spare blocks are below 0.5 %, with a block of that region (R261). Nothing is programmed on a package at or above 90 °C (R526). -/
def State.relocated (s : State) (k : Nat) (retired low : Bool) : State :=
  let b := s.block k
  if b.moving == 0 || decide (90 ≤ s.packageTemp k) then s
  else
    let n := Config.blockBytes k
    let s := (s.blockRead k n).count .deep (if b.moving == 1 then 0x154 else 0x158) 1
    let s := if blockPark k then (s.count64 .deep 0x120 0x124 n).programOther n else s.count64 .deep 0x128 0x12C n
    let s := s.setBlock k { scanned := b.scanned }
    let s := (if retired then s.count .deep 0x150 1 else s).showWear
    if low && blockPark k then ({ s with sparesLow := true }).showReady else s

def execRelocationCommit (block : Nat) (retired low : Bool) (s : State) : Host.Outcome State Fault Refusal := .next (s.relocated block retired low)

/-- TIME_UNKNOWN_TIMEOUT (R264): 600 s after the mount with no PTP time known. -/
def execTimeUnknownTimeout (s : State) : Host.Outcome State Fault Refusal :=
  .next (if s.ptpTime.isSome then s
  else
    let bs := s.blocks.map (fun e => (e.1, { e.2 with scanned := false }))
    { s with blocks := bs }.setPreg .deep 0x100 (wassign (wset (s.preg .deep 0x100) 10) 11 (!s.blocks.isEmpty)))

/-- RETENTION_SCAN_READ (R264): the scan reads every page of a programmed block, its worst page needing `ecc` % of the correction capability. -/
def State.scanRead (s : State) (k ecc : Nat) : State :=
  let b := s.block k
  if !wbit (s.preg .deep 0x100) 11 || (mget s.blocks k).isNone || b.scanned then s
  else
    let s := s.blockRead k (Config.blockBytes k)
    let s := s.setBlock k { s.block k with scanned := true, moving := if b.moving == 0 && decide (50 < ecc) then 2 else b.moving }
    if s.blocks.all (fun e => e.2.scanned) then s.setPreg .deep 0x100 (wclear (s.preg .deep 0x100) 11) else s

def execRetentionScanRead (block ecc : Nat) (s : State) : Host.Outcome State Fault Refusal := .next (s.scanRead block ecc)

/-! ### Hold-up and lifetime (R266–R270) -/

/-- HOLDUP_CHECK (R268): the check's result in HOLDUP_OK. -/
def State.holdupCheck (s : State) (ok : Bool) : State :=
  let was := wbit (s.preg .deep 0x100) 9
  let s := s.setPreg .deep 0x100 (wassign (s.preg .deep 0x100) 9 ok)
  if was && !ok then s.irq .deep 4 else s

def execHoldupCheck (ok : Bool) (s : State) : Host.Outcome State Fault Refusal := .next (s.holdupCheck ok)

/-- Offsets of the lifetime counters in the DEEP page (Table 08-14). -/
def lifetimeRegs : List Nat :=
  [0x120, 0x124, 0x128, 0x12C, 0x130, 0x134, 0x140, 0x144, 0x148, 0x14C, 0x150, 0x154, 0x158, 0x15C, 0x160]

/-- LIFETIME_CHECKPOINT (R270): counters, LEVEL and PTP time become durable. While no PTP time is known the last one stands, from which the ages of R264
count. -/
def State.checkpointNow (s : State) : State :=
  { s with checkpoint := {
      level := some s.level, ptp := s.ptpTime.orElse (fun _ => s.checkpoint.ptp), counters := lifetimeRegs.map (fun r => (r, s.preg .deep r)) } }

def execLifetimeCheckpoint (s : State) : Host.Outcome State Fault Refusal := .next s.checkpointNow

/-! ### Park units (R254, R257) -/

/-- A unit is free: not in use, and outside every demoted page. -/
def State.unitFree (s : State) (i : Nat) : Bool :=
  decide (i < unitCount s.isH) && (mget s.unitKeys i).isNone && !s.usedPages.contains (unitPage i)

/-- Free units of the park region. -/
def State.freeUnits (s : State) : Nat :=
  unitCount s.isH - (s.unitKeys.length + 16 * (s.usedPages.filter parkPage).length)

/-- `n` free units in a row, the search starting anywhere (log 68). -/
def State.findUnits (s : State) (n : Nat) : Option Nat :=
  searchFrom (unitCount s.isH) (fun i => (List.range n).all (fun d => s.unitFree (i + d)))
    (Config.freeNat s.freeCtr % unitCount s.isH) (unitCount s.isH)

/-- A free 64 KiB page of the park region: 16 units from a multiple of 16 (R252). -/
def State.findParkPage (s : State) : Option Nat :=
  (searchFrom (unitCount s.isH / 16) (fun g => (List.range 16).all (fun d => s.unitFree (16 * g + d)))
    (Config.freeNat s.freeCtr % (unitCount s.isH / 16)) (unitCount s.isH / 16)).map (fun g => unitPage (16 * g))

/-- The unit header of Table 08-3 but for its CRC. -/
def unitHeader (kind fill : Nat) (k : Option ListKey) (kv8 : Bool) (p key seq : Nat) : List Byte :=
  let w : Nat × Nat × Nat := match k with
    | some k => (k.stream % 16384, k.layer, k.group % 16 + 16 * b2n kv8)
    | none => (0, 0, 0)
  leBytes 1 kind ++ leBytes 1 fill ++ leBytes 2 w.1 ++ leBytes 1 w.2.1 ++ leBytes 1 w.2.2 ++ leBytes 2 (if k.isSome then p else 0) ++
    leBytes 8 key ++ leBytes 8 seq ++ List.replicate 36 0

/-- A unit's bytes: what precedes the header, the header, its CRC, zeros to the end. -/
def unitBytes (before : List Byte) (header : List Byte) : List Byte :=
  let body := before ++ header
  let u := body ++ leBytes 4 (crc32c body)
  u ++ List.replicate (ceilDiv u.length 4096 * 4096 - u.length) 0

/-- Program units from `i`: contents, writing key, WRITE_SEQ. -/
def State.putUnit (s : State) (i key : Nat) (bs : List Byte) : State :=
  let n := bs.length / 4096
  let s := s.rawWrite (unitPa i) bs
  let s := { s with
    unitKeys := (List.range n).foldl (fun m d => mset m (i + d) (key + (if d = 0 then 0 else 2 ^ 64))) s.unitKeys
    writeSeq := (s.writeSeq + 1) % 2 ^ 64 }
  s.flashProgram (unitLa i) bs.length

/-- Offset of the header in a unit of a page: after the first unit in 8-bit form (Table 08-2). -/
def headerOff (kv8 : Bool) : Nat := if kv8 then 4096 + 768 else 2816

/-- The second unit of a pair. -/
def State.secondUnit (s : State) (i : Nat) : Bool :=
  match mget s.unitKeys i with
  | some k => decide (2 ^ 64 ≤ k)
  | none => false

/-- A unit holds a pack: a unit in use, of no pair, whose byte 3,840 is KIND 4; in the one-unit pages that byte is 0 (Table 08-2). -/
def State.isPack (s : State) (i : Nat) : Bool :=
  (mget s.unitKeys i).isSome && !s.secondUnit i && !s.secondUnit (i + 1) && getLE (s.readPa (unitPa i + 3840) 1) 0 1 == 4

/-! ### Staging (R164–R167, R173, R255) -/

/-- The order of the controller: ascending DEADLINE_CT, 0 the largest, then SEQ (R166). -/
def Stage.rank (g : Stage) : Nat := (if g.deadline = 0 then 2 ^ 64 else g.deadline) * 2 ^ 32 + g.seq

def earliest : List Stage → Option Stage
  | [] => none
  | g :: gs => match earliest gs with
    | none => some g
    | some h => if h.rank < g.rank then some h else some g

/-- Why a staging read fails its checks, if it does (R255). `ok`: the flash corrected every error. -/
def State.stageBad (s : State) (g : Stage) (ok : Bool) (len : Nat) : Option Nat :=
  let i := g.ref % 2 ^ 29
  match mget s.unitKeys i with
  | none => some 0x102
  | some key =>
    if !ok then some 0x103
    else
      let u := s.readPa (unitPa i) (4096 * g.width)
      let o := headerOff g.kv8
      let h := slice u o 64
      let kind := getLE h 0 1
      if getLE h 60 4 != crc32c (slice u 0 (o + 60)) then some 0x101
      else if (if g.kv8 then kind == 2 || kind == 3 else kind == 1 || kind == 3) && getLE h 4 1 == g.key.layer &&
          getLE h 5 1 == g.key.group + 16 * b2n g.kv8 && getLE h 6 2 == g.page && getLE h 8 8 == key % 2 ^ 64 &&
          getLE h 1 1 == (if kind == 3 then len % 16 else 16) then none
      else some 0x102

/-- A staging read's page goes into its frames and sidecar; the second sidecar of an 8-bit page is zero (R143). -/
def State.stageWrite (s : State) (g : Stage) (j : Job) : Acc State :=
  let u := s.readPa (unitPa (g.ref % 2 ^ 29)) (4096 * g.width)
  (s.writeVa g.key.job (j.frameVa g.frame) (slice u 0 (2048 * g.width))).bind fun s =>
    s.writeVa g.key.job (j.sideVa g.frame) (slice u (2048 * g.width) 128 ++ List.replicate (128 * (g.width - 1)) 0)

/-- The descriptor leaves, and with it its frame when the page was not installed. -/
def State.stageGone (s : State) (g : Stage) (free : Bool) : State :=
  let s := { s with stages := s.stages.filter (fun (h : Stage) => !(h.seq == g.seq && h.issued)) }
  let s := if free then s.modArena g.key.job (·.drop g.frame g.width) else s
  s.issueStages

/-- STAGING_INSTALL (R166, R173, R174): a page that fails its checks becomes penumbra only, but a tail page a page of zeros (R171, log 256). -/
def State.stageInstall (s : State) (seq : Nat) (ok : Bool) : State :=
  match s.stages.find? (fun g => g.issued && g.started && g.seq == seq) with
  | none => s
  | some g =>
    match s.job g.key.job, s.stream g.key.stream with
    | some j, some x =>
      let e := s.pte g.key x j.hg g.page
      if g.dropped || x.job != g.key.job || pteState e != 2 then s.stageGone g true
      else match s.stageBad g ok x.len with
        | some code =>
          let s := (s.storedState code g.key (slice g.desc 0 16) (unitLa (g.ref % 2 ^ 29))).irq (.scribe g.bay) 2
          if x.tailAt g.page then
            ((s.zeroTail g.key x j g.page (ptePen e) g.frame g.width).stageGone g false).stepScribes
          else
            let s := (s.setPte g.key x j.hg g.page (pteMake 3 false (ptePen e) 0)).degrade g.key.stream
            ((s.penOnlyPage g.key g.page).stageGone g true).stepScribes
        | none => match s.stageWrite g j with
          | .ok s => ((s.setPte g.key x j.hg g.page (pteMake 1 true (ptePen e) g.frame)).stageGone g false).stepScribes
          | .bad c job va => s.transFault c job va 3 g.bay
          | _ => s
    | _, _ => s.stageGone g true

def execStagingInstall (seq : Nat) (ok : Bool) (s : State) : Host.Outcome State Fault Refusal := .next (s.stageInstall seq ok)

/-- ATTENTION_CUTOFF (R167): every waiting walk whose deadline has come is decided. -/
def execAttentionCutoff (s : State) : Host.Outcome State Fault Refusal := .next s.stepScribes

end Sys2Proof.Machine
end

