-- ==== Sys2Proof/Machine/Cadence.lean ====
section
/-!
DEFINITION. The cadence counter: references, lock, steps, alarms (R312–R322, R346). A PTP event message brings the PTP time its exchange gives at this
instant; the count of R313 and the phase error follow from it. The arithmetic of the servo is not stated (log 90).
-/

namespace Sys2Proof.Machine

open Sys2Proof

def State.cadState (s : State) : Nat := wfield (s.preg .cadence 0x108) 3 0
def State.cadRef (s : State) : Nat := wfield (s.preg .cadence 0x108) 10 9
def State.cadSource (s : State) : Nat := wfield (s.preg .cadence 0x10C) 2 0
def State.stepPending (s : State) : Bool := wbit (s.preg .cadence 0x108) 11
def State.setRef (s : State) (r : Nat) : State := s.putPreg .cadence 0x108 10 9 r

/-- A lock state is entered: STATE_CHANGE, and HOLD_AGE's start (Tables 10-2, 10-11). -/
def State.enterLock (s : State) (st : Nat) : State :=
  if s.cadState = st then s
  else
    let s := (s.putPreg .cadence 0x108 3 0 st).irq .cadence 16
    { s with cad := { s.cad with
        good := 0
        holdFrom := if st = 3 then some s.nowN else if st = 4 then s.cad.holdFrom else none } }

/-- A record of the cadence class: KEY the lock state, DETAIL the phase error (Table 18-4). -/
def State.cadenceRecord (s : State) (code : Nat) : State :=
  s.report .cadence { code := 0xD000 + code, sev := 1, key := s.cadState, detail := leBytes 4 (s.preg .cadence 0x128).toNat }

/-- Seconds in HOLDOVER or HOLDOVER_EXPIRED, saturating (CADENCE_HOLD_AGE). -/
def State.holdAge (s : State) : Nat :=
  match s.cad.holdFrom with
  | some t => min 0xFFFFFFFF ((s.nowN - t) / 24576000)
  | none => 0

/-- Ethernet port `n` carries a valid PTP reference (ETH_STAT.PTP_OK). -/
def State.ptpOk (s : State) (n : Nat) : Bool := wbit (s.preg (.eth n) 0x100) 3
def State.setPtpOk (s : State) (n : Nat) (ok : Bool) : State :=
  let was := s.ptpOk n
  let s := s.setPreg (.eth n) 0x100 (wassign (s.preg (.eth n) 0x100) 3 ok)
  if ok && was then s
  else { s with cad := { s.cad with validFrom := if ok then mset s.cad.validFrom n s.nowN else mdel s.cad.validFrom n } }

/-- The PTP reference a source choice can use now: 0 none, 1 port 0, 2 port 1 (R314). CADENCE_IN comes into use at an edge (R316). -/
def State.refOf (s : State) (src : Nat) : Nat :=
  match src with
  | 1 => if s.ptpOk 0 then 1 else 0
  | 2 => if s.ptpOk 1 then 2 else 0
  | 4 => if s.ptpOk 0 then 1 else if s.ptpOk 1 then 2 else 0
  | _ => 0

/-- A committed change of source, origin or configuration (R317, R346): FREE for SOURCE 0, otherwise ACQUIRING, its count of good measurements begun anew. -/
def State.cadenceCommitted (s : State) : State :=
  let src := s.cadSource
  let s := (s.setRef (s.refOf src)).enterLock (if src = 0 then 0 else 1)
  { s with cad := { s.cad with good := 0 } }

/-- Only slewing is allowed: a job exists, an alarm is enabled or a transaction commit is scheduled (R320). -/
def State.slewOnly (s : State) : Bool :=
  s.anyJob || wfield (s.preg .cadence 0x140) 14 0 != 0 || wfield (s.preg .txn 0x104) 3 0 == 3

/-- Ticks by which the counter is ahead of `count`, on the wrapping counter. -/
def State.ahead (s : State) (count : DWord) : Int := (s.now - count).toInt

/-- Ticks as nanoseconds, rounded down (24,576,000 ct a second, R12). -/
def tickNs (d : Int) : Int := d * 1000000000 / 24576000

/-- The present rate adjustment, at most ±200 ppm: 200 ppm towards the reference while a step is pending (R320), else the servo's value, which is not
stated (log 90). -/
def State.steer (s : State) (d : Int) : State :=
  let set := fun (s : State) (v : Int) => s.setPreg .cadence 0x12C (BitVec.ofNat 32 (unsigned 32 v))
  if s.stepPending then set s (if 0 < d then -200000 else 200000)
  else (set s (((Config.freeNat s.freeCtr % 400001 : Nat) : Int) - 200000)).useFree

/-- STEP_PENDING takes a new value (Table 10-11). -/
def State.setPending (s : State) (b : Bool) : State :=
  if s.stepPending == b then s else (s.setPreg .cadence 0x108 (wassign (s.preg .cadence 0x108) 11 b)).irq .cadence 16

/-- One measurement of the reference in use, which gives `count`: the phase error, the lock state, and a step where one is due and allowed (R317, R320). -/
def State.measure (s : State) (count : DWord) : State :=
  let d := s.ahead count
  let ns := tickNs d
  let s := s.setPreg .cadence 0x128 (BitVec.ofNat 32 (unsigned 32 (max (-2147483648) (min 2147483647 ns))))
  let s := if s.cadState = 3 || s.cadState = 4 then s.enterLock 1 else s
  let s := if s.cadState = 1 then
      { s with cad := { s.cad with good := if ns.natAbs ≤ 500 then s.cad.good + 1 else 0 } }
    else s
  let s :=
    if d.natAbs ≤ 24576 then s.setPending false
    else if s.slewOnly then (if s.stepPending then s else (s.setPending true).cadenceRecord 3)
    else { s with now := count }.setPending false
  s.steer d

/-- The count that PTP time `t`, in ns, asks for: (T − ORIGIN) × 24,576,000, rounded down (R313). -/
def State.ptpCount (s : State) (t : Nat) : DWord :=
  BitVec.ofInt 64 (((t : Int) - 1000000000 * (s.preg64 .cadence 0x110 0x114 : Int)) * 24576000 / 1000000000)

/-- The message is of the profile, transport and domain of CADENCE_PTP_CFG (R315, Table 10-14). -/
def State.ptpMine (s : State) (h : PtpHead) : Bool :=
  let c := s.preg .cadence 0x118
  h.domain == wfield c 6 0 && h.transport == wfield c 10 9 && h.p2p == wbit c 8

/-- PTP_EVENT_MESSAGE (R313–R320): a valid event message of the best master `gm` on a port, `t` the PTP time of this instant in ns. It makes the port's
reference valid whatever the source; the reference in use is measured. -/
def State.ptpMessage (s : State) (port : Nat) (head : PtpHead) (t gm : Nat) : State :=
  if 2 ≤ port || !s.ptpMine head then s
  else
    let s := s.setPtpOk port true
    if s.cadState = 0 then s
    else
      let s := if s.cadRef = 0 then s.setRef (s.refOf s.cadSource) else s
      if s.cadRef != port + 1 then s
      else (s.setPreg64 .cadence 0x138 0x13C gm).measure (s.ptpCount t)

def execPtpEventMessage (port : Nat) (head : PtpHead) (time gm : Nat) (s : State) : Host.Outcome State Fault Refusal :=
  .next (s.ptpMessage port head time gm)

/-- LOCK_ACQUIRED (R317, R319). -/
def State.lockAcquired (s : State) : State :=
  if s.cadState = 1 && decide (16 ≤ s.cad.good) then
    let s := s.enterLock 2
    if (s.cadRef = 1 || s.cadRef = 2) && !wbit (s.preg .cadence 0x108) 8 then
      (s.setPreg .cadence 0x108 (wset (s.preg .cadence 0x108) 8)).ageSince
    else s
  else s

def execLockAcquired (s : State) : Host.Outcome State Fault Refusal := .next s.lockAcquired

/-- The reference `r` is no longer valid: with SOURCE 4 the other port takes over (R314, Table 10-9). -/
def State.refLost (s : State) (r : Nat) : State :=
  let s := if r = 1 || r = 2 then s.setPtpOk (r - 1) false else s
  if s.cadRef != r || r = 0 then s
  else
    let o := if s.cadSource = 4 then s.refOf 4 else 0
    if o != 0 then s.setRef o
    else
      let s := s.setRef 0
      let s := { s with cad := { s.cad with good := 0 } }
      if s.cadState = 2 then (s.enterLock 3).cadenceRecord 1 else s

/-- REFERENCE_LOSS_TIMEOUT (R317, R318): no valid message or edge of reference `r` for the timeout. -/
def execReferenceLossTimeout (r : Nat) (s : State) : Host.Outcome State Fault Refusal := .next (s.refLost r)

/-- HOLDOVER_EXPIRY (R317, R318). -/
def execHoldoverExpiry (s : State) : Host.Outcome State Fault Refusal :=
  .next (if s.cadState = 3 && decide (600 ≤ s.holdAge) then (s.enterLock 4).cadenceRecord 2 else s)

/-- PORT_FAILBACK (R314): port 0 has been valid for 10 s. -/
def execPortFailback (s : State) : Host.Outcome State Fault Refusal :=
  .next (if s.cadSource = 4 && s.cadRef = 2 && (match mget s.cad.validFrom 0 with
      | some t => decide (t + 245760000 ≤ s.nowN)
      | none => false) then s.setRef 1 else s)

/-- The multiple of `p` nearest to `n`; ties upward (log 91). -/
def nearestMultiple (n p : Nat) : Nat := (2 * n + p) / (2 * p) * p

/-- CADENCE_IN_EDGE (R316). A pending load waits while a step is forbidden (R320, log 91). -/
def State.cadenceEdge (s : State) : State :=
  if s.cadSource != 3 || s.cadState = 0 then s
  else
    let s := s.setRef 3
    let p := max 1 (wfield (s.preg .cadence 0x11C) 24 0)
    match (if s.slewOnly then none else s.cad.load) with
    | some v =>
      let s := { s with now := BitVec.ofNat 64 (nearestMultiple v p), cad := { s.cad with load := none } }
      s.measure s.now
    | none => s.measure (BitVec.ofNat 64 (nearestMultiple s.nowN p))

def execCadenceInEdge (s : State) : Host.Outcome State Fault Refusal := .next s.cadenceEdge

/-- A write of one word of CADENCE_LOAD (R316): ignored with BLK_STAT.ERROR while a job exists. -/
def State.cadenceLoad (s : State) (hi : Bool) (v : Word) : State :=
  if s.anyJob then s.refuseReg .cadence (Page.cadence.base + (if hi then 0x124 else 0x120)) v
  else
    let old := s.cad.load.getD 0
    { s with cad := { s.cad with
        load := some (if hi then v.toNat * 2 ^ 32 + old % 2 ^ 32 else old / 2 ^ 32 * 2 ^ 32 + v.toNat) } }

/-- CADENCE_LOAD (R316): a 64-bit count written while no job exists. -/
def execCadenceLoad (v : DWord) (s : State) : Host.Outcome State Fault Refusal :=
  .next ((s.cadenceLoad false (lo32 v.toNat)).cadenceLoad true (hi32 v.toNat))

/-- CADENCE_ALARM (R322). -/
def State.alarm (s : State) (n : Nat) : State :=
  let en := s.preg .cadence 0x140
  if n < 15 && wbit en n && decide (s.preg64 .cadence (0x180 + 8 * n) (0x184 + 8 * n) ≤ s.nowN) then
    (s.setPreg .cadence 0x140 (wclear en n)).irq .cadence n
  else s

def execCadenceAlarm (n : Nat) (s : State) : Host.Outcome State Fault Refusal := .next (s.alarm n)

/-- ETH_LINK_CHANGE (R323, Table 10-9): `mode` 0 down, 1 800GBASE-CR4, 2 400GBASE-CR4. -/
def State.ethLink (s : State) (port mode : Nat) : State :=
  if 2 ≤ port || 2 < mode then s
  else
    let p : Page := .eth port
    let up := decide (mode != 0)
    let was := wbit (s.preg p 0x100) 0
    let s := s.putPreg p 0x100 2 0 (mode * 2 + b2n up)
    let s := if up != was then s.irq p 1 else s
    if up then s
    else
      let s := s.setPtpOk port false
      if s.cadSource = 4 && s.cadRef = port + 1 && s.refOf 4 != 0 then s.setRef (s.refOf 4) else s

def execEthLinkChange (port mode : Nat) (s : State) : Host.Outcome State Fault Refusal := .next (s.ethLink port mode)

end Sys2Proof.Machine
end

