-- ==== Sys2Proof/Machine/Net.lean ====
section
/-!
DEFINITION. What the Ethernet ports send: own addresses, the neighbour cache, frames and UDP datagrams (R10, R323–R326, R347). The formats are those of IEEE
802.3 and 802.1Q and of the Internet standards (PRESUMED, log 121).
-/

namespace Sys2Proof.Machine

open Sys2Proof

/-- A field in network byte order: `n` bytes from offset `o`. -/
def getBE (bs : List Byte) (o n : Nat) : Nat := ((List.range n).foldl (fun v i => v * 256 + getLE bs (o + i) 1) 0)

/-- The Internet checksum's sum of 16-bit words, folded. -/
def inetSum (bs : List Byte) : Nat :=
  let v := (List.range ((bs.length + 1) / 2)).foldl (fun a i => a + getBE (bs ++ [0]) (2 * i) 2) 0
  let v := v / 65536 + v % 65536
  let v := v / 65536 + v % 65536
  v / 65536 + v % 65536
def inetCheck (bs : List Byte) : Nat := 65535 - inetSum bs

def v4Prefix : List Byte := List.replicate 10 0 ++ [0xFF, 0xFF]

/-- A packet of the IP layer: addresses as 16 bytes, IPv4-mapped for IPv4, the protocol and its payload. -/
structure IpPkt where
  v4 : Bool
  src : List Byte
  dst : List Byte
  proto : Nat
  body : List Byte
  hop : Nat

/-- Sum over a transport payload with its pseudo-header. -/
def transportSum (p : IpPkt) : Nat :=
  let cut := if p.v4 then 12 else 0
  inetSum (p.src.drop cut ++ p.dst.drop cut ++ beBytes 4 p.body.length ++ beBytes 4 p.proto ++ p.body)

/-! ### The port's own addresses (R324, R347) -/

def State.portMac (_s : State) (port : Nat) : List Byte := beBytes 6 (Config.mac port).toNat

/-- A 128-bit address held in four words, low word first. -/
def State.addr6 (s : State) (port o : Nat) : Nat := (List.range 4).foldl (fun v i => v + (s.preg (.eth port) (o + 4 * i)).toNat * 2 ^ (32 * i)) 0

/-- Addresses in use, as 16 bytes; an address of zero is unused. -/
def State.ownAddrs (s : State) (port : Nat) : List (List Byte) :=
  (([0x120, 0x124].map (fun o => (s.preg (.eth port) o).toNat)).filter (fun x => x != 0)).map (fun x => v4Prefix ++ beBytes 4 x) ++
  (([0x130, 0x140].map (s.addr6 port)).filter (fun x => x != 0)).map (beBytes 16)

/-- A management peer. -/
def State.mgmtPeer (s : State) (port : Nat) (a : List Byte) : Bool :=
  (List.range 4).any (fun i => let x := s.addr6 port (0x180 + 16 * i); x != 0 && beBytes 16 x == a)

/-! ### Sending -/

def State.ethDrop (s : State) (port : Nat) : State := s.count (.eth port) 0x1D0 1

/-- Send a frame of a port with priority `pcp`: the tag of ETH_CFG where VLAN_EN is 1. -/
def State.sendTagged (s : State) (port pcp : Nat) (dest : List Byte) (typ : Nat) (body : List Byte) : State :=
  let cfg := s.preg (.eth port) 0x104
  let tag := if wbit cfg 14 then beBytes 2 0x8100 ++ beBytes 2 (pcp * 8192 + wfield cfg 27 16) else []
  (s.emit (.frame port (dest ++ s.portMac port ++ tag ++ beBytes 2 typ ++ body))).count64 (.eth port) 0x1C8 0x1CC 1

/-- The priority of frames other than media (Table 10-19). -/
def State.portPcp (s : State) (port : Nat) : Nat := wfield (s.preg (.eth port) 0x104) 30 28

def State.sendEth (s : State) (port : Nat) (dest : List Byte) (typ : Nat) (body : List Byte) : State :=
  s.sendTagged port (s.portPcp port) dest typ body

/-- Remember a neighbour: 4,096 entries a port, the oldest giving way (log 121). -/
def State.learn (s : State) (port : Nat) (addr mac : List Byte) : State :=
  let mine := s.neigh.filter (fun e => e.1 == port && e.2.1 != addr)
  { s with neigh := (port, addr, mac) :: mine.take 4095 ++ s.neigh.filter (fun e => e.1 != port) }

/-- The ETH page of a port reads running: neither disabled nor quiesced (Table 15-3). -/
def State.ethOn (s : State) (port : Nat) : Bool := wfield (s.preg (.eth port) 0x00C) 7 4 == 2

/-- The port can send: its link is up, and the block neither off nor quiesced. -/
def State.ethSends (s : State) (port : Nat) : Bool := wbit (s.preg (.eth port) 0x100) 0 && s.ethOn port

/-- Two addresses agree in their first `n` bits. -/
def samePrefix (n : Nat) (a b : List Byte) : Bool :=
  let w := 8 * a.length
  a.length == b.length && getBE a 0 a.length / 2 ^ (w - n) == getBE b 0 b.length / 2 ^ (w - n)

/-- The port's addresses of one family in use, with their prefix lengths (ETH_PREFIX), the address as it stands in an IP header. -/
def State.ownOf (s : State) (port : Nat) (v4 : Bool) : List (List Byte × Nat) :=
  let px := s.preg (.eth port) 0x12C
  if v4 then ([(beBytes 4 (s.preg (.eth port) 0x120).toNat, wfield px 7 0), (beBytes 4 (s.preg (.eth port) 0x124).toNat, wfield px 15 8)]).filter
      (fun x => getBE x.1 0 4 != 0)
  else ([(beBytes 16 (s.addr6 port 0x130), wfield px 23 16), (beBytes 16 (s.addr6 port 0x140), wfield px 31 24)]).filter (fun x => getBE x.1 0 16 != 0)

/-- The own address a datagram to `dst` carries: the first on its network, else the first of its family; zeros where the port has none (log 270). -/
def State.sourceAddr (s : State) (port : Nat) (v4 : Bool) (dst : List Byte) : List Byte :=
  let own := s.ownOf port v4
  match own.find? (fun x => samePrefix x.2 x.1 dst) with
  | some x => x.1
  | none => match own with
    | x :: _ => x.1
    | [] => List.replicate dst.length 0

/-- The neighbour a datagram goes to: its destination on a network of the port, else the family's gateway (R324). -/
def State.nextHop (s : State) (port : Nat) (v4 : Bool) (dst : List Byte) : List Byte :=
  let gw := if v4 then beBytes 4 (s.preg (.eth port) 0x128).toNat else beBytes 16 (s.addr6 port 0x150)
  if (s.ownOf port v4).any (fun x => samePrefix x.2 x.1 dst) || getBE gw 0 gw.length = 0 then dst else gw

/-- A neighbour's MAC address: from the cache, else a free value, which ARP or Neighbour Discovery yields (log 270). -/
def State.neighbourMac (s : State) (port : Nat) (addr : List Byte) : List Byte :=
  match s.neigh.find? (fun e => e.1 == port && e.2.1 == addr) with
  | some e => e.2.2
  | none => beBytes 6 (Config.neighbourMac port addr).toNat

/-- A UDP segment with its checksum, which is never 0 (R326). -/
def udpBytes (v4 : Bool) (src dst : List Byte) (sport dport : Nat) (data : List Byte) : List Byte :=
  let seg := fun (c : Nat) => beBytes 2 sport ++ beBytes 2 dport ++ beBytes 2 (8 + data.length) ++ beBytes 2 c ++ data
  let pre := if v4 then v4Prefix else []
  let c := 65535 - transportSum ⟨v4, pre ++ src, pre ++ dst, 17, seg 0, 64⟩
  seg (if c = 0 then 65535 else c)

/-- An IP packet that carries a UDP segment, its DSCP in the header. -/
def ipBytes (v4 : Bool) (src dst : List Byte) (dscp : Nat) (seg : List Byte) : List Byte :=
  if v4 then
    let h := fun (c : Nat) => [0x45, BitVec.ofNat 8 (4 * dscp)] ++ beBytes 2 (20 + seg.length) ++ [0, 0, 0, 0] ++ [64, 17] ++ beBytes 2 c ++ src ++ dst
    h (inetCheck (h 0)) ++ seg
  else beBytes 4 (0x60000000 + dscp * 2 ^ 22) ++ beBytes 2 seg.length ++ [17, 64] ++ src ++ dst ++ seg

/-- Send a datagram to an address of 16 bytes, IPv4-mapped for IPv4; a port that cannot send drops it (R325, R326, Table 10-9). -/
def State.sendUdp (s : State) (port pcp dscp : Nat) (addr : List Byte) (sport dport : Nat) (data : List Byte) : State :=
  if !s.ethSends port then s.ethDrop port
  else
    let v4 := slice addr 0 12 == v4Prefix
    let dst := if v4 then addr.drop 12 else addr
    let src := s.sourceAddr port v4 dst
    s.sendTagged port pcp (s.neighbourMac port (if v4 then v4Prefix ++ s.nextHop port v4 dst else s.nextHop port v4 dst))
      (if v4 then 0x0800 else 0x86DD) (ipBytes v4 src dst dscp (udpBytes v4 src dst sport dport data))

/-- A management message of the port's management UDP port to a peer (R521). -/
def State.sendMgmt (s : State) (port : Nat) (addr : List Byte) (dport : Nat) (data : List Byte) : State :=
  s.sendUdp port (s.portPcp port) 0 addr (wfield (s.preg (.eth port) 0x108) 31 16) dport data

end Sys2Proof.Machine
end

