-- ==== Sys2Proof/Machine/Tiers.lean ====
section
/-!
DEFINITION. The memory tiers: where pages lie, mapping and unmapping, the migration engine, training and margin checks (R218–R242).
-/

namespace Sys2Proof.Machine

open Sys2Proof

/-! ### Tiers and room (R218, R224, R233). Tiers 0 to 7 are the main-tier stacks, 8 and 9 the near-tier dies. -/

def tierPage (t : Nat) : Page := if t < 8 then .main t else .near (t - 8)
/-- First page of a tier. -/
def tierBase (t : Nat) : Nat := if t < 8 then 0x100000 + t * 786432 else (t - 8) * 393216
def tierPages (t : Nat) : Nat := if t < 8 then 786432 else 393216
/-- Pages of the module's own structures on a tier: the host region and the error log on stack 0 (R463, R539). -/
def structPages (t : Nat) : Nat := if t = 0 then 4160 else 0
def tierDie (t : Nat) : Nat := if t < 8 then t / 4 else t - 8

/-- The tier a physical page lies on. -/
def pageTier (h : Bool) (page : Nat) : Option Nat :=
  match place h (page * 65536) with
  | .main t => some t
  | .near d => some (8 + d)
  | _ => none

/-- STATE of a tier: 0 untrained, 1 available, 2 evacuating, 3 training, 4 withdrawn (Table 07-15). -/
def State.tierState (s : State) (t : Nat) : Nat := wfield (s.preg (tierPage t) 0x100) 7 4
def State.setTierState (s : State) (t v : Nat) : State :=
  if s.tierState t = v then s else (s.putPreg (tierPage t) 0x100 7 4 v).irq (tierPage t) 1
def State.tierTemp (s : State) (t : Nat) : Nat := wfield (s.preg (tierPage t) 0x100) 31 24
/-- New pages may be placed: available and not within 5 °C of the throttle threshold of 90 °C (R233, Table 17-6). -/
def State.tierOpen (s : State) (t : Nat) : Bool := s.tierState t == 1 && decide (s.tierTemp t < 85)

def inTier (t page : Nat) : Bool := decide (tierBase t ≤ page) && decide (page < tierBase t + tierPages t)
def State.tierUsed (s : State) (t : Nat) : Nat := (s.usedPages.filter (inTier t)).length
/-- Pages that page tables lie in, two tables to a page (R221). -/
def State.tablePages (s : State) : List Nat := (s.tables.map (fun e => e.2 / 2)).eraseDups
/-- Pages of a tier that the module's own structures use (R224). -/
def State.ownPages (s : State) (t : Nat) : Nat := structPages t + (s.tablePages.filter (inTier t)).length
def State.tierFree (s : State) (t : Nat) : Nat := tierPages t - s.ownPages t - s.tierUsed t

def sumOver (ts : List Nat) (f : Nat → Nat) : Nat := ts.foldl (fun a t => a + f t) 0
/-- Tiers that are neither untrained nor withdrawn. -/
def State.liveTiers (s : State) : List Nat := (List.range 10).filter (fun t => s.tierState t != 0 && s.tierState t != 4)
def State.mainFree (s : State) : Nat := sumOver (s.liveTiers.filter (· < 8)) s.tierFree
def State.mainFreeDie (s : State) (d : Nat) : Nat := sumOver (s.liveTiers.filter (fun t => decide (t < 8) && t / 4 == d)) s.tierFree
def State.dramFree (s : State) : Nat := sumOver s.liveTiers s.tierFree

/-- MIGRATE_FREE_NEAR, MAIN and DEEP (R224, Table 07-26): main counts without the stack's worth of room that is kept free. -/
def State.showFree (s : State) : State :=
  let s := s.setPreg .migrate 0x130 (BitVec.ofNat 32 (sumOver (s.liveTiers.filter (8 ≤ ·)) s.tierFree))
  let s := s.setPreg .migrate 0x134 (BitVec.ofNat 32 (s.mainFree - 786432))
  s.setPreg .migrate 0x138 (BitVec.ofNat 32 (s.freeUnits / 16))

/-- A tier may take one page more: a page is free, R224's room stays, and the pages kept for demand promotions stay (R233). `need`: a demand
promotion or an evacuation, which may use that room. -/
def State.hasRoom (s : State) (need : Bool) (t : Nat) : Bool :=
  s.tierOpen t && decide (0 < s.tierFree t) &&
  (need || (decide (786432 < s.dramFree) &&
    (decide (8 ≤ t) || (decide (256 < s.mainFree) && decide (128 < s.mainFreeDie (t / 4))))))

/-- Stacks in the order of R233: stack n mod 8, or the stacks of the AFFINITY die, starting by n mod 4; the order beyond the first is the
model's (log 69). -/
def mainOrder (vp aff : Nat) : List Nat :=
  if aff = 0 then (List.range 8).map (fun i => (vp + i) % 8) else (List.range 4).map (fun i => 4 * (aff - 1) + (vp + i) % 4)

/-- Near-tier dies in the order of R233: `stack` holds the page's main-tier copy, none when it comes from the deep tier. -/
def nearOrder (vp aff : Nat) (stack : Option Nat) : List Nat :=
  if aff = 0 then
    let d := match stack with
      | some t => t / 4
      | none => vp % 8 / 4
    [8 + d, 9 - d]
  else [7 + aff]

/-- A free page of a tier; which one is not stated (log 69). -/
def State.freePageOf (s : State) (t : Nat) : Option Nat :=
  let own := s.tablePages
  (searchFrom (tierPages t) (fun i => decide (structPages t ≤ i) && !s.usedPages.contains (tierBase t + i) && !own.contains (tierBase t + i))
    (Config.freeNat s.freeCtr % tierPages t) (tierPages t)).map (tierBase t + ·)

/-- Take a page on the first tier of a list that has room. -/
def State.placeOn (s : State) (need : Bool) (ts : List Nat) : Option (State × Nat) :=
  (ts.find? (s.hasRoom need)).bind fun t =>
    (s.freePageOf t).map fun p => ({ s.useFree with usedPages := sinsert s.usedPages p }, p)

/-- Take a page of the park region. -/
def State.placeDeep (s : State) : Option (State × Nat) :=
  s.findParkPage.map fun p => ({ s.useFree with usedPages := sinsert s.usedPages p }, p)

/-! ### Contents of whole pages -/

def inPage (page a : Nat) : Bool := decide (page * 65536 ≤ a) && decide (a < page * 65536 + 65536)

/-- A page reads zero, without poison. -/
def State.clearPage (s : State) (page : Nat) : State :=
  { s with
    mem := s.mem.filter (fun c => !inPage page c.1)
    poison := s.poison.filter (fun l => !inPage page (l * 128)) }

/-- Copy a page; poison moves with its lines (R562). -/
def State.copyPage (s : State) (src dst : Nat) : State :=
  let cells := s.mem.filter (fun c => inPage src c.1)
  let bad := s.poison.filter (fun l => inPage src (l * 128))
  let s := s.clearPage dst
  { s with
    mem := cells.foldl (fun m c => putByte m (c.1 - src * 65536 + dst * 65536) c.2) s.mem
    poison := bad.foldl (fun m l => sinsert m (l - src * 512 + dst * 512)) s.poison }

/-! ### Leaves (R221, R222, R296) -/

/-- The virtual pages whose leaves name a page: job, virtual page. -/
def State.holders (s : State) (page : Nat) : List (Nat × Nat) :=
  (s.leaves.filter (fun e => e.2.page == page)).map (fun e => (e.1 / 2 ^ 36, e.1 % 2 ^ 36))

/-- A page has come to rest: every unit that waits on it goes on. -/
def State.landedAll (s : State) (hs : List (Nat × Nat)) : State := hs.foldl (fun s h => s.landed h.1 h.2) s

def isWeight (page : Nat) : Bool := decide (deepBase ≤ page * 65536) && !parkPage page

/-- The generation slot and part page of a page of the weight region: slot, part, index in the part. -/
def State.partOf (s : State) (page : Nat) : Option (Nat × Part × Nat) :=
  let slot := (page * 65536 - deepBase) / 0x004000000000
  let n := page - slotBase slot / 65536
  ((manParts (s.slotManifest slot)).find? (fun p => decide (p.first ≤ n) && decide (n < p.first + p.pages))).map
    (fun p => (slot, p, n - p.first))

/-- A page of the weight region may be promoted: not lost, read without error, and it checks against its tree (R291, R301). -/
def State.weightOk (s : State) (page : Nat) (ok : Bool) : Bool :=
  ok && !s.lostPages.contains page &&
  (match s.partOf page with
   | some (slot, p, i) => s.pageChecks slot p i
   | none => false)

/-- KEY of a weight record: ROLE and page of the part (Table 18-4). -/
def weightKey (role i : Nat) : Nat := role % 65536 * 2 ^ 48 + i % 2 ^ 32

/-- A record of the weight errors (Table 09-11). -/
def State.weightError (s : State) (code role i : Nat) : State := s.report .deep { code := 0xC000 + code, sev := 2, key := weightKey role i }

/-- Write a page of a slot: its bytes, the program counts, and what was lost there is found again (R270, R300). -/
def State.putSlotPage (s : State) (slot p : Nat) (bs : List Byte) : State :=
  let pa := slotPage slot p
  let s := (s.writePa pa (slice bs 0 65536)).flashProgram (pa - deepBase) 65536
  { s with lostPages := s.lostPages.filter (· != pa / 65536) }

/-- The same ROLE and page in the other slot: its page number, when the leaf digest stored there is equal and the page there verifies. -/
def State.twin (s : State) (slot : Nat) (p : Part) (i : Nat) : Option Nat :=
  let o := 1 - slot
  if ((mget s.genSlots o).getD {}).st != 2 then none
  else
    ((manParts (s.slotManifest o)).find? (fun x => x.role == p.role && decide (i < x.pages))).bind fun x =>
      let w := slotPage o (x.first + i) / 65536
      if s.storedLeaf o x i == s.storedLeaf slot p i && !s.lostPages.contains w && s.pageChecks o x i then some w else none

/-- A flash page met by a promotion or by staging gives an uncorrectable read (`ok` false: code 0x104) or fails its digest (0x201). It is repaired from the
other slot, when that has it; otherwise its repair is left to the sweep, which brings the slot's repair source (R279, R300; log 269). -/
def State.flashPageFails (s : State) (page : Nat) (ok : Bool) (job : Option Nat) : State :=
  match s.partOf page with
  | none => s.report .deep { code := 0xC104, sev := 2, key := page * 65536 - deepBase, job := job }
  | some (slot, p, i) =>
    if s.lostPages.contains page then s
    else
      let s := s.report .deep { code := if ok then 0xC201 else 0xC104, sev := 2, key := weightKey p.role i, job := job }
      match s.twin slot p i with
      | some t => ((s.flashRead (t * 65536 - deepBase) 65536).putSlotPage slot (p.first + i) (s.readPa (t * 65536) 65536)).weightError 0x202 p.role i
      | none => s

/-! ### Moving a page (R227–R230, R296) -/

/-- Counts of a completed move: by the tiers it left and reached, 0 near, 1 main, 2 deep. -/
def State.countMove (s : State) (a b : Nat) : State :=
  if b < a then s.count64 .migrate 0x110 0x114 1 else if a < b then s.count64 .migrate 0x118 0x11C 1 else s

/-- A swap has staged its new weights on a page, which no leaf need name yet (R303). -/
def State.stagedBy (s : State) (page : Nat) : Bool := s.swaps.any (fun x => x.pages.any (fun g => g.2.2 == page))

/-- Staged pages move with their contents; page 0: not staged any more. -/
def State.restage (s : State) (src dst : Nat) : State :=
  { s with swaps := s.swaps.map (fun (x : Swap) => { x with pages := x.pages.map (fun g => if g.2.2 == src then (g.1, g.2.1, dst) else g) }) }

/-- Free a DRAM page with its second copy, its weight-region address and what is known of its last clean check. -/
def State.releaseDram (s : State) (page : Nat) : State :=
  let s := match mget s.copies page with
    | some c => { s.dropPage c with homes := mdel s.homes c }
    | none => s
  { s.dropPage page with copies := mdel s.copies page, homes := mdel s.homes page, cleanAt := mdel s.cleanAt page }

/-- Passes committed at the last clean check of the page now on `dst`: the check of R291 on its way from flash, or the one it had (R301). -/
def State.carryClean (s : State) (src dst : Nat) : State :=
  { s with cleanAt := if isWeight src then mset s.cleanAt dst s.commits
      else match mget s.cleanAt src with
        | some n => mset s.cleanAt dst n
        | none => mdel s.cleanAt dst }

/-- Put what a leaf names onto page `dst`, taken for it, and rewrite its leaves. The controllers of both pages serve its bytes (R245, Table 07-12). -/
def State.shift (s : State) (l : Leaf) (dst : Nat) : State :=
  let src := l.page
  let ts := (tierOf s.isH (src * 65536)).getD 2
  let td := (tierOf s.isH (dst * 65536)).getD 2
  let s := ((((s.copyPage src dst).served (src * 65536) 65536).served (dst * 65536) 65536).carryClean src dst).restage src dst
  let keep := ts == 1 && td == 0 && !l.write
  let home := if isWeight src then some src else mget s.homes src
  let s := match home with
    | some w => { s with homes := mset s.homes dst w }
    | none => s
  let s := s.eachLeaf src (fun l => { l with page := dst, mstate := 0, copy := keep })
  let s := if keep then { s with copies := mset s.copies dst src }
    else if ts == 2 then (if isWeight src then s else s.dropPage src)
    else s.releaseDram src
  let s := if td == 2 then (s.flashProgram (dst * 65536 - deepBase) 65536).programOther 65536 else s
  (s.countMove ts td).showFree

/-- Demote without writing: a near copy whose main copy is kept, or a resident weight page back to its address (R230, R296). `none`: the page's
contents must be written. -/
def State.demoteFree (s : State) (l : Leaf) (dest : Nat) : Option State :=
  let src := l.page
  let ts := (tierOf s.isH (src * 65536)).getD 2
  if ts == 0 && dest == 1 then
    (mget s.copies src).map fun m =>
      let s := s.eachLeaf src (fun l => { l with page := m, mstate := 0, copy := false })
      (({ s.dropPage src with copies := mdel s.copies src, homes := mdel s.homes src }).countMove 0 1).showFree
  else if dest == 2 && !s.stagedBy src then
    (mget s.homes src).map fun w =>
      let s := s.eachLeaf src (fun l => { l with page := w, mstate := 0, copy := false })
      ((s.releaseDram src).countMove ts 2).showFree
  else none

/-! ### The engine's queue (R229–R233) -/

def moveRank : MoveKind → Nat
  | .demand => 0
  | .hint => 1
  | .mapPromote => 1
  | .evacuate => 2
  | .prefer => 3
  | .counter => 4

/-- Order in which movers take work: class, ascending deadline of hints, age (R232). -/
def Move.before (a b : Move) : Bool :=
  let x := moveRank a.kind
  let y := moveRank b.kind
  if x != y then decide (x < y) else if x == 1 && a.deadline != b.deadline then decide (a.deadline < b.deadline) else decide (a.age ≤ b.age)

def insertMove (m : Move) : List Move → List Move
  | [] => [m]
  | n :: ns => if m.before n && !n.before m then m :: n :: ns else n :: insertMove m ns

/-- The moves not started, in order. -/
def State.movesDue (s : State) : List Move := (s.moves.filter (fun m => !m.started)).foldl (fun acc m => insertMove m acc) []

/-- The stack of a page's main-tier copy. -/
def stackOf (h : Bool) (page : Nat) : Option Nat :=
  match place h (page * 65536) with
  | .main t => some t
  | _ => none

/-- A page may be written to the park region: it is writable, not too hot, and the budget is not exhausted (R231, R259, R261, R526). -/
def State.parkWritable (s : State) : Bool := s.deepState == 2 && !s.flashHot && decide (s.budgetReserve + 65536 ≤ s.level)

/-- Every leaf that names a page lets it lie in a tier (Table 07-3, R296). -/
def State.pageAllows (s : State) (page tier : Nat) : Bool := s.leaves.all (fun e => e.2.page != page || classAllows e.2.cls tier)

/-- Make room on a list of tiers by moving one page away that need not lie there: to the deep tier, from the near tier also to the main tier (R231, R233;
log 55). -/
def State.evictFrom (s : State) (ts : List Nat) : Option State :=
  let inTs := fun page => match pageTier s.isH page with
    | some t => ts.contains t
    | none => false
  (s.leaves.filter (fun e => inTs e.2.page && e.2.mstate == 0 && !s.stagedBy e.2.page && (s.pageAllows e.2.page 1 || s.pageAllows e.2.page 2))).findSome? (fun e =>
    let l := e.2
    let near := decide (l.page < 0xC0000) && s.pageAllows l.page 1
    match (if near then s.demoteFree l 1 else none) with
    | some s => some s
    | none =>
      match (if near then s.placeOn false (mainOrder (e.1 % 2 ^ 36) l.affinity) else none) with
      | some r => some (r.1.shift l r.2)
      | none =>
        if !s.pageAllows l.page 2 then none
        else match s.demoteFree l 2 with
          | some s => some s
          | none =>
            if s.parkWritable then s.placeDeep.map (fun r => r.1.shift l r.2)
            else none)

/-- Take a page on a list of tiers, after making room there if need be. -/
def State.placeEvict (s : State) (ts : List Nat) : Option (State × Nat) :=
  match s.placeOn false ts with
  | some r => some r
  | none => (s.evictFrom ts).bind (fun s => s.placeOn false ts)

/-- Take the destination page of a move. A demand promotion alone falls back to the other die (R233, R235); an evacuation may use the room of R224, and
does not go to the tier it leaves; a map's promotion makes room, and one of CLASS 0b01 may also go to the near tier (R223). -/
def State.placeMove (s : State) (m : Move) (l : Leaf) : Option (State × Nat) :=
  let near := nearOrder m.vpage l.affinity (stackOf s.isH l.page)
  let main := mainOrder m.vpage l.affinity
  let away := fun (ts : List Nat) => ts.filter (fun t => pageTier s.isH l.page != some t)
  match m.dest, m.kind with
  | 2, _ => if s.parkWritable then s.placeDeep else none
  | 1, .demand => s.placeOn true (main ++ mainOrder m.vpage 0)
  | 0, .demand => s.placeOn true near
  | 1, .evacuate => s.placeOn true (away main)
  | 0, .evacuate => s.placeOn true (away near)
  | 1, .mapPromote => (s.placeEvict main).orElse (fun _ => if l.cls = 1 then s.placeEvict near else none)
  | 0, .mapPromote => s.placeEvict near
  | 1, .counter => s.placeOn false (away main)
  | 1, _ => s.placeOn false main
  | _, _ => s.placeOn false near

/-- Moves in flight on a die. -/
def State.inFlight (s : State) (d : Nat) : Nat :=
  (s.moves.filter (fun m => m.started && dieOf s.isH (m.page * 65536) == d)).length

/-- The earliest staging descriptor that waits for the deep-tier controller, by R166's order. -/
def State.nextStage (s : State) : Option Stage := earliest (s.stages.filter (fun g => g.issued && !g.started))

/-- A demand promotion waits behind a staging descriptor with an earlier deadline (R235; at one deadline it goes first, log 265). -/
def State.demandWaits (s : State) (m : Move) : Bool :=
  m.kind == .demand && (match s.nextStage with
    | some g => g.deadline != 0 && decide (g.deadline < m.deadline)
    | none => false)

/-- Start a move: its destination page is taken and its leaves read MSTATE copying (R229). A page that needs no copying is demoted at once. `none`: it
cannot start now. -/
def State.startMove (s : State) (m : Move) : Option State :=
  match s.leafOf m.job m.vpage with
  | none => some { s with moves := s.moves.filter (fun x => !x.isOf m.job m.vpage) }
  | some l =>
    match s.demoteFree l m.dest with
    | some s => some ({ s with moves := s.moves.filter (fun x => !x.isOf m.job m.vpage) }).showMigrate
    | none =>
      if l.mstate != 0 || s.demandWaits m || (m.dest == 2 && s.stagedBy l.page) then none
      else (s.placeMove m l).bind fun r =>
        if 64 ≤ s.inFlight (dieOf s.isH (r.2 * 65536)) then none
        else
          let s := { r.1 with moves := r.1.moves.map (fun (x : Move) => if x.isOf m.job m.vpage then { x with started := true, page := r.2 } else x) }
          some (s.eachLeaf l.page (fun l => { l with mstate := 1 })).showMigrate

/-- A leaf lets its page lie on a tier: its CLASS and its AFFINITY (R223, R233). -/
def Leaf.allows (l : Leaf) (t : Nat) : Bool :=
  (l.cls == 0 || classAllows l.cls (if t < 8 then 1 else 0)) && (l.affinity == 0 || tierDie t == l.affinity - 1)

/-- A leaf's page is resident where its CLASS and AFFINITY permit; where no tier suits every leaf that names it, anywhere in the DRAM tiers (R223,
R296; log 266). -/
def State.settled (s : State) (l : Leaf) : Bool :=
  l.cls == 0 || (match pageTier s.isH l.page with
    | none => false
    | some t => l.allows t || !(List.range 10).any (fun u => s.leaves.all (fun e => e.2.page != l.page || e.2.allows u)))

/-- The promotion that a mapped page of a class other than 0b00 needs (R223). -/
def State.mapMove (s : State) (job vp : Nat) : State :=
  match s.leafOf job vp with
  | some l => if s.settled l then s else s.queueMove job vp .mapPromote (if l.cls = 2 then 0 else 1) (2 ^ 64)
  | none => s

/-- Pages [vp, vp + n) of a job that are mapped. -/
def State.mapped (s : State) (job vp n : Nat) : List Nat :=
  (s.leaves.filter (fun e => decide (vkey job vp ≤ e.1) && decide (e.1 < vkey job vp + n))).map (fun e => e.1 % 2 ^ 36)

/-- The pages of every map that waits are on their way. -/
def State.mapMoves (s : State) : State :=
  s.maps.foldl (fun s w => (s.mapped w.job w.vpage w.pages).foldl (fun s vp => s.mapMove w.job vp) s) s

/-- The prefer-near range of the manifest that a page of the weight region lies in (R232, Table 09-7). -/
def State.prefersNear (s : State) (l : Leaf) : Bool :=
  match (if isWeight l.page then some l.page else mget s.homes l.page) with
  | none => false
  | some w => match s.partOf w with
    | none => false
    | some (slot, p, i) => (manRanges (s.slotManifest slot)).any (fun r =>
        r.preferNear && r.kind != 3 && manPart (s.slotManifest slot) r.part == p && decide (r.partPage ≤ i) && decide (i < r.partPage + r.pages))

/-- Moves of the pages of prefer-near ranges, whenever the near tier has room (R232). -/
def State.preferMoves (s : State) : State :=
  if !([8, 9].any (s.hasRoom false)) then s
  else s.leaves.foldl (fun s e => if tierOf s.isH (e.2.page * 65536) != some 0 && s.prefersNear e.2 then
    s.queueMove (e.1 / 2 ^ 36) (e.1 % 2 ^ 36) .prefer 0 0 else s) s

/-- Insert a page by its access counter, the lowest first. -/
def State.insertCold (s : State) (k : Nat) : List Nat → List Nat
  | [] => [k]
  | x :: xs => if s.accessCount k < s.accessCount x then k :: x :: xs else x :: s.insertCold k xs

/-- The background demotions that keep 128 pages of the main tier free on a die, and so 256 in all (R233): the CLASS 0b00 pages of its stacks with the
lowest counters. Demotions under way count as free. -/
def State.keepFreeDie (s : State) (d : Nat) : State :=
  let onDie := fun (l : Leaf) => tierOf s.isH (l.page * 65536) == some 1 && dieOf s.isH (l.page * 65536) == d
  let going := (s.moves.filter (fun m => m.dest == 2 && (match s.leafOf m.job m.vpage with
    | some l => onDie l
    | none => false))).length
  let want := 128 - (s.mainFreeDie d + going)
  if want = 0 then s
  else
    let cold := (s.leaves.filter (fun e => e.2.cls == 0 && onDie e.2 && !s.moves.any (s.movesPage e.2.page))).foldl (fun acc e => s.insertCold e.1 acc) []
    (cold.take want).foldl (fun s k => s.queueMove (k / 2 ^ 36) (k % 2 ^ 36) .counter 2 0) s

def State.keepFree (s : State) : State := (s.keepFreeDie 0).keepFreeDie 1

/-- MIGRATION_MOVE_START (R229, R232, R233): the first move in order that can start, after those that maps, prefer-near ranges and the room kept free
call for have joined the queue. -/
def State.moveStart (s : State) : State :=
  let s := s.mapMoves.preferMoves.keepFree
  (s.movesDue.findSome? s.startMove).getD s

def execMigrationMoveStart (s : State) : Host.Outcome State Fault Refusal := .next s.moveStart

/-- The flash page of a promotion failed: its record and its repair, and the translation fault with code 0x006 of the unit that waits on it, unit 0 where none does
(R235, R301; log 70). -/
def State.promotionFails (s : State) (m : Move) (page : Nat) (ok : Bool) : State :=
  let s := s.abandonMove m
  let s := if isWeight page then s.flashPageFails page ok (some m.job)
    else s.report .deep { code := 0xC103, sev := 2, key := page * 65536 - deepBase, job := some m.job }
  let u : Nat × Nat := match s.parked.find? (fun x => (x.job == m.job && x.vpage == m.vpage) || (match s.leafOf x.job x.vpage with
      | some l => l.page == page
      | none => false)) with
    | some x => unitCode x.unit
    | none => (0, 0)
  s.transFault 6 m.job (m.vpage * 65536) u.1 u.2

/-- A started move completes: the page switches, its leaves name the destination, and every unit that waits goes on (R229, R235). `ok`: a deep source
was read without error. -/
def State.finishMove (s : State) (m : Move) (ok : Bool) : State :=
  match s.leafOf m.job m.vpage with
  | none => s.abandonMove m
  | some l =>
    let deep := tierOf s.isH (l.page * 65536) == some 2
    let s := if deep && s.deepReads then s.flashRead (l.page * 65536 - deepBase) 65536 else s
    if deep && !s.deepReads then s
    else if deep && (if isWeight l.page then !s.weightOk l.page ok else !ok) then s.promotionFails m l.page ok
    else
      let hs := s.holders l.page
      let s := { s with moves := s.moves.filter (fun x => !x.isOf m.job m.vpage) }
      ((s.shift l m.page).showMigrate).landedAll hs

/-- MIGRATION_MOVE_COMPLETE (R229). -/
def State.moveComplete (s : State) (job vp : Nat) (ok : Bool) : State :=
  match s.moves.find? (fun m => m.isOf job vp && m.started && m.kind != .demand) with
  | some m => s.finishMove m ok
  | none => s

def execMigrationMoveComplete (job vpage : Nat) (ok : Bool) (s : State) : Host.Outcome State Fault Refusal := .next (s.moveComplete job vpage ok)

/-- DEMAND_PROMOTION_COMPLETE (R235): a demand promotion lands; one that no mover had taken is started now if its turn in the deadline order has come. -/
def State.demandComplete (s : State) (job vp : Nat) (ok : Bool) : State :=
  let pick := fun (s : State) => s.moves.find? (fun m => m.isOf job vp && m.kind == .demand)
  match pick s with
  | none => s
  | some m =>
    if m.started then s.finishMove m ok
    else match (if s.movesDue.find? (fun x => x.kind == .demand && (s.startMove x).isSome) == some m then s.startMove m else none) with
      | none => s
      | some s => match pick s with
        | some m => s.finishMove m ok
        | none => s

def execDemandPromotionComplete (job vpage : Nat) (ok : Bool) (s : State) : Host.Outcome State Fault Refusal := .next (s.demandComplete job vpage ok)

/-- DEMAND_LATE (R235): a demand promotion has passed its deadline. -/
def execDemandLate (job vpage : Nat) (s : State) : Host.Outcome State Fault Refusal :=
  .next (if s.moves.any (fun m => m.isOf job vpage && m.kind == .demand && !m.late && decide (m.deadline < s.nowN)) then
    ({ s with moves := s.moves.map (fun (m : Move) => if m.isOf job vpage then { m with late := true } else m) }).irq .migrate 2
  else s)

/-! ### Counters (R231) -/

/-- The counter-driven moves that one page's counter calls for. -/
def State.decayPage (s : State) (k : Nat) (l : Leaf) : State :=
  let job := k / 2 ^ 36
  let vp := k % 2 ^ 36
  let tier := tierOf s.isH (l.page * 65536)
  let s := if l.cls == 0 && decide (s.accessCount k ≤ s.policy 23 16) then { s with ages := mset s.ages k ((mget s.ages k).getD 0 + 1) }
    else { s with ages := mdel s.ages k }
  let s := if s.nearCandidate k l then s.queueMove job vp .counter 0 0 else s
  let s := if l.cls == 0 && tier != some 2 && wbit (s.preg .migrate 0x100) 1 && decide (s.policy 15 8 ≤ (mget s.ages k).getD 0) then
      s.queueMove job vp .counter 2 0 else s
  let strayed := match pageTier s.isH l.page with
    | some t => l.affinity != 0 && tierDie t != l.affinity - 1
    | none => false
  if strayed && tier == some 1 then s.queueMove job vp .counter 1 0 else s

/-- DECAY_INTERVAL (R231): candidates are chosen and every counter is halved. -/
def State.decay (s : State) : State :=
  let s := (s.leaves.foldl (fun s e => s.decayPage e.1 e.2) s).keepFree
  { s with counters := (s.counters.map (fun e => (e.1, e.2 / 4096 / 2 * 4096 + e.2 % 4096))).filter (fun e => e.2 != 0) }

def execDecayInterval (s : State) : Host.Outcome State Fault Refusal := .next s.decay

/-! ### Mapping (R223–R225, R287) -/

/-- Place a new page of a class: near tier for CLASS 0b10, otherwise the main tier, then the near tier for CLASS 0b01 and 0b00, then the deep tier for
CLASS 0b00 (R223, R224, R233). -/
def State.placeNew (s : State) (vp cls aff : Nat) : Option (State × Nat) :=
  let near := nearOrder vp aff none
  let main := mainOrder vp aff
  let try_ := fun (ts : List Nat) => if cls = 0 then s.placeOn false ts else s.placeEvict ts
  match cls with
  | 2 => try_ near
  | 3 => try_ main
  | 1 => (try_ main).orElse (fun _ => try_ near)
  | _ => ((try_ main).orElse (fun _ => try_ near)).orElse fun _ =>
      if s.parkWritable then
        s.placeDeep.map (fun r => ((r.1.flashProgram (r.2 * 65536 - deepBase) 65536).programOther 65536, r.2))
      else none

/-- A table's place: the other half of a page that holds one, or a page of the main tier; a free value where no page is free, which the room of R224
rules out (log 165). -/
def State.tablePlace (s : State) : Nat :=
  match s.tables.find? (fun e => !s.tables.any (fun x => x.2 / 2 == e.2 / 2 && x.1 != e.1)) with
  | some e => if e.2 % 2 = 0 then e.2 + 1 else e.2 - 1
  | none => match (List.range 8).findSome? (fun t => if s.tierState t == 1 && 0 < s.tierFree t then s.freePageOf t else none) with
    | some p => 2 * p
    | none => Config.freeNat s.freeCtr

/-- A table exists, its entries never written reading 0. -/
def State.needTable (s : State) (k : Nat) : State :=
  if (mget s.tables k).isSome then s else { s.useFree with tables := mset s.tables k s.tablePlace }

/-- The three tables that serve a virtual page exist (R221). -/
def State.addTable (s : State) (job vp : Nat) : State :=
  ((s.needTable (level1Key job)).needTable (level2Key job vp)).needTable (level3Key job vp)

/-- A level-1 or level-2 entry (Table 07-2), and a leaf entry (Table 07-3). -/
def tableEntry (place : Option Nat) : Nat :=
  match place with
  | some f => 2 ^ 63 + f % 2 ^ 33 * 2 ^ 15
  | none => 0
def Leaf.entry (l : Leaf) : Nat :=
  2 ^ 63 + b2n l.write * 2 ^ 62 + l.cls % 4 * 2 ^ 60 + l.mstate % 4 * 2 ^ 58 + b2n l.copy * 2 ^ 57 + l.affinity % 4 * 2 ^ 54 + l.page % 2 ^ 32 * 2 ^ 16

/-- Entry `i` of a table, as it stands in main-tier memory (R221). -/
def State.entryOf (s : State) (k i : Nat) : Nat :=
  if 2 ^ 41 ≤ k then
    (match mget s.leaves ((k - 2 ^ 41) / 2 ^ 24 * 2 ^ 36 + (k - 2 ^ 41) % 2 ^ 24 * 4096 + i) with
     | some l => l.entry
     | none => 0)
  else if 2 ^ 40 ≤ k then
    tableEntry (mget s.tables (2 ^ 41 + (k - 2 ^ 40) / 2 ^ 12 * 2 ^ 24 + (k - 2 ^ 40) % 2 ^ 12 * 4096 + i))
  else tableEntry (mget s.tables (2 ^ 40 + k * 2 ^ 12 + i))

/-- The byte of a page table at a module physical address. -/
def State.tableByte (s : State) (a : Nat) : Option Byte :=
  (s.tables.find? (fun e => e.2 == a / 32768)).map fun e => BitVec.ofNat 8 (s.entryOf e.1 (a % 32768 / 8) / 2 ^ (8 * (a % 8)))

/-- Map `n` pages with a zero source from virtual page `vp`; none when one finds no room (R224). -/
def State.mapZero (s : State) (job : Nat) (write : Bool) (cls aff : Nat) : Nat → Nat → Option State
  | _, 0 => some s
  | vp, n + 1 =>
    (s.placeNew vp cls aff).bind fun r =>
      let s := ((r.1.clearPage r.2).served (r.2 * 65536) 65536).addTable job vp
      (s.setLeaf job vp { write := write, cls := cls, affinity := aff, page := r.2 }).mapZero job write cls aff (vp + 1) n

/-- Map `n` pages of the weight region: the resident copy where there is one (R296); a page of a class other than 0b00 is promoted to where its CLASS and
AFFINITY permit (R223). -/
def State.mapWeight (s : State) (job cls aff page : Nat) : Nat → Nat → State
  | _, 0 => s
  | vp, n + 1 =>
    let res := (s.homes.find? (fun h => h.2 == page && !(s.copies.any (fun c => c.2 == h.1)))).map (·.1)
    let p := res.getD page
    let s := (s.addTable job vp).setLeaf job vp { cls := cls, affinity := aff, page := p, copy := (mget s.copies p).isSome }
    let s := s.mapMove job vp
    s.mapWeight job cls aff (page + 1) (vp + 1) n

/-- Distinct pages mapped with a class that `p` selects. -/
def State.classPages (s : State) (p : Nat → Bool) : Nat :=
  ((s.leaves.filter (fun e => p e.2.cls)).map (·.2.page)).eraseDups.length

/-- R224: `n` pages more of a class fit the tiers, with the room of one stack and the module's own pages left. -/
def State.classFits (s : State) (cls n : Nat) : Bool :=
  let near := sumOver (s.liveTiers.filter (8 ≤ ·)) tierPages
  let all := sumOver s.liveTiers (fun t => tierPages t - s.ownPages t)
  cls == 0 ||
  (decide (s.classPages (fun c => c != 0) + n + 786432 ≤ all) && (cls != 2 || decide (s.classPages (fun c => c == 2) + n ≤ near)))

/-- The job an entry names: on the admin ring byte 2, on a client's ring the client's (Table 15-5). -/
def Entry.jobNum (e : Entry) : Nat := if e.isAdmin then e.f 2 1 % 8 else e.job

/-- A range of pages of an entry: offset of the first field that is not legal. -/
def rangeBad (e : Entry) : Option Nat :=
  if e.f 16 8 % 65536 != 0 || decide (2 ^ 52 < e.f 16 8 + e.f 24 4 * 65536) then some 16 else if e.f 24 4 = 0 then some 24 else none

/-- The first slot page of a weight range that a MAP names, or the offset of the field at fault. -/
def mapSource (j : Job) (e : Entry) : Except Nat Nat :=
  let i := e.f 32 4
  let m := j.manifest
  let r := manRange m i
  let p := manPart m r.part
  if secCount m 3 ≤ i then .error 32
  else if 3 ≤ r.kind || (p.kind == 1 && j.priv != some r.part) then .error 32
  else if r.pages < e.f 36 4 + e.f 24 4 then .error 36
  else .ok (p.first + r.partPage + e.f 36 4)

/-- MAP (R223, R224). -/
def State.map_ (s : State) (e : Entry) : State :=
  let n := e.jobNum
  match s.job n with
  | none => s.complete e stJob
  | some j =>
    let vp := e.f 16 8 / 65536
    let k := e.f 24 4
    let fl := e.f 28 1
    let write := bit fl 0
    let cls := field fl 2 1
    let aff := field fl 4 3
    let src := e.f 29 1
    let bad := (rangeBad e).orElse fun _ =>
      if fl / 32 != 0 || aff == 3 || (write && src == 1) then some 28
      else if 1 < src then some 29
      else reservedBad e.bytes [(30, 2), (40, 24)]
    match bad with
    | some o => s.complete e stInvalid o
    | none =>
      let wait : MapWait := ⟨e.ring, e.cookie, n, vp, k⟩
      if src = 1 then
        match mapSource j e with
        | .error o => s.complete e stInvalid o
        | .ok first =>
          if !(s.mapped n vp k).isEmpty then s.complete e stInvalid 16
          else if !s.classFits cls k then s.complete e stRoom
          else
            let t := s.mapWeight n cls aff (slotBase j.genSlot / 65536 + first) vp k
            { t with maps := t.maps ++ [wait] }.showFree
      else if !(s.mapped n vp k).isEmpty then s.complete e stInvalid 16
      else if !s.classFits cls k then s.complete e stRoom
      else match s.mapZero n write cls aff vp k with
        | none => s.complete e stRoom
        | some t => { t with maps := t.maps ++ [wait] }.showFree

/-- MAP (R223): the entry at the head of the ring whose turn it is. -/
def execMapPages (r : Ring) (s : State) : Host.Outcome State Fault Refusal := .next (s.onEntry r 0x10 State.map_)

/-- Every page of a map is where its CLASS and AFFINITY want it. -/
def State.mapReady (s : State) (w : MapWait) : Bool :=
  (s.mapped w.job w.vpage w.pages).all (fun vp => match s.leafOf w.job vp with
    | some l => s.settled l
    | none => true)

/-- MAP_COMPLETE (R223): the oldest map whose pages all read zero or are resident is completed. -/
def State.mapComplete (s : State) : State :=
  match s.maps.find? s.mapReady with
  | none => s
  | some w => ({ s with maps := s.maps.erase w }).completeLater w.ring 0x10 w.cookie stDone

def execMapComplete (s : State) : Host.Outcome State Fault Refusal := .next s.mapComplete

/-- A page that no leaf names and no swap has staged is free (R225, R296). -/
def State.freeIfUnused (s : State) (page : Nat) : State :=
  if !(s.holders page).isEmpty || isWeight page || s.stagedBy page then s
  else if parkPage page then s.dropPage page
  else s.releaseDram page

/-- A leaf goes: a move asked for through it is abandoned, or goes on through another leaf that names the page (R296, Table 09-12). -/
def State.leaveMove (s : State) (job vp : Nat) : State :=
  match s.moves.find? (fun m => m.isOf job vp), s.leafOf job vp with
  | some m, some l => match (s.holders l.page).find? (fun h => h != (job, vp)) with
    | some h => { s with moves := s.moves.map (fun (x : Move) => if x.isOf job vp then { x with job := h.1, vpage := h.2 } else x) }
    | none => s.abandonMove m
  | some m, none => s.abandonMove m
  | none, _ => s

/-- Unmap one page: its leaf is invalid, its pages are free, its moves are abandoned and the units that wait on it go on (R225, Table 07-8). -/
def State.unmapPage (s : State) (job vp : Nat) : State :=
  match s.leafOf job vp with
  | none => s
  | some l =>
    let s := s.leaveMove job vp
    let k := vkey job vp
    let s := { s with leaves := mdel s.leaves k, counters := mdel s.counters k, ages := mdel s.ages k, loaded := mdel s.loaded k }
    (s.freeIfUnused l.page).landed job vp

/-- UNMAP (R225). -/
def State.unmap (s : State) (e : Entry) : State :=
  let n := e.jobNum
  if (s.job n).isNone then s.complete e stJob
  else match (rangeBad e).orElse (fun _ => reservedBad e.bytes [(28, 36)]) with
    | some o => s.complete e stInvalid o
    | none =>
      let s := (s.mapped n (e.f 16 8 / 65536) (e.f 24 4)).foldl (fun s vp => s.unmapPage n vp) s
      s.showFree.complete e stDone

/-- UNMAP (R225). -/
def execUnmapPages (r : Ring) (s : State) : Host.Outcome State Fault Refusal := .next (s.onEntry r 0x11 State.unmap)

/-- MIGRATE_HINT (R232): moves of every page of the range that its CLASS lets go to the target. -/
def State.hint (s : State) (e : Entry) : State :=
  let n := e.jobNum
  if (s.job n).isNone then s.complete e stJob
  else
    let vp := e.f 16 8 / 65536
    let k := e.f 24 4
    let t := e.f 28 1
    let ms := s.mapped n vp k
    let bad := (rangeBad e).orElse fun _ =>
      if 2 < t then some 28
      else (reservedBad e.bytes [(29, 3), (40, 24)]).orElse fun _ =>
        if ms.length < k then some 16
        else if ms.any (fun v => match s.leafOf n v with
          | some l => !classAllows l.cls t
          | none => true) then some 28
        else none
    match bad with
    | some o => s.complete e stInvalid o
    | none => (ms.foldl (fun s v => s.queueMove n v .hint t (e.f 32 8)) s).complete e stDone

/-- MIGRATE_HINT (R232). -/
def execMigrateHint (r : Ring) (s : State) : Host.Outcome State Fault Refusal := .next (s.onEntry r 0x12 State.hint)

/-! ### Training and margin checks (R239–R242) -/

/-- A page leaves a tier that retrains: its move not yet started is dropped, it is demoted without copying where it can be, and otherwise queued to leave
(R242). -/
def State.evacuatePage (s : State) (t k : Nat) : State :=
  let job := k / 2 ^ 36
  let vp := k % 2 ^ 36
  match s.leafOf job vp with
  | none => s
  | some l =>
    if !inTier t l.page then s
    else
      let s := { s with moves := s.moves.filter (fun m => m.started || !s.movesPage l.page m) }
      match (if s.pageAllows l.page 1 && !s.moves.any (s.movesPage l.page) then s.demoteFree l 1 else none) with
      | some s => s
      | none => s.queueMove job vp .evacuate (if l.cls == 2 then 0 else 1) 0

/-- Begin a tier's retraining: evacuating, moves onto it abandoned, the copies it keeps of near pages dropped, pages staged there for a swap
to be staged anew, every other page queued to leave (R242). -/
def State.evacuate (s : State) (t : Nat) : State :=
  let s := s.setTierState t 2
  let s := (s.moves.filter (fun m => m.started && inTier t m.page)).foldl State.abandonMove s
  let s := (s.copies.filter (fun c => inTier t c.2)).foldl (fun s c =>
    { s.dropPage c.2 with copies := mdel s.copies c.1, homes := mdel s.homes c.2 }.eachLeaf c.1 (fun l => { l with copy := false })) s
  let s := ((s.swaps.flatMap (fun x => x.pages.map (·.2.2))).eraseDups.filter (fun p => inTier t p && (s.holders p).isEmpty)).foldl
    (fun s p => (s.restage p 0).releaseDram p) s
  (s.leaves.map (·.1)).foldl (fun s k => s.evacuatePage t k) s.showMigrate

/-- A retraining starts, or waits its turn while another tier retrains (R242). `withdraw`: a lane has failed with no spare left in its channel. -/
def State.retrain (s : State) (t : Nat) (withdraw : Bool) : State :=
  if 10 ≤ t || s.tierState t != 1 then s
  else
    let s := { s with trainQueue := if s.trainQueue.any (fun e => e.1 == t) then s.trainQueue else s.trainQueue ++ [(t, withdraw)] }
    if (List.range 10).any (fun x => s.tierState x == 2 || s.tierState x == 3) then s else s.evacuate t

/-- TIER_RETRAIN_REQ (R242): a write of RETRAIN = 1. -/
def execTierRetrainReq (tier : Nat) (s : State) : Host.Outcome State Fault Refusal := .next (s.retrain tier false)

/-- A write of MARGIN = 1: a check starts on an available tier. -/
def State.marginReq (s : State) (t : Nat) : State :=
  if t < 10 && s.tierState t == 1 then s.setPreg (tierPage t) 0x100 (wset (s.preg (tierPage t) 0x100) 0) else s

/-- TIER_MARGIN_REQ (R241). -/
def execTierMarginReq (tier : Nat) (s : State) : Host.Outcome State Fault Refusal := .next (s.marginReq tier)

/-- A calibration word: temperature, supply deviation in 0.1 %, load class (Table 07-16). -/
def calWord (temp volt load : Nat) : Word :=
  BitVec.ofNat 32 (temp % 256 * 2 ^ 24 + volt % 256 * 2 ^ 16 + load % 4 * 2 ^ 14 + 2 ^ 8)

/-- Conditions lie in the window of a record (R240). -/
def inWindow (cal : Word) (temp volt load : Nat) : Bool :=
  decide (temp ≤ wfield cal 31 24 + 8) && decide (wfield cal 31 24 ≤ temp + 8) &&
  decide ((signed 8 (volt % 256) - signed 8 (wfield cal 23 16)).natAbs ≤ 15) &&
  decide (load ≤ wfield cal 15 14 + 1) && decide (wfield cal 15 14 ≤ load + 1)

/-- MARGIN_CHECK (R241): the check of an available tier under the present conditions. One that passes stamps the record; one that fails, or finds a
lane failing, starts a retraining. `noSpare`: the failing lane's channel has no spare left. -/
def State.marginCheck (s : State) (t temp volt load : Nat) (pass noSpare : Bool) : State :=
  if 10 ≤ t || s.tierState t != 1 then s
  else
    let p := tierPage t
    let s := s.setPreg p 0x100 (wclear (s.preg p 0x100) 0)
    let s := if inWindow (s.preg p 0x104) temp volt load then s
      else (s.setPreg p 0x104 (wclear (s.preg p 0x104) 8)).irq p 3
    if pass then
      let w := calWord temp volt load
      { s.setPreg p 0x104 w with calStored := mset s.calStored t w }.fwCommit []
    else s.retrain t noSpare

def execMarginCheck (tier temp volt load : Nat) (pass noSpare : Bool) (s : State) : Host.Outcome State Fault Refusal :=
  .next (s.marginCheck tier temp volt load pass noSpare)

/-- The next tier that waits for a retraining starts it. -/
def State.nextTraining (s : State) : State :=
  match s.trainQueue with
  | (t, _) :: _ => if s.tierState t == 1 then s.evacuate t else s
  | [] => s

/-- TIER_TRAINING_COMPLETE (R239, R242): the tier is available again, its new record stored, `repaired` lanes on spares and `low` spares left in the
worst channel. -/
def State.trained (s : State) (t temp volt load repaired low : Nat) : State :=
  if 10 ≤ t || s.tierState t != 3 then s
  else
    let p := tierPage t
    let old := wfield (s.preg p 0x108) 15 8
    let w := calWord temp volt load
    let s := { s.setPreg p 0x104 w with calStored := mset s.calStored t w, trainQueue := s.trainQueue.filter (fun e => e.1 != t) }
    let s := s.setPreg p 0x108 (BitVec.ofNat 32 (repaired % 256 * 256 + low % 256))
    let s := if old < repaired % 256 then s.irq p 2 else s
    (((s.fwCommit []).setTierState t 1).showFree).nextTraining

def execTierTrainingComplete (tier temp volt load repaired low : Nat) (s : State) : Host.Outcome State Fault Refusal :=
  .next (s.trained tier temp volt load repaired low)

/-! ### The deep-tier controller's order (R166, R235) -/

/-- STAGING_DESCRIPTOR_START (R166): the controller starts the outstanding descriptor with the earliest deadline, unless a demand promotion that could
start comes before it, and reads its page; a unit recorded as free is not read (R255). -/
def State.stageStart (s : State) : State :=
  if !s.deepReads then s
  else match s.nextStage with
    | none => s
    | some g =>
      if s.movesDue.any (fun m => m.kind == .demand && (g.deadline == 0 || decide (m.deadline ≤ g.deadline)) && (s.startMove m).isSome) then s
      else
        let s := { s with stages := s.stages.map (fun (h : Stage) => if h.seq == g.seq && h.issued then { h with started := true } else h) }
        if (mget s.unitKeys (g.ref % 2 ^ 29)).isSome then s.flashRead (unitLa (g.ref % 2 ^ 29)) (4096 * g.width) else s

def execStagingDescriptorStart (s : State) : Host.Outcome State Fault Refusal := .next s.stageStart

end Sys2Proof.Machine
end

