-- ==== Sys2Proof/Machine/Park.lean ====
section
/-!
DEFINITION. Parking a stream: what is written, admission, the commit of the set, and what its end frees (R170, R252–R261, R334).
-/

namespace Sys2Proof.Machine

open Sys2Proof

/-- A stream lies in a pass of its job: executing, formed, or being formed with its bit sent. -/
def State.inAnyPass (s : State) (job n : Nat) : Bool :=
  match s.job job with
  | none => false
  | some j =>
    (match j.executing with
     | some p => p.streams.contains n
     | none => false) ||
    (match j.formed with
     | some p => p.streams.contains n
     | none => false) ||
    (match j.forming with
     | some f => f.eligible.contains n
     | none => false)

/-- Every page list of a stream: layers, then head groups. -/
def Job.lists (j : Job) (job n : Nat) : List ListKey :=
  (List.range j.layers).flatMap (fun l => (List.range j.hg).map (fun g => ⟨job, n, l, g⟩))

/-- The pages of a stream below its committed length, each with its entry and form. -/
def State.streamPages (s : State) (j : Job) (job n : Nat) (x : Stream) : List (ListKey × Nat × Nat × Bool) :=
  (j.lists job n).flatMap (fun k =>
    let kv8 := match s.readWord8 job (dirVa x j.hg k.layer k.group) with
      | .ok d => dirKv8 d
      | _ => false
    (List.range x.pages).map (fun p => (k, p, s.pte k x j.hg p, kv8)))

/-- What a park finds of one page (R256). -/
inductive ParkPage where
  | kept (ref pen : Nat)        -- FLASH = 1: not written again
  | full                        -- a full page to be written
  | tail                        -- a partial tail page to be written
  | packed (ref pen : Nat)      -- penumbra only, its record in a pack that stands
  | repack (pen : Nat)          -- penumbra only, its record to be put into a pack
  | lost                        -- penumbra only without a record
deriving DecidableEq, Repr

def State.readPen (s : State) (j : Job) (job pen : Nat) : List Byte :=
  match s.readVa job (j.penVa pen) 640 with
  | .ok r => r
  | _ => List.replicate 640 0

def State.parkPageOf (s : State) (j : Job) (x : Stream) (k : ListKey) (p e : Nat) : ParkPage :=
  let pen := ptePen e
  if pteFlash e then .kept ((mget x.refs (pagePlace k.layer k.group p)).getD (penRef (s.readPen j k.job pen))) pen
  else if pteState e == 1 then (if p < x.len / 16 then .full else .tail)
  else if pteState e == 3 && pen != 0 then
    let r := penRef (s.readPen j k.job pen)
    if s.isPack (r % 2 ^ 29) then .packed r pen else .repack pen
  else .lost

/-- BF16 means of 16 vectors: the exact sum, divided by 16, rounded once with subnormals kept (Table 05-8). -/
def penMeans (vs : List KvVec) : List Byte :=
  (List.range 128).flatMap (fun i => leBytes 2 (fmt16.round true ((Num.sum (vs.map (fun v => v.value i))).scale (-4))))

/-- A penumbra record with its CRC. -/
def penRecord (kmean vmean : List Byte) (ref : Nat) (k : ListKey) (kv8 : Bool) (p : Nat) : List Byte :=
  let r := slice kmean 0 256 ++ slice vmean 0 256 ++ leBytes 4 ref ++ leBytes 2 k.stream ++ leBytes 1 k.layer ++
    leBytes 1 (k.group + 16 * b2n kv8) ++ leBytes 2 p ++ List.replicate 114 0
  r ++ leBytes 4 (crc32c r)

/-- The bytes of a page's frames and sidecar, and its means; a page that cannot be read counts as lost (log 71). -/
def State.readKvPage (s : State) (j : Job) (job f : Nat) (kv8 : Bool) : Option (List Byte × List Byte × List Byte × List Byte) :=
  match s.readVa job (j.frameVa f) (if kv8 then 4096 else 2048), s.readVa job (j.sideVa f) 128,
      s.kvVecs j job kv8 f false 16, s.kvVecs j job kv8 f true 16 with
  | .ok a, .ok b, .ok ks, .ok vs => some (a, b, penMeans ks, penMeans vs)
  | _, _, _, _ => none

/-- Store bytes of a record in the arena. -/
def State.putPen (s : State) (j : Job) (job pen : Nat) (r : List Byte) : State :=
  match s.writeVa job (j.penVa pen) r with
  | .ok s => s
  | _ => s

/-- Take a penumbra record of a job. -/
def State.takePen (s : State) (job : Nat) : State × Nat :=
  match (s.job job).bind (fun j => j.findPen (Config.freeNat s.freeCtr)) with
  | some p => (s.useFree.modArena job (fun a => { a with usedPen := sinsert a.usedPen p }), p)
  | none => (s, 0)

/-- A park in the making: the plan's pages so far and the records waiting for a pack. -/
structure Parker where
  s : State
  pages : List (Nat × Nat × Nat × Nat) := []
  recs : List (Nat × Nat × List Byte) := []     -- place, penumbra record, its 640 bytes
  short : Bool := false                         -- a unit or a pair of units to be written found no place

/-- Program one unit (or pair) for a full or tail page, with its arena record (R254, R256, R170); none: no free unit, or no two in a row. -/
def State.parkUnit (s : State) (j : Job) (k : ListKey) (p key : Nat) (kv8 tail : Bool) (fill : Nat)
    (d : List Byte × List Byte × List Byte × List Byte) : Option (State × Nat × Nat) :=
    (s.findUnits (if kv8 then 2 else 1)).map fun i =>
      let r := s.useFree.takePen k.job
      let zeros := List.replicate 256 0
      let rec_ := penRecord (if tail then zeros else d.2.2.1) (if tail then zeros else d.2.2.2) i k kv8 p
      let body := d.1 ++ d.2.1 ++ (if tail then List.replicate 640 0 else rec_)
      let h := unitHeader (if tail then 3 else if kv8 then 2 else 1) (if tail then fill else 16) (some k) kv8 p key r.1.writeSeq
      ((r.1.putUnit i key (unitBytes body h)).putPen j k.job r.2 rec_, i, r.2)

/-- A page of the set record: its place, kind, unit and arena record. -/
def Parker.add (a : Parker) (k : ListKey) (p kind ref pen : Nat) : Parker :=
  { a with pages := a.pages ++ [(pagePlace k.layer k.group p, kind, ref, pen)] }

/-- A page written as a unit of its own, or lost where its lines cannot be read. -/
def Parker.unit (a : Parker) (j : Job) (x : Stream) (key : Nat) (tail : Bool) (g : ListKey × Nat × Nat × Bool) : Parker :=
  match a.s.readKvPage j g.1.job (pteFrame g.2.2.1) g.2.2.2 with
  | none => a.add g.1 g.2.1 4 0 0
  | some d => match a.s.parkUnit j g.1 g.2.1 key g.2.2.2 tail (x.len % 16) d with
    | some r => Parker.add { a with s := r.1 } g.1 g.2.1 1 r.2.1 r.2.2
    | none => { a with short := true }

/-- One page of a park. -/
def Parker.page (a : Parker) (j : Job) (x : Stream) (key : Nat) (full : Bool) (g : ListKey × Nat × Nat × Bool) : Parker :=
  match a.s.parkPageOf j x g.1 g.2.1 g.2.2.1 with
  | .kept ref pen => a.add g.1 g.2.1 0 ref pen
  | .tail => a.unit j x key true g
  | .full =>
    if full then a.unit j x key false g
    else match a.s.readKvPage j g.1.job (pteFrame g.2.2.1) g.2.2.2 with
      | some d =>
        let r := a.s.takePen g.1.job
        { a with s := r.1, recs := a.recs ++ [(pagePlace g.1.layer g.1.group g.2.1, r.2, penRecord d.2.2.1 d.2.2.2 0 g.1 g.2.2.2 g.2.1)] }
      | none => a.add g.1 g.2.1 4 0 0
  | .packed ref pen => a.add g.1 g.2.1 3 ref pen
  | .repack pen => { a with recs := a.recs ++ [(pagePlace g.1.layer g.1.group g.2.1, pen, a.s.readPen j g.1.job pen)] }
  | .lost => a.add g.1 g.2.1 4 0 0

/-- A penumbra record with another DEEP_REF. -/
def penWithRef (r : List Byte) (ref : Nat) : List Byte :=
  let b := putBytes (slice r 0 636) 512 (leBytes 4 ref)
  b ++ leBytes 4 (crc32c b)

/-- Program one pack of up to six records, each naming its slot (R252, Table 08-2). -/
def Parker.pack (a : Parker) (j : Job) (job key : Nat) (rs : List (Nat × Nat × List Byte)) : Parker :=
  match a.s.findUnits 1 with
  | none => { a with short := true }
  | some i =>
    let xs := (rs.zipIdx).map (fun r => (r.1.1, r.1.2.1, i + r.2 * 2 ^ 29, penWithRef r.1.2.2 (i + r.2 * 2 ^ 29)))
    let body := xs.flatMap (fun x => x.2.2.2)
    let h := unitHeader 4 rs.length none false 0 key a.s.writeSeq
    let s := a.s.useFree.putUnit i key (unitBytes (body ++ List.replicate (3840 - body.length) 0) h)
    let s := xs.foldl (fun s x => s.putPen j job x.2.1 x.2.2.2) s
    { a with s := s, pages := a.pages ++ xs.map (fun x => (x.1, 2, x.2.2.1, x.2.1)) }

/-- Units of the full mode, units of the penumbra mode, new records of a park. -/
def parkCounts (ps : List (ParkPage × Bool)) : Nat × Nat × Nat :=
  let w := fun (kv8 : Bool) => if kv8 then 2 else 1
  let fulls := ps.filter (fun x => x.1 == .full)
  let tails := ps.filter (fun x => x.1 == .tail)
  let re := (ps.filter (fun x => match x.1 with
    | .repack _ => true
    | _ => false)).length
  let sumW := fun (xs : List (ParkPage × Bool)) => xs.foldl (fun n x => n + w x.2) 0
  (sumW fulls + sumW tails + ceilDiv re 6, sumW tails + ceilDiv (fulls.length + re) 6, fulls.length + tails.length)

/-- The park ends with nothing written: the stream is active again (R256, R334). -/
def State.notParked (s : State) (n : Nat) (x : Stream) : State :=
  let s := s.count .deep 0x160 1
  let s := s.setStream n { x.put 0 1 (if x.close.isSome then 5 else 1) with op := none }
  match x.op with
  | some (r, cookie, op) => s.completeLater r op cookie stNotParked
  | none => s

/-- Sets with a new key that parks under way will commit (R257). -/
def State.newSets (s : State) : Nat :=
  (((s.streams.filter (fun e => e.2.plan.isSome && (mget s.sets e.2.key).isNone)).map (fun e => e.2.key)).eraseDups).length

/-- The units and packs of an admitted park (R256). -/
def State.parkPlan (s : State) (j : Job) (x : Stream) (full : Bool) (ps : List (ListKey × Nat × Nat × Bool)) : Parker :=
  let a0 : Parker := { s := s }
  let a := ps.foldl (fun (a : Parker) g => a.page j x x.key full g) a0
  (chunks 6 (a.recs.length / 6 + 1) a.recs).foldl (fun (a : Parker) rs => if rs.isEmpty then a else a.pack j x.job x.key rs) a

/-- PARK_WRITE (R256, R259): a parking stream in no pass is admitted and its units and packs are written, or it is not parked. A park whose
units the free ones cannot hold as they lie, two in a row for a page of 8-bit form, is not parked either (log 68). -/
def State.parkWrite (s : State) (n : Nat) : State :=
  match s.stream n with
  | none => s
  | some x =>
    match s.job x.job with
    | none => s
    | some j =>
      if x.st != 2 || x.plan.isSome || s.inAnyPass x.job n || s.flashHot then s
      else
        let ps := s.streamPages j x.job n x
        let c := parkCounts (ps.map (fun g => (s.parkPageOf j x g.1 g.2.1 g.2.2.1, g.2.2.2)))
        let room := (decide (s.sets.length + s.newSets < 262144) || (mget s.sets x.key).isSome) &&
          decide (c.2.2 + j.arena.usedPen.length < j.penRecords) && decide (c.1 ≤ s.freeUnits)
        let f := c.1 * 4096
        let p := c.2.1 * 4096
        let full := decide (s.level - f ≥ s.budgetReserve)
        if !room || s.deepState != 2 || (!full && decide (s.level - p < 0)) then s.notParked n x
        else
          let t := s.setLevel (s.level - (if full then f else p))
          let a := (if full then t else t.count .deep 0x15C 1).parkPlan j x full ps
          if a.short then s.notParked n x
          else (a.s.modStream n (fun x => { x with plan := some { mode := if full then 1 else 2, pages := a.pages } })).showFree

def execParkWrite (stream : Nat) (s : State) : Host.Outcome State Fault Refusal := .next (s.parkWrite stream)

/-! ### The commit of the set (R256, R257, R334) -/

/-- Table 08-4. -/
def setRecord (key tag len layers hg mode full pen time units lost : Nat) : List Byte :=
  let r := leBytes 8 key ++ leBytes 8 tag ++ leBytes 4 len ++ leBytes 2 layers ++ leBytes 1 hg ++ leBytes 1 mode ++ leBytes 4 full ++
    leBytes 4 pen ++ leBytes 8 time ++ leBytes 4 units ++ leBytes 4 lost ++ List.replicate 12 0
  r ++ leBytes 4 (crc32c r)

/-- DEEP_PARK_SETS. -/
def State.showSets (s : State) : State := s.setPreg .deep 0x114 (BitVec.ofNat 32 s.sets.length)

/-- Commit a set, replacing one of its key, and free the units that nothing names any more (R257). -/
def State.commitSet (s : State) (key : Nat) (x : ParkSet) : State := ({ s with sets := mset s.sets key x }).sweepUnits.showSets

/-- Remove a set. -/
def State.deleteSet (s : State) (key : Nat) : State := ({ s with sets := mdel s.sets key }).sweepUnits.showSets

/-- The list position and page of a place. -/
def placeKey (job n loc : Nat) : ListKey × Nat := (⟨job, n, loc / 4096 / 16, loc / 4096 % 16⟩, loc % 4096)

/-- Frames that a stream's entries hold, each with its width, beyond `from_` pages of each list. -/
def State.streamFrames (s : State) (j : Job) (job n : Nat) (x : Stream) : List (ListKey × Nat × Nat × Nat) :=
  (j.lists job n).flatMap (fun k =>
    let w := match s.readWord8 job (dirVa x j.hg k.layer k.group) with
      | .ok d => if dirKv8 d then 2 else 1
      | _ => 1
    ((List.range (min 4096 x.maxPages)).filter (fun p => pteState (s.pte k x j.hg p) == 1)).map (fun p =>
      (k, p, pteFrame (s.pte k x j.hg p), w)))

/-- Every frame of a stream is freed; `v` gives the entry that replaces a resident one. -/
def State.freeFrames (s : State) (j : Job) (job n : Nat) (x : Stream) (v : ListKey → Nat → Nat) : State :=
  (s.streamFrames j job n x).foldl (fun s f =>
    (s.setPte f.1 x j.hg f.2.1 (v f.1 f.2.1)).modArena job (·.drop f.2.2.1 f.2.2.2)) s

/-- Penumbra records that a stream's entries below its length name. -/
def State.streamPens (s : State) (j : Job) (job n : Nat) (x : Stream) : List Nat :=
  ((s.streamPages j job n x).map (fun g => ptePen g.2.2.1)).filter (· != 0)

/-- A stream becomes free: its frames, records, descriptors and references end (R174, R334, R336). -/
def State.freeStream (s : State) (n : Nat) : State :=
  match s.stream n with
  | none => s
  | some x =>
    let s := match s.job x.job with
      | none => s
      | some j =>
        let pens := s.streamPens j x.job n x ++ x.freePen
        let s := s.freeFrames j x.job n x (fun _ _ => 0)
        (s.modArena x.job (fun (a : Arena) => (pens.foldl (fun (a : Arena) p => a.dropPen p) a).unreserve n))
    let s := (s.modJob x.job (fun j => { j with waits := mdel j.waits n })).labDropStream x.job n
    let s := { s with
      streams := mdel s.streams n
      stages := (s.stages.filter (fun (g : Stage) => g.key.stream != n || g.issued)).map (fun (g : Stage) =>
        if g.key.stream == n then { g with dropped := true } else g) }
    s.sweepUnits.issueStages

/-- PARK_COMPLETE (R256 steps 3 to 5, R334): the set commits, the entries change state, the frames are freed and PARKED is posted. -/
def State.parkComplete (s : State) (n : Nat) : State :=
  match s.stream n with
  | none => s
  | some x =>
    match x.plan, s.job x.job with
    | some pl, some j =>
      let job := x.job
      let kind := fun (k : Nat) => (pl.pages.filter (fun g => g.2.1 == k)).length
      let full := kind 0 + kind 1
      let pen := kind 2 + kind 3
      let firsts := (pl.pages.filter (fun g => g.2.1 != 4)).map (fun g => g.2.2.1 % 2 ^ 29)
      let units := firsts.foldl (fun us u => if s.secondUnit (u + 1) then sinsert (sinsert us u) (u + 1) else sinsert us u) []
      let rec_ := setRecord x.key (manTag j.manifest) x.len j.layers j.hg pl.mode full pen (s.ptpTime.getD 0) units.length (kind 4)
      let set : ParkSet := {
        record := rec_
        pages := pl.pages.foldl (fun m g => mset m g.1 (if g.2.1 ≤ 1 then 0 else if g.2.1 ≤ 3 then 1 else 2, g.2.2.1)) []
        units := units }
      let place := fun (k : ListKey) (p : Nat) => mget (pl.pages.map (fun g => (g.1, g.2))) (pagePlace k.layer k.group p)
      let entry := fun (k : ListKey) (p : Nat) => match place k p with
        | some (kd, _, pn) => if kd ≤ 1 then pteMake 2 true pn 0 else pteMake 3 false pn 0
        | none => 0
      let s := s.freeFrames j job n x entry
      let refs : List (Nat × Nat) := (pl.pages.filter (fun g => decide (g.2.1 ≤ 1))).foldl (fun m g => mset m g.1 g.2.2.1) []
      let x' : Stream := { x.put 104 4 (pen + kind 4) with plan := none, op := none, woken := false, refs := refs }
      let x' := (x'.put 0 1 (if x.close.isSome then 5 else 3)).put 3 1 (Nat.lor (x.u 3 1) (b2n (decide (0 < pen + kind 4))))
      let s := (s.setStream n x').commitSet x.key set
      let s := match x.op with
        | some (r, cookie, op) => s.completeLater r op cookie stParked (leBytes 1 pl.mode ++ leBytes 3 0 ++ leBytes 4 full ++ leBytes 4 pen)
        | none => s
      let s := if x.release && x.close.isNone && x.out.isEmpty then s.freeStream n else s
      s.issueStages.showFree
    | _, _ => s

def execParkComplete (stream : Nat) (s : State) : Host.Outcome State Fault Refusal := .next (s.parkComplete stream)

end Sys2Proof.Machine
end

