-- ==== Sys2Proof/Machine/Streams.lean ====
section
/-!
DEFINITION. The stream table and the media paths: open, park, resume, close, ingress, egress, pre-staging (R326–R348).
-/

namespace Sys2Proof.Machine

open Sys2Proof

/-! ### Descriptor fields (Table 10-6) -/

def Stream.port (x : Stream) : Nat := b2n (x.flag 4)
def Stream.inFmt (x : Stream) : Nat := x.u 72 1 % 16
def Stream.inCh (x : Stream) : Nat := x.u 72 1 / 16
def Stream.outFmt (x : Stream) : Nat := x.u 73 1 % 16
def Stream.outCh (x : Stream) : Nat := x.u 73 1 / 16
def Stream.inSamples (x : Stream) : Nat := x.u 76 2
def Stream.outSamples (x : Stream) : Nat := x.u 78 2
def Stream.inCount (x : Stream) : Nat := 2 ^ (x.u 75 1 % 16)
def Stream.outCount (x : Stream) : Nat := 2 ^ (x.u 75 1 / 16)
def Stream.inBase (x : Stream) : Nat := x.u 56 8
def Stream.outBase (x : Stream) : Nat := x.u 64 8
/-- Stride of an ingress slot (R338) and of an egress slot (R341). -/
def Stream.inStride (x : Stream) : Nat := round128 (64 + 4 * x.inSamples * x.inCh)
def Stream.outBytes (x : Stream) : Nat := x.outSamples * x.outCh * audioBytes x.outFmt
def Stream.outStride (x : Stream) : Nat := round128 (32 + x.outBytes)
/-- Ticks per sample of a rate code (R327). -/
def rateTicks (r : Nat) : Nat :=
  match r with
  | 1 => 3072
  | 2 => 1536
  | 3 => 1024
  | 4 => 768
  | 5 => 512
  | _ => 0
/-- The legal frame durations in ct (R327). -/
def frameCts : List Nat := [61440, 122880, 245760, 491520, 983040, 1474560]

/-- Bytes of headers before the audio of a datagram: IPv4 for a mapped address, IPv6 otherwise. -/
def Stream.headBytes (x : Stream) : Nat :=
  if x.u 80 8 = 0 && x.u 88 2 = 0 && x.u 90 2 = 0xFFFF then 20 + 8 + 32 else 40 + 8 + 32

/-- A half of IN_FMT or OUT_FMT with its rate: a legal format, 1 or 2 channels, G.711 at 8 kHz alone. -/
def fmtOk (b : Nat) : Bool := decide (1 ≤ b % 16) && decide (b % 16 ≤ 5) && decide (1 ≤ b / 16) && decide (b / 16 ≤ 2)
def rateOk (b r : Nat) : Bool := decide (1 ≤ r) && decide (r ≤ 5) && (decide (b % 16 < 4) || r == 1)

/-- ADAPTER names a valid record (R297, R332). -/
def adapterOk (m : List Byte) (a : Nat) : Bool := a == 0 || (decide (a < manAdapters m) && bit (getLE m (secOff m 6 + 16 * a) 1) 0)

/-- The first field of an open descriptor outside Table 10-6 and R327. -/
def openBad (m : List Byte) (mtu : Nat) (x : Stream) : Option Nat :=
  firstFail
    [ (0, x.u 0 1 == 0), (1, x.u 1 1 == 0), (2, x.u 2 1 == 0), (3, !x.flag 0 && x.u 3 1 / 32 == 0), (4, x.u 4 4 == 0),
      (8, x.dir % 128 == 0 && decide (x.dir < 2 ^ 52)), (16, x.u 16 2 / 4096 == 0 && adapterOk m x.adapter),
      (18, decide (1 ≤ x.maxPages) && decide (x.maxPages ≤ 4096)), (20, x.u 20 4 == 0),
      (32, decide (24576 ≤ x.lead) && decide (x.lead ≤ 4915200)), (56, x.inBase % 128 == 0), (64, x.outBase % 128 == 0),
      (72, fmtOk (x.u 72 1)), (73, fmtOk (x.u 73 1)),
      (74, rateOk (x.u 72 1) (x.u 74 1 % 16) && rateOk (x.u 73 1) (x.u 74 1 / 16)),
      (75, decide (1 ≤ x.u 75 1 % 16) && decide (x.u 75 1 % 16 ≤ 6) && decide (1 ≤ x.u 75 1 / 16) && decide (x.u 75 1 / 16 ≤ 3)),
      (76, frameCts.contains (x.inSamples * rateTicks (x.u 74 1 % 16)) &&
        decide (x.headBytes + x.inSamples * x.inCh * audioBytes x.inFmt ≤ mtu)),
      (78, frameCts.contains (x.outSamples * rateTicks (x.u 74 1 / 16)) && decide (x.headBytes + x.outBytes ≤ mtu) &&
        x.outSamples * rateTicks (x.u 74 1 / 16) == x.inSamples * rateTicks (x.u 74 1 % 16)),
      (98, decide (x.u 98 1 < 8)), (99, decide (x.u 99 1 < 64)), (104, x.u 104 4 == 0), (108, x.u 108 4 == 0),
      (112, x.u 112 8 == 0), (120, x.u 120 8 == 0) ]

/-- Every page of a range is mapped with a CLASS other than 0b00, and writable where asked (R332). -/
def State.firmRange (s : State) (job va n : Nat) (write : Bool) : Bool :=
  decide (va + n ≤ 2 ^ 52) && (List.range ((va + n - 1) / 65536 + 1 - va / 65536)).all (fun i =>
    match s.leafOf job (va / 65536 + i) with
    | some l => l.cls != 0 && (!write || l.write)
    | none => false)

/-! ### Tails and pre-staging (R332–R335, R344) -/

/-- A stream of the state's stream table is at its last page partly filled: the tail. -/
def Stream.tailPage (x : Stream) : Option Nat := if x.len % 16 = 0 then none else some (x.len / 16)

/-- Whether a list's pages are KV8. -/
def State.kv8Of (s : State) (k : ListKey) (x : Stream) (hg : Nat) : Bool :=
  match s.readWord8 k.job (dirVa x hg k.layer k.group) with
  | .ok d => dirKv8 d
  | _ => false

/-- Frames of a job that are neither used nor awaited by a descriptor. -/
def State.spareFrames (s : State) (n : Nat) (j : Job) : Nat :=
  j.frames - j.arena.used.length - ((s.stages.filter (fun g => !g.issued && g.key.job == n)).map Stage.width).sum

/-- Issue a descriptor with ORIGIN 1 for one page if it is deep; it waits for credits and frames (R165, R333), but none is issued that would bring the
job's free frames below `floor` (R344). Which bay is charged with it is not stated (log 92). -/
def State.preStage (s : State) (n p deadline floor : Nat) (k : ListKey) : State :=
  match s.stream n, s.job k.job with
  | some x, some j =>
    let e := s.pte k x j.hg p
    let kv8 := s.kv8Of k x j.hg
    if pteState e != 2 || (s.stageOf k p).isSome || (floor != 0 && decide (s.spareFrames k.job j < floor + (if kv8 then 2 else 1))) then s
    else match s.askStage (Config.freeNat s.freeCtr % 16) k x j p (ptePen e) kv8 deadline 1 with
      | .ok r => r.1.useFree
      | .bad c job va => s.transFault c job va 3 0
      | _ => s
  | _, _ => s

/-- Descriptors for the pages [lo, hi) of every list: descending page, then ascending layer and head group (R333). -/
def State.preStageRange (s : State) (n lo hi deadline floor : Nat) : State :=
  match s.stream n with
  | none => s
  | some x => match s.job x.job with
    | none => s
    | some j =>
      (List.range (hi - lo)).reverse.foldl (fun s i => (j.lists x.job n).foldl (fun s k => s.preStage n (lo + i) deadline floor k) s) s

/-- The tail pages that are still deep. -/
def State.deepTails (s : State) (n : Nat) : List ListKey :=
  match s.stream n with
  | none => []
  | some x => match s.job x.job, x.tailPage with
    | some j, some p => (j.lists x.job n).filter (fun k => pteState (s.pte k x j.hg p) == 2)
    | _, _ => []

/-- Frames that the deep tail pages of a stream need. -/
def State.tailFrames (s : State) (n : Nat) (x : Stream) (j : Job) : Nat :=
  ((s.deepTails n).map (fun k => if s.kv8Of k x j.hg then 2 else 1)).foldl (· + ·) 0

/-- A stream becomes resuming: its tail pages are staged (R332, R335). -/
def State.stageTails (s : State) (n : Nat) : State :=
  match s.stream n with
  | none => s
  | some x => match x.tailPage with
    | none => s
    | some p => s.preStageRange n p (p + 1) (x.nextOut - x.lead) 0

/-- STREAM_ACTIVATION (R332, R333, R335): no tail page is deep any more; one that is deep with no descriptor out is asked for again. -/
def State.activate (s : State) (n : Nat) : State :=
  match s.stream n with
  | none => s
  | some x =>
    if x.st != 4 then s
    else if !(s.deepTails n).isEmpty then s.stageTails n
    else
      let s := s.setStream n { x.put 0 1 1 with op := none, woken := false }
      let s := s.preStageRange n 0 (x.len / 16) (x.nextOut - x.lead) 0
      match x.op with
      | some (r, cookie, op) => s.completeLater r op cookie (if op = 0x30 then stOpened else stResumed)
      | none => s

def execStreamActivation (stream : Nat) (s : State) : Host.Outcome State Fault Refusal := .next (s.activate stream)

/-! ### OPEN (R332) -/

/-- The record that a page of a set keeps: the arena record loaded from its park unit, or none when it fails its CRC. -/
def State.setPageRecord (s : State) (x : ParkSet) (k : ListKey) (p : Nat) (kv8 : Bool) (kind ref len : Nat) : Option (List Byte) :=
  let i := ref % 2 ^ 29
  let w := if kv8 then 2 else 1
  if kind = 1 then
    let r := slice (s.readPa (unitPa i) 4096) (ref / 2 ^ 29 * 640) 640
    if penOk r then some (penWithRef r ref) else none
  else if p < len / 16 then
    let r := slice (s.readPa (unitPa i) (4096 * w)) (2048 * w + 128) 640
    if penOk r then some (penWithRef r ref) else none
  else if x.units.contains i then some (penRecord (List.replicate 256 0) (List.replicate 256 0) ref k kv8 p)
  else none

/-- Install one page of a set in a stream's lists. -/
def State.openPage (s : State) (n : Nat) (set : ParkSet) (g : Nat × Nat × Nat) : State :=
  match s.stream n with
  | none => s
  | some x => match s.job x.job with
    | none => s
    | some j =>
      let kp := placeKey x.job n g.1
      let kv8 := s.kv8Of kp.1 x j.hg
      let s := if g.2.1 = 2 then s else s.flashRead (unitLa (g.2.2 % 2 ^ 29)) 4096
      match (if g.2.1 = 2 then none else s.setPageRecord set kp.1 kp.2 kv8 g.2.1 g.2.2 x.len) with
      | none =>
        let s := s.setPte kp.1 x j.hg kp.2 (pteMake 3 false 0 0)
        if g.2.1 = 2 then s
        else ((s.degrade n).modStream n (fun x => x.put 104 4 (x.u 104 4 + (if g.2.1 = 0 then 1 else 0)))).storedState 0x109 kp.1 []
      | some r =>
        let t := s.takePen x.job
        let s := t.1.putPen j x.job t.2 r
        if g.2.1 = 0 then
          (s.setPte kp.1 x j.hg kp.2 (pteMake 2 true t.2 0)).modStream n (fun x => { x with refs := mset x.refs g.1 g.2.2 })
        else s.setPte kp.1 x j.hg kp.2 (pteMake 3 false t.2 0)

/-- Frames that the tail pages of a set need on opening. -/
def State.openFrames (s : State) (n : Nat) (x : Stream) (j : Job) : Nat :=
  if x.len % 16 = 0 then 0
  else ((j.lists x.job n).map (fun k => if s.kv8Of k x j.hg then 2 else 1)).foldl (· + ·) 0

/-- OPEN (R332). -/
def State.openEntry (s : State) (e : Entry) : State :=
  let c := match e.ring with
    | .client c k => (c, k)
    | .admin => (0, 0)
  match s.job e.job with
  | none => s.complete e stJob
  | some j =>
    let n := e.f 16 2
    let d := e.f 24 8
    if j.phase != .serving then s.complete e stJob
    else if d % 128 != 0 || !s.firmRange e.job d 128 false then s.complete e stInvalid 24
    else match (if 16384 ≤ n then some 16 else reservedBad e.bytes [(18, 6), (32, 32)]) with
    | some o => s.complete e stInvalid o
    | none =>
      if (s.stream n).isSome then s.complete e stBusy
      else match s.readVa e.job d 128 with
        | .ok bs =>
          let x : Stream := { e := bs }
          let mtu := wfield (s.preg (.eth x.port) 0x104) 13 0
          match openBad j.manifest mtu x with
          | some o => s.complete e stInvalid o
          | none =>
            if !s.firmRange e.job x.inBase (x.inStride * x.inCount) false then s.complete e stInvalid 56
            else if !s.firmRange e.job x.outBase (x.outStride * x.outCount) true then s.complete e stInvalid 64
            else if x.nextOut < x.lead + s.nowN + 24576 then s.complete e stLate
            else
              let key := x.u 48 8
              let x : Stream := ((((x.put 0 1 1).put 1 1 e.job).put 2 1 (c.1 + c.2 * 64)).put 20 4 (x.inSamples * rateTicks (x.u 74 1 % 16))).put 112 8 s.nowN
              let x : Stream := { x with key := key, bound := !x.flag 3 }
              if key = 0 then (s.setStream n x).complete e stOpened
              else match mget s.sets key with
                | none => s.complete e stMissing
                | some set =>
                  let r := set.record
                  let x : Stream := (x.put 4 4 (getLE r 16 4)).put 104 4 (getLE r 28 4 + getLE r 44 4)
                  let x : Stream := x.put 3 1 (Nat.lor (x.u 3 1) (b2n (x.u 104 4 != 0)))
                  let recs := (set.pages.filter (fun g => g.2.1 != 2)).length
                  if getLE r 8 8 != manTag j.manifest || getLE r 20 2 != j.layers || getLE r 22 1 != j.hg then s.complete e stModel
                  else if x.maxPages < x.pages then s.complete e stInvalid 18
                  else if j.frames < j.arena.used.length + s.openFrames n x j || j.penRecords ≤ j.arena.usedPen.length + recs then
                    s.complete e stFrames
                  else
                    let s := s.setStream n { x.put 0 1 4 with op := some (e.ring, e.cookie, 0x30) }
                    (set.pages.foldl (fun s g => s.openPage n set g) s).stageTails n
        | .bad co jb va => s.transFault co jb va 6 0
        | _ => s.complete e stInvalid 24

def execOpenStream (r : Ring) (s : State) : Host.Outcome State Fault Refusal := .next (s.onEntry r 0x30 State.openEntry)

/-! ### PARK, RESUME, CLOSE (R334–R336) -/

/-- The stream an entry names, of the entry's job, with the checks every operation shares. -/
def State.streamEntry (s : State) (e : Entry) (res : List (Nat × Nat)) (f : State → Job → Nat → Stream → State) : State :=
  match s.job e.job with
  | none => s.complete e stJob
  | some j =>
    let n := e.f 16 2
    if j.phase != .serving then s.complete e stJob
    else match (if 16384 ≤ n then some 16 else reservedBad e.bytes res) with
    | some o => s.complete e stInvalid o
    | none => match s.stream n with
      | none => s.complete e stState
      | some x => if x.job != e.job then s.complete e stState else f s j n x

/-- PARK (R334). -/
def State.parkEntry (s : State) (e : Entry) : State :=
  s.streamEntry e [(19, 5), (32, 32)] fun s _ n x =>
    if 1 < e.f 18 1 then s.complete e stInvalid 18
    else if e.f 24 8 = 0 then s.complete e stInvalid 24
    else if x.st != 1 then s.complete e stState
    else s.setStream n { x.put 0 1 2 with key := e.f 24 8, release := e.f 18 1 == 1, op := some (e.ring, e.cookie, 0x31) }

def execParkStream (r : Ring) (s : State) : Host.Outcome State Fault Refusal := .next (s.onEntry r 0x31 State.parkEntry)

/-- RESUME (R335). -/
def State.resumeEntry (s : State) (e : Entry) : State :=
  s.streamEntry e [(18, 6), (32, 32)] fun s j n x =>
    if x.st != 3 || x.release then s.complete e stState
    else if e.f 24 8 < x.lead + s.nowN + 24576 then s.complete e stLate
    else if j.frames < j.arena.used.length + s.tailFrames n x j then s.complete e stFrames
    else (s.setStream n { (x.put 24 8 (e.f 24 8)).put 0 1 4 with op := some (e.ring, e.cookie, 0x32) }).stageTails n

def execResumeStream (r : Ring) (s : State) : Host.Outcome State Fault Refusal := .next (s.onEntry r 0x32 State.resumeEntry)

/-- CLOSE (R336): a park in progress completes first. -/
def State.closeEntry (s : State) (e : Entry) : State :=
  s.streamEntry e [(18, 46)] fun s _ n x =>
    if x.st = 0 || 3 < x.st || x.close.isSome then s.complete e stState
    else s.setStream n { (if x.st = 2 then x else x.put 0 1 5) with close := some (e.ring, e.cookie) }

def execCloseStream (r : Ring) (s : State) : Host.Outcome State Fault Refusal := .next (s.onEntry r 0x33 State.closeEntry)

/-! ### Egress (R340–R343) -/

/-- A stream frame header (Table 10-4). -/
def frameHeader (x : Stream) (n flags seq tick len samples : Nat) : List Byte :=
  leBytes 1 0x21 ++ leBytes 1 flags ++ leBytes 2 n ++ leBytes 4 seq ++ leBytes 8 (x.u 40 8) ++ leBytes 8 tick ++ leBytes 2 len ++
    leBytes 1 (x.u 73 1) ++ [0] ++ leBytes 2 samples ++ leBytes 2 0

def State.mediaStopped (s : State) : Bool := wbit (s.preg .media 0x100) 30
def State.mediaParked (s : State) : Bool := s.parked.any (fun x => x.unit == .media && !x.resolved)

/-- A datagram of a stream leaves its port with the stream's PCP and DSCP, from the media UDP port; one that is down, off or quiesced drops it (R325,
R326, R342). -/
def State.sendFrame (s : State) (x : Stream) (bs : List Byte) : State :=
  let t := s.sendUdp x.port (x.u 98 1) (x.u 99 1) (slice x.e 80 16) (wfield (s.preg (.eth x.port) 0x108) 15 0) (x.u 96 2) bs
  if s.ethSends x.port then t.count64 .media 0x120 0x124 1 else t

/-- The bytes of a ready egress slot: its header is that of the frame (R341, R342). -/
def slotReady (x : Stream) (n : Nat) (f : OutFrame) (bs : List Byte) : Bool :=
  getLE bs 0 1 == 0x21 && getLE bs 2 2 == n && getLE bs 4 4 == f.seq && getLE bs 8 8 == x.u 40 8 && getLE bs 16 8 == f.tick

/-- The frame carries END: the last one queued of a stream that is closing and lies in no pass (R336). -/
def State.lastFrame (s : State) (n : Nat) (x : Stream) : Bool := x.st == 5 && x.out.length == 1 && !s.inAnyPass x.job n

/-- EGRESS_TICK (R342): the first queued frame of a stream has reached its tick. -/
def State.egressTick (s : State) (n : Nat) : State :=
  match s.stream n with
  | none => s
  | some x => match x.out with
    | [] => s
    | f :: rest =>
      if s.nowN < f.tick then s
      else
        let last := s.lastFrame n x
        let gone := fun (s : State) (ended : Bool) =>
          let s := s.modStream n (fun x => { x with out := rest, endSent := x.endSent || ended })
          if rest.isEmpty && x.st == 3 && x.release && x.close.isNone then s.freeStream n else s
        let flags := fun (b : Nat) => if last then Nat.lor b 2 else b
        let late := fun (s : State) =>
          let s := (s.count .media 0x128 1).irq .media 1
          if x.flag 2 && !s.mediaStopped then
            let bs := frameHeader x n (flags 4) f.seq f.tick x.outBytes x.outSamples ++ List.replicate x.outBytes 0
            gone ((s.count .media 0x130 1).sendFrame x bs) last
          else gone s false
        if s.mediaStopped || s.mediaParked then late s
        else match s.readVa x.job (x.outBase + f.seq % x.outCount * x.outStride) (32 + x.outBytes) with
          | .ok bs => if slotReady x n f bs then
              gone (s.sendFrame x (putBytes bs 1 (leBytes 1 (flags (getLE bs 1 1))))) last
            else late s
          | .bad c j va => (late s).unitFault .media c j va
          | .deep j v => late (s.park .media j v)
          | .poison pa va => (late s).unitPoison x.job pa va
          | .remote _ _ _ _ => late s

def execEgressTick (stream : Nat) (s : State) : Host.Outcome State Fault Refusal := .next (s.egressTick stream)

/-- CLOSE_COMPLETE (R336): nothing of the stream is queued or in a pass. -/
def State.closeComplete (s : State) (n : Nat) : State :=
  match s.stream n with
  | none => s
  | some x =>
    if x.st != 5 || !x.out.isEmpty || s.inAnyPass x.job n then s
    else
      let s := if x.endSent || s.mediaStopped then s
        else s.sendFrame x (frameHeader x n 2 x.outSeq s.nowN 0 0)
      let s := s.freeStream n
      match x.close with
      | some (r, cookie) => s.completeLater r 0x33 cookie stClosed
      | none => s

def execCloseComplete (stream : Nat) (s : State) : Host.Outcome State Fault Refusal := .next (s.closeComplete stream)

/-! ### Ingress (R338–R340, R344) -/

/-- An event record to a client (Table 15-9). -/
def State.event (s : State) (c code detail data : Nat) (result : List Byte) : State :=
  s.clientPost c [Comp.bytes { opcode := code, detail := detail, cookie := data, result := result }]

/-- Mean square of a frame's samples in order: FP32 sum of squares times RECIP of the count (R344). -/
def meanSquare (xs : List Nat) : Nat :=
  fp32Mul true (xs.foldl (fun a x => fp32Add true a (fp32Mul true x x)) 0) (fp32Recip true (r32 true (Num.ofNat xs.length)))

/-- A value is at or above 10^(−t/10): its tenth power times 10^t is at least 1. -/
def atLeastDb (p t : Nat) : Bool :=
  match d32 true p with
  | .fin neg m e => !neg && (if 0 ≤ e then decide (1 ≤ m) else decide (2 ^ ((-e).toNat * 10) ≤ m ^ 10 * 10 ^ t))
  | x => x.isInf && !x.isNeg

/-- Voice onset of a parked stream: the event, and the pages pre-staged (R344). -/
def State.wake (s : State) (n : Nat) (x : Stream) : State :=
  let s := s.modStream n (fun x => { x with woken := true })
  let s := s.event x.client 0xE9 0 n (leBytes 8 s.nowN)
  let s := (s.count .media 0x138 1).irq .media 2
  let tail := if x.len % 16 = 0 then 0 else 1
  let lo := x.len / 16 - wfield (s.preg .media 0x108) 19 8
  s.preStageRange n (if x.len = 0 then 0 else lo) (x.len / 16 + tail) (s.nowN + (s.preg .media 0x10C).toNat) (s.preg .media 0x110).toNat

/-- Drop a frame under a reason of R339. -/
def State.mediaDrop (s : State) (r : Nat) : State := s.count .media (0x140 + 4 * r) 1

/-- Samples of a frame, channel 0 first, and how many were non-finite (R338, Table 10-5). -/
def planar (fmt ch n : Nat) (bs : List Byte) : List Nat × Nat :=
  let w := audioBytes fmt
  let vs := (List.range ch).flatMap (fun c => (List.range n).map (fun i => audioIn fmt (slice bs ((i * ch + c) * w) w)))
  (vs.map (·.1), (vs.filter (·.2)).length)

/-- An audio-in frame: the payload of a datagram to the media port, from an address and port (R339). -/
def State.audioFrame (s : State) (port : Nat) (addr : List Byte) (sport : Nat) (p : List Byte) : State :=
  if p.length < 32 || getLE p 0 1 != 0x11 then s.mediaDrop 0
  else
    let n := getLE p 2 2
    match s.stream n with
    | none => s.mediaDrop 1
    | some x =>
      let seq := getLE p 4 4
      let d := (seq + 2 ^ 32 - x.inNext) % 2 ^ 32
      let cnt := x.inCount
      if x.st = 0 || 3 < x.st then s.mediaDrop 1
      else if getLE p 8 8 != x.u 40 8 then s.mediaDrop 2
      else if x.bound && (slice addr 0 16 != slice x.e 80 16 || sport != x.u 96 2 || port != x.port) then s.mediaDrop 3
      else if getLE p 26 1 != x.u 72 1 || getLE p 28 2 != x.inSamples || getLE p 24 2 != x.inSamples * x.inCh * audioBytes x.inFmt ||
          p.length != 32 + getLE p 24 2 then s.mediaDrop 4
      else if 2 ^ 31 ≤ d then s.mediaDrop 5
      else if cnt ≤ d && x.st != 3 then s.mediaDrop 6
      else
        let s := if cnt ≤ d then s.count .media 0x134 (d - cnt + 1) else s
        let x := if cnt ≤ d then x.put 36 4 ((seq + 2 ^ 32 + 1 - cnt) % 2 ^ 32) else x
        let s := s.setStream n x
        if mget x.inSlots (seq % cnt) == some seq then s.mediaDrop 7
        else
          let v := planar x.inFmt x.inCh x.inSamples (p.drop 32)
          let va := x.inBase + seq % cnt * x.inStride
          let fl := getLE p 1 1
          let h := leBytes 4 seq ++ leBytes 1 (fl % 4) ++ leBytes 3 0 ++ leBytes 8 s.nowN ++ leBytes 8 (getLE p 16 8) ++ List.replicate 40 0
          match s.writeVa x.job va (h ++ v.1.flatMap (leBytes 4)) with
          | .bad c j a => s.unitFault .media c j a
          | .deep j a => s.park .media j a
          | .poison pa a => s.unitPoison x.job pa a
          | .remote _ _ _ _ => s
          | .ok s =>
            let s := s.touch x.job va (64 + 4 * v.1.length)
            let loud := atLeastDb (meanSquare v.1) (wfield (s.preg .media 0x108) 7 0)
            let onset := x.st == 3 && x.flag 1 && !x.woken && (bit fl 0 || (loud && x.voiced))
            let x : Stream := if x.bound then x else
              { (x.put 96 2 sport) with bound := true, e := putBytes (x.put 96 2 sport).e 80 (slice addr 0 16) }
            let s := s.setStream n { x with inSlots := mset x.inSlots (seq % cnt) seq, voiced := loud }
            let s := (s.count64 .media 0x118 0x11C 1).count .media 0x13C v.2
            if onset then s.wake n x else s

/-- AUDIO_IN_FRAME (R339). -/
def execAudioInFrame (port : Nat) (addr : List Byte) (sport : Nat) (payload : List Byte) (s : State) : Host.Outcome State Fault Refusal :=
  .next (s.audioFrame port addr sport payload)

/-- Formation consumes the slot for IN_NEXT: one that does not hold it is written with zero samples and LOST (R340). -/
def State.consumeSlot (s : State) (n : Nat) : State :=
  match s.stream n with
  | none => s
  | some x =>
    let q := x.inNext
    if mget x.inSlots (q % x.inCount) == some q then s
    else
      let h := leBytes 4 q ++ leBytes 1 4 ++ List.replicate 59 0
      match s.writeVa x.job (x.inBase + q % x.inCount * x.inStride) (h ++ List.replicate (4 * x.inSamples * x.inCh) 0) with
      | .ok s => s.modStream n (fun x => { x with inSlots := mset x.inSlots (q % x.inCount) q })
      | .bad c j a => s.unitFault .media c j a
      | .deep j a => s.park .media j a
      | _ => s

/-- Formation for a stream whose deadline has passed: whole frames are skipped until the deadline lies at or after the launch tick (R341). DEDUCED (log 273): "passed" is measured against the launch tick. -/
def State.skipFrames (s : State) (n launch : Nat) : State :=
  match s.stream n with
  | none => s
  | some x =>
    let due := x.nextOut - x.lead
    if launch ≤ due then s
    else
      let k := ceilDiv (launch - due) (max 1 x.frameCt)
      (s.setStream n ((x.put 24 8 (x.nextOut + k * x.frameCt)).put 100 4 ((x.outSeq + k) % 2 ^ 32))).count .media 0x12C k

/-! ### Park sets (R337) -/

/-- PARK_LIST (R337). A destination that cannot be written refuses the entry at byte 24 (log 93). -/
def State.parkList (s : State) (e : Entry) : State :=
  let n := e.jobNum
  match s.job n with
  | none => s.complete e stJob
  | some j =>
    if j.phase != .serving then s.complete e stJob
    else match (reservedBad e.bytes [(16, 8), (44, 20)]) with
      | some o => s.complete e stInvalid o
      | none =>
        let cnt := e.f 40 4
        if cnt = 0 || 4096 < cnt then s.complete e stInvalid 40
        else
          let rs := ((s.sets.filter (fun x => decide (e.f 32 8 < x.1))).take cnt).map (fun x => slice x.2.record 0 64)
          match s.writeVa n (e.f 24 8) rs.flatten with
          | .ok s => s.complete e stListed 0 (leBytes 4 rs.length)
          | _ => s.complete e stInvalid 24

def execParkList (r : Ring) (s : State) : Host.Outcome State Fault Refusal := .next (s.onEntry r 0x34 State.parkList)

/-- PARK_DELETE (R337, R257). -/
def State.parkDelete (s : State) (e : Entry) : State :=
  let n := e.jobNum
  match s.job n with
  | none => s.complete e stJob
  | some j =>
    if j.phase != .serving then s.complete e stJob
    else match (reservedBad e.bytes [(16, 8), (32, 32)]) with
      | some o => s.complete e stInvalid o
      | none =>
        let key := e.f 24 8
        if (mget s.sets key).isNone then s.complete e stMissing
        else if s.streams.any (fun x => x.2.st == 4 && x.2.key == key && (match x.2.op with
            | some (_, _, op) => op == 0x30
            | none => false)) then s.complete e stBusy
        else (s.deleteSet key).showFree.complete e stDeleted

def execParkDelete (r : Ring) (s : State) : Host.Outcome State Fault Refusal := .next (s.onEntry r 0x35 State.parkDelete)

/-! ### The MEDIA page (R348, Table 10-24) -/

/-- MEDIA_STAT as it reads. -/
def State.mediaStat (s : State) : Nat :=
  let cnt := fun k => (s.streams.filter (fun x => x.2.st == k)).length
  b2n s.mediaParked * 2 ^ 31 + b2n s.mediaStopped * 2 ^ 30 + min 32767 (cnt 3) * 2 ^ 15 + min 32767 (cnt 1)

/-- MEDIA_STREAM_SEL (R348): a snapshot of one entry; a free entry reads 0. -/
def State.mediaSel (s : State) (v : Nat) : State :=
  let n := v % 16384
  let bs := match s.stream n with
    | some x => x.e
    | none => []
  (List.range 32).foldl (fun s i => s.setPreg .media (0x200 + 4 * i) (BitVec.ofNat 32 (getLE bs (4 * i) 4)))
    (s.setPreg .media 0x104 (BitVec.ofNat 32 n))

def execMediaStreamSel (stream : Nat) (s : State) : Host.Outcome State Fault Refusal := .next (s.mediaSel stream)

end Sys2Proof.Machine
end

