-- ==== Sys2Proof/Machine/Weights.lean ====
section
/-!
DEFINITION. Weight images: fetching, broadcast, swaps, weight loads, the status entry and the glint sweep (R282–R311). The layout of a source
descriptor beyond its first byte is not stated: what a source answers is an operand (log 80).
-/

namespace Sys2Proof.Machine

open Sys2Proof

/-! ### Slots (R283) -/

def State.gslot (s : State) (k : Nat) : GenSlot := (mget s.genSlots k).getD {}
def State.setGslot (s : State) (k : Nat) (g : GenSlot) : State := { s with genSlots := mset s.genSlots k g }
/-- The generation slot that holds a page of the weight region. -/
def pageSlot (page : Nat) : Nat := (page * 65536 - deepBase) / 0x004000000000
/-- The weight-region page that a page is or is the resident copy of. -/
def State.weightHome (s : State) (page : Nat) : Option Nat := if isWeight page then some page else mget s.homes page
/-- A leaf names a page of the slot, in place or through its resident copy (Table 09-2). -/
def State.slotInUse (s : State) (k : Nat) : Bool := s.leaves.any (fun e => match s.weightHome e.2.page with
  | some w => pageSlot w == k
  | none => false)
/-- State of a slot as the weight-status entry gives it. -/
def State.gslotCode (s : State) (k : Nat) : Nat := if (s.gslot k).st == 2 && s.slotInUse k then 3 else (s.gslot k).st

/-- WEIGHT_STATUS (R283, R472). A slot without an image returns WEIGHT_REV and MODEL_TAG 0 (log 81). -/
def State.weightStatus (s : State) (e : Entry) : State :=
  match (if 1 < e.f 16 1 then some 16 else reservedBad e.bytes [(17, 47)]) with
  | some o => s.complete e stInvalid o
  | none =>
    let k := e.f 16 1
    let h := if (s.gslot k).st == 2 then s.readPa (slotBase k) 64 else []
    s.complete e stDone 0 (leBytes 4 (s.gslotCode k) ++ leBytes 4 (getLE h 16 4) ++ leBytes 8 (getLE h 8 8))

def execWeightStatus (r : Ring) (s : State) : Host.Outcome State Fault Refusal := .next (s.onEntry r 0x54 State.weightStatus)

/-! ### Fetching (R292–R295) -/

/-- In the host region (R463). -/
def inHostRegion (a n : Nat) : Bool := decide (0x001000000000 ≤ a) && decide (a + n ≤ 0x001010000000)

/-- Reserved bytes of a fetch block and its source code (R472, R294). -/
def fetchBlockBad (b : List Byte) : Option Nat :=
  (reservedBad b [(44, 212)]).orElse fun _ => if getLE b 256 1 = 0 || 4 < getLE b 256 1 then some 256 else none

/-- FETCH (R292). -/
def State.fetchEntry (s : State) (e : Entry) : State :=
  let k := e.f 16 1
  let a := e.f 24 8
  let bad := if 1 < k then some 16
    else if e.f 17 1 = 0 || 24 < e.f 17 1 then some 17
    else (reservedBad e.bytes [(18, 6)]).orElse fun _ =>
      if !inHostRegion a 512 then some 24 else reservedBad e.bytes [(32, 32)]
  match bad with
  | some o => s.complete e stInvalid o
  | none =>
    let b := s.readPa a 512
    match fetchBlockBad b with
    | some o => s.complete e stInvalid o
    | none =>
      if s.fetch.isSome then s.complete e stBusy
      else if s.gslotCode k == 1 || s.gslotCode k == 3 then s.complete e stSlot
      else
        let was := (s.gslot k).st
        { s.setGslot k { s.gslot k with st := 1 } with
          fetch := some { ring := e.ring, cookie := e.cookie, slot := k, block := b, rate := e.f 17 1, was := was } }

def execFetch (r : Ring) (s : State) : Host.Outcome State Fault Refusal := .next (s.onEntry r 0x50 State.fetchEntry)

def Fetch.source (f : Fetch) : Nat := getLE f.block 256 1

/-- The job whose routes the engine uses to an endpoint: the lowest that the entry's JOB_MASK admits; no rule names one (log 80). -/
def State.fetchJob (s : State) (ep : Nat) : Nat := ((List.range 8).find? (s.routed ep)).getD 0

/-- The fabric address of page `p` of a storage head's image (Table 09-8A). -/
def headAddr (desc : List Byte) (p : Nat) : Nat :=
  2 ^ 63 + Config.descEndpoint desc % 1024 * 2 ^ 52 + Config.descWindow desc % 4096 * 2 ^ 40 + (Config.descOffset desc + p * 65536) % 2 ^ 40

/-- The fetch ends: its completion, and the slot's new state. -/
def State.fetchEnd (s : State) (f : Fetch) (g : GenSlot) (status detail : Nat) : State :=
  ({ s with fetch := none }.setGslot f.slot g).completeLater f.ring 0x50 f.cookie status [] true detail

/-- The fetch fails: with FAILED_DIGEST the slot reads EMPTY (R293), with FAILED_SOURCE too once it has been written to; before that it is as it was. -/
def State.fetchFails (s : State) (f : Fetch) (status : Nat) : State :=
  s.fetchEnd f (if f.known || status == stFailedDigest then {} else { s.gslot f.slot with st := f.was }) status 0

/-- Refused: nothing changes (R309). -/
def State.fetchRefused (s : State) (f : Fetch) (status detail : Nat) : State :=
  s.fetchEnd f { s.gslot f.slot with st := f.was } status detail

/-- Page 0 holds a well-formed header that is the entry's (Table 09-1, R292). -/
def headerMatches (h block : List Byte) : Bool :=
  getLE h 0 4 == 0x474D4942 && getLE h 4 2 == 1 && getLE h 6 2 == 0 && getLE h 8 8 != 0 && getLE h 8 8 == getLE block 32 8 &&
  getLE h 16 4 == getLE block 40 4 && decide (128 ≤ getLE h 20 4) && decide (getLE h 20 4 ≤ 16777216) &&
  slice h 24 32 == slice block 0 32 && getLE h 56 8 == 0 && (h.drop 64).all (· == 0)

/-- Pages of the manifest. -/
def manifestPages (h : List Byte) : Nat := ceilDiv (getLE h 20 4) 65536

/-- Pages of every tree area, then every part page, each in ascending slot page (R292). -/
def imagePages (m : List Byte) : List Nat :=
  let ps := manParts m
  ((ps.flatMap (fun p => (List.range p.treePages).map (p.tree + ·))).foldl sinsert []) ++
  ((ps.flatMap (fun p => (List.range p.pages).map (p.first + ·))).foldl sinsert [])

/-- The part whose tree area holds a slot page, and the one whose pages do. -/
def treeOf (m : List Byte) (p : Nat) : Option Part := (manParts m).find? (fun x => decide (x.tree ≤ p) && decide (p < x.tree + x.treePages))
def partAt (m : List Byte) (p : Nat) : Option Part := (manParts m).find? (fun x => decide (x.first ≤ p) && decide (p < x.first + x.pages))

/-- The reader of a broadcast writes a page it has checked into every receiver's fetch window at slot page × 65,536, line by line, once per receiver; how it is
told its receivers the spec does not say (R295; log 150). -/
def State.pushPage (s : State) (f : Fetch) (p : Nat) : State :=
  let bs := s.readPa (slotPage f.slot p) 65536
  (Config.broadcastGroup (slice f.block 256 256)).foldl (fun s x =>
    (List.range 512).foldl (fun s i =>
      s.sendReq .fetch (s.fetchJob x.1) (pktWrite x.1 x.2 (p * 65536 + 128 * i) 0 (slice bs (128 * i) 128))) s) s

/-- A fetched page is in the slot: the next is awaited, or the image is committed (R253, R292, R294). -/
def State.fetchStep (s : State) (f : Fetch) (todo : List Nat) : State :=
  if todo.isEmpty then
    let s := s.fetchEnd f { st := 2, repair := slice f.block 256 256 } stDone 0
    { s with lostPages := s.lostPages.filter (fun p => pageSlot p != f.slot) }
  else { s with fetch := some { f with todo := todo, tries := 0, got := [] } }

/-- A page has failed: it is read again up to 3 times, `again` lists the pages still to be read (R293). -/
def State.fetchRetry (s : State) (f : Fetch) (code role i : Nat) (again : List Nat) : State :=
  let s := s.weightError code role i
  if 3 ≤ f.tries then s.fetchFails f stFailedDigest
  else { s with fetch := some { f with todo := again, tries := f.tries + 1, got := [], lines := f.lines.filter (fun x => !again.contains x.1) } }

/-- A tree whose pages are all in fails against ROOT: the pages at fault are read again, up to 3 times (R291, R293). -/
def State.treeRetry (s : State) (f : Fetch) (t : Part) (todo : List Nat) : State :=
  let bad := ((List.range t.treePages).map (t.tree + ·)).filter (s.treePageBad f.slot t)
  let s := s.weightError 0x205 t.role (bad.headD t.tree - t.tree)
  if 3 ≤ f.treeTries then s.fetchFails f stFailedDigest
  else { s with fetch := some { f with
      todo := bad ++ todo, tries := 0, treeTries := f.treeTries + 1, got := [], lines := f.lines.filter (fun x => !bad.contains x.1) } }

/-- Header and manifest pages: held until all are in, then matched with the entry (R287, R292). -/
def State.fetchHead (s : State) (f : Fetch) (p : Nat) (bs : List Byte) : State :=
  let held := mset f.held p (slice bs 0 65536)
  let h := (mget held 0).getD []
  if p = 0 && !headerMatches h f.block then s.fetchRefused f stSlot 0
  else
    let want := List.range (manifestPages h + 1)
    let todo := want.filter (fun i => !(f.todo.isEmpty) && i != p && (p = 0 || f.todo.contains i))
    if !todo.isEmpty then { s with fetch := some { f with held := held, todo := todo, tries := 0 } }
    else
      let m := slice ((want.drop 1).flatMap (fun i => (mget held i).getD [])) 0 (getLE h 20 4)
      if sha256 m != slice h 24 32 || manTag m != getLE h 8 8 || manRev m != getLE h 16 4 then s.fetchRefused f stSlot 0
      else match manifestBad m with
        | some o => s.fetchRefused f stManifest o
        | none =>
          let s := want.foldl (fun s i => s.putSlotPage f.slot i ((mget held i).getD [])) (s.setGslot f.slot { st := 1 })
          (want.foldl (fun s i => s.pushPage f i) s).fetchStep { f with known := true, held := mfilter held (fun i _ => !want.contains i) } (imagePages m)

/-- Tree and part pages: each part page is checked against its leaf digest, and the digests of a tree up to ROOT once its last page is in (R291). -/
def State.fetchBody (s : State) (f : Fetch) (p : Nat) (bs : List Byte) : State :=
  let m := s.slotManifest f.slot
  let todo := f.todo.filter (· != p)
  match treeOf m p, partAt m p with
  | some t, _ =>
    let s := s.putSlotPage f.slot p bs
    let left := todo.filter (fun x => decide (t.tree ≤ x) && decide (x < t.tree + t.treePages))
    if !left.isEmpty then s.fetchStep f todo
    else if !s.treeOk f.slot t then s.treeRetry f t todo
    else ((List.range t.treePages).foldl (fun s i => s.pushPage f (t.tree + i)) s).fetchStep { f with treeTries := 0 } todo
  | none, some t =>
    if leafDigest t.role (p - t.first) (slice bs 0 65536) != s.storedLeaf f.slot t (p - t.first) then
      s.fetchRetry f 0x201 t.role (p - t.first) f.todo
    else ((s.putSlotPage f.slot p bs).pushPage f p).fetchStep f todo
  | none, none => s.fetchStep f todo

/-- What a source gives for slot page `p`: the other slot's page, the lines read from a storage head, the lines pushed, or the bytes that arrived from storage
over Ethernet or from a gap source, whose exchange the spec does not give (log 80). None: nothing of the page has come, or it is being read. -/
def State.fetchBytes (s : State) (f : Fetch) (p : Nat) (data : List Byte) : State × Option (List Byte) :=
  match f.source with
  | 1 =>
    let pa := slotPage (1 - f.slot) p
    if s.deepReads then (s.flashRead (pa - deepBase) 65536, some (s.readPa pa 65536)) else (s, none)
  | 3 =>
    let a := headAddr (slice f.block 256 256) p
    match s.bringLines .fetch 0 (s.fetchJob (adEp a)) false ((fabLines a 65536).map (fun l => (a, l))) f.got false with
    | .here s lines => (s, some (fabBytes lines a 65536))
    | .waiting s lines => ({ s with fetch := s.fetch.map (fun f => { f with got := lines }) }, none)
    | .refused s => (s, none)
  | 4 =>
    if f.gap then (s, some data)
    else (s, if (mget f.lines p).getD 0 == 2 ^ 512 - 1 then some ((mget f.held p).getD []) else none)
  | _ => (s, some data)

/-- The page may be taken now: it is next, or, pushed by a broadcast, is wanted and its tree is in (R292, R295). -/
def State.fetchDue (s : State) (f : Fetch) (p : Nat) : Bool :=
  if f.source = 4 && !f.gap then
    f.todo.contains p &&
    (match (if f.known then partAt (s.slotManifest f.slot) p else none) with
     | some t => (List.range t.treePages).all (fun i => !f.todo.contains (t.tree + i))
     | none => true)
  else f.todo.head? == some p

/-- A page of the fetch arrives. `ok`: the source gave it without an uncorrectable error. Hot packages write nothing (R526). -/
def State.fetchArrival (s : State) (p : Nat) (data : List Byte) (ok : Bool) : State :=
  match s.fetch with
  | none => s
  | some f =>
    if !s.fetchDue f p || s.deepState != 2 || s.flashHot then s
    else match s.fetchBytes f p data with
      | (s, none) => s
      | (s, some bs) =>
        if !ok then
          match (if f.known then partAt (s.slotManifest f.slot) p else none) with
          | some t => s.fetchRetry f 0x201 t.role (p - t.first) f.todo
          | none => s.fetchRetry f 0x201 0xFFFF p f.todo
        else if f.known then s.fetchBody f p bs
        else s.fetchHead f p bs

/-- A line pushed into the fetch window at an offset (R295). A line beyond the slot or of a page already written counts for nothing. -/
def State.fetchLine (s : State) (off : Nat) (line : List Byte) : State :=
  match s.fetch with
  | none => s
  | some f =>
    let p := off / 65536
    let i := off % 65536 / 128
    if f.source != 4 || f.gap || slotPages ≤ p || (f.known && !f.todo.contains p) then s
    else
      let old := (mget f.held p).getD (List.replicate 65536 0)
      { s with fetch := some { f with
          held := mset f.held p (putBytes old (i * 128) (slice line 0 128))
          lines := mset f.lines p (Nat.lor ((mget f.lines p).getD 0) (2 ^ i)) } }

/-- BROADCAST_END (R295): what is lacking comes from the gap source. -/
def State.broadcastEnd (s : State) : State :=
  match s.fetch with
  | some f => if f.source == 4 then { s with fetch := some { f with gap := true } } else s
  | none => s

def execBroadcastEnd (s : State) : Host.Outcome State Fault Refusal := .next s.broadcastEnd

/-- The first entry of a recipe bank with VALID = 1 that breaks R130, or cannot be read. -/
def State.recipesBad (s : State) (job : Nat) (j : Job) (bank : Nat) : Option Nat :=
  (List.range (manRecipes j.manifest)).find? (fun i =>
    match s.readVa job (j.recipeVa bank i) 32 with
    | .ok e => (Recipe.mk e).valid && !recipeLegal i e
    | _ => true)

/-! ### Swaps (R302–R306) -/

/-- Ranges of a layer's weights that the job's parts give on the module: KIND 0 and 1 of the common part and of the private part of ROLE `role`. -/
def layerRanges (m : List Byte) (role : Option Nat) (layer : Nat) : List RangeRec :=
  (manRanges m).filter (fun r => r.layer == layer && decide (r.kind ≤ 1) &&
    ((manPart m r.part).kind == 0 || ((manPart m r.part).kind == 1 && some (manPart m r.part).role == role)))

/-- ROLE of the private part a job maps. -/
def Job.role (j : Job) : Option Nat := j.priv.map (fun p => (manPart j.manifest p).role)

/-- Two range records are equal in VA, PAGES, ATTR and KIND (R302). -/
def RangeRec.same (a b : RangeRec) : Bool := a.va == b.va && a.pages == b.pages && a.attr == b.attr && a.kind == b.kind

/-- The ranges a swap of a layer rewrites: all of an ordinary layer, the inactive set of a privileged one (R305). -/
def Job.swapRanges (j : Job) (m : List Byte) (layer : Nat) : List RangeRec :=
  let rs := layerRanges m j.role layer
  if manPrivileged j.manifest layer then rs.filter (fun r => r.shadow == (if j.onB.contains layer then 1 else 2)) else rs

/-- Virtual pages of ranges with the weight-region pages of a slot that they name. -/
def swapPages (m : List Byte) (slot : Nat) (rs : List RangeRec) : List (Nat × Nat × Nat) :=
  rs.flatMap (fun r => (List.range r.pages).map (fun i =>
    (r.va / 65536 + i, slotPage slot ((manPart m r.part).first + r.partPage + i) / 65536, 0)))

/-- The resident copy of a weight page (R296). -/
def State.residentOf (s : State) (w : Nat) : Option Nat :=
  (s.homes.find? (fun h => h.2 == w && !(s.copies.any (fun c => c.2 == h.1)))).map (·.1)

/-- Stage one weight page into the DRAM tiers: its resident copy, or a copy read from flash and checked, which every leaf that names the page then names
too (R291, R296, R303). 0: it cannot be staged now. -/
def State.stagePage (s : State) (vp w cls aff : Nat) : State × Nat :=
  match s.residentOf w with
  | some p => (s, p)
  | none =>
    if !s.deepReads then (s, 0)
    else
      let s := s.flashRead (w * 65536 - deepBase) 65536
      if !s.weightOk w true then (s.flashPageFails w true none, 0)
      else match s.placeNew vp (if cls = 0 then 1 else cls) aff with
        | none => (s, 0)
        | some (s, d) =>
          let hs := s.holders w
          let s := match s.moves.find? (s.movesPage w) with
            | some m => s.abandonMove m
            | none => s
          let s := ((s.copyPage w d).served (d * 65536) 65536).carryClean w d
          let s := { s with homes := mset s.homes d w }.eachLeaf w (fun l => { l with page := d, mstate := 0, copy := false })
          (s.landedAll hs, d)

/-- Point a leaf at its staged page; the page it left is freed once nothing names it (R222, R304). -/
def State.repoint (s : State) (job vp page : Nat) : State :=
  match s.leafOf job vp with
  | none => s
  | some l =>
    if l.page == page then s
    else
      let s := (s.leaveMove job vp).setLeaf job vp { l with page := page, mstate := 0, copy := (mget s.copies page).isSome }
      (s.freeIfUnused l.page).landed job vp

/-- Stage every page of a swap that is not staged yet; a shadow switch writes its set's leaves as their pages arrive (R303, R305). -/
def State.stageSwap (s : State) (x : Swap) (j : Job) : State :=
  let rs := j.swapRanges j.manifest x.layer
  let attr := fun vp => (rs.find? (fun r => decide (r.va / 65536 ≤ vp) && decide (vp < r.va / 65536 + r.pages))).map (fun r => (r.cls, r.aff))
  let r := x.pages.foldl (fun (acc : State × List (Nat × Nat × Nat)) g =>
    let (s, done) := acc
    if g.2.2 != 0 then (s, done ++ [g])
    else
      let a := (attr g.1).getD (1, 0)
      let (s, d) := s.stagePage g.1 g.2.1 a.1 a.2
      let s := if x.shadow && d != 0 then
          match s.leafOf x.job g.1 with
          | some _ => s.repoint x.job g.1 d
          | none => (s.addTable x.job g.1).setLeaf x.job g.1 { cls := a.1, affinity := a.2, page := d }
        else s
      (s, done ++ [(g.1, g.2.1, d)])) (s, [])
  { r.1 with swaps := r.1.swaps.map (fun (y : Swap) => if y.job == x.job && y.layer == x.layer then { y with pages := r.2 } else y) }.showFree

def Swap.staged (x : Swap) : Bool := x.pages.all (fun g => g.2.2 != 0)

/-- Ticks that staging takes at 20 GB/s (R303). -/
def stagingCt (pages : Nat) : Nat := ceilDiv (pages * 65536 * 24576000) 20000000000

/-- Room of the near tier. -/
def State.nearFree (s : State) : Nat := sumOver (s.liveTiers.filter (8 ≤ ·)) s.tierFree

/-- The range records of a layer, KIND 0 and 1, of every part (R302). -/
def layerRecords (m : List Byte) (layer : Nat) : List RangeRec := (manRanges m).filter (fun r => r.layer == layer && decide (r.kind ≤ 1))

/-- Two lists of range records hold the same ones. -/
def sameRanges (xs ys : List RangeRec) : Bool := xs.length == ys.length && xs.all (fun r => ys.any r.same) && ys.all (fun r => xs.any r.same)

/-- SWAP (R302, R303, R305). A bank that it names is checked as a switch's is, and a failing one refused with the index of its first failing entry
(R309, Table 04-5). -/
def State.swapEntry (s : State) (e : Entry) : State :=
  let n := e.jobNum
  match s.job n with
  | none => s.complete e stJob
  | some j =>
    let l := e.f 16 1
    let k := e.f 17 1
    if j.phase != .serving then s.complete e stJob
    else
      let bad := if manLayers j.manifest ≤ l then some 16 else if 1 < k then some 17 else if 3 < e.f 18 1 then some 18
        else reservedBad e.bytes [(19, 5), (32, 32)]
      match bad with
      | some o => s.complete e stInvalid o
      | none =>
        let m := s.slotManifest k
        let mine := j.swapRanges j.manifest l
        let its := j.swapRanges m l
        let pages := swapPages m k its
        let priv := manPrivileged j.manifest l
        let fresh := pages.filter (fun g => (s.residentOf g.2.1).isNone)
        let nearOnly := fresh.filter (fun g => its.any (fun r => r.cls == 2 && decide (r.va / 65536 ≤ g.1) && decide (g.1 < r.va / 65536 + r.pages)))
        let bank := if bit (e.f 18 1) 0 then some (b2n (bit (e.f 18 1) 1)) else none
        if s.swaps.any (fun x => x.job == n && x.layer == l) then s.complete e stBusy
        else if (s.gslot k).st != 2 || manTag m != manTag j.manifest || manLayers m != manLayers j.manifest then s.complete e stSlot
        else if !sameRanges (layerRecords j.manifest l) (layerRecords m l) || !sameRanges mine its then s.complete e stMismatch
        else if e.f 24 8 < s.nowN + 24576 + stagingCt pages.length then s.complete e stLate
        else if s.dramFree < fresh.length + 786432 || s.nearFree < nearOnly.length then s.complete e stRoom
        else if !priv && 16384 < pages.length then s.complete e stSize
        else match bank.bind (s.recipesBad n j) with
        | some i => s.complete e stInvalid i
        | none =>
          let x : Swap := { ring := e.ring, cookie := e.cookie, job := n, layer := l, slot := k
                            bank := bank
                            effective := e.f 24 8, shadow := priv, pages := pages }
          ({ s with swaps := s.swaps ++ [x] }).stageSwap x j

def execSwap (r : Ring) (s : State) : Host.Outcome State Fault Refusal := .next (s.onEntry r 0x51 State.swapEntry)

/-- The job's active recipe bank becomes the one a swap names (R304). -/
def Job.withBank (j : Job) (b : Option Nat) : Job :=
  match b with
  | some b => { j with recipe := { j.recipe with active := b } }
  | none => j

/-- SWAP_EXECUTE (R304): pages not staged are staged again; at EFFECTIVE_CT, with every earlier pass committed, an in-place swap rewrites its
leaves and switches the bank. -/
def State.swapExecute (s : State) (job layer : Nat) : State :=
  let find := fun (s : State) => s.swaps.find? (fun x => x.job == job && x.layer == layer && x.executed.isNone)
  match find s, s.job job with
  | some x, some j =>
    let s := if x.staged then s else s.stageSwap x j
    match find s with
    | none => s
    | some x =>
      if x.shadow || !x.staged || decide (s.nowN < x.effective) || j.executing.isSome || j.formed.isSome then s
      else
        let s := x.pages.foldl (fun s g => s.repoint job g.1 g.2.2) s
        let s := s.modJob job (fun j => j.withBank x.bank)
        { s with swaps := s.swaps.map (fun (y : Swap) =>
            if y.job == job && y.layer == layer then { y with executed := some j.nextSeq } else y) }.showFree
  | _, _ => s

def execSwapExecute (job layer : Nat) (s : State) : Host.Outcome State Fault Refusal := .next (s.swapExecute job layer)

/-- A formation waits: an effective swap has not been executed, or its set is not staged (R304, R305). -/
def State.swapHolds (s : State) (job : Nat) : Bool :=
  s.swaps.any (fun x => x.job == job && x.executed.isNone && decide (x.effective ≤ s.nowN) && (!x.shadow || !x.staged))

/-- A shadow switch is over: RELEASED, and the set no longer active is unmapped (R305). -/
def State.releaseShadow (s : State) (x : Swap) : State :=
  let s := { s with swaps := s.swaps.filter (fun y => !(y.job == x.job && y.layer == x.layer)) }
  let s := match s.job x.job with
    | none => s
    | some j =>
      (j.swapRanges j.manifest x.layer).foldl (fun s (r : RangeRec) =>
        (s.mapped x.job (r.va / 65536) r.pages).foldl (fun s vp => s.unmapPage x.job vp) s) s
  s.showFree.completeLater x.ring 0x51 x.cookie stReleased [] false

/-- Shadow switches whose last pass on the old set has committed are released: pass `next` is the first that is not committed (R305, Table 04-5). -/
def State.releaseShadows (s : State) (job next : Nat) : State :=
  (s.swaps.filter (fun x => x.job == job && x.shadow && (match x.executed with
    | some q => decide (q ≤ next)
    | none => false))).foldl State.releaseShadow s

/-- A pass forms: effective shadow switches take their other set and their bank, and every swap whose first pass this is posts APPLIED with its hold;
an in-place swap has released its old copies; a shadow switch is released at once where no pass on the old set is left (R304, R305). -/
def State.swapsFormed (s : State) (job seq : Nat) : State :=
  let due := s.swaps.filter (fun x => x.job == job &&
    (x.executed == some seq || (x.shadow && x.executed.isNone && decide (x.effective ≤ s.nowN))))
  let s := due.foldl (fun s x =>
    let hold := if x.shadow then 0 else match s.job job with
      | some j => s.nowN - j.commitCt
      | none => 0
    let s := s.completeLater x.ring 0x51 x.cookie stApplied (leBytes 8 hold)
    if x.shadow then
      let s := s.modJob job (fun j => ({ j with onB := if j.onB.contains x.layer then j.onB.filter (· != x.layer) else sinsert j.onB x.layer }).withBank x.bank)
      { s with swaps := s.swaps.map (fun (y : Swap) =>
          if y.job == job && y.layer == x.layer then { y with executed := some seq } else y) }
    else
      let s := { s with swaps := s.swaps.filter (fun y => !(y.job == job && y.layer == x.layer)) }
      s.completeLater x.ring 0x51 x.cookie stReleased [] false) s
  if (s.job job).any (fun j => j.executing.isSome) then s else s.releaseShadows job seq

/-- A pass has committed: the shadow switches of which it was the last pass on the old set are released (R305). -/
def State.swapsCommitted (s : State) (job seq : Nat) : State := s.releaseShadows job (seq + 1)

/-- A staged copy that no leaf names is freed. -/
def State.dropStaged (s : State) (x : Swap) : State :=
  x.pages.foldl (fun s g => if g.2.2 != 0 && (s.holders g.2.2).isEmpty then s.releaseDram g.2.2 else s) s

/-! ### Weight loads (R307) -/

def WLoad.range (w : WLoad) : Nat := getLE w.bytes 16 4
def WLoad.first (w : WLoad) : Nat := getLE w.bytes 20 4
def WLoad.count (w : WLoad) : Nat := getLE w.bytes 24 4
def WLoad.role (w : WLoad) : Nat := getLE w.bytes 28 2
def WLoad.index (w : WLoad) : Nat := getLE w.bytes 32 4 + w.pos
def WLoad.digests (w : WLoad) : Nat := getLE w.bytes 40 8
def WLoad.source (w : WLoad) : Nat := getLE w.bytes 48 8

/-- A source descriptor that can be read now holds no code of Table 09-8A. -/
def State.descBad (s : State) (job va : Nat) : Bool :=
  match s.readVa job va 256 with
  | .ok d => decide (getLE d 0 1 = 0) || decide (4 < getLE d 0 1)
  | _ => false

/-- WEIGHT_LOAD (R307). -/
def State.weightLoad (s : State) (e : Entry) : State :=
  let n := e.jobNum
  match s.job n with
  | none => s.complete e stJob
  | some j =>
    let r := manRange j.manifest (e.f 16 4)
    let src := e.f 48 8
    let readable := fun va k => match s.transRange n va k false with
      | .bad _ _ _ => false
      | _ => decide (va < 2 ^ 52)
    let bad := if secCount j.manifest 3 ≤ e.f 16 4 || r.kind < 2 then some 16
      else if r.pages < e.f 20 4 + e.f 24 4 then some 20
      else if e.f 24 4 = 0 || 65536 < e.f 24 4 then some 24
      else (reservedBad e.bytes [(30, 2), (36, 4)]).orElse fun _ =>
        if !readable (e.f 40 8) (32 * e.f 24 4) then some 40
        else if !adBitsOk src || adSpace src = 1 then some 48
        else if adSpace src = 0 && (!readable src 256 || s.descBad n src) then some 48
        else reservedBad e.bytes [(56, 8)]
    match bad with
    | some o => s.complete e stInvalid o
    | none => { s with loads := s.loads ++ [{ ring := e.ring, cookie := e.cookie, job := n, bytes := e.bytes }] }

def execWeightLoad (r : Ring) (s : State) : Host.Outcome State Fault Refusal := .next (s.onEntry r 0x52 State.weightLoad)

/-- Write a page of a range: the job's own page where it has one, else a page of its own (R296, R307). None: no room now. -/
def State.loadInto (s : State) (job vp : Nat) (bs : List Byte) : Option State :=
  match s.leafOf job vp with
  | none => none
  | some l =>
    if (mget s.homes l.page).isNone && decide (l.page * 65536 < deepBase) && (s.holders l.page).length == 1 then
      let s := s.writePa (l.page * 65536) bs
      some (match mget s.copies l.page with
        | some c => s.writePa (c * 65536) bs
        | none => s)
    else (s.placeNew vp (if l.cls = 0 then 1 else l.cls) l.affinity).map fun r =>
      (r.1.writePa (r.2 * 65536) bs).repoint job vp r.2

/-- A weight load ends. -/
def State.loadEnd (s : State) (w : WLoad) (status : Nat) : State :=
  { s with loads := s.loads.erase w }.completeLater w.ring 0x52 w.cookie status

/-- Lines of the load's next page from a peer or a storage head at a fabric address. -/
def State.loadLines (s : State) (w : WLoad) (a : Nat) : State × Option (List Byte) :=
  match s.bringLines .weights 0 w.job false ((fabLines a 65536).map (fun l => (a, l))) w.lines false with
  | .here s lines => (s, some (fabBytes lines a 65536))
  | .waiting s lines => ({ s with loads := s.loads.map (fun (x : WLoad) => if x == w then { x with lines := lines } else x) }, none)
  | .refused s => (s, none)

/-- The page of a ROLE that the slot which the job does not use holds (Table 09-8A, code 0x01). -/
def State.otherSlotPage (s : State) (j : Job) (role i : Nat) : Option Nat :=
  let o := 1 - j.genSlot
  if (s.gslot o).st != 2 then none
  else ((manParts (s.slotManifest o)).find? (fun x => x.role == role && decide (i < x.pages))).map (fun x => slotPage o (x.first + i))

/-- The bytes of a load's next page: host memory, a peer's lines, the other slot, a storage head's lines, or what its source gave. `desc`: the source
descriptor, where the entry names one. None: not here yet, or the read was refused. -/
def State.loadBytes (s : State) (w : WLoad) (j : Job) (desc data : List Byte) : State × Option (List Byte) :=
  let src := w.source
  match adSpace src with
  | 3 => (s, some (s.readHost (adLocal src + w.pos * 65536) 65536))
  | 2 => s.loadLines w (src + w.pos * 65536)
  | _ => match getLE desc 0 1 with
    | 1 => match s.otherSlotPage j w.role w.index with
      | some pa => if s.deepReads then (s.flashRead (pa - deepBase) 65536, some (s.readPa pa 65536)) else (s, none)
      | none => (s, none)
    | 3 => s.loadLines w (headAddr desc w.pos)
    | _ => (s, some data)

/-- What a weight load reads for its next page besides the page: its listed digest, and its source descriptor where the entry names one. -/
def State.loadAux (s : State) (w : WLoad) : Acc (List Byte × List Byte) :=
  (s.readVa w.job (w.digests + 32 * w.pos) 32).bind fun dig =>
    if adSpace w.source = 0 then (s.readVa w.job w.source 256).bind fun d => .ok (dig, d) else .ok (dig, [])

/-- A page of a weight load arrives: checked against its listed digest, then written into the range (R288, R307). A source descriptor of no known code, or a
page that the other slot does not hold, ends the load with FAILED_SOURCE. -/
def State.loadArrival (s : State) (i : Nat) (data : List Byte) (ok : Bool) : State :=
  match s.loads[i]? with
  | none => s
  | some w =>
    match s.loadAux w with
    | .deep j v => s.park .weights j v
    | .bad c j v => s.unitFault .weights c j v
    | .poison pa va => s.unitPoison w.job pa va
    | .remote _ _ _ _ => s
    | .ok (dig, desc) =>
      match s.job w.job with
      | none => s
      | some j =>
        let code := getLE desc 0 1
        if adSpace w.source = 0 && (code = 0 || 4 < code || (code = 1 && (s.otherSlotPage j w.role w.index).isNone)) then s.loadEnd w stFailedSource
        else match s.loadBytes w j desc data with
        | (s, some bs) =>
          let bs := slice bs 0 65536
          if !ok || leafDigest w.role w.index bs != dig then
            (s.weightError 0x201 w.role w.index).loadEnd w stFailedDigest
          else
            let vp := (manRange j.manifest w.range).va / 65536 + w.first + w.pos
            match s.loadInto w.job vp bs with
            | none => s
            | some s =>
              let s := { s with loaded := mset s.loaded (vkey w.job vp) (dig, w.role, w.index) }
              let s := match s.leafOf w.job vp with
                | some l => { s with cleanAt := mset s.cleanAt l.page s.commits }
                | none => s
              if w.pos + 1 ≥ w.count then s.loadEnd w stDone
              else { s with loads := s.loads.map (fun (x : WLoad) => if x.cookie == w.cookie && x.ring == w.ring && x.bytes == w.bytes
                  then { x with pos := x.pos + 1, lines := [] } else x) }
        | (s, _) => s

/-- FETCH_PAGE_ARRIVAL (R291): `load` 0 the fetch, n + 1 the weight load n; `page` the slot page of a fetch. -/
def execFetchPageArrival (load page : Nat) (data : List Byte) (ok : Bool) (s : State) : Host.Outcome State Fault Refusal :=
  .next (if load = 0 then s.fetchArrival page data ok else s.loadArrival (load - 1) data ok)

/-! ### The glint sweep (R299–R301) -/

/-- A flash copy fails: repaired from the other slot, from the slot's repair source (`repair`, when that source gives the page), or lost (R300). -/
def State.flashCopyFails (s : State) (w slot : Nat) (p : Part) (i : Nat) (repair : Option (List Byte)) : State :=
  match s.twin slot p i with
  | some t => (s.putSlotPage slot (p.first + i) (s.readPa (t * 65536) 65536)).weightError 0x202 p.role i
  | none =>
    let good := match repair with
      | some bs => leafDigest p.role i (slice bs 0 65536) == s.storedLeaf slot p i
      | none => false
    if good then (s.putSlotPage slot (p.first + i) (repair.getD [])).weightError 0x202 p.role i
    else ({ s with lostPages := sinsert s.lostPages w }).weightError 0x204 p.role i

/-- A page of a tree fails against ROOT: the same repair, its record that of a failing tree node, or of a lost page (R300, Table 09-11). -/
def State.treePageFails (s : State) (w slot p : Nat) (t : Part) (repair : Option (List Byte)) : State :=
  let lost := fun (s : State) => ({ s with lostPages := sinsert s.lostPages w }).weightError 0x204 t.role (p - t.tree)
  let twin := if (s.gslot (1 - slot)).st != 2 then none
    else ((manParts (s.slotManifest (1 - slot))).find? (fun x => x.role == t.role && x.root == t.root && s.treeOk (1 - slot) x)).map (fun x =>
      s.readPa (slotPage (1 - slot) (x.tree + (p - t.tree))) 65536)
  match twin.orElse (fun _ => repair) with
  | none => lost s
  | some bs =>
    let u := s.putSlotPage slot p bs
    if u.treePageBad slot t p then lost s else u.weightError 0x205 t.role (p - t.tree)

/-- Page 0 or a page of the manifest fails against MANIFEST_DIGEST, which stands for a tree there: the other slot's, where it verifies with that page put in
place, then the slot's repair source; else lost (R299, R300; log 268). -/
def State.headPageFails (s : State) (w slot p : Nat) (repair : Option (List Byte)) : State :=
  let fix := fun (bs : List Byte) =>
    let u := s.putSlotPage slot p bs
    if u.headerOk slot then some (u.weightError 0x202 0xFFFF p) else none
  let o := if (s.gslot (1 - slot)).st == 2 then fix (s.readPa (slotPage (1 - slot) p) 65536) else none
  match o.orElse (fun _ => repair.bind fix) with
  | some s => s
  | none => ({ s with lostPages := sinsert s.lostPages w }).weightError 0x204 0xFFFF p

/-- The check of a page of a committed slot. `ok`: flash gave it without an uncorrectable error. -/
def State.sweepFlash (s : State) (w : Nat) (ok : Bool) (repair : Option (List Byte)) : State :=
  let slot := pageSlot w
  let p := w - slotBase slot / 65536
  if (s.gslot slot).st != 2 || !s.deepReads || s.lostPages.contains w then s
  else
    let m := s.slotManifest slot
    let s := s.flashRead (w * 65536 - deepBase) 65536
    match treeOf m p, partAt m p with
    | some t, _ => if ok && !s.treePageBad slot t p then s else s.treePageFails w slot p t repair
    | none, some t => if ok && s.pageChecks slot t (p - t.first) then s else s.flashCopyFails w slot t (p - t.first) repair
    | none, none => if manEnd m ≤ p || (ok && s.headerOk slot) then s else s.headPageFails w slot p repair

/-- A resident copy fails its check: a contained fault, its record giving the passes committed since the page's last clean check; the copy is reloaded in
the drain phase (R301). -/
def State.residentFails (s : State) (d role i : Nat) (job : Option Nat) : State :=
  let n := s.commits - (mget s.cleanAt d).getD 0
  ({ s with reload := sinsert s.reload d }).contained .deep
    { code := 0xC203, sev := 3, key := weightKey role i, detail := leBytes 8 n, job := job }

/-- A page staged for a swap that no pass reads yet fails its check: it is restaged from its flash copy, which is repaired first where it fails too; until then
the swap cannot proceed (Table 09-12). -/
def State.stagedFails (s : State) (d w : Nat) : State :=
  if s.deepReads && s.weightOk w true then ((s.copyPage w d).flashRead (w * 65536 - deepBase) 65536).carryClean w d
  else (s.restage d 0).flashPageFails w true none

/-- Only swaps that have not taken effect use a page: no leaf names it but those of a shadow set that is being built (R304, R305). -/
def State.onlyStaged (s : State) (d : Nat) : Bool :=
  s.stagedBy d && (s.holders d).all (fun h => s.swaps.any (fun x =>
    x.job == h.1 && x.shadow && x.executed.isNone && x.pages.any (fun g => g.1 == h.2 && g.2.2 == d)))

/-- The check of a resident copy, or of a KIND 2 or KIND 3 page that a load wrote. -/
def State.sweepResident (s : State) (d : Nat) (ok : Bool) : State :=
  let hs := s.holders d
  let job := hs.head?.map (·.1)
  match (mget s.homes d).bind s.partOf with
  | some (slot, p, i) =>
    if ok && leafDigest p.role i (s.readPa (d * 65536) 65536) == s.storedLeaf slot p i then { s with cleanAt := mset s.cleanAt d s.commits }
    else match mget s.homes d with
      | some w => if s.onlyStaged d then s.stagedFails d w else s.residentFails d p.role i job
      | none => s
  | none =>
    match hs.findSome? (fun h => mget s.loaded (vkey h.1 h.2)) with
    | some (dig, role, i) =>
      if ok && leafDigest role i (s.readPa (d * 65536) 65536) == dig then { s with cleanAt := mset s.cleanAt d s.commits }
      else s.residentFails d role i job
    | none => s

/-- GLINT_SWEEP_CHECK (R299): `page` is a physical page, of the weight region or of the DRAM tiers. -/
def execGlintSweepCheck (page : Nat) (ok : Bool) (repair : Option (List Byte)) (s : State) : Host.Outcome State Fault Refusal :=
  .next (if isWeight page then s.sweepFlash page ok repair else s.sweepResident page ok)

/-- Drain phase: a resident copy is reloaded from its flash copy, when that verifies (R301). -/
def State.reloadCopies (s : State) : State :=
  s.reload.foldl (fun s d =>
    match mget s.homes d with
    | some w => if s.deepReads && s.weightOk w true then
        let s := (s.copyPage w d).flashRead (w * 65536 - deepBase) 65536
        { s with cleanAt := mset s.cleanAt d s.commits }
      else s
    | none => s) { s with reload := [] }

end Sys2Proof.Machine
end

