-- ==== Sys2Proof/Machine/Passes.lean ====
section
/-!
DEFINITION. Forming a pass, starting it, and sharing the cores: labels, candidates, reservations, the formation exchange, the banks a pass takes,
its staging descriptors, and pre-emption (R136, R161, R165, R187, R207, R330, R340, R341, R354–R359, R362, R364–R366).
-/

namespace Sys2Proof.Machine

open Sys2Proof

/-! ### Labels (R354) -/

/-- The label of the pass formed next: START_CT, or L + j × PASS_CT for the least j ≥ 1 that reaches S + FORM_CT; after a rejoin the label it
fixed (R559). -/
def Job.nextLabel (j : Job) : Nat :=
  match j.relabel, j.lastLabel with
  | some l, _ => l
  | none, none => j.startCt
  | none, some l => l + max 1 (ceilDiv (j.lastStart + j.formCt - l) (max 1 j.passCt)) * j.passCt

/-! ### Candidates and reservations (R161, R330, R356) -/

/-- D of a stream (R356). -/
def Stream.due (x : Stream) : Nat := x.nextOut - x.lead

/-- A stream may join the pass of a label (R330, R356). -/
def State.candidate (s : State) (job : Nat) (j : Job) (label n : Nat) (x : Stream) : Bool :=
  x.job == job && x.st == 1 && !s.inAnyPass job n && decide (x.out.length < x.outCount) && decide (x.len < x.maxPages * 16) &&
  decide (x.due ≤ label + j.horizonCt)

/-- The candidate list: ascending D, then class, then stream number. -/
def State.candidates (s : State) (job : Nat) (j : Job) (label : Nat) : List Nat :=
  let cs := s.streams.filter (fun e => s.candidate job j label e.1 e.2)
  (sortBy (fun (a b : Nat × Stream) => keyLt [a.2.due, a.2.cls, a.1] [b.2.due, b.2.cls, b.1]) cs).map (·.1)

/-- Frames for the next page of every list of a stream whose entry is invalid, or none when they are not all free (R161). -/
def State.reserve (s : State) (job n : Nat) : Option State :=
  match s.job job, s.stream n with
  | some j, some x =>
    if x.len % 16 != 0 then some s
    else
      let p := x.len / 16
      let ks := (j.lists job n).filter (fun k => pteState (s.pte k x j.hg p) == 0)
      let take := fun (a : Option Arena) (k : ListKey) => a.bind (fun a =>
        let w := if s.kv8Of k x j.hg then 2 else 1
        (({ j with arena := a } : Job).findFrame (Config.freeNat s.freeCtr) w).map (fun f =>
          { a.take f w with reserved := mset a.reserved n ((mget a.reserved n).getD [] ++ [(f, w)]) }))
      (ks.foldl take (some j.arena)).map (fun a => s.useFree.modArena job (fun _ => a))
  | _, _ => none

/-- The walk of R356: streams found eligible, streams whose reservation failed, streams behind the stop at PASS_MAX. -/
def State.walk (s : State) (job room : Nat) : List Nat → List Nat → List Nat → State × List Nat × List Nat × List Nat
  | [], took, failed => (s, took, failed, [])
  | n :: rest, took, failed =>
    if took.length ≥ room then (s, took, failed, n :: rest)
    else match s.reserve job n with
      | some s => s.walk job room rest (took ++ [n]) failed
      | none => s.walk job room rest took (failed ++ [n])

/-- The 2,048 B eligibility bitmap (R357). -/
def bitmapOf (ns : List Nat) : List Byte :=
  (List.range 2048).map (fun i => BitVec.ofNat 8 ((ns.filter (fun n => n / 8 == i)).foldl (fun v n => v + 2 ^ (n % 8)) 0))
def bitmapHas (bs : List Byte) (n : Nat) : Bool := bit (getLE bs (n / 8) 1) (n % 8)

/-- Offset of a writer's bitmap in the formation area. -/
def Job.formOff (j : Job) (seq i : Nat) : Nat := (seq % 2 * j.formPeers + i) * 2048
def Job.peerList (j : Job) : List Nat := (List.range j.formPeers).map j.peer
def Job.memberList (j : Job) : List Nat := (List.range j.members).map j.member
/-- This module's index in the formation group. -/
def Job.myPeer (j : Job) (me : Nat) : Nat := ((List.range j.formPeers).find? (fun i => j.peer i == me)).getD 0

/-- Send `lines` lines from an offset of a window to one endpoint, then, behind a fence, one increment (R357, R360). -/
def State.sendFenced (s : State) (job win off peg : Nat) (bs : List Byte) (e : Nat) : State :=
  let s := s.sendAll .sched job ((linesAt off bs).map (fun l => pktWrite e win l.1 0 l.2))
  s.fence .sched job (some e) [pktInc e win peg 1 0]

/-! ### PASS_FORMATION (R356, R357 steps 1 and 2) -/

/-- No pass of the job with this label may be formed: it is being destroyed at or before it (R368). -/
def Job.ended (j : Job) (label : Nat) : Bool :=
  match j.destroy with
  | some d => decide (d.effective ≤ label)
  | none => false

/-- The next formation of a job is due. -/
def State.formationDue (s : State) (job : Nat) (j : Job) : Bool :=
  j.phase != .loading && !j.suspended && !j.standby && j.lossWait.isEmpty && j.formed.isNone && j.forming.isNone &&
  !j.ended j.nextLabel && !s.swapHolds job &&
  (match j.formAt with
   | some t => decide (t ≤ s.nowN)
   | none => false)

/-- One job's formation: candidates, reservations, bitmaps. The first formation tick at which a stream meets the horizon test is kept (R369). -/
def State.formJob (s : State) (job : Nat) : State :=
  match s.job job with
  | none => s
  | some j =>
    if !s.formationDue job j then s
    else
      let label := j.nextLabel
      let cs := s.candidates job j label
      let at_ := j.formAt.getD s.nowN
      let (s, took, failed, capped) := s.walk job j.passMax cs [] []
      let s := s.modJob job (fun j => { j with
        forming := some { seq := j.nextSeq, label := label, eligible := took, framesFailed := failed, capped := capped, formBase := j.formBase }
        waits := cs.foldl (fun w n => if (mget w n).isSome then w else mset w n at_) j.waits })
      let bs := bitmapOf took
      j.peerList.foldl (fun s e => s.sendFenced job j.formWindow (j.formOff j.nextSeq (j.myPeer s.endpoint)) j.formPeg bs e) s

/-- PASS_FORMATION (R356): every job whose formation tick has come. -/
def execPassFormation (s : State) : Host.Outcome State Fault Refusal :=
  .next (if s.jobNums.any (fun n => match s.job n with
      | some j => s.formationDue n j
      | none => false) then s.jobNums.foldl State.formJob s.gateBays else s)

/-! ### What a pass takes when it is formed -/

/-- A switch whose tick has come is in force from this pass on (R136, R210, R428). -/
def Banked.take (b : Banked) (label seq : Nat) : Banked × Option Switch :=
  match b.pending with
  | some w =>
    if w.applied.isNone && decide (w.effective ≤ label) then
      ({ active := w.value, pending := some { w with applied := some seq } }, some w)
    else (b, none)
  | none => (b, none)

/-- The previous value is released: every pass that used it has committed. -/
def Banked.release (b : Banked) (next : Nat) : Banked × Option Switch :=
  match b.pending with
  | some w =>
    match w.applied with
    | some a => if a ≤ next then ({ b with pending := none }, some w) else (b, none)
    | none => (b, none)
  | none => (b, none)

def State.postSwitch (s : State) (w : Option Switch) (op status : Nat) (result : List Byte) (first : Bool) : State :=
  match w with
  | some w => s.completeLater w.ring op w.cookie status result first
  | none => s

/-- DOVETAIL_BANKj on every bay's page (Table 06-19), and ROUTE_JOB_LEVELj (R428). -/
def State.showBank (s : State) (n : Nat) : State :=
  let v : Nat × Nat := match s.job n with
    | some j => (b2n j.placement.pending.isSome * 2 ^ 8 + j.placement.active % 2,
        2 ^ 31 + b2n j.level.pending.isSome * 2 ^ 16 + j.level.active % 256)
    | none => (0, 0)
  let s := (List.range 16).foldl (fun s b => s.setPreg (.dovetail b) (0x1E0 + 4 * n) (BitVec.ofNat 32 v.1)) s
  s.setPreg .route (0x180 + 4 * n) (BitVec.ofNat 32 v.2)

/-- Switches taken by the pass being formed post APPLIED with its label; with no pass executing they post RELEASED too. -/
def State.takeSwitches (s : State) (n label seq : Nat) : State :=
  match s.job n with
  | none => s
  | some j =>
    let r := j.recipe.take label seq
    let p := j.placement.take label seq
    let l := j.level.take label seq
    let s := s.setJob n { j with recipe := r.1, placement := p.1, level := l.1 }
    let res := leBytes 8 label
    ((s.postSwitch r.2 0x20 stApplied res true).postSwitch p.2 0x21 stApplied res true).postSwitch l.2 0x22 stApplied res true

/-- Switches whose earlier passes have all committed post RELEASED. `next`: the first PASS_SEQ not committed. -/
def State.releaseSwitches (s : State) (n next : Nat) : State :=
  match s.job n with
  | none => s
  | some j =>
    let r := j.recipe.release next
    let p := j.placement.release next
    let l := j.level.release next
    let s := s.setJob n { j with recipe := r.1, placement := p.1, level := l.1 }
    (((s.postSwitch r.2 0x20 stReleased [] false).postSwitch p.2 0x21 stReleased [] false).postSwitch l.2 0x22 stReleased [] false).showBank n

/-- The port through which each layer's SCATTER is issued (R187). -/
def State.portFor (s : State) (bay : Nat) : Nat :=
  if !s.absent bay then bay
  else
    let die := (List.range 8).map (fun i => bay / 8 * 8 + i)
    match die.find? (fun b => !s.absent b) with
    | some b => b
    | none => ((List.range 16).find? (fun b => !s.absent b)).getD bay

def State.scatterPorts (s : State) (j : Job) : List (Nat × Nat) :=
  (List.range (manLayers j.manifest)).map (fun l => (l, s.portFor (manScatterBay j.manifest l)))

/-! ### Bases of the expert pegs (R207) -/

/-- Add to a base held for a peg; a peg without one stands at its present value. -/
def State.baseAdd (s : State) (m : List (Nat × Nat)) (peg n : Nat) : List (Nat × Nat) :=
  mset m peg (((mget m peg).getD (s.pegValue peg) + n) % 2 ^ 32)

/-- What a pass adds to the expert pegs in one layer. -/
def State.layerTotals (s : State) (b : Bank) (layer : Nat) (m : List (Nat × Nat)) : List (Nat × Nat) :=
  let ex := b.exchange layer
  let me := s.endpoint
  let n := b.instances.length
  let m := (List.range b.queues).foldl (fun m k =>
    let serves := b.instances.any (fun w => repEndpoint w == me && repSlot w == k)
    let m := s.baseAdd m (b.arrivalPeg k) (if serves then (if ex then 2 else 1) * b.sources else 0)
    s.baseAdd m (b.donePeg k) (b2n serves)) m
  let m := s.baseAdd m b.returnPeg n
  if ex then s.baseAdd m b.grantPeg n else m

/-- The bases after a pass on a placement bank. -/
def State.basesAfter (s : State) (job bank : Nat) (m : List (Nat × Nat)) : Nat → Acc (List (Nat × Nat))
  | 0 => .ok m
  | l + 1 => (s.basesAfter job bank m l).bind fun m => (s.bank job bank l).bind fun b => .ok (s.layerTotals b l m)

/-! ### Staging descriptors of a formed pass (R165) -/

/-- One page that an ATTN of the pass visits: a descriptor when it is deep. The bay charged with it is not stated (log 92). -/
def State.stageVisit (s : State) (k : ListKey) (p deadline : Nat) : State :=
  match s.stream k.stream, s.job k.job with
  | some x, some j =>
    let e := s.pte k x j.hg p
    if pteState e != 2 then s
    else match s.askStage (Config.freeNat s.freeCtr % 16) k x j p (ptePen e) (s.kv8Of k x j.hg) deadline 0 with
      | .ok r => r.1.useFree
      | .bad c jb va => s.transFault c jb va 3 0
      | .poison pa va => s.poisonFault k.job pa va
      | _ => s
  | _, _ => s

/-- Every deep page of the pass's streams: ascending layer, stream in pass order, head group, page. -/
def State.stagePass (s : State) (job label : Nat) (streams : List Nat) : State :=
  match s.job job with
  | none => s
  | some j =>
    (List.range j.layers).foldl (fun s l =>
      streams.foldl (fun s n =>
        match s.stream n with
        | none => s
        | some x => (List.range j.hg).foldl (fun s g =>
            (List.range x.pages).foldl (fun s p => s.stageVisit ⟨job, n, l, g⟩ p (label + manCutoff j.manifest l)) s) s) s) s

/-! ### FORMATION_EXCHANGE_COMPLETE (R357 steps 3 to 5, R358, R362) -/

/-- The bitmaps of the group, in peer order. -/
def State.bitmaps (s : State) (job : Nat) (j : Job) (seq : Nat) : Nat → Acc (List (List Byte))
  | 0 => .ok []
  | i + 1 => (s.bitmaps job j seq i).bind fun r => (s.winRead job j.formWindow (j.formOff seq i) 2048).bind fun b => .ok (r ++ [b])

/-- Deferrals by client: CAP, FRAMES, PEER (R358). -/
def State.deferrals (s : State) (xs : List (Nat × Nat)) : List (Nat × Nat × Nat × Nat) :=
  xs.foldl (fun m (x : Nat × Nat) =>
    match s.stream x.1 with
    | none => m
    | some y =>
      let o := (mget m y.client).getD (0, 0, 0)
      mset m y.client (match x.2 with
        | 0 => (o.1 + 1, o.2.1, o.2.2)
        | 1 => (o.1, o.2.1 + 1, o.2.2)
        | _ => (o.1, o.2.1, o.2.2 + 1))) []

/-- A scheduling-class fault (Table 11-2). -/
def State.schedFault (s : State) (job code member label runId : Nat) : State :=
  s.contained .errlog { code := 0x9000 + code, sev := 3, key := member % 1024, detail := leBytes 8 label ++ leBytes 4 runId, job := some job }

/-- An access of the scheduler core itself that is not served. -/
def State.schedAcc {α : Type} (s : State) (job : Nat) (x : Acc α) (k : α → State) : State :=
  match x with
  | .ok a => k a
  | .bad c j va => s.unitFault .sched c j va
  | .poison pa va => s.unitPoison job pa va
  | .deep j vp => s.park .sched j vp
  | .remote _ _ _ _ => s

/-- The virtual pages of an adapter: its KIND 2 range and its shim descriptors (R297). -/
def Job.adapterPages (j : Job) (a : Nat) : List (Nat × Nat) :=
  let m := j.manifest
  let r := manRange m (getLE m (secOff m 6 + 16 * a + 4) 4)
  let d := getLE m (secOff m 6 + 16 * a + 8) 8
  let n := manLayers m * getLE m 26 2 * 256
  [(r.va / 65536, r.pages), (d / 65536, ceilDiv (d % 65536 + n) 65536)]

/-- The scheduler core promotes the pages of every adapter that a formed pass names, those in the deep tier, as hinted moves due at the pass's launch (R232,
log 264). -/
def State.adapterMoves (s : State) (job : Nat) (p : Pass) : State :=
  match s.job job with
  | none => s
  | some j =>
    let as := (p.streams.filterMap (fun n => (s.stream n).map (·.adapter))).eraseDups.filter (· != 0)
    (as.flatMap j.adapterPages).foldl (fun s r => (s.mapped job r.1 r.2).foldl (fun s vp => match s.leafOf job vp with
      | some l => if tierOf s.isH (l.page * 65536) == some 2 then s.queueMove job vp .hint (if l.cls = 2 then 0 else 1) p.label else s
      | none => s) s) s

/-- The pass is formed from the streams taken. -/
def State.formPass (s : State) (job : Nat) (f : Forming) (bms : List (List Byte)) : State :=
  match s.job job with
  | none => s
  | some j0 =>
    let inAll := fun (n : Nat) => bms.all (fun b => bitmapHas b n)
    let taken := (f.eligible.filter inAll).take j0.passMax
    let left := f.eligible.filter (fun n => !taken.contains n)
    let why := f.framesFailed.map (fun n => (n, 1)) ++ left.map (fun n => (n, if inAll n then 0 else 2)) ++
      f.capped.map (fun n => (n, if bms.zipIdx.all (fun b => b.2 == j0.myPeer s.endpoint || bitmapHas b.1 n) then 0 else 2))
    let defers := s.deferrals why
    let s := s.modArena job (fun a => left.foldl (fun (a : Arena) n => a.unreserve n) a)
    let s := (s.takeSwitches job f.label f.seq).swapsFormed job f.seq
    match s.job job with
    | none => s
    | some j =>
      s.schedAcc job (s.basesAfter job j.placement.active j.pegBase (manLayers j.manifest)) fun after =>
        let now := after.map (fun e => (e.1, (mget j.pegBase e.1).getD (s.pegValue e.1)))
        let p : Pass := {
          seq := f.seq, label := f.label, start := if f.seq = 0 then some f.label else if j.executing.isNone then some (max f.label j.lastB) else none
          streams := taken, recipeBank := j.recipe.active, placementBank := j.placement.active, level := j.level.active, onB := j.onB
          barrierBase := (j.barrierBase + (if j.executing.isSome then j.members else 0)) % 2 ^ 32, formBase := f.formBase
          pegBases := now, scatterBays := s.scatterPorts j, deferrals := defers
          waits := taken.map (fun n => (n, (mget j.waits n).getD f.label)) }
        let s := s.setJob job { j with
          formed := some p, forming := none, relabel := none, lastLabel := some f.label, nextSeq := f.seq + 1
          formBase := (f.formBase + j.formPeers) % 2 ^ 32, formAt := none, pegBase := after
          waits := taken.foldl (fun w n => mdel w n) j.waits }
        let s := if j.executing.isNone then s.releaseSwitches job f.seq else s.showBank job
        let s := taken.foldl (fun s n => (s.skipFrames n f.label).consumeSlot n) s
        if (s.job job).any (fun j => j.formed.isSome) then (s.adapterMoves job p).stagePass job f.label taken else s

/-- A job whose formation exchange may have completed. -/
def State.exchangeDone (s : State) (job : Nat) : State :=
  match s.job job with
  | none => s
  | some j =>
    match j.forming with
    | none => s
    | some f =>
      let target := (f.formBase + j.formPeers) % 2 ^ 32
      let v := s.pegValue j.formPeg
      if !reached v target then s
      else if v != target then s.schedFault job 2 j.myMember f.label 0
      else if s.swapHolds job then s
      else s.schedAcc job (s.bitmaps job j f.seq j.formPeers) fun bms => s.formPass job f bms

/-- FORMATION_EXCHANGE_COMPLETE (R357): every job whose FORM_PEG has reached its target. -/
def execFormationExchangeComplete (s : State) : Host.Outcome State Fault Refusal := .next (s.jobNums.foldl State.exchangeDone s)

/-! ### Sharing the cores (R364, R365) -/

/-- Nothing of the pass or run that holds the cores is left in the bays. -/
def State.baysQuiet (s : State) (job : Nat) : Bool :=
  s.cores.all (fun e => e.2.q.isEmpty) && s.doves.all (fun e => e.2.q.isEmpty) && s.chans.all (fun e => decide (e.1 < 1000) || e.2.q.isEmpty) &&
  s.ccHeld.isEmpty && s.unitHeld.isEmpty && s.parked.all (fun x => x.unit.outside || x.job != job)

/-- Step 10 has readied the egress slot of a committed frame, or the frame needs none any more: it has left or was late (R32, R342). -/
def State.frameReady (s : State) (job n seq : Nat) : Bool :=
  match s.stream n with
  | none => true
  | some x =>
    match x.out.find? (fun f => f.seq == seq) with
    | none => true
    | some f => x.job != job || (match s.readVa job (x.outBase + f.seq % x.outCount * x.outStride) 32 with
        | .ok bs => slotReady x n f bs
        | _ => false)

/-- Step 10 of a job's committed passes is done (R32, R36). -/
def State.tailDone (s : State) (job : Nat) : Bool :=
  match s.job job with
  | none => true
  | some j => j.tail.all (fun e => s.frameReady job e.1 e.2)

/-- The order of R364: class, passes before runs, start tick, job, arrival. Step 10 of a committed pass goes with that pass's start tick; after a fault it is
run again for the frames not yet ready (R36). -/
def State.units (s : State) : List (Holder × List Nat) :=
  (s.jobs.filterMap (fun (e : Nat × Job) =>
    if s.tailDone e.1 then none else some (Holder.tail e.1, [e.2.passClass, 0, e.2.lastStart, e.1, 0]))) ++
  (s.jobs.filterMap (fun (e : Nat × Job) =>
    match e.2.executing with
    | some p => if p.begun && !e.2.halts p.seq then some (Holder.pass e.1, [e.2.passClass, 0, p.start.getD p.label, e.1, 0]) else none
    | none => none)) ++
  (s.runs.filterMap (fun (r : Run) => if r.start ≤ s.nowN then some (Holder.run r.uid, [r.cls, 1, r.start, r.job, r.uid]) else none))

/-- The unit that should hold the cores. -/
def State.best (s : State) : Option (Holder × List Nat) :=
  s.units.foldl (fun b (u : Holder × List Nat) =>
    match b with
    | none => some u
    | some w => if keyLt u.2 w.2 then some u else some w) none

def State.unitClass (s : State) (h : Holder) : Nat :=
  match s.units.find? (fun u => u.1 == h) with
  | some u => u.2.headD 4
  | none => 4

/-- Ticks spent pre-empted are added to a unit that resumes. -/
def State.addPreempted (s : State) (h : Holder) (n : Nat) : State :=
  match h with
  | .pass j => s.modPass j (fun p => { p with preemptCt := p.preemptCt + n })
  | .tail _ => s
  | .run u => { s with runs := s.runs.map (fun (r : Run) => if r.uid == u then { r with preemptCt := r.preemptCt + n } else r) }

def State.addPreempt (s : State) (h : Holder) : State :=
  match h with
  | .pass j => s.modPass j (fun p => { p with preempts := p.preempts + 1 })
  | .tail _ => s
  | .run u => { s with runs := s.runs.map (fun (r : Run) => if r.uid == u then
      { r with preempts := r.preempts + 1, held := r.held + (s.nowN - r.heldFrom.getD s.nowN), heldFrom := none } else r) }

/-- A unit takes the cores; what was saved of it comes back: the control cores emit its commands again, its DMA channels go on from their
residues, and its ports go on (R365, R453, Table 07-8). -/
def State.giveCores (s : State) (h : Holder) : State :=
  let t := s.nowN
  let s := { s with
    holder := some h
    runs := s.runs.map (fun (r : Run) => if h == Holder.run r.uid then { r with heldFrom := some t, begun := some (r.begun.getD t) } else r) }
  match s.saved.find? (fun x => x.holder == h) with
  | none => s
  | some v =>
    let s : State := { s with saved := s.saved.filter (fun x => x.holder != h), unitHeld := v.held.map (fun x => (x.1, x.2.1, t, x.2.2.2)) }
    let s := s.addPreempted h (t - v.at_)
    let s := v.doves.foldl (fun s (d : Nat × Dove) =>
      let waits := s.parked.any (fun x => x.unit == UnitId.dovetail d.1 && x.job == d.2.job && !x.resolved)
      let s := if waits then s else s.unpark (.dovetail d.1)
      (s.putDove d.1 { d.2 with parked := d.2.parked && waits }).dvStep d.1) s
    let s := v.chans.foldl (fun s (c : Nat × Chan) =>
      let ch : DmaChan := .bay ((c.1 - 1000) / 16) ((c.1 - 1000) % 16)
      let waits := s.parked.any (fun x => x.unit == dmaUnit ch && x.job == c.2.job && !x.resolved)
      let s := if waits then s else s.unpark (dmaUnit ch)
      s.putChan ch c.2 (if waits then 3 else 1)) s
    v.cores.foldl (fun s (c : Nat × List (List Byte)) => c.2.foldl (fun s d => s.issue (c.1 / 16) (c.1 % 16) d) s) s

/-- Step 10 that holds the cores and is done gives them up. -/
def State.endTail (s : State) : State :=
  match s.holder with
  | some (.tail j) => if s.tailDone j && s.baysQuiet j then { s.modJob j (fun x => { x with tail := [] }) with holder := none, preempting := none } else s
  | _ => s

/-- Step 10 is never pre-empted (R364). -/
def Holder.steady : Holder → Bool
  | .tail _ => true
  | _ => false

/-- No unit holds the cores: the best runnable one takes them. A holder of a higher class number is pre-empted, step 10 excepted (R364). Between a
contained fault and the end of its drain and remap no unit takes the cores (R41, R83). -/
def State.reschedule (s : State) : State :=
  let s := s.endTail
  if s.faultCt.isSome then s
  else match s.holder, s.best with
  | none, some b => s.giveCores b.1
  | some h, some b => if b.2.headD 4 < s.unitClass h && s.preempting.isNone && !h.steady then { s with preempting := some b.1 } else s
  | _, _ => s

/-- The holder's unit ends: its units are empty and the cores are free. -/
def State.dropHolder (s : State) (h : Holder) : State :=
  let s := if s.holder == some h then { s with holder := none, preempting := none } else s
  { s with saved := s.saved.filter (fun x => x.holder != h) }.reschedule

/-- PREEMPTION_REQUEST (R364): the scheduler core compares the runnable units with the holder. -/
def execPreemptionRequest (s : State) : Host.Outcome State Fault Refusal := .next s.reschedule

/-- Every unit of the holder has come to a stop (R365): a core's head not started, or stalled on a translation fault; ports not started or
set aside; channels at the end of a burst. -/
def State.preemptReady (s : State) : Bool :=
  s.cores.all (fun e => e.2.q.isEmpty || !e.2.started || (!e.2.executed && e.2.st == 4)) &&
  s.doves.all (fun e => e.2.q.isEmpty || e.2.phase == 0 || e.2.parked) &&
  s.chans.all (fun e => decide (e.1 < 1000) || e.2.q.isEmpty || !e.2.started ||
    (!e.2.fencing && !e.2.done && !s.reqs.any (fun r =>
      r.unit == UnitId.bayDma ((e.1 - 1000) / 16) ((e.1 - 1000) % 16) && r.pkt.typ == tLineRead)))

/-- Save the holder's units and clear the bays (R365). Only a started DMA descriptor and a set-aside port descriptor keep their progress. -/
def State.saveHolder (s : State) (h : Holder) : State :=
  let held := fun (k : Nat) => (s.ccHeld.filter (fun x => x.1 == k)).map (·.2.2)
  let v : Saved := {
    holder := h, at_ := s.nowN
    cores := (s.cores.filter (fun e => !e.2.q.isEmpty || !(held e.1).isEmpty)).map (fun e => (e.1, e.2.q ++ held e.1))
    chans := s.chans.filter (fun e => decide (1000 ≤ e.1) && !e.2.q.isEmpty)
    doves := s.doves.filter (fun e => !e.2.q.isEmpty)
    held := s.unitHeld }
  let s := v.cores.foldl (fun s (c : Nat × List (List Byte)) => s.putCore (c.1 / 16) (c.1 % 16) (s.core (c.1 / 16) (c.1 % 16)).emptied) s
  let s := v.chans.foldl (fun s (c : Nat × Chan) =>
    ({ s with chans := mdel s.chans c.1 }).showBayChan ((c.1 - 1000) / 16) ((c.1 - 1000) % 16) {} 0 0) s
  let s := v.doves.foldl (fun s (d : Nat × Dove) => s.putDove d.1 {}) s
  let inCore := fun (u : UnitId) => match u with
    | .core _ _ => true
    | .scribe _ => true
    | _ => false
  ({ s with
    saved := s.saved ++ [v], holder := none, preempting := none, ccHeld := [], unitHeld := []
    parked := s.parked.filter (fun x => !inCore x.unit) }).addPreempt h

/-- PREEMPTION_EFFECTIVE (R365): the holder's state is saved and the newcomer takes the cores. -/
def State.preempt (s : State) : State :=
  match s.holder, s.preempting with
  | some h, some _ => if s.preemptReady then (s.saveHolder h).reschedule else s
  | _, _ => s

def execPreemptionEffective (s : State) : Host.Outcome State Fault Refusal := .next s.preempt

/-! ### PASS_START (R354, R355) -/

/-- What bay memory holds of a job is undefined from here on (R50). -/
def State.clearBay (s : State) (job : Nat) : State :=
  let mine := fun (a : Nat) =>
    let p := s.partition (a / 0x01000000) job
    decide (p.1 ≤ a % 0x01000000) && decide (a % 0x01000000 < p.1 + p.2)
  { s.useFree with bayMem := s.bayMem.filter (fun c => !mine c.1), bayZero := s.bayZero.filter (fun z => !mine z.1) }

/-- Begin step 3 of a pass whose start tick has come. -/
def State.startJob (s : State) (job : Nat) : State :=
  match s.job job with
  | none => s
  | some j =>
    match j.formed, j.executing with
    | some p, none =>
      match p.start with
      | none => s
      | some t =>
        if t ≤ s.nowN && s.faultCt.isNone && !j.halts p.seq && !j.ended p.label && !j.suspended && j.lossWait.isEmpty then
          (s.setJob job { j with executing := some { p with begun := true }, formed := none, lastStart := t, formAt := some t }).clearBay job
        else s
    | _, _ => s

/-- PASS_START (R354): every job whose formed pass has reached its start tick; the cores are shared anew. -/
def execPassStart (s : State) : Host.Outcome State Fault Refusal := .next (s.jobNums.foldl State.startJob s).reschedule

end Sys2Proof.Machine
end

