-- ==== Sys2Proof/Machine/Repair.lean ====
section
/-!
DEFINITION. Repair of poisoned lines from committed state (R563, R564).
-/

namespace Sys2Proof.Machine

open Sys2Proof

/-- The frame whose data or sidecar holds a virtual address of the arena; whether it is the sidecar. -/
def Job.frameAt (j : Job) (va : Nat) : Option (Nat × Bool) :=
  if j.dataBase ≤ va ∧ va < j.dataBase + j.frames * 2048 then some ((va - j.dataBase) / 2048, false)
  else if j.sideBase ≤ va ∧ va < j.sideBase + j.frames * 128 then some ((va - j.sideBase) / 128, true)
  else none

/-- The page of a stream's list that a frame holds: list, page, entry, KV8. -/
def State.frameOwner (s : State) (job : Nat) (j : Job) (f : Nat) : Option (ListKey × Nat × Nat × Bool) :=
  s.streams.findSome? (fun (e : Nat × Stream) =>
    if e.2.job != job then none
    else (j.lists job e.1).findSome? (fun k =>
      let kv8 := s.kv8Of k e.2 j.hg
      ((List.range (e.2.len / 16 + 1)).find? (fun p =>
        let v := s.pte k e.2 j.hg p
        pteState v == 1 && (pteFrame v == f || (kv8 && pteFrame v + 1 == f)))).map (fun p => (k, p, s.pte k e.2 j.hg p, kv8))))

/-- The record of a repair: code 0x005 or 0x006 of the memory class. -/
def State.repaired (s : State) (code pa va job : Nat) : State :=
  s.report ((memPage s.isH pa).getD .migrate)
    { code := 0x5000 + code, sev := 2, key := lineKey pa, detail := memDetail s.isH pa va, job := some job }

/-- The cutoff that a page staged again meets: that of the job's pass, or the stream's own deadline where no pass is formed. -/
def Job.restageBy (j : Job) (x : Stream) (layer : Nat) : Nat :=
  match j.named with
  | some p => p.label + manCutoff j.manifest layer
  | none => x.nextOut - x.lead

/-- A full key-value page is lost from its frame: staged again, or penumbra only without a record (R563). -/
def State.losePage (s : State) (j : Job) (k : ListKey) (x : Stream) (p e : Nat) (kv8 : Bool) : State :=
  let w := if kv8 then 2 else 1
  if pteFlash e then
    let s := (s.setPte k x j.hg p (pteMake 2 true (ptePen e) 0)).modArena k.job (·.drop (pteFrame e) w)
    match s.askStage (Config.freeNat s.freeCtr % 16) k x j p (ptePen e) kv8 (j.restageBy x k.layer) 0 with
    | .ok r => r.1.useFree
    | _ => s
  else ((s.setPte k x j.hg p (pteMake 3 false 0 0)).modArena k.job (·.drop (pteFrame e) w)).penOnlyPage k p

/-- A line of a page that keeps its place is rewritten with zeros; a line that held a committed position degrades the stream (R563). -/
def State.zeroLine (s : State) (j : Job) (k : ListKey) (x : Stream) (p e : Nat) (kv8 side : Bool) (pa va : Nat) : State :=
  let s := s.writePa pa (List.replicate 128 0)
  let s := if pteFlash e then
      ((s.setPte k x j.hg p (pteMake 1 false 0 (pteFrame e))).modArena k.job (·.dropPen (ptePen e))).modStream k.stream (fun x =>
        { x with refs := x.refs.filter (fun r => r.1 != pagePlace k.layer k.group p) })
    else s
  let o := (va - j.dataBase) % 2048
  let pos := if side then 0 else if kv8 then o / 128 else o % 1024 / 64
  let s := s.sweepUnits
  if pos < x.len % 16 then s.degrade k.stream else s

/-- Repair one poisoned line, if committed state can restore it (R563). -/
def State.repairLine (s : State) (line : Nat) : State :=
  let pa := line * 128
  let page := pa / 65536
  if !s.poisoned line then s
  else match s.holders page with
  | [] => s
  | (job, vp) :: _ =>
    let va := vp * 65536 + pa % 65536
    match s.leafOf job vp, s.job job with
    | some l, some j =>
      if !l.write then
        match mget s.homes page with
        | some w =>
          if s.deepReads && s.weightOk w true then
            ((s.writePa pa (s.readPa (w * 65536 + pa % 65536) 128)).flashRead (w * 65536 - deepBase) 65536).repaired 6 pa va job
          else s
        | none => s
      else match j.frameAt va with
        | none => s
        | some (f, side) =>
          match s.frameOwner job j f with
          | none => s
          | some (k, p, e, kv8) =>
            match s.stream k.stream with
            | none => s
            | some x =>
              if p < x.len / 16 then (s.losePage j k x p e kv8).repaired 5 pa va job
              else (s.zeroLine j k x p e kv8 side pa va).repaired 5 pa va job
    | _, _ => s

/-- The drain phase repairs every poisoned line that it can (R563). -/
def State.repairAll (s : State) : State := (s.poison.foldl State.repairLine s)

/-- The boundary between two passes of a job: what the scrub has found in its pages is repaired (R564). -/
def State.repairScrubbed (s : State) (job : Nat) : State :=
  let mine := s.scrubbed.filter (fun l => (s.holders (l * 128 / 65536)).any (fun h => h.1 == job))
  mine.foldl State.repairLine { s with scrubbed := s.scrubbed.filter (fun l => !mine.contains l) }

end Sys2Proof.Machine
end

