-- ==== Sys2Proof/Machine/Commit.lean ====
section
/-!
DEFINITION. The barrier, the commit of a pass with everything it leaves, and runs (R134, R135, R161, R162, R192, R193, R217, R329, R330, R353, R360–R363, R367,
R369, R476).
-/

namespace Sys2Proof.Machine

open Sys2Proof

/-! ### The barrier line (R360) -/

def barrierLine (seq label done member : Nat) : List Byte :=
  leBytes 8 seq ++ leBytes 8 label ++ leBytes 8 done ++ leBytes 2 member ++ leBytes 102 0

/-- Offset of a member's line in the barrier area. -/
def Job.barrierOff (j : Job) (seq i : Nat) : Nat := (seq % 2 * j.members + i) * 128

/-- Step 8 of the executing pass ended at tick `done` and the next pass is formed, or none can be: the line goes to every member (R360). -/
def State.sendBarrier (s : State) (job done : Nat) : State :=
  match s.job job with
  | none => s
  | some j =>
    match j.executing with
    | none => s
    | some p =>
      let formed := j.formed.isSome || j.ended j.nextLabel
      if s.holder != some (.pass job) || !p.begun || p.barrierSent || !formed || !s.baysQuiet job || decide (s.nowN < done) || j.halts p.seq then s
      else
        let s := s.setJob job { j with executing := some { p with barrierSent := true, doneCt := done } }
        j.memberList.foldl (fun s e =>
          s.sendFenced job j.barrierWindow (j.barrierOff p.seq j.myMember) j.barrierPeg (barrierLine p.seq p.label done j.myMember) e) s

/-- BARRIER_LINE_SEND (R360). The tick at which the module finished step 8 is an operand: the pass plan decides what step 8 holds (R285). -/
def execBarrierLineSend (job done : Nat) (s : State) : Host.Outcome State Fault Refusal := .next (s.sendBarrier job done)

/-! ### Accounting and completions (R363, R369, R476) -/

/-- Streams of a client among a list. -/
def State.ownedBy (s : State) (c : Nat) (ns : List Nat) : List Nat :=
  ns.filter (fun n => match s.stream n with
    | some x => x.client == c
    | none => false)

/-- The new accounting record of a client after a commit (Table 11-3). -/
def passAccount (p : Pass) (mine : List Nat) (d : Nat × Nat × Nat) (r : List Byte) : List Byte :=
  let start := p.start.getD p.label
  let waits := mine.map (fun n => start - (mget p.waits n).getD start)
  let r := addWrap8 r 16 mine.length
  let r := addWrap8 r 24 (waits.foldl (· + ·) 0)
  let r := maxSat4 r 32 (waits.foldl max 0)
  let r := addSat4 (addSat4 (addSat4 r 36 d.1) 40 d.2.1) 44 d.2.2
  if mine.isEmpty then r
  else
    let r := addWrap8 (addSat4 r 68 p.preempts) 72 p.preemptCt
    addSat4 (addSat4 r 80 (b2n p.replay)) 84 (b2n (decide (p.label < start)))

/-- Update one client's record, or end in the translation fault of the access (Table 11-5). -/
def State.accountOr (s : State) (c : Nat) (f : List Byte → List Byte) : State :=
  match s.account c f with
  | some s => s
  | none => match mget s.clients c with
    | none => s
    | some x => match s.translate x.job x.acct true with
      | .bad code j va => s.unitFault .sched code j va
      | .deep j vp => s.park .sched j vp
      | _ => s

/-- The 8 B stream record of a pass completion. -/
def State.streamRecord (s : State) (p : Pass) (n : Nat) : Nat :=
  let pen := (mget p.penumbra n).getD 0
  let ref := (mget p.refused n).getD 0
  let deg := match s.stream n with
    | some x => x.flag 0
    | none => false
  n % 2 ^ 14 + b2n (decide (0 < pen)) * 2 ^ 14 + b2n (deg || p.degraded.contains n) * 2 ^ 15 + min 65535 pen * 2 ^ 16 + min 65535 ref * 2 ^ 32

/-- The run of records of one client (R476). -/
def State.passRecords (s : State) (job : Nat) (p : Pass) (mine : List Nat) (d : Nat × Nat × Nat) : List (List Byte) :=
  let n := mine.length
  let start := p.start.getD p.label
  let any := fun (m : List (Nat × Nat)) => mine.any (fun x => decide (0 < (mget m x).getD 0))
  let flags := b2n p.replay + 2 * b2n (decide (p.label < start)) + 4 * b2n (any p.penumbra) + 8 * b2n (any p.refused) + job % 8 * 2 ^ 8 +
    n % 2 ^ 16 * 2 ^ 16
  let k := ceilDiv n 3
  let recAt := fun (i : Nat) => if i < n then s.streamRecord p (mine.getD i 0) else 0
  [Comp.bytes { opcode := 0xE0, more := true, detail := flags, cookie := p.seq, result := leBytes 8 p.label ++ leBytes 8 s.nowN },
   Comp.bytes { opcode := 0xE1, more := decide (0 < k), cookie := start, result := leBytes 4 d.1 ++ leBytes 4 d.2.1 ++ leBytes 4 d.2.2 }] ++
  (List.range k).map (fun i => Comp.bytes {
    opcode := 0xE2, more := decide (i + 1 < k), cookie := recAt (3 * i), result := leBytes 8 (recAt (3 * i + 1)) ++ leBytes 8 (recAt (3 * i + 2)) })

/-- Completions and accounting of every client concerned, in ascending client number. -/
def State.tellClients (s : State) (job : Nat) (p : Pass) : State :=
  (s.clients.map (·.1)).foldl (fun s c =>
    let mine := s.ownedBy c p.streams
    let d := (mget p.deferrals c).getD (0, 0, 0)
    let s := if mine.isEmpty then s else s.clientPost c (s.passRecords job p mine d)
    if mine.isEmpty && d == (0, 0, 0) then s else s.accountOr c (passAccount p mine d)) s

/-! ### Recipe status and imbalance tables (R134, R193) -/

/-- Counters over their limits in the entry in force: bit 0 SAT, 1 NONFINITE, 2 OVERFLOW. -/
def alarmWhy (entry : List Byte) (t : List Nat) : Nat :=
  let above := fun (o i : Nat) => getLE entry o 4 != 0xFFFFFFFF && decide (getLE entry o 4 < t.getD i 0)
  b2n (above 16 3) + 2 * b2n (above 20 4) + 4 * b2n (above 24 5)

/-- The new status record of a recipe (Table 04-3). -/
def statusAfter (r : List Byte) (t : List Nat) (why bank label : Nat) : List Byte :=
  let r := addWrap8 r 0 (t.getD 0 0)
  let r := addSat4 (addSat4 r 8 (t.getD 1 0)) 12 (t.getD 2 0)
  if why = 0 then r
  else putBytes (addSat4 r 16 1) 20 (leBytes 4 label ++ leBytes 1 why ++ leBytes 1 bank)

/-- One recipe's counts at a commit: the status record and the alarm (R134). The alarm record's code, page and SOURCE are
not stated (log 101). -/
def State.recipeCommit (s : State) (job : Nat) (j : Job) (p : Pass) (t : Nat × List Nat) : State :=
  s.schedAcc job ((s.readVa job (j.recipeVa p.recipeBank t.1) 32).bind fun e =>
      (s.readVa job (j.statusVa t.1) 32).bind fun r =>
        let why := alarmWhy e t.2
        (s.writeVa job (j.statusVa t.1) (statusAfter r t.2 why p.recipeBank p.label)).bind fun s => .ok (s, e, why)) fun x =>
    if x.2.2 = 0 then x.1
    else x.1.report .errlog {
      code := 0xB000 + Config.recipeAlarmCode % 4096, sev := 1
      key := t.1 % 4096 + getLE x.2.1 4 2 % 256 * 2 ^ 16 + p.recipeBank % 2 * 2 ^ 24
      detail := leBytes 1 x.2.2 ++ leBytes 7 0 ++ leBytes 8 p.label, job := some job, pass := some p.seq }

/-- The new imbalance entry (R193). -/
def imbalanceAfter (r : List Byte) (sent refused : Nat) : List Byte :=
  addSat4 (addSat4 (addWrap8 r 0 sent) 8 refused) 12 (b2n (decide (0 < refused)))

/-- The counts of one layer and expert: key (layer · 1024 + expert). -/
def State.imbalanceCommit (s : State) (job : Nat) (p : Pass) (k : Nat) : State :=
  let n := fun (kind : Nat) => (mget p.scatter (k * 2 + kind)).getD 0
  s.schedAcc job ((s.readVa job ((s.job job).elim 0 (·.bankVa p.placementBank)) 128).bind fun hd =>
      let va := getLE hd 32 8 + (k / 1024 * getLE hd 2 2 + k % 1024) * 16
      (s.readVa job va 16).bind fun r => s.writeVa job va (imbalanceAfter r (n 0) (n 1))) fun s => s

/-! ### The commit (step 9) -/

/-- One stream commits (R329, R330): LENGTH, IN_NEXT, NEXT_OUT_CT and OUT_SEQ advance, its frame is due at the old NEXT_OUT_CT, records that an
append replaced are released, and its reservation ends. -/
def State.commitStream (s : State) (n : Nat) : State :=
  match s.stream n with
  | none => s
  | some x =>
    let y := (((x.put 4 4 (x.len + 1)).put 36 4 (x.inNext + 1)).put 24 8 (x.nextOut + x.frameCt)).put 100 4 (x.outSeq + 1)
    let full := decide (x.maxPages * 16 ≤ x.len + 1) && !x.fullTold
    let s := s.setStream n { y with
      out := x.out ++ [{ seq := x.outSeq, tick := x.nextOut }], freePen := [], fullTold := x.fullTold || full }
    let s := s.modArena x.job (fun a => (x.freePen.foldl (fun (a : Arena) q => a.dropPen q) a).unreserve n)
    if full then s.event x.client 0xE8 0 n (leBytes 8 s.nowN) else s

/-- Counts of the scribes and the ports in a committed pass (Table 05-17, R217). -/
def State.unitCounts (s : State) (p : Pass) : State :=
  let s := p.scribe.foldl (fun s (x : Nat × Nat × Nat) => s.count (.scribe x.1) (if x.2.1 = 0 then 0x128 else 0x12C) x.2.2) s
  p.ports.foldl (fun s (x : Nat × Nat) => if x.2 = 0 then s else (s.count (.dovetail x.1) 0x120 x.2).irq (.dovetail x.1) 1) s

/-- The lines of the barrier, in member order. -/
def State.barrierLines (s : State) (job : Nat) (j : Job) (seq : Nat) : Nat → Acc (List (List Byte))
  | 0 => .ok []
  | i + 1 => (s.barrierLines job j seq i).bind fun r => (s.winRead job j.barrierWindow (j.barrierOff seq i) 128).bind fun b => .ok (r ++ [b])

/-- Step 10 follows step 9 in the cores, unless every frame of the pass is ready already (R32, R364). -/
def State.beginTail (s : State) (job : Nat) : State :=
  if s.holder == some (.pass job) && !s.tailDone job then
    { s with holder := some (.tail job), preempting := none, saved := s.saved.filter (fun x => x.holder != .pass job) }
  else s.dropHolder (.pass job)

/-- Commit the executing pass with barrier value `b` (R35, R329, R360, R363). -/
def State.commitPass (s : State) (job b : Nat) : State :=
  let s := match s.saved.find? (fun x => x.holder == .pass job) with
    | some v => s.addPreempted (.pass job) (s.nowN - v.at_)
    | none => s
  match s.job job with
  | none => s
  | some j =>
    match j.executing with
    | none => s
    | some p =>
      let s := p.streams.foldl State.commitStream s
      let s := s.modJob job (fun j => { j with
        executing := none, tailBank := p.recipeBank
        tail := j.tail.filter (fun e => !s.frameReady job e.1 e.2) ++ p.streams.filterMap (fun n => (s.stream n).bind (fun (x : Stream) => x.out.getLast?.map (fun f => (n, f.seq))))
        lastB := b, barrierBase := (p.barrierBase + j.members) % 2 ^ 32, commitCt := s.nowN
        formed := j.formed.map (fun (f : Pass) => { f with start := some (max f.label b) })
        culprits := mdel j.culprits p.seq, attempts := mdel j.attempts p.seq })
      let s := ({ s with commits := s.commits + 1 }.unitCounts p).clearBay job
      let s := s.tellClients job p
      let s := p.trouble.foldl (fun s t => s.recipeCommit job j p t) s
      let s := (sortBy (fun a b => decide (a < b)) ((p.scatter.map (fun e => e.1 / 2)).eraseDups)).foldl (fun s k => s.imbalanceCommit job p k) s
      let s := (s.releaseSwitches job (p.seq + 1)).swapsCommitted job p.seq
      (s.repairScrubbed job).beginTail job

/-- A job whose barrier may be complete. -/
def State.barrierDone (s : State) (job : Nat) : State :=
  match s.job job with
  | none => s
  | some j =>
    match j.executing with
    | none => s
    | some p =>
      let target := (p.barrierBase + j.members) % 2 ^ 32
      let v := s.pegValue j.barrierPeg
      if !p.barrierSent || !reached v target then s
      else if v != target then s.schedFault job 2 j.myMember p.label 0
      else s.schedAcc job (s.barrierLines job j p.seq j.members) fun ls =>
        match ls.findIdx? (fun l => getLE l 0 8 != p.seq || getLE l 8 8 != p.label) with
        | some i => s.schedFault job 1 i p.label 0
        | none => s.commitPass job ((ls.map (fun l => getLE l 16 8)).foldl max 0)

/-- COMMIT_BARRIER_COMPLETE (R360): every job whose BARRIER_PEG has reached its target. -/
def execCommitBarrierComplete (s : State) : Host.Outcome State Fault Refusal := .next (s.jobNums.foldl State.barrierDone s)

/-! ### Runs (R353) -/

/-- RUN: the template is the pass plan's own (R285) and any number is taken. -/
def State.runEntry (s : State) (e : Entry) : State :=
  let ck := match e.ring with
    | .client c k => (c, k)
    | .admin => (0, 0)
  match s.job e.job with
  | none => s.complete e stJob
  | some j =>
    if j.phase != .serving then s.complete e stJob
    else match (if e.f 24 8 < 2 ^ 52 then (if e.f 40 4 < 24576 then some 40 else reservedBad e.bytes [(44, 20)]) else some 24) with
      | some o => s.complete e stInvalid o
      | none =>
        if e.f 32 8 < s.nowN + 24576 then s.complete e stLate
        else
          let r : Run := {
            uid := s.runUid, client := ck.1, cls := ck.2, job := e.job, cookie := e.cookie, id := e.f 20 4, template := e.f 16 4, args := e.f 24 8
            start := e.f 32 8, limit := e.f 40 4, arrival := s.nowN }
          if j.suspended then s.endRun r stAbandoned
          else { s with runs := s.runs ++ [r], runUid := s.runUid + 1 }

def execRun (r : Ring) (s : State) : Host.Outcome State Fault Refusal := .next (s.onEntry r 0x40 State.runEntry)

/-- The accounting of a run that is done. -/
def runAccount (r : Run) (now : Nat) (b : List Byte) : List Byte :=
  let w := r.first.getD (r.begun.getD now) - max r.arrival r.start
  let b := addWrap8 (addWrap8 b 48 1) 56 w
  let b := addSat4 (maxSat4 b 64 w) 68 r.preempts
  addWrap8 b 72 r.preemptCt

/-- RUN_END (R353): the run that holds the cores has retired its last command. -/
def State.runEnd (s : State) : State :=
  match s.holder with
  | some (.run u) =>
    match s.runs.find? (fun r => r.uid == u) with
    | none => s
    | some r =>
      if !s.baysQuiet r.job then s
      else
        let s := { s with runs := s.runs.filter (fun (x : Run) => x.uid != u) }
        ((s.accountOr r.client (runAccount r s.nowN)).endRun r stDone).dropHolder (.run u)
  | _ => s

def execRunEnd (s : State) : Host.Outcome State Fault Refusal := .next s.runEnd

/-- RUN_LIMIT (R353): the run that holds the cores has held them for LIMIT_CT: code 0x003. -/
def State.runLimit (s : State) : State :=
  match s.holder with
  | some (.run u) =>
    match s.runs.find? (fun r => r.uid == u) with
    | none => s
    | some r =>
      if r.held + (s.nowN - r.heldFrom.getD s.nowN) < r.limit then s
      else s.schedFault r.job 3 ((s.job r.job).elim 0 (·.myMember)) 0 r.id
  | _ => s

def execRunLimit (s : State) : Host.Outcome State Fault Refusal := .next s.runLimit

end Sys2Proof.Machine
end

