-- ==== Sys2Proof/Machine/Jobs.lean ====
section
/-!
DEFINITION. Jobs and clients: creation, start, destruction, and the switches of banks and levels (R129, R136, R145, R181, R197, R201, R210, R287,
R349–R352, R368, R375, R376, R398, R424, R425, R428, R436, R474, R475).
-/

namespace Sys2Proof.Machine

open Sys2Proof

/-- NOP (Table 15-8). -/
def execRingNop (r : Ring) (s : State) : Host.Outcome State Fault Refusal :=
  .next (s.onEntry r 0x00 (fun s e => match reservedBad e.bytes [(16, 48)] with
    | some o => s.complete e stInvalid o
    | none => s.complete e stDone))

/-! ### What the registers show of jobs -/

/-- HOST_JOB_STATE, WINDOW_JOB_SLICEj, ROUTE_JOB_LEVELj, DOVETAIL_BANKj and the arena counts of a job. -/
def State.showJob (s : State) (n : Nat) : State :=
  let v : Nat × Nat := match s.job n with
    | some j => ((match j.phase with
        | .loading => 1
        | .serving => 2
        | .destroying => 3), 2 ^ 31 + j.slice)
    | none => (0, 0)
  let s := s.putPreg .host 0x128 (2 * n + 1) (2 * n) v.1
  ((s.setPreg .window (0x180 + 4 * n) (BitVec.ofNat 32 v.2)).showBank n).showArena n

/-! ### Ranges that must be firmly mapped -/

/-- Every page of a range is mapped with a class other than 0b00, and none lies in the deep tier. -/
def State.firmHere (s : State) (job va n : Nat) (write : Bool) : Bool :=
  s.firmRange job va n write && (match s.transRange job va n write with
    | .ok _ => true
    | _ => false)

/-! ### Placement banks (R181, Tables 06-2 to 06-4) -/

/-- Fields of a header that break Table 06-2. The pegs named must belong to the job, and its windows must admit the increments that are sent through
them (R181, log 60). -/
def State.bankHeaderChecks (s : State) (job : Nat) (j : Job) (b : Bank) : List (Nat × Bool) :=
  let ex := b.u 64 32 != 0
  let owns := fun (p n : Nat) => (List.range n).all (fun i => s.pegOwned (p + i) job)
  let admits := fun (w p : Nat) => (s.win job w).admits p
  [ (0, decide (1 ≤ b.sources ∧ b.sources ≤ 1024)), (2, decide (1 ≤ b.experts ∧ b.experts ≤ 1024)), (4, b.layers == manLayers j.manifest),
    (6, decide (b.mySource < b.sources)), (8, decide (1 ≤ b.cap ∧ b.cap ≤ 4096)), (10, decide (2 ≤ b.u 10 1 ∧ b.u 10 1 ≤ 7)),
    (11, decide (1 ≤ b.queues ∧ b.queues ≤ 64)),
    (12, b.h != 0 && b.h % (if isMX b.fmt then 4096 else 2048) == 0 && decide (b.h ≤ 61440)), (14, decide (b.u 14 2 + b.queues ≤ 4096) &&
      (List.range b.queues).all (fun k => admits (b.queueWin k) (b.arrivalPeg k))),
    (16, owns (b.u 16 2) b.queues), (18, owns (b.u 18 2) b.queues), (20, owns b.returnPeg 1), (22, decide (b.combineWin < 4096) && admits b.combineWin b.returnPeg),
    (24, decide (1 ≤ b.k ∧ b.k ≤ 16)), (25, b.u 25 1 == 0), (26, ex == (b.exchCap != 0)),
    (28, if ex then decide (b.grantWin < 4096) && admits b.grantWin b.grantPeg else b.grantWin == 0), (30, if ex then owns b.grantPeg 1 else b.grantPeg == 0),
    (32, b.imbalance % 128 == 0 && decide (b.imbalance < 2 ^ 52)), (40, b.u 40 24 == 0), (96, b.u 96 32 == 0) ]

/-- Fields of one replica word (Table 06-4), seen from the module with endpoint `me`. -/
def wordOk (j : Job) (b : Bank) (me layer w : Nat) : Bool :=
  decide (w < 2 ^ 24) && decide (repSlot w < b.queues) && b.sourceList.contains (repEndpoint w) &&
  (repEndpoint w != me || (manResidency j.manifest (repSlot w) layer).isSome)

/-- Checks of the expert entries of a layer: each entry, then that no endpoint and slot appear twice (R180, Table 06-3). -/
def layerEntryChecks (j : Job) (b : Bank) (me layer : Nat) : List (Nat × Bool) :=
  let base := bankLayerOff b.experts layer
  (List.range b.experts).flatMap (fun e =>
    let o := base + 32 * e
    let r := b.replicas e
    [(o, decide (1 ≤ r ∧ r ≤ 7)), (o + 1, getLE b.entries (32 * e + 1) 3 == 0)] ++
    (List.range 7).map (fun i =>
      let w := b.replica e i
      let before := (List.range e).flatMap (fun f => (List.range (b.replicas f)).map (b.replica f)) ++ (List.range i).map (b.replica e)
      (o + 4 + 4 * i, if i < r then wordOk j b me layer w && !before.any (fun v => v % 2 ^ 16 == w % 2 ^ 16) else w == 0)))

/-- The source table: endpoints of the sources, then zeros (Table 06-2). -/
def sourceChecks (n : Nat) : Nat → List Byte → List (Nat × Bool)
  | i, a :: b :: rest => (128 + 2 * i, if i < n then decide (a.toNat + 256 * b.toNat < 1024) else a == 0 && b == 0) :: sourceChecks n (i + 1) rest
  | _, _ => []

/-- The byte offset at which a bank is invalid, if anywhere (R181). `me`: the endpoint the module has or is given. -/
def State.bankBad (s : State) (job : Nat) (j : Job) (va me : Nat) : Option Nat :=
  if va % 128 != 0 || !s.firmHere job va 2176 false then some 0
  else match s.readVa job va 2176 with
    | .ok hd =>
      let b : Bank := ⟨hd, [], []⟩
      (firstFail (s.bankHeaderChecks job j b)).orElse fun _ =>
      (firstFail (sourceChecks b.sources 0 (hd.drop 128))).orElse fun _ =>
      let size := bankLayerOff b.experts b.layers + 1024
      if !s.firmHere job va size false || !s.firmHere job b.imbalance (b.layers * b.experts * 16) false then some 0
      else
        let layer := fun (l : Nat) => match s.readVa job (va + bankLayerOff b.experts l) (32 * b.experts) with
          | .ok en => layerEntryChecks j ⟨hd, en, []⟩ me l
          | _ => [(0, false)]
        (firstFail ((List.range b.layers).flatMap layer)).orElse fun _ =>
        match s.readVa job (va + bankLayerOff b.experts b.layers) 1024 with
        | .ok lo =>
          let o := bankLayerOff b.experts b.layers
          firstFail ((List.range b.queues).flatMap (fun k =>
            [(o + 16 * k, getLE lo (16 * k) 8 % 65536 == 0 && decide (getLE lo (16 * k) 8 < 2 ^ 52)), (o + 16 * k + 9, getLE lo (16 * k + 9) 7 == 0)]))
        | _ => some 0
    | _ => some 0

/-- Layers whose declared trips do not reach what a bank can ask: the manifest offset of the first (R201). -/
def tripsBad (m : List Byte) (b : Bank) : Option Nat :=
  firstFail ((List.range (manLayers m)).map (fun l =>
    (secOff m 2 + 16 * l + 10, decide (ceilDiv (if b.exchange l then b.exchCap else b.sources * b.cap) (max 1 (manStep m l)) ≤ manTrips m l))))

/-- R201 against bank 0, where the bank's header can be read. -/
def State.bankTrips (s : State) (job : Nat) (j : Job) : Option Nat :=
  match s.bankHead job 0 with
  | .ok b => tripsBad j.manifest b
  | _ => none

/-! ### Recipe banks (R129, R130, R136) -/

/-- The banks and the status array are mapped, writable and not CLASS 0b00; the manifest offset of the address that is not. -/
def State.recipeAreasBad (s : State) (job : Nat) (j : Job) : Option Nat :=
  let n := 32 * manRecipes j.manifest
  firstFail ((List.range 3).map (fun b => (secOff j.manifest 4 + 8 * b, s.firmHere job (manRecipeVa j.manifest b) n true)))

/-- The manifest's initial table. -/
def initRecipesBad (m : List Byte) : Option Nat :=
  (List.range (manRecipes m)).find? (fun i =>
    let e := slice (manRecipeInit m) (32 * i) 32
    (Recipe.mk e).valid && !recipeLegal i e)

/-! ### JOB_CREATE (R474) -/

/-- Map one range record for a job: a weight range under R223, a KIND 3 range with a zero source (R287). -/
def State.mapRange (s : State) (job : Nat) (j : Job) (r : RangeRec) : Option State :=
  if !s.classFits r.cls r.pages then none
  else if r.kind = 3 then s.mapZero job false r.cls r.aff (r.va / 65536) r.pages
  else some (s.mapWeight job r.cls r.aff (slotBase j.genSlot / 65536 + (manPart j.manifest r.part).first + r.partPage) (r.va / 65536) r.pages)

/-- Whether a job maps a range: common and adapter parts, its own private part, KIND 3. -/
def Job.maps (j : Job) (r : RangeRec) : Bool :=
  r.kind == 3 || (manPart j.manifest r.part).kind != 1 || j.priv == some r.part

def State.mapRanges (s : State) (job : Nat) (j : Job) : List RangeRec → Option State
  | [] => some s
  | r :: rs => if j.maps r then (s.mapRange job j r).bind (fun s => s.mapRanges job j rs) else s.mapRanges job j rs

/-- A run of free units for a job's partition in a bay: firmware's choice, which the spec does not give (R49; log 102). -/
def State.assignPartition (s : State) (b job : Nat) : State :=
  let used := fun (u : Nat) => (List.range 8).any (fun k =>
    let p := s.partition b k
    decide (p.1 ≤ u * 65536) && decide (u * 65536 < p.1 + p.2))
  let base := Config.freeNat s.freeCtr % 256
  let run := ((List.range (256 - base)).takeWhile (fun i => !used (base + i))).length
  let size := Config.freeNat (s.freeCtr + 1) % (run + 1)
  let start := b * 0x01000000 + base * 65536
  { s with
    freeCtr := s.freeCtr + 2
    bayMem := s.bayMem.filter (fun c => !(decide (start ≤ c.1) && decide (c.1 < start + size * 65536)))
    bayZero := s.bayZero ++ [(start, size * 65536)] }.setPreg (.bay b) (0x130 + 4 * job) (BitVec.ofNat 32 (size * 2 ^ 16 + base))

def State.assignPartitions (s : State) (job : Nat) : State := (List.range 16).foldl (fun s b => s.assignPartition b job) s

/-- The first endpoint of MEMBERS whose route entry does not let the job reach it (R424). -/
def State.membersBad (s : State) (job : Nat) (j : Job) : Option Nat :=
  ((List.range (min 1024 j.members)).find? (fun i => !s.routed (j.member i) job)).map (fun i => 1024 + 2 * i)

/-- The line grant is computed when the first job is created (R425). -/
def State.grantLines (s : State) : State :=
  if s.anyJob then s
  else
    let g := if s.sources = 0 then 256 else grantFor s.sources
    { s with lineGrant := g }.putPreg .window 0x104 24 16 g

def State.jobCreate (s : State) (e : Entry) : State :=
  let n := e.jobNum
  let a := e.f 16 8
  if (s.job n).isSome then s.complete e stBusy
  else if a % 4096 != 0 || !inHostRegion a 4096 then s.complete e stInvalid 16
  else match reservedBad e.bytes [(24, 40)] with
    | some o => s.complete e stInvalid o
    | none =>
      let blk := s.readPa a 4096
      let slot := getLE blk 89 1
      let m := s.slotManifest slot
      let part := getLE blk 90 1
      let j : Job := { block := blk, manifest := m, myMember := getLE blk 112 2, priv := if part = 255 then none else some part,
                       level := { active := getLE blk 91 1 } }
      if 1 < slot then s.complete e stInvalid 89
      else if (s.gslot slot).st != 2 then s.complete e stSlot
      else match manifestBad m with
        | some o => s.complete e stManifest o
        | none =>
          if s.jobs.any (fun x => manTag x.2.manifest != manTag m) then s.complete e stModel
          else match firstFail
              [ (90, part == 255 || (decide (part < secCount m 1) && (manPart m part).kind == 1)),
                (91, decide (2 ≤ getLE blk 91 1 ∧ getLE blk 91 1 ≤ 3)),
                (92, decide (getLE blk 92 1 < 64) && !s.jobs.any (fun x => x.2.slice == getLE blk 92 1)) ] with
            | some o => s.complete e stInvalid o
            | none => match s.membersBad n j with
              | some o => s.complete e stInvalid o
              | none =>
                match ((s.grantLines.setJob n j).needTable (level1Key n)).mapRanges n j (manRanges m) with
                | none => s.complete e stRoom
                | some t =>
                match t.bankTrips n j with
                | some o => s.complete e stManifest o
                | none =>
                  let t := { t with rrc := t.rrc.filter (fun x => rrcJobOf x.1 != n) }.staleReads (fun _ j => j == n)
                  let t := if t.power.hold.isNone then t.setPreg .media 0x100 (wclear (t.preg .media 0x100) 30) else t
                  ((t.assignPartitions n).showJob n).showFree.complete e stDone

/-- JOB_CREATE (R474). R201's limits turn on the placement bank, which is readable here only in a range that the manifest maps; JOB_START asks again
(log 132). -/
def execJobCreate (r : Ring) (s : State) : Host.Outcome State Fault Refusal := .next (s.onEntry r 0x01 State.jobCreate)

/-! ### JOB_START (R474) -/

/-- Rules of Table 05-3, R146 and Table 15-10 on the creation block, in ascending offset (R145, R352, R197, R546). -/
def State.blockChecks (s : State) (n : Nat) (j : Job) : List (Nat × Bool) :=
  let f := j.frames
  let pn := j.penRecords
  let firm := fun (va k : Nat) => va % 65536 == 0 && s.firmHere n va k true
  let zeros := fun (o k : Nat) => (slice j.block o k).all (· == 0)
  let win := fun (w need : Nat) => decide (w < 4096) && decide (need ≤ (s.win n w).size)
  let peers := j.peerList
  let me := s.endpoint
  [ (0, firm j.dataBase (f * 2048)), (8, firm j.sideBase (f * 128) && apart j.dataBase (f * 2048) j.sideBase (f * 128)),
    (16, decide (2 ≤ f)), (20, decide (1 ≤ pn ∧ pn < 2 ^ 28)),
    (24, firm j.penBase (pn * 640) && apart j.dataBase (f * 2048) j.penBase (pn * 640) && apart j.sideBase (f * 128) j.penBase (pn * 640)),
    (32, j.layers == manLayers j.manifest), (34, decide (1 ≤ j.hg ∧ j.hg ≤ 16) && j.hg == manHG j.manifest), (35, zeros 35 29),
    (80, s.firmHere n (j.u 80 8) (32 * 2 ^ j.misrouteLog) true), (88, decide (6 ≤ j.misrouteLog ∧ j.misrouteLog ≤ 16)),
    (93, decide (j.passClass ≤ 3)), (94, zeros 94 2), (96, decide (24576 ≤ j.passCt ∧ j.passCt ≤ 4915200)),
    (100, decide (4096 ≤ j.formCt ∧ j.formCt ≤ j.passCt)), (104, decide (j.passCt ≤ j.horizonCt ∧ j.horizonCt ≤ 4915200)),
    (108, decide (1 ≤ j.passMax ∧ j.passMax ≤ 16384)), (110, decide (1 ≤ j.members ∧ j.members ≤ 1024)),
    (112, decide (j.u 112 2 < j.members) && (j.standby || j.member (j.u 112 2) == me)),
    (114, win j.barrierWindow (3 * j.members * 128)), (116, s.pegOwned j.barrierPeg n), (118, win j.formWindow (2 * j.formPeers * 2048)),
    (120, s.pegOwned j.formPeg n),
    (122, decide (1 ≤ j.formPeers ∧ j.formPeers ≤ 16) && (j.standby || peers.contains me)), (123, zeros 123 5),
    (128, pairwiseB (fun a b => decide (a < b)) peers && peers.all (· < 1024)), (128 + 2 * j.formPeers, zeros (128 + 2 * j.formPeers) (32 - 2 * j.formPeers)),
    (160, zeros 160 864), (1024 + 2 * j.members, zeros (1024 + 2 * j.members) (2048 - 2 * j.members)), (3072, zeros 3072 1024) ]

/-- A completion ring holds 2 + ⌈PASS_MAX ÷ 3⌉ records (R475). -/
def ringHolds (cqLog passMax : Nat) : Bool := decide (2 + ceilDiv passMax 3 ≤ 2 ^ cqLog - 2)

/-- The placement bank and the trips it can ask for: status and detail of the first failure. -/
def State.placementBad (s : State) (n : Nat) (j : Job) : Option (Nat × Nat) :=
  match s.bankBad n j (j.bankVa 0) s.endpoint with
  | some o => some (stInvalid, o)
  | none => (s.bankTrips n j).map (fun o => (stManifest, o))

/-- Bank 0 holds the manifest's initial table, and the misroute ring's control slot both indices at 1 (R129, R197, R468). R129 says so of job creation,
when no page is mapped yet: the model writes the table at JOB_START (DESIGN CHOICE, log 260). -/
def State.startWrites (s : State) (n : Nat) (j : Job) : State :=
  let put := fun (s : State) (va : Nat) (bs : List Byte) => match s.writeVa n va bs with
    | .ok s => s
    | _ => s
  let s := put s (manRecipeVa j.manifest 0) (manRecipeInit j.manifest)
  let s := put s (j.u 80 8) (leBytes 4 1 ++ leBytes 4 0 ++ leBytes 4 1 ++ leBytes 20 0)
  (List.range 16).foldl (fun s b => s.setPreg (.dovetail b) (0x1C0 + 4 * n) 1) s

def State.jobStart (s : State) (e : Entry) : State :=
  let n := e.jobNum
  match s.job n with
  | none => s.complete e stJob
  | some j =>
    let start := e.f 16 8
    if j.phase != .loading then s.complete e stJob
    else match reservedBad e.bytes [(24, 40)] with
      | some o => s.complete e stInvalid o
      | none =>
        if start < s.nowN + 24576 then s.complete e stLate
        else match firstFail (s.blockChecks n j) with
          | some o => s.complete e stInvalid o
          | none =>
            if s.clients.any (fun c => c.2.job == n && !ringHolds c.2.cqLog j.passMax) then s.complete e stInvalid 108
            else match (s.recipeAreasBad n j).orElse (fun _ => initRecipesBad j.manifest) with
              | some o => s.complete e stInvalid o
              | none => match s.placementBad n j with
                | some x => s.complete e x.1 x.2
                | none =>
                  let s := s.setJob n { j with
                    phase := .serving, startCt := start, misProd := 1
                    formAt := if j.standby then none else some (max s.nowN (start - j.formCt)) }
                  let s := { s with boot := { s.boot with jobStart := some (s.boot.jobStart.getD s.nowN) } }
                  ((s.startWrites n j).showJob n).complete e stDone 0 (leBytes 8 start)

/-- JOB_START (R474). -/
def execJobStart (r : Ring) (s : State) : Host.Outcome State Fault Refusal := .next (s.onEntry r 0x02 State.jobStart)

/-! ### JOB_DESTROY and the destruction (R368) -/

def State.jobDestroy (s : State) (e : Entry) : State :=
  let n := e.jobNum
  match s.job n with
  | none => s.complete e stJob
  | some j =>
    if j.phase == .destroying then s.complete e stJob
    else match reservedBad e.bytes [(24, 40)] with
      | some o => s.complete e stInvalid o
      | none => (s.setJob n { j with
          phase := .destroying, destroy := some { ring := e.ring, cookie := e.cookie, effective := e.f 16 8 } }).showJob n

/-- JOB_DESTROY (R368). The pass stands no longer once its label is EFFECTIVE_CT or later. -/
def execJobDestroy (r : Ring) (s : State) : Host.Outcome State Fault Refusal := .next (s.onEntry r 0x03 State.jobDestroy)

/-- No pass of the job labelled before EFFECTIVE_CT is left or can still form. A job that forms no pass (loading, standby, suspended, waiting for a lost
member) is destroyed at EFFECTIVE_CT. -/
def State.destroyDue (s : State) (j : Job) : Bool :=
  match j.destroy with
  | none => false
  | some d =>
    let out := fun (p : Option Nat) => match p with
      | some l => decide (d.effective ≤ l)
      | none => true
    out (j.executing.map (·.label)) && out (j.formed.map (·.label)) && out (j.forming.map (·.label)) &&
    (if j.suspended || j.standby || !j.lossWait.isEmpty || (j.lastLabel.isNone && j.formAt.isNone) then decide (d.effective ≤ s.nowN) else j.ended j.nextLabel)

/-- Completions of entries of the job that have not posted their last. -/
def State.cancelEntries (s : State) (n : Nat) (j : Job) : State :=
  let sw := fun (s : State) (op : Nat) (b : Banked) => match b.pending with
    | some w => if w.applied.isSome then s.completeLater w.ring op w.cookie stReleased [] false else s.completeLater w.ring op w.cookie stCancelled
    | none => s
  let s := sw (sw (sw s 0x20 j.recipe) 0x21 j.placement) 0x22 j.level
  let s := (s.swaps.filter (·.job == n)).foldl (fun s (x : Swap) =>
    let s := s.dropStaged x
    if x.executed.isSome && x.shadow then s.completeLater x.ring 0x51 x.cookie stReleased [] false
    else s.completeLater x.ring 0x51 x.cookie stCancelled) s
  let s := (s.loads.filter (·.job == n)).foldl (fun s (x : WLoad) => s.completeLater x.ring 0x52 x.cookie stCancelled) s
  let s := (s.maps.filter (·.job == n)).foldl (fun s (x : MapWait) => s.completeLater x.ring 0x10 x.cookie stCancelled) s
  let s := match j.promoting with
    | some x => s.completeLater x.ring 0x53 x.cookie stCancelled
    | none => s
  { s with swaps := s.swaps.filter (·.job != n), loads := s.loads.filter (·.job != n), maps := s.maps.filter (·.job != n) }

/-- The streams of a job become free with no END frame; operations in progress on them are cancelled. -/
def State.freeStreams (s : State) (n : Nat) : State :=
  (s.streams.filter (fun e => e.2.job == n)).foldl (fun s (e : Nat × Stream) =>
    let s := match e.2.op with
      | some (r, c, op) => s.completeLater r op c stCancelled
      | none => s
    let s := match e.2.close with
      | some (r, c) => s.completeLater r 0x33 c stCancelled
      | none => s
    s.freeStream e.1) s

/-- Window entries read zero, pegs lose VALID (R376, R398). -/
def State.clearTables (s : State) (n : Nat) : State :=
  let lo := winOff n 0 0
  let s := { s with regs := s.regs.filter (fun e => !(decide (lo ≤ e.1) && decide (e.1 < lo + 131072))) }
  let pegs := (s.regs.filter (fun e => decide (pegOff 0 0 ≤ e.1) && decide (e.1 < pegOff 32768 0) && e.1 % 16 == 4 &&
    wbit e.2 3 && wfield e.2 2 0 == n)).map (·.1)
  let s := pegs.foldl (fun s o => s.setReg o (wclear (s.reg o) 3)) s
  s.setPreg .peg 0x100 (BitVec.ofNat 32 (s.regs.filter (fun e =>
    decide (pegOff 0 0 ≤ e.1) && decide (e.1 < pegOff 32768 0) && e.1 % 16 == 4 && wbit e.2 3)).length)

/-- The job's host DMA channels are halted, then disabled (R436). -/
def State.closeChannels (s : State) (n : Nat) : State :=
  (List.range 64).foldl (fun s c =>
    if wbit (s.hReg c 0) 0 && wfield (s.hReg c 0) 10 8 == n then
      let s := s.setHReg c 0 (wclear (s.hReg c 0) 0)
      let s := (s.setHReg c 0x14 0).setHReg c 0x18 0
      (s.unpark (.hostDma c)).putChan (.host c) {} 9
    else s) s

/-- Every page of the job is unmapped and its tables are gone. -/
def State.dropSpace (s : State) (n : Nat) : State :=
  let s := (s.mapped n 0 (2 ^ 36)).foldl (fun s vp => s.unmapPage n vp) s
  { s with tables := s.tables.filter (fun t => tableJob t.1 != n) }.showFree

/-- What the rest of the module keeps of a job ends; its staging descriptors are cancelled and its look-aside lines dropped (R154, R174). -/
def State.dropJobState (s : State) (n : Nat) : State :=
  let s := { s with
    jobs := mdel s.jobs n, clients := s.clients.filter (fun c => c.2.job != n), parked := s.parked.filter (fun x => x.job != n)
    moves := s.moves.filter (fun m => m.job != n), reqs := s.reqs.filter (fun r => r.job != n), fences := s.fences.filter (fun f => f.job != n)
    rrc := s.rrc.filter (fun x => rrcJobOf x.1 != n), stages := s.stages.filter (fun g => g.key.job != n) }
  let s := ((s.labDropJob n).showArena n).issueStages
  let s := (List.range 16).foldl (fun s b => s.setPreg (.bay b) (0x130 + 4 * n) 0) s
  let s := s.putPreg .window 0x124 n n 0
  let s := s.putPreg .window 0x100 n n 0
  let s := s.putPreg .errlog 0x130 n n 0
  ((s.showContaining).showMigrate).showJob n

/-- Destroy a job at once: every release of R368, in an order in which its completions still find their rings. -/
def State.destroyJob (s : State) (n : Nat) : State :=
  match s.job n with
  | none => s
  | some j =>
    let s := (s.abandonUnits (fun k => k == n)).abandonRuns (fun k => k == n) true
    let s := (((s.cancelEntries n j).freeStreams n).closeChannels n).clearTables n
    let s := (s.clients.filter (fun c => c.2.job == n)).foldl (fun s (c : Nat × Client) => match c.2.dying with
      | some k => s.endClient c.1 k
      | none => s) s
    let s := match j.destroy with
      | some d => s.completeLater d.ring 0x03 d.cookie stDone (leBytes 8 s.nowN)
      | none => s
    ((s.dropSpace n).dropJobState n).reschedule

/-- JOB_DESTRUCTION (R368): every job whose destruction is due. -/
def execJobDestruction (s : State) : Host.Outcome State Fault Refusal :=
  .next (s.jobNums.foldl (fun s n => match s.job n with
    | some j => if s.destroyDue j then s.destroyJob n else s
    | none => s) s)

/-! ### Clients (R350, R475) -/

/-- Classes present of a list of four bits. -/
def classList (m : Nat) : List Nat := (List.range 4).filter (fun k => bit m k)

def State.clientCreate (s : State) (e : Entry) : State :=
  let c := e.f 16 1
  let n := e.f 17 1
  let cls := e.f 18 1
  let sl := e.f 19 1
  let cl := e.f 20 1
  let sq := e.f 24 8
  let cq := e.f 32 8
  let ac := e.f 40 8
  match firstFail [(16, decide (c < 64)), (17, decide (n < 8))] with
  | some o => s.complete e stInvalid o
  | none => match s.job n with
    | none => s.complete e stJob
    | some j =>
      let sqOk := fun (k : Nat) => s.firmRange n (sq + k * 64 * 2 ^ sl) (64 * 2 ^ sl) false
      match firstFail
          [ (18, cls != 0 && decide (cls < 16)), (19, decide (6 ≤ sl ∧ sl ≤ 16)),
            (20, decide (6 ≤ cl ∧ cl ≤ 16) && (j.phase == .loading || ringHolds cl j.passMax)), (21, e.f 21 3 == 0) ] with
      | some o => s.complete e stInvalid o
      | none => match firstFail
          [ (24, sq % 64 == 0 && (classList cls).all sqOk), (32, cq % 32 == 0 && s.firmRange n cq (32 * 2 ^ cl) true),
            (40, ac % 128 == 0 && s.firmRange n ac 128 true), (48, e.f 48 16 == 0) ] with
        | some o => s.complete e stInvalid o
        | none =>
          if (mget s.clients c).isSome then s.complete e stBusy
          else if j.phase == .destroying then s.complete e stJob
          else match s.writeVa n cq (leBytes 4 1 ++ leBytes 4 0 ++ leBytes 4 1 ++ leBytes 20 0) with
            | .ok s =>
              let x : Client := { job := n, classes := cls, sqLog := sl, cqLog := cl, sqBase := sq, cqBase := cq, acct := ac }
              { s with clients := mset s.clients c x }.complete e stDone
            | _ => s.complete e stInvalid 32

/-- CLIENT_CREATE (R350, R468, R475). -/
def execClientCreate (r : Ring) (s : State) : Host.Outcome State Fault Refusal := .next (s.onEntry r 0x04 State.clientCreate)

def State.clientDestroy (s : State) (e : Entry) : State :=
  let c := e.f 16 1
  match mget s.clients c with
  | none => s.complete e stInvalid 16
  | some x =>
    if x.dying.isSome then s.complete e stInvalid 16
    else match reservedBad e.bytes [(17, 47)] with
      | some o => s.complete e stInvalid o
      | none =>
        if s.streams.any (fun y => y.2.client == c) then s.complete e stBusy
        else { s with clients := mset s.clients c { x with dying := some e.cookie } }.reapClient c

/-- CLIENT_DESTROY (R350, Table 15-14): entries not yet taken are discarded; those already taken complete, and then the destroy does. -/
def execClientDestroy (r : Ring) (s : State) : Host.Outcome State Fault Refusal := .next (s.onEntry r 0x05 State.clientDestroy)

/-! ### Switches (R136, R210, R428, Table 04-5) -/

/-- A switch entry: `get` and `put` pick the quantity, `bad` checks the value's contents. Where several refusals of Table 04-5 apply the spec gives no
order: the entry's own fields come first, then REFUSED_BUSY, REFUSED_LATE and the bank's contents (DESIGN CHOICE, log 259). -/
def State.switchEntry (s : State) (e : Entry) (get : Job → Banked) (put : Job → Banked → Job) (legal : Nat → Bool)
    (bad : State → Nat → Job → Nat → Option Nat) : State :=
  let n := e.jobNum
  match s.job n with
  | none => s.complete e stJob
  | some j =>
    let v := e.f 16 1
    if j.phase != .serving then s.complete e stJob
    else match (if legal v then reservedBad e.bytes [(17, 7), (32, 32)] else some 16) with
      | some o => s.complete e stInvalid o
      | none =>
        if (get j).pending.isSome then s.complete e stBusy
        else if e.f 24 8 < s.nowN + 24576 then s.complete e stLate
        else match bad s n j v with
          | some o => s.complete e stInvalid o
          | none =>
            let w : Switch := { ring := e.ring, cookie := e.cookie, value := v, effective := e.f 24 8 }
            (s.setJob n (put j { get j with pending := some w })).showBank n

/-- RECIPE_SWITCH (R136). -/
def execRecipeSwitch (r : Ring) (s : State) : Host.Outcome State Fault Refusal :=
  .next (s.onEntry r 0x20 (fun s e => s.switchEntry e (·.recipe) (fun j b => { j with recipe := b }) (· < 2) State.recipesBad))

/-- PLACEMENT_SWITCH (R210). -/
def execPlacementSwitch (r : Ring) (s : State) : Host.Outcome State Fault Refusal :=
  .next (s.onEntry r 0x21 (fun s e => s.switchEntry e (·.placement) (fun j b => { j with placement := b }) (· < 2)
    (fun s n j v => s.bankBad n j (j.bankVa v) s.endpoint)))

/-- LEVEL_CHANGE (R428). -/
def execLevelChange (r : Ring) (s : State) : Host.Outcome State Fault Refusal :=
  .next (s.onEntry r 0x22 (fun s e => s.switchEntry e (·.level) (fun j b => { j with level := b }) (fun v => 2 ≤ v && v ≤ 3)
    (fun _ _ _ _ => none)))

end Sys2Proof.Machine
end

