-- ==== Sys2Proof/Machine/Peers.lean ====
section
/-!
DEFINITION. What other members tell this one: halts, losses, joins and syncs, and what a member does when another is lost (R546–R559, Tables 18-7 and
18-13).
-/

namespace Sys2Proof.Machine

open Sys2Proof

/-! ### Containment lines (Table 18-7) -/

def clKind (l : List Byte) : Nat := getLE l 0 1
def clDiscard (l : List Byte) : Bool := bit (getLE l 1 1) 0
def clCulprit (l : List Byte) : Bool := bit (getLE l 1 1) 1
def clSeq (l : List Byte) : Nat := getLE l 8 8
def clEvent (l : List Byte) : Nat := getLE l 24 8
def clEndpoint (l : List Byte) : Nat := getLE l 32 2 % 1024

/-! ### A halt received (R549) -/

/-- The named pass stops on this module: the units of the job are abandoned unless an earlier pass still runs to its commit. -/
def State.stopPass (s : State) (n seq : Nat) : State :=
  match s.job n with
  | none => s
  | some j =>
    let drop := fun (p : Option Pass) => p.map (fun (p : Pass) => if p.seq == seq then p.discard else p)
    let earlier := match j.executing with
      | some p => decide (p.seq < seq)
      | none => false
    let s := if earlier then s else (s.abandonUnits (fun x => x == n)).abandonRuns (fun x => x == n) false
    s.setJob n { j with executing := drop j.executing, formed := drop j.formed }

/-- Containment traffic of a job has an effect beyond its record: it serves, is not suspended, and waits for no lost member (R554, R559,
Table 18-13). -/
def Job.takesHalts (j : Job) : Bool := j.phase != .loading && !j.suspended && !j.standby && j.lossWait.isEmpty

/-- A HALT line of a job. -/
def State.haltLine (s : State) (n : Nat) (l : List Byte) : State :=
  match s.job n with
  | none => s
  | some j =>
    let seq := if clDiscard l then some (clSeq l) else none
    let s := s.report .errlog { code := 0x0005, sev := 3, key := clEndpoint l, job := some n, pass := seq }
    match seq with
    | none => s
    | some q => if j.takesHalts then ((s.stopPass n q).episodeLine n q (clEvent l) (clCulprit l)).reschedule else s

/-! ### A member lost (R556, R557) -/

/-- ERRLOG_STAT.LOSS_WAIT and ERRLOG_SUSPENDED.LOSS_WAIT. -/
def State.showLoss (s : State) : State :=
  let m := (s.jobs.filter (fun e => !e.2.lossWait.isEmpty)).foldl (fun v e => v + 2 ^ (e.1 % 8)) 0
  (s.setPreg .errlog 0x100 (wassign (s.preg .errlog 0x100) 18 (decide (m ≠ 0)))).putPreg .errlog 0x130 15 8 m

/-- The passes of a job from PASS_SEQ `q` on are dropped, to be formed afresh: reservations, fallback logs and formed-pass state go, and the
expert-peg bases go back to those of the first pass dropped (R557). -/
def State.dropPasses (s : State) (n q : Nat) : State :=
  match s.job n with
  | none => s
  | some j =>
    let from_ := fun (p : Option Pass) => p.filter (fun (p : Pass) => decide (q ≤ p.seq))
    let keep := fun (p : Option Pass) => p.filter (fun (p : Pass) => decide (p.seq < q))
    let gone := (from_ j.executing).toList ++ (from_ j.formed).toList
    let streams := (gone.flatMap (fun (p : Pass) => p.streams)) ++ (match j.forming with
      | some f => f.eligible
      | none => [])
    let s := s.modArena n (fun a => streams.foldl (fun (a : Arena) x => a.unreserve x) a)
    match gone with
    | [] => s.modJob n (fun j => { j with forming := none, formAt := none })
    | p :: _ => s.modJob n (fun j => { j with
        executing := keep j.executing, formed := keep j.formed, forming := none, formAt := none, nextSeq := p.seq
        pegBase := p.pegBases.foldl (fun m (e : Nat × Nat) => mset m e.1 e.2) j.pegBase })

/-- The lost member's jobs: halt lines with code 0x008, the named pass dropped, and no pass formed until the endpoint rejoins. -/
def State.loseMember (s : State) (e n : Nat) : State :=
  match s.job n with
  | none => s
  | some j =>
    if !j.others.contains e || j.lossWait.contains e || j.standby then s
    else
      let s := s.setJob n { j with lossWait := sinsert j.lossWait e }
      let nm := j.named
      let s := match nm with
        | some p => (s.stopPass n p.seq).episodeLine n p.seq s.nowN false
        | none => s
      let att := match (s.job n).bind (fun (j : Job) => j.episode) with
        | some ep => ep.attempt
        | none => 1
      let t := s.nowN
      let s := s.sendContain n (fun j =>
        containLine 1 false j.myMember 0x0008 (min 3 (max 1 att)) (nm.map (fun (p : Pass) => (p.seq, p.label))) t s.endpoint)
      s.dropPasses n (match nm with
        | some p => p.seq
        | none => j.nextSeq)

/-- Endpoint `e` is declared lost (R556): record 0x008, the LOSS interrupt, and R557 for every job whose slice holds it. Requests to it are no
longer awaited (R389). -/
def State.declareLost (s : State) (e : Nat) : State :=
  let mine := s.jobs.filter (fun x => x.2.others.contains e && !x.2.lossWait.contains e && !x.2.standby)
  if mine.isEmpty then s
  else
    let s := (s.report .errlog { code := 0x0008, sev := 4, key := e, halt := s.haltGoes }).irq .errlog 4
    let s := { s with
      reqs := s.reqs.filter (fun r => r.pkt.dst != e)
      txHeld := s.txHeld.filter (fun k => !(k.dst == e && pktRequest k))
      fences := s.fences.map (fun (f : Fence) => { f with waits := f.waits.filter (fun w => w.1 != e) }) }
    ((mine.map (·.1)).foldl (fun s n => s.loseMember e n) s).showLoss.showContaining.reschedule

/-- A LOSS line: the pass it names is halted with it, and its writer is lost. -/
def State.lossLine (s : State) (n : Nat) (l : List Byte) : State :=
  let s := match s.job n with
    | some j =>
      if clDiscard l && j.takesHalts then (s.stopPass n (clSeq l)).episodeLine n (clSeq l) (clEvent l) (clCulprit l) else s
    | none => s
  s.declareLost (clEndpoint l)

/-- This module announces its own loss (R556): record 0x009 and LOSS lines for every job. -/
def State.sendLoss (s : State) : State :=
  let s := s.report .errlog { code := 0x0009, sev := 4, key := s.endpoint, halt := false }
  let t := s.nowN
  s.jobNums.foldl (fun s n =>
    match s.job n with
    | none => s
    | some j =>
      let nm := j.named
      let att := match j.episode with
        | some ep => ep.attempt
        | none => 1
      s.sendContain n (fun j =>
        containLine 2 false j.myMember 0x0009 (min 3 (max 1 att)) (nm.map (fun (p : Pass) => (p.seq, p.label))) t s.endpoint)) s

/-- What the module awaits from a member (R556): answers, its barrier line, its bitmap, or a SYNC. -/
def State.awaits (s : State) (e : Nat) : Bool :=
  s.reqs.any (fun r => r.pkt.dst == e && r.sent) ||
  s.jobs.any (fun x => x.2.others.contains e && !x.2.lossWait.contains e &&
    (x.2.syncFrom.isSome || (x.2.forming.isSome && x.2.peerList.contains e) ||
      (match x.2.executing with
       | some p => p.barrierSent &&
         (match s.winRead x.1 x.2.barrierWindow (x.2.barrierOff p.seq ((x.2.memberList.findIdx? (· == e)).getD 0)) 16 with
          | .ok b => getLE b 0 8 != p.seq || getLE b 8 8 != p.label
          | _ => true)
       | none => false)))

/-- Ticks since the last packet from an endpoint. -/
def State.silence (s : State) (e : Nat) : Nat := s.nowN - (mget s.heard e).getD 0

/-- A member awaited has been silent for 245,760 ct. -/
def State.silentMember (s : State) (e : Nat) : State :=
  if s.awaits e && decide (245760 ≤ s.silence e) then s.declareLost e else s

/-- SILENT_MEMBER_TIMEOUT (R556). -/
def execSilentMemberTimeout (endpoint : Nat) (s : State) : Host.Outcome State Fault Refusal := .next (s.silentMember endpoint)

/-! ### Rejoining (R559) -/

/-- The first label of the restored slice: the first grid label at or after J + 49,152. -/
def Job.rejoinLabel (j : Job) (t : Nat) : Nat :=
  j.startCt + ceilDiv (t + 49152 - j.startCt) (max 1 j.passCt) * j.passCt

/-- The next pass of the job is formed afresh under a label, its formation beginning at the later of now and the label minus FORM_CT. FORM_PEG
starts from the value it holds (log 103). -/
def Job.restart (j : Job) (now label peg : Nat) : Job :=
  { j with relabel := some label, formAt := some (max now (label - j.formCt)), formBase := peg, episode := none, forming := none }

/-- The drain of a job is complete: no episode is still being drained. -/
def Job.drainedNow (j : Job) : Bool :=
  match j.episode with
  | some e => e.drained
  | none => true

/-- Answer a JOIN: LOSS_WAIT clears, every uncommitted pass is to be formed afresh, and a SYNC names the first of them with its label. -/
def State.answerJoin (s : State) (n e t : Nat) : State :=
  match s.job n with
  | none => s
  | some j =>
    let s := (if j.executing.isSome then s.abandonUnits (fun x => x == n) else s).dropPasses n 0
    let s := s.modJob n (fun j =>
      let j : Job := { j with lossWait := j.lossWait.filter (fun x => x != e), joinHeld := none }
      if j.lossWait.isEmpty then j.restart s.nowN (j.rejoinLabel t) (s.pegValue j.formPeg) else j)
    let s := s.showLoss.showContaining
    match s.job n with
    | none => s
    | some j' => s.sendUrgent n (pktWrite e j.barrierWindow (j.containOff j.myMember) 0
        (containLine 4 false j.myMember 0 0 (some (j'.nextSeq, j.rejoinLabel t)) t s.endpoint))

/-- A JOIN line. A member still draining answers once its drain is complete (Table 18-13). -/
def State.joinLine (s : State) (n : Nat) (l : List Byte) : State :=
  match s.job n with
  | none => s
  | some j =>
    if j.standby || j.phase != .serving || !j.lossWait.contains (clEndpoint l) then s
    else if j.drainedNow then s.answerJoin n (clEndpoint l) (clEvent l)
    else s.setJob n { j with joinHeld := some (clEndpoint l, clEvent l) }

/-- A SYNC line: the first one received that answers the JOIN gives the promoted module its PASS_SEQ. -/
def State.syncLine (s : State) (n : Nat) (l : List Byte) : State :=
  match s.job n with
  | none => s
  | some j =>
    if j.syncFrom != some (clEvent l) then s
    else s.setJob n { j.restart s.nowN (j.rejoinLabel (clEvent l)) (s.pegValue j.formPeg) with
      syncFrom := none, nextSeq := clSeq l, barrierBase := s.pegValue j.barrierPeg }

/-- A containment line has arrived for a job (R546). -/
def State.lineReceived (s : State) (n : Nat) (l : List Byte) : State :=
  match clKind l with
  | 1 => s.haltLine n l
  | 2 => s.lossLine n l
  | 3 => s.joinLine n l
  | 4 => s.syncLine n l
  | _ => s

/-- A line of one kind, and no other (log 105). -/
def State.lineOf (s : State) (kind n : Nat) (l : List Byte) : State := if clKind l == kind then s.lineReceived n l else s

/-- HALT_RECEIVE (R549). -/
def execHaltReceive (job : Nat) (line : List Byte) (s : State) : Host.Outcome State Fault Refusal := .next (s.lineOf 1 job line)

/-- LOSS_RECEIVE (R556). -/
def execLossReceive (job : Nat) (line : List Byte) (s : State) : Host.Outcome State Fault Refusal := .next (s.lineOf 2 job line)

/-- JOIN_RECEIVE (R559). -/
def execJoinReceive (job : Nat) (line : List Byte) (s : State) : Host.Outcome State Fault Refusal := .next (s.lineOf 3 job line)

/-- SYNC_RECEIVE (R559). -/
def execSyncReceive (job : Nat) (line : List Byte) (s : State) : Host.Outcome State Fault Refusal := .next (s.lineOf 4 job line)

end Sys2Proof.Machine
end

