-- ==== Sys2Proof/Machine/Ingress.lean ====
section
/-!
DEFINITION. What the module does with a request from the fabric: the duplicate record, the checks of Table 12-5, the misroute queue, peg accumulators,
and the answer (R185, R195–R198, R371–R385, R390, R391, R395, R419, R424, R546, R562).
-/

namespace Sys2Proof.Machine

open Sys2Proof

/-! ### The duplicate record (R419) -/

/-- How a request stands against its source's record. -/
inductive Dup where
  | fresh | repeated (code : Nat) | drop
deriving DecidableEq, Repr

def State.dupOf (s : State) (p : Packet) : Dup :=
  match mget s.dedup p.src with
  | none => .fresh
  | some r =>
    let behind := seqDist r.highest p.seq
    match mget r.answered p.seq with
    | some c => .repeated c
    | none =>
      if r.applying.contains p.seq then .drop
      else if decide (2048 < behind) && decide (behind < 2 ^ 31) then .drop
      else .fresh

/-- The request is received: the highest SEQ, and which are kept. -/
def State.noteRequest (s : State) (p : Packet) : State :=
  let r := (mget s.dedup p.src).getD { highest := p.seq }
  let hi := if seqDist p.seq r.highest < 2 ^ 31 then p.seq else r.highest
  let kept := fun (q : Nat) => decide (seqDist hi q ≤ 2048)
  { s with dedup := mset s.dedup p.src { r with
      highest := hi, answered := r.answered.filter (fun x => kept x.1), applying := sinsert r.applying p.seq, lastAt := s.nowN } }

def State.noteAnswer (s : State) (src seq code : Nat) : State :=
  { s with dedup := mmod s.dedup src (fun r => { r with
      answered := mset r.answered seq code, applying := r.applying.filter (fun x => x != seq) }) }

/-- DEDUP_RECORD_EXPIRY (R419): 100 ms with no request from the source. -/
def State.dedupExpire (s : State) (src : Nat) : State :=
  match mget s.dedup src with
  | some r => if r.lastAt + 2457600 ≤ s.nowN then { s with dedup := mdel s.dedup src } else s
  | none => s

def execDedupRecordExpiry (src : Nat) (s : State) : Host.Outcome State Fault Refusal := .next (s.dedupExpire src)

/-! ### Answers (R372) -/

/-- The answer to a request: DST is its SRC; SLICE, SEQ, WINDOW, PEG and OFFSET are echoed, and one credit returns (R383). -/
def State.answer (s : State) (n : Nat) (p : Packet) (typ code : Nat) (shared : Bool) (line : List Byte) : State :=
  (s.noteAnswer p.src p.seq code).transmit
    { typ := typ, shared := shared, src := s.endpoint, srcJob := n, dst := p.src, slice := p.slice, epoch := 0, seq := p.seq, window := p.window
      peg := p.peg, offset := p.offset, inc := 1, reason := code, line := line }

/-- A request is refused: counted, described, recorded and answered (R379). -/
def State.refusePkt (s : State) (n : Option Nat) (p : Packet) (code : Nat) : State :=
  let s := (s.count .window 0x108 1).irq .window 1
  let s := s.setPreg .window 0x110 (BitVec.ofNat 32 (2 ^ 31 + n.getD 0 % 8 * 2 ^ 28 + code * 2 ^ 16 + p.window % 4096))
  let s := s.setPreg .window 0x114 (BitVec.ofNat 32 (p.slice % 64 * 2 ^ 16 + p.srcJob % 8 * 2 ^ 10 + p.src % 1024))
  let s := if p.typ == tPegInc && [6, 7, 9].contains code then s.count .peg 0x120 1 else s
  let s := s.report .window { code := 0x6000 + code, sev := 1, key := fabricKey p.src p.window code false, detail := fabricDetail p, job := n }
  s.answer (n.getD 0) p tRefuse code false []

/-! ### The misroute queue (R196–R198) -/

def misrouteRecord (p : Packet) (kind epoch now seq : Nat) : List Byte :=
  leBytes 2 (p.src % 1024) ++ leBytes 1 p.epoch ++ leBytes 1 epoch ++ leBytes 1 kind ++ [0] ++ leBytes 2 (p.window % 4096) ++
    leBytes 8 (p.offset % 2 ^ 40) ++ leBytes 8 now ++ leBytes 4 seq ++ leBytes 4 0

/-- The record written and the producer advanced; none when the ring is full, the job is LOADING or a page does not translate (log 106). -/
def State.misroutePut (s : State) (n : Nat) (j : Job) (r : List Byte) : Option State :=
  let base := j.misroute
  let next := nextSlot (2 ^ j.misrouteLog) j.misProd
  if j.phase == .loading then none
  else match s.readVa n base 4 with
    | .ok c =>
      if getLE c 0 4 == next then none
      else match s.writeVa n (base + 32 * j.misProd) r with
        | .ok s => match s.writeVa n (base + 8) (leBytes 8 next) with
          | .ok s =>
            let s := s.modJob n (fun j => { j with misProd := next })
            some ((List.range 16).foldl (fun s b => s.setPreg (.dovetail b) (0x1C0 + 4 * n) (BitVec.ofNat 32 next)) s)
          | _ => none
        | _ => none
    | _ => none

/-- A misroute: a record if there is room, the counts of every dovetail page, and the interrupt. SEQ advances in any case. -/
def State.misrouteNote (s : State) (n : Nat) (p : Packet) (kind epoch : Nat) : State :=
  match s.job n with
  | none => s
  | some j =>
    let put := s.misroutePut n j (misrouteRecord p kind epoch s.nowN j.misSeq)
    let s := (put.getD s).modJob n (fun j => { j with misSeq := (j.misSeq + 1) % 2 ^ 32 })
    (List.range 16).foldl (fun s b =>
      let s := s.countWrap (.dovetail b) (0x180 + 4 * n) 1
      let s := if put.isNone then s.countWrap (.dovetail b) (0x1A0 + 4 * n) 1 else s
      s.irq (.dovetail b) 2) s

/-! ### The checks of Table 12-5 -/

/-- The placement bank and the level that the receiver's pass in force uses (R395, R426, R428). -/
def Job.passNow (j : Job) : Option Pass := j.executing.orElse (fun _ => j.formed)
def Job.bankNow (j : Job) : Nat := (j.passNow.map (fun (p : Pass) => p.placementBank)).getD j.placement.active
def Job.levelNow (j : Job) : Nat := (j.passNow.map (fun (p : Pass) => p.level)).getD j.level.active

/-- A run of bytes from `a` holds a line at `o`. -/
def within (a n o : Nat) : Bool := decide (a ≤ o) && decide (o + 128 ≤ a + n)

/-- The served layer that a slot's arrivals have come to, `inc` of them since the pass's base, and whether it is an exchange layer (R207, R213):
a source sends nothing of the next layer before this one's increments are complete (R205). -/
def slotLayer (sources : Nat) : Nat → Nat → List (Bool × Nat × Bool) → Option (Nat × Bool)
  | _, _, [] => none
  | l, inc, x :: xs =>
    let need := if x.2.2 then (if x.1 then 2 * sources else sources) else 0
    if inc < need then some (l, x.1) else slotLayer sources (l + 1) (inc - need) xs

/-- The layer that the queue of a window's slot is receiving. -/
def State.queueLayer (s : State) (n : Nat) (j : Job) (w : Win) (b : Bank) : Option (Nat × Bool) :=
  match j.passNow, s.layerInfo n j.bankNow s.endpoint w.qslot b.layers with
  | some p, .ok ls =>
    let peg := b.arrivalPeg w.qslot
    slotLayer b.sources 0 ((s.pegValue peg + 2 ^ 32 - p.baseOf peg % 2 ^ 32) % 2 ^ 32) ls
  | _, _ => none

/-- A line through a queue window lies where its sender may write: its own segment of one of the four areas (R185); while the slot receives an exchange
layer, its count line or the single areas of R212, which no segment divides (log 107). -/
def Bank.segmentOk (b : Bank) (ex : Bool) (src o : Nat) : Bool :=
  match b.sourceList.findIdx? (· == src) with
  | none => false
  | some i =>
    within (i * 128) 128 o ||
    (if ex then decide (b.tagArea ≤ o) && decide (o + 128 ≤ b.scaleArea true + b.exchCap * b.rs)
     else within (b.tagOff false i 0) (b.tl false * 128) o || within (b.dataOff false i 0) (b.cap * b.rd) o ||
       within (b.scaleOff false i 0) (b.cap * b.rs) o)

/-- A broadcast fetch fills the slot that a TARGET 2 window names, through this window (R295). -/
def State.fetchOpen (s : State) (w : Win) (window : Nat) : Bool :=
  match s.fetch with
  | some f => f.slot == w.base % 2 && f.source == 4 && !f.gap && Config.fetchWindow (slice f.block 256 256) == window
  | none => false

/-- Epochs that a write or increment must carry: its window's, then its peg's. None: there is nothing to compare with, and it is refused (R395). -/
def State.epochsOf (s : State) (n : Nat) (j : Job) (w : Win) (p : Packet) : List (Option Nat) :=
  let win : List (Option Nat) := match w.epochMode with
    | 1 => [some w.epoch]
    | 2 => [match s.bank n j.bankNow 0 with
      | .ok b => if w.qslot < b.queues then some (b.queueEpoch w.qslot) else none
      | _ => none]
    | _ => []
  let c := s.pegCtrl p.peg
  win ++ (if p.typ == tPegInc && wbit c 7 && decide (3 ≤ j.levelNow) then [some (wfield c 23 16)] else [])

/-- The first epoch the packet does not match. QUEUE_EPOCH of the misroute record is that epoch, so the peg's own where EPOCH_CHECK failed, and 0 where
QSLOT is at or above QUEUES (DESIGN CHOICE, log 263). -/
def State.epochBad (s : State) (n : Nat) (j : Job) (w : Win) (p : Packet) : Option (Option Nat) :=
  if p.typ == tLineRead then none else (s.epochsOf n j w p).find? (fun e => e != some p.epoch)

/-- Checks 0x002 to 0x009, in order. -/
def State.ingressChecks (s : State) (n : Nat) (j : Job) (w : Win) (p : Packet) : List (Nat × Bool) :=
  let line := p.typ != tPegInc
  let c := s.pegCtrl p.peg
  [ (2, w.state == 1 || w.state == 2),
    (3, w.state == 1 && !(w.target == 1 && s.absent w.bay)),
    (4, decide (w.first ≤ p.src) && decide (p.src ≤ w.last) && (w.anyJob || w.srcJob == p.srcJob)),
    (5, (if p.typ == tLineRead then w.read else if p.typ == tLineWrite then w.write else w.peg) &&
        (w.target != 2 || s.fetchOpen w p.window)),
    (6, if line then
          p.offset % 128 == 0 && decide (p.offset + 128 ≤ w.size) &&
          (w.target != 1 || decide (w.bayOff + p.offset + 128 ≤ (s.partition w.bay n).2))
        else decide (w.pegFirst ≤ p.peg) && decide (p.peg < w.pegFirst + w.pegCount)),
    (7, line || (s.pegOwned p.peg n && wbit c 6 && p.inc != 0)),
    (8, p.typ != tLineWrite || !w.segmented || (match s.bank n j.bankNow 0 with
        | .ok b => b.segmentOk ((s.queueLayer n j w b).any (·.2)) p.src p.offset
        | _ => false)),
    (9, (s.epochBad n j w p).isNone) ]

/-! ### Applying (R380, R385) -/

/-- A translation that fails at ingress: code 0x00A, and MIGRATE_LAST_FAULT with UNIT 5. -/
def State.ingressFault (s : State) (n va code : Nat) (p : Packet) : State := (s.lastFault code n va 5 0).refusePkt (some n) p 0x00A

/-- The line lies in the containment area of the job (R546). -/
def Job.containHas (j : Job) (p : Packet) : Bool :=
  p.window == j.barrierWindow && decide (2 * j.members * 128 ≤ p.offset) && decide (p.offset < 3 * j.members * 128)

/-- The line to store for a write. A tag line of an exchange layer may hold the rows of several sources: the words of rows not granted to the sender
stand as they are (log 261). -/
def State.lineToStore (s : State) (n : Nat) (j : Job) (w : Win) (p : Packet) : List Byte :=
  let line := slice p.line 0 128
  if !w.segmented then line
  else match s.bank n j.bankNow 0, j.passNow with
    | .ok b, some q => match s.queueLayer n j w b, b.sourceList.findIdx? (· == p.src), s.winRead n p.window p.offset 128 with
      | some (layer, true), some i, .ok old =>
        if p.offset < b.tagArea || b.dataArea true ≤ p.offset then line
        else match s.countsOf n b w.qslot layer q.label true b.sources with
          | .ok (some counts) =>
            let g := (grantsOf b.exchCap 0 counts).getD i (0, 0)
            let row := (p.offset - b.tagArea) / 4
            (List.range 32).flatMap (fun x =>
              if g.2 ≤ row + x ∧ row + x < g.2 + g.1 then slice line (4 * x) 4 else slice old (4 * x) 4)
          | _ => line
      | _, _, _ => line
    | _, _ => line

def State.applyWrite (s : State) (n : Nat) (j : Job) (w : Win) (p : Packet) : State :=
  let line := s.lineToStore n j w p
  let va := w.base + p.offset
  let done := fun (s : State) =>
    let s := (s.count64 .window 0x128 0x12C 1).answer n p tAck 0 false []
    if j.containHas p then s.lineReceived n line else s
  match w.target with
  | 0 => match s.writeVa n va line with
    | .ok t => done (t.touch n va 128)
    | .bad c _ _ => s.ingressFault n va c p
    | _ => s.ingressFault n va 5 p
  | 1 => done (s.writeBay w.bay ((s.partition w.bay n).1 + w.bayOff + p.offset) line)
  | _ => done (s.fetchLine p.offset line)

def State.applyRead (s : State) (n : Nat) (w : Win) (p : Packet) : State :=
  let va := w.base + p.offset
  let x := if w.target = 2 then Acc.ok (s.readPa (slotPage (w.base % 2) (p.offset / 65536) + p.offset % 65536) 128)
    else s.winRead n p.window p.offset 128
  match x with
  | .ok b =>
    let s := if w.target = 0 then s.touch n va 128 else s
    (s.count64 .window 0x130 0x134 1).answer n p tReadData 0 w.shared b
  | .bad c _ _ => s.ingressFault n va c p
  | .poison _ _ => s.refusePkt (some n) p 0x00B
  | _ => s.ingressFault n va 5 p

/-! ### Peg accumulators (R385) -/

/-- The sum of one accumulator goes into its peg and its increments are acknowledged. -/
def State.flushAccum (s : State) (a : Accum) : State :=
  let s := { s with accums := s.accums.filter (fun x => x != a) }
  let s := (s.pegAdd a.peg a.sum).count64 .peg 0x118 0x11C 1
  let s := a.acks.foldl (fun s (p : Packet) => s.answer (((s.jobOfSlice p.slice).map (·.1)).getD 0) p tAck 0 false []) s
  { s with draining := s.draining.filter (fun x => !a.acks.contains x.2) }

/-- An increment enters its port's accumulator of the peg; with all 64 taken by other pegs the oldest is flushed first (log 108). A port without
accumulators, a head port or the loopback, adds at once. -/
def State.applyInc (s : State) (port n : Nat) (p : Packet) : State :=
  let s := s.count64 .peg 0x110 0x114 1
  if port ≥ 16 then (s.pegAdd p.peg p.inc).answer n p tAck 0 false []
  else match s.accums.find? (fun a => a.port == port && a.peg == p.peg) with
    | some a => { s with accums := s.accums.map (fun (x : Accum) =>
        if x == a then { x with sum := (x.sum + p.inc) % 2 ^ 32, acks := x.acks ++ [p] } else x) }
    | none =>
      let mine := s.accums.filter (fun a => a.port == port)
      let s := match mine with
        | a :: _ => if mine.length ≥ 64 then s.flushAccum a else s
        | [] => s
      { s with accums := s.accums ++ [{ port := port, peg := p.peg, sum := p.inc, acks := [p] }] }

/-- PEG_ACCUMULATOR_FLUSH (R385). -/
def State.flushPeg (s : State) (port peg : Nat) : State :=
  match s.accums.find? (fun a => a.port == port && a.peg == peg) with
  | some a => s.flushAccum a
  | none => s

def execPegAccumulatorFlush (port peg : Nat) (s : State) : Host.Outcome State Fault Refusal := .next (s.flushPeg port peg)

/-! ### A request received -/

/-- A request that is not a repeat, or a line read answered before and read afresh: the checks, then its effect. -/
def State.handleReq (s : State) (port : Nat) (p : Packet) : State :=
  match s.jobOfSlice p.slice with
  | none => s.refusePkt none p 0x001
  | some (n, j) =>
    let w := s.win n p.window
    if !s.routed p.src n then s.refusePkt none p 0x001
    else match firstFail (s.ingressChecks n j w p) with
      | some 8 => (s.misrouteNote n p 3 0).refusePkt (some n) p 8
      | some 9 => (s.misrouteNote n p (if p.typ == tLineWrite then 1 else 2) (((s.epochBad n j w p).bind id).getD 0)).refusePkt (some n) p 9
      | some c => s.refusePkt (some n) p c
      | none =>
        if p.typ == tLineWrite then s.applyWrite n j w p
        else if p.typ == tLineRead then s.applyRead n w p
        else s.applyInc port n p

/-- A packet that fails its end-to-end check is dropped and counted: a contained fault of the receiver, in no job's work (R374). -/
def State.crcDrop (s : State) (p : Packet) : State :=
  (s.count .window 0x11C 1).contained .window
    { code := 0x600D, sev := 3, key := fabricKey p.src p.window 0x00D false, detail := fabricDetail p }

/-- The answer to a request answered before is sent again; a line is read afresh (R419). -/
def State.answerAgain (s : State) (port : Nat) (p : Packet) (code : Nat) : State :=
  let n := ((s.jobOfSlice p.slice).map (·.1)).getD 0
  if code != 0 then s.answer n p tRefuse code false []
  else if p.typ == tLineRead then s.handleReq port p
  else s.answer n p tAck 0 false []

/-- A request arrives at a port (18: from the module itself). `crc`: it passes its end-to-end check. -/
def State.request (s : State) (port : Nat) (p : Packet) (crc : Bool) : State :=
  if !crc then s.crcDrop p
  else
    let s := { s with heard := mset s.heard p.src s.nowN }
    match s.dupOf p with
    | .drop => s.count .route 0x114 1
    | .repeated c => (s.noteRequest p).answerAgain port p c
    | .fresh => (s.noteRequest p).handleReq port p

/-- A packet of a reserved TYPE is handled as one that fails its end-to-end check (R371); a command that carries a packet of another type is not this
command (log 10). -/
def State.requestOf (s : State) (typ port : Nat) (p : Packet) (crc : Bool) : State :=
  if p.typ == typ then s.request port p crc else if pktKnown p then s else s.crcDrop p

/-- LINE_READ (R371, R374, R379, R391): a packet as its header fields and line, and the CRC word it carries. -/
def execLineRead (port : Nat) (p : Packet) (crc : Nat) (s : State) : Host.Outcome State Fault Refusal :=
  .next (s.requestOf tLineRead port p (crc == pktCrc p))

/-- LINE_WRITE (R371, R379, R380, R546). -/
def execLineWrite (port : Nat) (p : Packet) (crc : Nat) (s : State) : Host.Outcome State Fault Refusal :=
  .next (s.requestOf tLineWrite port p (crc == pktCrc p))

/-- PEG_INC (R371, R379, R385). -/
def execPegInc (port : Nat) (p : Packet) (crc : Nat) (s : State) : Host.Outcome State Fault Refusal :=
  .next (s.requestOf tPegInc port p (crc == pktCrc p))

end Sys2Proof.Machine
end

