-- ==== Sys2Proof/Machine/Answers.lean ====
section
/-!
DEFINITION. What the module does with an answer from the fabric, and when a fence completes (R373, R386–R389, R390–R392).
-/

namespace Sys2Proof.Machine

open Sys2Proof

/-- The outstanding request that an answer matches, by DST, SEQ and TYPE (R373). -/
def State.matched (s : State) (p : Packet) : Option Req :=
  s.reqs.find? (fun r => r.sent && r.pkt.dst == p.src && r.pkt.seq == p.seq &&
    (p.typ == tRefuse || (p.typ == tReadData) == (r.pkt.typ == tLineRead)))

/-- The request is answered: it is outstanding no longer, no fence waits on it, and a request that waited for its credit may leave. -/
def State.settle (s : State) (r : Req) (error : Option Nat) : State :=
  let k := (r.pkt.dst, r.pkt.seq)
  let s := { s with
    reqs := s.reqs.filter (fun x => !(x.pkt.dst == r.pkt.dst && x.pkt.seq == r.pkt.seq))
    fences := s.fences.map (fun (f : Fence) =>
      if f.waits.contains k then { f with waits := f.waits.filter (fun w => w != k), error := f.error.orElse (fun _ => error) } else f) }
  s.pump

/-- A unit that waited for an answer goes on. -/
def State.goOn (s : State) (u : UnitId) : State :=
  match u with
  | .core b l => s.headStep b l
  | .dovetail b => s.dvStep b
  | _ => s

/-- The line of a read reaches the unit that asked for it; a shared line also fills its bay's remote read cache (R52, R391). -/
def State.lineFor (s : State) (r : Req) (shared : Bool) (line : List Byte) : State :=
  let line := slice line 0 128
  let l := r.pkt.offset / 128
  let k := lineKeyOf r.pkt.dst r.pkt.window l
  match r.unit with
  | .core b c =>
    let s := if shared && !r.stale then s.rrcFill b (rrcKey b r.job r.pkt.dst r.pkt.window l) line else s
    let s := if shared then s.count64 (.bay b) 0x160 0x164 1 else s
    let q := s.core b c
    if q.job == some r.job && q.started && !q.executed then s.putCore b c { q with lines := mset q.lines k line } else s
  | .bayDma b n =>
    { s with chans := mmod s.chans (chanKey (.bay b n)) (fun x => { x with lines := mset x.lines k line }) }
  | .hostDma n => { s with chans := mmod s.chans (chanKey (.host n)) (fun x => { x with lines := mset x.lines k line }) }
  | .weights => { s with loads := s.loads.map (fun (w : WLoad) =>
      if w.job == r.job then { w with lines := mset w.lines k line } else w) }
  | .fetch => { s with fetch := s.fetch.map (fun f => { f with got := mset f.got k line }) }
  | _ => s

/-- READ_DATA: the line goes to its reader. -/
def State.readData (s : State) (p : Packet) : State :=
  match s.matched p with
  | none => s.count .window 0x118 1
  | some r => ((s.settle r none).lineFor r p.shared p.line).goOn r.unit

/-- ACK. -/
def State.acked (s : State) (p : Packet) : State :=
  match s.matched p with
  | none => s.count .window 0x118 1
  | some r => (s.settle r none).goOn r.unit

/-- The job is in the drain phase of a teardown: a REFUSE sets no flag (R387). -/
def Job.draining (j : Job) : Bool := !j.drainedNow

/-- A refused line read ends its command at once: a contained fault, or the failure of a weight load, which is no pass or run work (R388, R309); a fetch reads
the line again until its source has failed for 10 s. -/
def State.readRefused (s : State) (r : Req) (code : Nat) : State :=
  match r.unit with
  | .weights => match s.loads.find? (fun w => w.job == r.job) with
    | some w => s.loadEnd w stFailedSource
    | none => s
  | .fetch => s
  | _ => s.containedQuiet (0x6000 + code) r.job

/-- REFUSE: a record, the count, the job's failure flag, and the fences that waited (R387). A line that the reader of a broadcast pushed is no job's, and counts
only against its receiver's bitmap (R295). -/
def State.refused (s : State) (p : Packet) : State :=
  match s.matched p with
  | none => s.count .window 0x118 1
  | some r =>
    let code := p.reason % 4096
    let s := (s.count .window 0x10C 1).irq .window 2
    let s := s.refusalRecord r.pkt code
    let s := if r.unit == .fetch || ((s.job r.job).map Job.draining).getD false then s else s.setFailed r.job r.pkt.dst code
    let s := s.settle r (some code)
    if r.pkt.typ == tLineRead then s.readRefused r code else s

/-- An answer arrives: the end-to-end check, then its effect. A command that carries a packet of another type is not this command. -/
def State.answerOf (s : State) (typ : Nat) (p : Packet) (crc : Bool) (f : State → Packet → State) : State :=
  if p.typ != typ then (if pktKnown p then s else s.crcDrop p)
  else if !crc then s.crcDrop p
  else f { s with heard := mset s.heard p.src s.nowN } p

/-- READ_DATA (R371, R390, R391). -/
def execReadData (p : Packet) (crc : Nat) (s : State) : Host.Outcome State Fault Refusal :=
  .next (s.answerOf tReadData p (crc == pktCrc p) State.readData)

/-- ACK (R371). -/
def execAck (p : Packet) (crc : Nat) (s : State) : Host.Outcome State Fault Refusal :=
  .next (s.answerOf tAck p (crc == pktCrc p) State.acked)

/-- REFUSE (R387). -/
def execRefuse (p : Packet) (crc : Nat) (s : State) : Host.Outcome State Fault Refusal :=
  .next (s.answerOf tRefuse p (crc == pktCrc p) State.refused)

/-! ### Fences (R386, R388) -/

/-- The code with which a fence completes, if with an error. -/
def State.fenceError (s : State) (f : Fence) : Option Nat :=
  f.error.orElse fun _ => match s.job f.job with
    | none => none
    | some j => match f.dst with
      | none => j.failed.head?.map (·.2)
      | some d => mget j.failed d

/-- What follows a fence that has completed without an error: the requests held behind it, and its unit. -/
def State.fenceGood (s : State) (f : Fence) : State :=
  let s := s.sendAll f.unit f.job f.next
  let dma := fun (s : State) (c : DmaChan) =>
    let x := s.chan c
    if x.fencing then s.putChan c { x with fencing := false, done := true } 1 else s
  match f.unit with
  | .bayDma b n => dma s (.bay b n)
  | .hostDma n => dma s (.host n)
  | u => s.goOn u

/-- The oldest fence with nothing outstanding completes; with an error it is a contained fault (R388). -/
def State.fenceComplete (s : State) : State :=
  match s.fences.find? (fun f => f.waits.isEmpty) with
  | none => s
  | some f =>
    let s := { s with fences := s.fences.erase f }
    match s.fenceError f with
    | some code => s.containedQuiet (0x6000 + code) f.job
    | none => s.fenceGood f

/-- FENCE_COMPLETE (R386). -/
def execFenceComplete (s : State) : Host.Outcome State Fault Refusal := .next s.fenceComplete

end Sys2Proof.Machine
end

