-- ==== Sys2Proof/Machine/Links.lean ====
section
/-!
DEFINITION. The links: flits, acknowledgement and replay, lanes and width, training, and what happens when a port goes down (R407–R421, R427, R430).
-/

namespace Sys2Proof.Machine

open Sys2Proof

/-! ### Registers of a port -/

def State.linkState (s : State) (n : Nat) : Nat := wfield (s.preg (.link n) 0x100) 3 0
def State.linkLevel (s : State) (n : Nat) : Nat := wfield (s.preg (.link n) 0x100) 19 12
def State.portEn (s : State) (n : Nat) : Bool := wbit (s.preg (.link n) 0x104) 0

/-- Lanes that LINK_CFG.MAX_WIDTH allows. -/
def State.maxWidth (s : State) (n : Nat) : Nat :=
  match wfield (s.preg (.link n) 0x104) 5 4 with
  | 0 => 4
  | 1 => 2
  | _ => 1

/-- A link record (R430, Table 13-8): corrected. -/
def State.linkRecord (s : State) (n code lane : Nat) : State :=
  s.report (.link n) { code := 0x7000 + code, sev := 0, source := Page.source (.link n) lane, key := n + lane * 32
                       detail := leBytes 1 (s.portWidth n) ++ leBytes 1 (s.linkLevel n) }

/-- LINK_STAT.STATE changes: the interrupt, and ROUTE_PLANES_UP with its own. -/
def State.setLinkState (s : State) (n st : Nat) : State :=
  if s.linkState n = st then s
  else
    let was := s.portUp n
    let s := (s.putPreg (.link n) 0x100 3 0 st).irq (.link n) 1
    if was == (st == 3) then s
    else (s.setPreg .route 0x10C (wassign (s.preg .route 0x10C) n (st == 3))).irq .route 2

/-- Lane fields of LINK_STAT and LINK_LANES; the margin of a lane is a measurement (log 109). -/
def State.showLanes (s : State) (n : Nat) : State :=
  let p := s.port n
  let code := fun (l : Nat) => if p.healthy.contains l then 0 else if p.testing.isSome then 2 else 1
  let w := fun (l : Nat) => (code l * 64 + Config.freeNat (s.freeCtr + l) % 64) * 256 ^ l
  let s := s.putPreg (.link n) 0x100 11 8 (p.healthy.foldl (fun v l => v + 2 ^ (l % 4)) 0)
  ({ s with freeCtr := s.freeCtr + 4 }).setPreg (.link n) 0x108 (BitVec.ofNat 32 (w 0 + w 1 + w 2 + w 3))

/-- A port's lanes, shown. -/
def State.putLanes (s : State) (n : Nat) (f : Port → Port) : State := (s.modPort n f).showLanes n

/-! ### A port goes down (R418) -/

/-- Packets of unacknowledged flits, oldest first. -/
def Port.heldPackets (p : Port) : List Packet := p.unacked.flatMap (·.2)

/-- The port leaves service for state `st`. A plane port's packets go to the other planes, each resent one counted; a head port's wait for it. -/
def State.goDown (s : State) (n st : Nat) : State :=
  let p := s.port n
  let s := (s.count (.link n) 0x130 1).linkRecord n 3 0
  let s := ((s.putPreg (.link n) 0x100 19 12 0).putPreg (.link n) 0x100 6 4 0).setPreg (.link n) 0x114 0
  let s := s.setLinkState n st
  if n < 16 then
    let held := p.heldPackets
    let s := (s.setPort n {}).showLanes n
    let s := s.count (.link n) 0x138 held.length
    (held ++ p.queue).foldl (fun s k => s.transmit k) s
  else (s.setPort n { unacked := p.unacked, queue := p.queue }).showLanes n

/-- PORT_DOWN (R418): signal is lost on every lane of a port that is up or training. -/
def State.portDown (s : State) (n : Nat) : State :=
  if 18 ≤ n then s else if s.portUp n then s.goDown n 1 else if s.linkState n == 2 then s.setLinkState n 1 else s

def execPortDown (port : Nat) (s : State) : Host.Outcome State Fault Refusal := .next (s.portDown port)

/-- LINK_RETRAIN (R414, R418): the port goes down and trains. -/
def State.linkRetrain (s : State) (n : Nat) : State := if n < 18 && s.portUp n then s.goDown n 2 else s

def execLinkRetrain (port : Nat) (s : State) : Host.Outcome State Fault Refusal := .next (s.linkRetrain port)

/-! ### Width (R415–R417) -/

/-- The widest width the healthy lanes allow. -/
def widthFor (healthy : List Nat) (most : Nat) : Nat :=
  let h := fun (l : Nat) => healthy.contains l
  if 4 ≤ most && h 0 && h 1 && h 2 && h 3 then 4
  else if 2 ≤ most && ((h 0 && h 1) || (h 2 && h 3)) then 2
  else if h 0 || h 1 || h 2 || h 3 then 1
  else 0

/-- Unacknowledged flits are resent from the oldest (R412). -/
def State.replay (s : State) (n : Nat) : State :=
  match (s.port n).unacked with
  | [] => s
  | (q, _) :: _ =>
    let s := s.modPort n (fun p => { p with replays := p.replays + 1, ackAt := s.nowN })
    (s.count (.link n) 0x128 1).emit (.linkMsg n 1 q)

/-- Both ends switch to a width: counted, recorded, and the flits not acknowledged are resent at it. -/
def State.setWidth (s : State) (n w : Nat) : State :=
  let old := s.portWidth n
  let s := s.modPort n (fun p => { p with newWidth := none })
  let s := (s.putPreg (.link n) 0x100 6 4 w).count (.link n) 0x134 1
  let s := (s.irq (.link n) 3).linkRecord n (if w < old then 1 else 2) 0
  (s.replay n).pumpPort n

/-- The lanes of a port that is up have changed: it goes down with none, and otherwise asks for the width they allow, by retraining at link level 2
and by a WIDTH message at level 3. -/
def State.fitWidth (s : State) (n : Nat) : State :=
  let w := widthFor (s.port n).healthy (s.maxWidth n)
  if !s.portUp n then s
  else if w = 0 then s.goDown n 1
  else if w = s.portWidth n then s.modPort n (fun p => { p with newWidth := none })
  else if s.linkLevel n < 3 then s.goDown n 2
  else (s.modPort n (fun p => { p with newWidth := some w })).emit (.linkMsg n 2 w)

/-- LANE_FAILURE (R415). -/
def State.laneFailure (s : State) (n l : Nat) : State :=
  if s.portUp n && (s.port n).healthy.contains l then
    (s.putLanes n (fun p => { p with healthy := p.healthy.filter (fun x => x != l) })).fitWidth n
  else s

def execLaneFailure (port lane : Nat) (s : State) : Host.Outcome State Fault Refusal := .next (s.laneFailure port lane)

/-- WIDTH_ACK (R416). -/
def State.widthAck (s : State) (n : Nat) : State :=
  match (s.port n).newWidth with
  | some w => if s.portUp n then s.setWidth n w else s
  | none => s

def execWidthAck (port : Nat) (s : State) : Host.Outcome State Fault Refusal := .next (s.widthAck port)

/-- A lane of the port is disabled. -/
def Port.lame (p : Port) : Bool := p.healthy.length < 4

/-- A test of the disabled lanes begins. -/
def State.beginTest (s : State) (n : Nat) : State :=
  let t := s.nowN
  if s.portUp n && (s.port n).lame && (s.port n).testing.isNone then
    s.putLanes n (fun p => { p with testing := some t, testDue := t + 245760000 })
  else s

/-- LANE_TEST (R417): the test that falls due every 10 s begins, or one that has run for 100 ms ends: the lanes that passed are healthy again. -/
def State.laneTest (s : State) (n : Nat) (passed : List Nat) : State :=
  match (s.port n).testing with
  | some t =>
    if t + 2457600 ≤ s.nowN then
      (s.putLanes n (fun p => { p with
        testing := none, healthy := (passed.filter (fun l => l < 4)).foldl (fun h l => sinsert h l) p.healthy })).fitWidth n
    else s
  | none => if wbit (s.preg (.link n) 0x104) 1 && decide ((s.port n).testDue ≤ s.nowN) then s.beginTest n else s

def execLaneTest (port : Nat) (passed : List Nat) (s : State) : Host.Outcome State Fault Refusal := .next (s.laneTest port passed)

/-- TEST_LANES (R417). -/
def execTestLanes (port : Nat) (s : State) : Host.Outcome State Fault Refusal := .next (s.beginTest port)

/-! ### Equalisation (R414) -/

/-- ADAPT: a re-adaptation with the link up is asked for. The conditions of its record come with EQUALISATION_READAPT. -/
def State.adaptReq (s : State) (n : Nat) : State :=
  if s.portUp n then s.modPort n (fun p => { p with adapt := true }) else s

def execAdapt (port : Nat) (s : State) : Host.Outcome State Fault Refusal := .next (s.adaptReq port)

/-- LINK_CAL: the record now in force, taken under these conditions. -/
def State.stampCal (s : State) (n temp volt load : Nat) : State := s.setPreg (.link n) 0x10C (calWord temp volt load ||| 0x100)

/-- EQUALISATION_READAPT (R414): conditions have left the record's window, or a re-adaptation was asked for. Lanes that fail it are disabled. -/
def State.readapt (s : State) (n temp volt load : Nat) (failed : List Nat) : State :=
  let outside := !inWindow (s.preg (.link n) 0x10C) temp volt load
  if !s.portUp n || (!outside && !(s.port n).adapt) then s
  else
    let s := if outside then (s.irq (.link n) 2).linkRecord n 7 0 else s
    let s := (s.stampCal n temp volt load).modPort n (fun p => { p with adapt := false })
    (s.putLanes n (fun p => { p with healthy := p.healthy.filter (fun l => !failed.contains l) })).fitWidth n

def execEqualisationReadapt (port temp volt load : Nat) (failed : List Nat) (s : State) : Host.Outcome State Fault Refusal :=
  .next (s.readapt port temp volt load failed)

/-! ### Training (R414, R427) -/

/-- The identity word that IDENT carries (R577): a module, SLOT_ID, and the endpoint once it is valid. -/
def State.identity (s : State) : Nat :=
  let e := s.preg .route 0x104
  2 ^ 28 + s.slotId % 64 * 2 ^ 22 + (if wbit e 31 then wfield e 9 0 else 0x3FF)

/-- PORT_TRAINING: an enabled port with signal trains on the lanes that lock, exchanges IDENT with a peer of levels `lo`–`hi` and identity `id`, and
comes up at the lower of the two highest levels, or is held down (R427). SEQ restarts, 4,096 slots of each class are granted, and what a head port
held is resent. -/
def State.portTraining (s : State) (n lo hi id : Nat) (lanes : List Nat) (temp volt load : Nat) : State :=
  let st := s.linkState n
  let ok := lanes.filter (fun l => l < 4)
  let w := widthFor ok (s.maxWidth n)
  if decide (18 ≤ n) || !s.portEn n || st == 3 || st == 0 || w = 0 then s
  else
    let lv := s.preg .route 0x108
    let level := min (wfield lv 15 8) hi
    if level < max (wfield lv 7 0) lo then (s.setLinkState n 4).linkRecord n 6 0
    else
      let p := s.port n
      let held := p.heldPackets
      let s := s.setPort n { queue := held ++ p.queue, credits := (4096, 4096), healthy := sortBy (fun a b => decide (a < b)) ok.eraseDups
                             testDue := s.nowN + 245760000, ackAt := s.nowN }
      let s := (s.count (.link n) 0x138 held.length).stampCal n temp volt load
      let s := (s.putPreg (.link n) 0x100 19 12 level).putPreg (.link n) 0x100 6 4 w
      let s := ((s.setPreg (.link n) 0x114 (BitVec.ofNat 32 id)).setLinkState n 3).showLanes n
      (((s.linkRecord n 4 0).emit (.linkMsg n 4 s.identity)).pumpPort n).retryHeld

def execPortTraining (port lo hi id : Nat) (lanes : List Nat) (temp volt load : Nat) (s : State) : Host.Outcome State Fault Refusal :=
  .next (s.portTraining port lo hi id lanes temp volt load)

/-! ### Flits (R408–R413) -/

/-- A flit as a port reads it (Table 13-4): whether RS decoding and FCRC hold, whether RS corrected it, its header fields, and the width that a WIDTH control
message in it asks for (0: none; the form of control messages is not stated, log 271). -/
structure Flit where
  good : Bool
  corrected : Bool
  kind : Nat
  seq : Nat
  ackValid : Bool
  ack : Nat
  nak : Bool
  cls : Nat
  credit : Nat
  width : Nat
deriving DecidableEq, Repr

/-- FCRC covers header bytes 0–5 and the slots (Table 13-4). -/
def flitCrc (bs : List Byte) : Nat := crc16 (slice bs 0 6 ++ slice bs 8 256)

/-- The flit of bytes 0–263 after RS decoding: the generator of the code is not stated (log 271). -/
def flitOf (f : FlitIn) : Flit :=
  let h := getLE f.bytes 0 8
  { good := decide (f.rs < 2) && field h 63 48 == flitCrc f.bytes, corrected := f.rs == 1, kind := field h 13 12, seq := field h 11 0, ackValid := bit h 14
    ack := field h 27 16, nak := bit h 15, cls := b2n (bit h 28), credit := field h 39 29, width := f.width }

/-- 4 µs have passed since tick `t`. -/
def past4us (now t : Nat) : Bool := decide (t + 99 ≤ now)

/-- Answer a gap or a flit that cannot be used: one NAK, and no second before the flit awaited arrives or 4 µs pass. -/
def State.sendNak (s : State) (n : Nat) : State :=
  let p := s.port n
  let due := match p.nakAt with
    | some t => past4us s.nowN t
    | none => true
  if due then (s.setPort n { p with nakAt := some s.nowN }).emit (.linkMsg n 0 p.expect) else s

/-- ACK frees every flit up to and including it. -/
def Port.freed (now : Nat) (p : Port) (ack : Nat) : Port :=
  let left := p.unacked.filter (fun f => let d := (ack + 4096 - f.1) % 4096; !decide (d < 2048))
  if left.length = p.unacked.length then p else { p with unacked := left, ackAt := now, replays := 0 }

/-- Credits a flit returns, by class. -/
def Port.credited (p : Port) (cls n : Nat) : Port :=
  if cls = 0 then { p with credits := (p.credits.1 + n, p.credits.2) } else { p with credits := (p.credits.1, p.credits.2 + n) }

/-- The data flit of a SEQ: accepted, a duplicate, or after a gap (R411). -/
def State.dataFlit (s : State) (n q : Nat) : State :=
  let p := s.port n
  let d := (q + 4096 - p.expect) % 4096
  if d = 0 then s.setPort n { p with expect := (p.expect + 1) % 4096, nakAt := none }
  else if d < 2048 then s.sendNak n
  else s

def State.flit (s : State) (n : Nat) (f : Flit) : State :=
  if !s.portUp n then s
  else if !f.good || f.kind == 3 then (s.count (.link n) 0x12C 1).sendNak n
  else
    let s := if f.corrected then s.count64 (.link n) 0x118 0x11C 1 else s
    let t := s.nowN
    let s := if f.ackValid then s.modPort n (fun p => p.freed t f.ack) else s
    let s := s.modPort n (fun p => p.credited f.cls f.credit)
    let s := if f.nak then s.replay n else s
    let s := if f.kind == 0 then s.dataFlit n f.seq else s
    let s := if f.kind == 2 && [1, 2, 4].contains f.width && f.width != s.portWidth n then (s.emit (.linkMsg n 3 f.width)).setWidth n f.width else s
    s.pumpPort n

/-- FLIT_RECEIVE (R410–R413). -/
def execFlitReceive (port : Nat) (f : FlitIn) (s : State) : Host.Outcome State Fault Refusal := .next (s.flit port (flitOf f))

/-- ACK_TIMEOUT (R412): flits unacknowledged and no progress for 4 µs. -/
def State.ackTimeout (s : State) (n : Nat) : State :=
  if s.portUp n && !(s.port n).unacked.isEmpty && past4us s.nowN (s.port n).ackAt then s.replay n else s

def execAckTimeout (port : Nat) (s : State) : Host.Outcome State Fault Refusal := .next (s.ackTimeout port)

/-- REPLAY_RETRAIN (R412): 8 replays in a row without progress. -/
def State.replayRetrain (s : State) (n : Nat) : State :=
  if s.portUp n && decide (8 ≤ (s.port n).replays) then (s.linkRecord n 5 0).goDown n 2 else s

def execReplayRetrain (port : Nat) (s : State) : Host.Outcome State Fault Refusal := .next (s.replayRetrain port)

/-! ### LINK_CFG (R407, R415) -/

/-- A new LINK_CFG value: the port is disabled or enabled, or its width refitted. -/
def State.linkCfg (s : State) (n : Nat) (v : Word) : State :=
  let was := s.portEn n
  let s := s.setPreg (.link n) 0x104 v
  if was && !wbit v 0 then (if s.linkState n == 0 then s else if s.portUp n then s.goDown n 0 else s.setLinkState n 0)
  else if !was && wbit v 0 then s.setLinkState n 1
  else s.fitWidth n

end Sys2Proof.Machine
end

