-- ==== Sys2Proof/Machine/Settings.lean ====
section
/-!
DEFINITION. The commands of the settings store: the staged set, commits and credits (R274–R278, R281).
-/

namespace Sys2Proof.Machine

open Sys2Proof

/-- A command ends with a result: BUSY clears and DONE sets (R281). -/
def State.settingsResult (s : State) (r : Nat) : State :=
  ((s.putPreg .settings 0x100 15 8 r).putStat 0 false).showSettings.irq .settings 1

/-- A configuration transaction gathers settings now (R277). -/
def State.settingsInTxn (s : State) : Bool := wbit (s.preg .settings 0x008) 2 && wfield (s.preg .txn 0x104) 3 0 == 1

/-- A command issued while another is in progress is ignored, with RESULT 0x07 (R276). -/
def State.settingsCmd (s : State) (f : State → State) : State :=
  if s.settingsBusy then s.putPreg .settings 0x100 15 8 7 else f s

def State.settingsType (s : State) : Nat := wfield (s.preg .settings 0x108) 15 0
def State.settingsLen (s : State) : Nat := wfield (s.preg .settings 0x108) 24 16
/-- Types the host may read, and those it may stage or delete (Table 08-11). -/
def typeReadable (t : Nat) : Bool := decide (1 ≤ t) && decide (t < 0x8000)
def typeWritable (t : Nat) : Bool := decide (0x1000 ≤ t) && decide (t < 0x8000)

/-- SETTINGS_DATA as bytes. -/
def State.settingsData (s : State) : List Byte := (List.range 64).flatMap (fun i => leBytes 4 (s.preg .settings (0x200 + 4 * i)).toNat)

/-- READ (R276): the value in the current copy. -/
def State.settingsRead (s : State) : State :=
  s.settingsCmd fun s =>
    if !typeReadable s.settingsType then s.settingsResult 1
    else match mget s.settings.records s.settingsType with
      | none => s.settingsResult 4
      | some v =>
        let s := (List.range 64).foldl (fun s i => s.setPreg .settings (0x200 + 4 * i) (BitVec.ofNat 32 (getLE v (4 * i) 4))) s
        (s.putPreg .settings 0x108 24 16 v.length).settingsResult 0

def execSettingsRead (s : State) : Host.Outcome State Fault Refusal := .next s.settingsRead

/-- Add an entry to the staged set, or to the open transaction's (R276, R277). -/
def State.addStaged (s : State) (v : Option (List Byte)) : State :=
  let t := s.settingsType
  let k := s.settings
  if s.settingsInTxn then
    let st := mset k.txnStaged t v
    if 126904 < bodyBytes (applyStaged k.records st) then s.settingsResult 3
    else
      let s := s.setSettings (fun k => { k with txnStaged := st })
      (s.setPreg .txn 0x104 (wset (s.preg .txn 0x104) 17)).settingsResult 0
  else
    let st := mset k.staged t v
    if 126904 < bodyBytes (applyStaged k.records st) then s.settingsResult 3
    else (s.setSettings (fun k => { k with staged := st })).settingsResult 0

/-- STAGE (R276). -/
def State.settingsStage (s : State) : State :=
  s.settingsCmd fun s =>
    if !typeWritable s.settingsType then s.settingsResult 1
    else if 256 < s.settingsLen then s.settingsResult 2
    else s.addStaged (some (slice s.settingsData 0 s.settingsLen))

def execSettingsStage (s : State) : Host.Outcome State Fault Refusal := .next s.settingsStage

/-- DELETE (R276). -/
def State.settingsDelete (s : State) : State :=
  s.settingsCmd fun s => if !typeWritable s.settingsType then s.settingsResult 1 else s.addStaged none

def execSettingsDelete (s : State) : Host.Outcome State Fault Refusal := .next s.settingsDelete

/-! ### Commits (R273, R275) -/

/-- COMMIT (R275, R276): prepare once a credit is there. -/
def State.settingsCommit (s : State) : State :=
  s.settingsCmd fun s =>
    if s.settingsInTxn then s.settingsResult 6
    else if 126904 < bodyBytes (applyStaged s.settings.records s.settings.staged) then s.settingsResult 3
    else
      ((s.putStat 0 true).setSettings (fun k => { k with plainWait := true })).serveStore

def execSettingsCommit (s : State) : Host.Outcome State Fault Refusal := .next s.settingsCommit

/-- DISCARD (R276). -/
def State.settingsDiscard (s : State) : State :=
  s.settingsCmd fun s =>
    if s.settingsInTxn then s.settingsResult 6 else (s.setSettings (fun k => { k with staged := [] })).settingsResult 0

def execSettingsDiscard (s : State) : Host.Outcome State Fault Refusal := .next s.settingsDiscard

/-- COMMIT_CREDIT_EARNED (R275): one credit more, at most 64; a commit that waits takes it. -/
def State.creditEarned (s : State) : State :=
  let c := min 64 (s.credits + 1)
  let s := s.putPreg .settings 0x110 22 16 c
  (s.putPreg .settings 0x110 15 0 (if c = 64 then 0 else 600)).serveStore

def execCommitCreditEarned (s : State) : Host.Outcome State Fault Refusal := .next s.creditEarned

/-- SETTINGS_PREPARE_COMPLETE (R273, R277): the header is written. A command's commit marks the copy at once; a transaction's waits for its
instant. `ok`: every write succeeded. -/
def State.prepareComplete (s : State) (ok : Bool) : State :=
  match s.settings.preparing with
  | none => s
  | some _ =>
    if s.settings.inTxn then (if ok then s.putPrepared.putStat 1 true else s.dropPrepare.serveStore)
    else if ok then ((s.markCopy.setSettings (fun k => { k with staged := [] })).settingsResult 0).serveStore
    else (s.dropPrepare.settingsResult 5).serveStore

def execSettingsPrepareComplete (ok : Bool) (s : State) : Host.Outcome State Fault Refusal := .next (s.prepareComplete ok)

/-- A value of the current copy as a 4-byte number. -/
def State.setting4 (s : State) (t : Nat) : Option Nat :=
  (mget s.settings.records t).bind (fun v => if v.length = 4 then some (getLE v 0 4) else none)

end Sys2Proof.Machine
end

