-- ==== Sys2Proof/Machine/Ends.lean ====
section
/-!
DEFINITION. How the module ends its work: pins, READY, the close sequence of the deep tier and what is left when the rails have fallen (R253,
R257, R258, R266–R270, R574, R579, R583).
-/

namespace Sys2Proof.Machine

open Sys2Proof

/-! ### Sideband outputs (Tables 15-12 and 19-6) -/

/-- Drive a sideband output, or leave it tri-stated. -/
def State.drive (s : State) (name : String) (level : Bool) : State := s.emit (.pin name (if s.tristated then none else some level))

/-- READY, and MOD_READY with it (R479). -/
def State.setReady (s : State) (b : Bool) : State :=
  (s.setPreg .chip 0x104 (wassign (s.preg .chip 0x104) 0 b)).drive "MOD_READY" b

/-- The conditions of Table 15-12 that leave READY at 1: booted, no HOLD and no D3hot. -/
def State.mayServe (s : State) : Bool := s.life == .up && !wbit (s.preg .chip 0x108) 0 && !s.pcie.d3hot

/-- CHIP_STAT.HOLD and READY from CHIP_CTRL.HOLD and D3hot (R460, R479). -/
def State.showHold (s : State) : State :=
  let h := wbit (s.preg .chip 0x108) 0 || s.pcie.d3hot
  let s := s.setPreg .chip 0x104 (wassign (s.preg .chip 0x104) 2 h)
  if wbit (s.preg .chip 0x104) 0 == s.mayServe then s else s.setReady s.mayServe

/-- What boundary scan drives is let go (R13, R584). -/
def State.scanLetGo (s : State) : State :=
  { s with out := (s.tap.driven.map (fun n => Output.pin n none)).reverse ++ s.out, tap := { s.tap with driven := [] } }

/-- Every sideband output is tri-stated. -/
def State.letGo (s : State) : State := ((s.scanLetGo.emit (.pin "MOD_READY" none)).emit (.pin "MOD_ALERT_N" none)).emit (.pin "THERM_TRIP_N" none)

/-- The sideband outputs are driven again at their levels. -/
def State.redrive (s : State) : State :=
  ((s.drive "MOD_READY" (wbit (s.preg .chip 0x104) 0)).drive "MOD_ALERT_N" (!s.alert)).drive "THERM_TRIP_N" (!s.tripped)

/-! ### The deep tier at the end of work -/

/-- The close sequence of Table 08-7, finished or cut short: counters, LEVEL and PTP time are committed, or stay at the last checkpoint (R268). A deep
tier that is not mounted has nothing to close. -/
def State.closeDeep (s : State) (finished : Bool) : State :=
  if s.life != .up && s.life != .lost then s else
  let s := if finished then s.checkpointNow else s
  { s with checkpoint := { s.checkpoint with short := !finished } }

/-- Park units that some committed set lists (R257). -/
def State.listedUnits (s : State) : List Nat := s.sets.flatMap (fun e => e.2.units)

/-- A slot of the weight region whose generation was not committed reads EMPTY (R253). -/
def GenSlot.kept (g : GenSlot) : GenSlot := if g.st == 2 then g else {}

/-- What the flash and the settings store keep: committed sets and their units, committed generations, blocks with their old contents mapped. Kind 5
pages, uncommitted units and prepared settings copies are gone (R258, R266, R269, R278). -/
def State.durable (s : State) : State :=
  let listed := s.listedUnits
  { State.reset with
    pending := s.pending, freeCtr := s.freeCtr, variant := s.variant, out := s.out, hostMem := s.hostMem
    absentSlots := s.absentSlots
    mem := s.mem.filter (fun c => decide (deepBase ≤ c.1))
    sets := s.sets, unitKeys := s.unitKeys.filter (fun u => listed.contains u.1), writeSeq := s.writeSeq
    blocks := s.blocks.map (fun e => (e.1, { e.2 with moving := 0, scanned := false }))
    genSlots := s.genSlots.map (fun e => (e.1, e.2.kept)), lostPages := s.lostPages
    checkpoint := s.checkpoint, sparesLow := s.sparesLow
    settings := { copyA := s.settings.copyA, copyB := s.settings.copyB, mirror := s.settings.mirror }
    boot := s.boot, tripped := s.tripped, slotId := s.slotId, input := s.input, resetN := s.resetN, tap := s.tap, pcie := { trains := s.pcie.trains + 1 }
    power := { brake := s.power.brake } }

/-- The rails have fallen: nothing is left but what is durable (R579, R583). -/
def State.afterPower (s : State) (l : Life) : State := { s.durable with life := l }.letGo

/-- A transaction rolls back: nothing staged takes effect (R482). -/
def State.rollBack (s : State) (result : Nat) : State :=
  let old := s.txn
  let s := { s with txn := { persisting := old.persisting } }
  let s := s.setSettings (fun k => { k with txnStaged := [], txnWait := false })
  let s := (if s.settings.inTxn && !old.persisting then s.dropPrepare else s).serveStore
  let s := s.setPreg .txn 0x104 (wclear (wput (wput (s.preg .txn 0x104) 15 8 result) 3 0 0) 17)
  (s.setPreg .txn 0x11C 0).irq .txn 1

/-- The jobs of the module are destroyed by a reset, each as at a destruction (R368), and an open or scheduled configuration transaction rolls back with
RESET (R482). -/
def State.endJobs (s : State) : State :=
  let s := s.jobNums.foldl State.destroyJob s
  if 1 ≤ wfield (s.preg .txn 0x104) 3 0 && wfield (s.preg .txn 0x104) 3 0 ≤ 3 then s.rollBack 8 else s

end Sys2Proof.Machine
end

