-- ==== Sys2Proof/Machine/Power.lean ====
section
/-!
DEFINITION. Power, clocks and thermal control: operating points, modes, caps, the brake, temperatures, gating, the hold and the input limits
(R510–R534), with PMBus and the management messages (R520, R521).
-/

namespace Sys2Proof.Machine

open Sys2Proof

def State.pw (s : State) (f : Power → Power) : State := { s with power := f s.power }

/-- Power is governed: the module is booted and the power-management core runs. -/
def State.governed (s : State) : Bool := s.life == .up && s.power.hold.isNone

/-! ### Operating points (R513–R515) -/

/-- PWR_STAT.MODE: 0 nominal, 1 boost, 2 plumb. -/
def State.pwrMode (s : State) : Nat := wfield (s.preg .pwr 0x100) 1 0
/-- The highest point the mode allows (R515). -/
def State.ceiling (s : State) : Nat :=
  match s.pwrMode with
  | 1 => 8
  | 2 => 5
  | _ => 6

def State.point (s : State) (b : Nat) : Nat := wfield (s.preg .pwr (0x138 + b / 8 * 4)) (b % 8 * 4 + 3) (b % 8 * 4)
def State.setPoint (s : State) (b p : Nat) : State := s.putPreg .pwr (0x138 + b / 8 * 4) (b % 8 * 4 + 3) (b % 8 * 4) p

def State.limit (s : State) (r b : Nat) : Option Nat := mget s.power.limits (r * 16 + b)
def State.setLimit (s : State) (r b : Nat) (v : Option Nat) : State :=
  s.pw fun p => { p with limits := match v with
    | some x => mset p.limits (r * 16 + b) x
    | none => mdel p.limits (r * 16 + b) }

/-- PWR_BRAKE.POINT (Table 17-14). -/
def State.brakePoint (s : State) : Nat := wfield (s.preg .pwr 0x114) 3 0

/-- The highest point a bay may take under the mode, the brake, INPUT_LOW and the limits of the reasons that `rs` lists. -/
def State.capOf (s : State) (rs : List Nat) (b : Nat) : Nat :=
  let m := rs.foldl (fun m r => match s.limit r b with
    | some v => min m v
    | none => m) s.ceiling
  let m := if s.power.brake || s.power.capBrake then min m s.brakePoint else m
  if s.power.inputLow then min m 4 else m

def State.allowed (s : State) (b : Nat) : Nat := s.capOf (List.range 12) b

/-- Reasons whose limit rises again with the bay's own steps: CURRENT, EXCURSION and DROOP. -/
def steppedReasons : List Nat := [8, 9, 11]

/-- Every bay falls at once to what it is allowed; a gated, withdrawn or stopped bay reads 0xF, and one that presents cores again starts at P0 (R514, R516). -/
def State.settlePoints (s : State) : State :=
  (List.range 16).foldl (fun s b =>
    let p := s.point b
    let q := if s.life != .up || s.absent b then 15 else if p = 15 then 0 else min p (s.allowed b)
    if p = q then s else s.setPoint b q) s

/-- A bay rises one point, at most once per 1 ms (R516); CURRENT, EXCURSION and DROOP let go as it rises. -/
def State.riseBay (s : State) (b : Nat) : State :=
  let p := s.point b
  let hard := s.capOf (if s.power.current then [0, 1, 2, 3, 4, 5, 6, 7, 8, 10] else [0, 1, 2, 3, 4, 5, 6, 7, 10]) b
  let late := match mget s.power.upAt b with
    | some t => decide (t + 24576 ≤ s.nowN)
    | none => true
  if p = 15 || !late || hard ≤ p then s
  else
    let s := (s.setPoint b (p + 1)).pw (fun w => { w with upAt := mset w.upAt b s.nowN })
    steppedReasons.foldl (fun s r => match s.limit r b with
      | some v => if s.power.current && r == 8 then s else s.setLimit r b (if s.ceiling ≤ p + 1 then none else some (max v (p + 1)))
      | none => s) s

/-- A bay steps down one point for a reason. -/
def State.stepDown (s : State) (r b : Nat) : State :=
  let p := s.point b
  if p = 15 then s else s.setLimit r b (some (p - 1))

/-! ### Sensors (Table 17-6) -/

/-- Throttle, critical and trip limits of a sensor, °C. -/
def sensorLimits (n : Nat) : Nat × Nat × Nat :=
  if n < 16 then (95, 102, 110)
  else if n < 32 then (90, 98, 105)
  else if n < 60 then (115, 125, 135)
  else if n < 76 then (85, 90, 100)
  else (45, 256, 256)

/-- The throttle reason of a sensor; the coolant inlet only reports. -/
def sensorReason (n : Nat) : Nat := if n < 16 then 2 else if n < 24 then 3 else if n < 32 then 4 else if n < 60 then 6 else if n < 76 then 5 else 12

/-- Bays a sensor affects. -/
def sensorBays (n : Nat) : List Nat :=
  if n < 16 then [n]
  else if n < 24 then (List.range 8).map (fun i => (n - 16) / 4 * 8 + i)
  else if n < 32 then [2 * (n - 24), 2 * (n - 24) + 1]
  else if n < 60 then (if n < 48 then [n - 32] else List.range 16)
  else []

def State.sensor (s : State) (n : Nat) : Nat := (mget s.power.sensors n).getD 0
/-- The hottest of `k` sensors from number `n`. -/
def State.hottest (s : State) (n k : Nat) : Nat := (List.range k).foldl (fun m i => max m (s.sensor (n + i))) 0
/-- A sensor of a reason reads at or above its throttle threshold. -/
def State.hotFor (s : State) (r : Nat) : Bool :=
  s.power.sensors.any (fun e => decide (e.1 < 77) && sensorReason e.1 == r && decide ((sensorLimits e.1).1 ≤ e.2))

/-! ### What the registers show -/

def bayPresent (s : State) (b : Nat) : Bool := !s.absent b

/-- A bay is held below the point its mode allows by a reason's limit. -/
def State.heldBy (s : State) (r : Nat) : Bool :=
  (List.range 16).any (fun b => bayPresent s b && (match s.limit r b with
    | some v => decide (v < s.ceiling)
    | none => false))

/-- Throttle reason `r` is active (R528, Table 17-7). -/
def State.reasonOn (s : State) (r : Nat) : Bool :=
  match r with
  | 0 => s.heldBy 0 || s.power.capBrake
  | 1 => s.power.brake
  | 5 => s.hotFor 5
  | 7 => s.power.inputLow
  | 8 => s.power.current || s.heldBy 8
  | 9 => s.heldBy 9
  | 10 => s.power.hold.isSome
  | 11 => s.heldBy 11
  | _ => s.hotFor r || s.heldBy r

/-- A compute throttle for tier `t` is in force: its sensors are hot, or its bays are still held down for its reason (R243). -/
def State.tierThrottle (s : State) (t : Nat) : Bool :=
  let sens := if t < 8 then [24 + t] else (List.range 4).map (fun i => 16 + 4 * (t - 8) + i)
  sens.any (fun n => decide (90 ≤ s.sensor n)) || (sensorBays (sens.headD 0)).any (fun b => (s.limit (if t < 8 then 4 else 3) b).isSome)

/-- CAL.IN_WINDOW of an available tier follows its temperature; the supply and the load class are known from a margin check only, whose record they then
are (R240, R241). Leaving the window sets CAL_DRIFT. -/
def State.showDrift (s : State) (t : Nat) : State :=
  let p := tierPage t
  let cal := s.preg p 0x104
  let now := decide (s.tierTemp t ≤ wfield cal 31 24 + 8) && decide (wfield cal 31 24 ≤ s.tierTemp t + 8)
  if s.tierState t != 1 || wbit cal 8 == now then s
  else
    let s := s.setPreg p 0x104 (wassign cal 8 now)
    if now then s else s.irq p 3

/-- TEMP, REFRESH_2X, THROTTLE and IN_WINDOW of every tier (R240, R243, R244). -/
def State.showTiers (s : State) : State :=
  (List.range 10).foldl (fun s t =>
    let p := tierPage t
    let c := min 255 (if t < 8 then s.sensor (24 + t) else s.hottest (16 + 4 * (t - 8)) 4)
    let old := s.preg p 0x100
    let w := wassign (wassign (wput old 31 24 c) 9 (decide (85 < c))) 8 (s.tierThrottle t)
    let s := s.setPreg p 0x100 w
    let s := if wbit w 8 && !wbit old 8 then s.irq p 4 else s
    s.showDrift t) s

/-- PWR_TEMP0–3, PWR_STAT.TEMP_MAX and DEEP_STAT.TEMP (Tables 17-13 and 17-18). -/
def State.showTemps (s : State) : State :=
  let q := fun (a b c d : Nat) => BitVec.ofNat 32 (min 255 a * 2 ^ 24 + min 255 b * 2 ^ 16 + min 255 c * 2 ^ 8 + min 255 d)
  let s := s.setPreg .pwr 0x154 (q (s.hottest 20 4) (s.hottest 16 4) (s.hottest 8 8) (s.hottest 0 8))
  let s := s.setPreg .pwr 0x158 (q (s.sensor 27) (s.sensor 26) (s.sensor 25) (s.sensor 24))
  let s := s.setPreg .pwr 0x15C (q (s.sensor 31) (s.sensor 30) (s.sensor 29) (s.sensor 28))
  let s := s.setPreg .pwr 0x160 (q (s.sensor 76) (s.hottest 32 28) (s.hottest 60 16) 0)
  let s := s.putPreg .pwr 0x100 31 24 (min 255 (s.hottest 0 16))
  (s.putPreg .deep 0x100 31 24 (min 255 (s.hottest 60 16))).showTiers

/-- PWR_THR_REASON and PWR_STAT; a reason that becomes active asserts MOD_ALERT_N, and a change of INPUT_LOW or CURRENT sets IRQ INPUT (R528, R576). -/
def State.showReasons (s : State) : State :=
  let old := s.preg .pwr 0x140
  let w := BitVec.ofNat 32 ((List.range 12).foldl (fun n r => n + b2n (s.reasonOn r) * 2 ^ r) 0)
  let s := s.setPreg .pwr 0x140 w
  let st := wassign (wassign (wassign (s.preg .pwr 0x100) 12 s.power.hold.isSome) 11 s.power.excFrom.isSome) 10 s.power.brake
  let s := s.setPreg .pwr 0x100 st
  let s := if w &&& ~~~old == 0 then s else s.alertN
  if wbit w 7 == wbit old 7 && wbit w 8 == wbit old 8 then s else s.irq .pwr 5

/-- A record of the power class: KEY a sensor, rail or reason; DETAIL the start tick and the duration (Table 18-4). -/
def State.pwrRecord (s : State) (code sev key start dur : Nat) : State :=
  s.report .pwr { code := 0xF000 + code, sev := sev, key := key, detail := leBytes 8 start ++ leBytes 8 dur }

/-- The effective cap and its source (R518): the lowest cap held, 2,800 W when none is. -/
def State.effectiveCap (s : State) : Nat × Nat :=
  let c := fun (x : CapSrc) (n : Nat) => (x.watts, if x.failsafe then 4 else n)
  let held := [(wfield (s.preg .pwr 0x108) 11 0, 1), c s.power.smbus 2, c s.power.eth 3].filter (fun x => x.1 != 0)
  held.foldl (fun b x => if x.1 < b.1 || b.2 = 0 then x else b) (2800, 0)

/-- PWR_CAP_ACTIVE, and IRQ CAP when it changes. -/
def State.showCap (s : State) : State :=
  let e := s.effectiveCap
  let w := BitVec.ofNat 32 (e.2 * 2 ^ 28 + e.1)
  if s.preg .pwr 0x110 == w then s else (s.setPreg .pwr 0x110 w).irq .pwr 1

/-- The reason for which the envelope of plumb mode fails, if it does (R517). A rail's calibration record outside its window has no reason in
Table 17-7: the reason recorded is then a free value. -/
def State.envelopeBad (s : State) : Option Nat :=
  if s.effectiveCap.1 < 2300 then some 0
  else match (List.range 11).find? s.reasonOn with
    | some r => some r
    | none => if s.power.vinOut then some 7 else if s.power.railsOut.isEmpty then none else some (Config.freeNat s.freeCtr % 12)

/-- PWR_PLUMB (R517, Table 17-17): BROKEN sets with the envelope's failure, and clears with a record when every bay is back at P5. -/
def State.plumbCheck (s : State) : State :=
  let w := s.preg .pwr 0x144
  match s.power.broken with
  | none =>
    if s.pwrMode != 2 then s
    else match s.envelopeBad with
      | none => s
      | some r =>
        let s := (s.pw (fun p => { p with broken := some (s.nowN, r) })).useFree
        (s.setPreg .pwr 0x144 (BitVec.ofNat 32 (2 ^ 31 + r % 16 * 2 ^ 16 + min 0xFFFF (wfield w 15 0 + 1)))).irq .pwr 2
  | some (t, r) =>
    let back := s.envelopeBad.isNone && (List.range 16).all (fun b => s.absent b || s.point b == 5)
    if s.pwrMode != 2 then ((s.pw (fun p => { p with broken := none })).setPreg .pwr 0x144 (wclear w 31)).irq .pwr 2
    else if back then
      (((s.pw (fun p => { p with broken := none })).setPreg .pwr 0x144 (wclear w 31)).irq .pwr 2).pwrRecord 0x401 1 r t (s.nowN - t)
    else s

/-- Everything that follows a change of a limit: bays fall, registers, reasons and the plumb envelope. -/
def State.govern (s : State) : State := ((((s.showCap).settlePoints).showTiers).showReasons).plumbCheck

/-! ### The governor (R515–R517) -/

/-- PWR_VIN, PWR_IIN, PWR_PIN, PWR_PIN_MAX and PWR_ENERGY from the averages: mV, 10 mA and 0.1 W; 100 µs of energy (R510). -/
def State.readings (s : State) (vin iin pin : Nat) : State :=
  let s := ((s.setPreg .pwr 0x120 (BitVec.ofNat 32 (min 0xFFFF vin))).setPreg .pwr 0x124 (BitVec.ofNat 32 (min 0xFFFF iin))).setPreg .pwr 0x128
    (BitVec.ofNat 32 (min 0xFFFF pin))
  let s := s.setPreg .pwr 0x12C (BitVec.ofNat 32 (max (s.preg .pwr 0x12C).toNat (min 0xFFFF pin)))
  let uj := s.power.energyUj + pin * 10
  ((s.pw (fun p => { p with energyUj := uj % 1000, vinOut := decide (vin < 41000) })).count64 .pwr 0x130 0x134 (uj / 1000))

/-- PWR_RAILn, and code 0x40B for each rail whose calibration record has left its window (R511, R524). -/
def State.railReadings (s : State) (rails : List (Nat × Nat)) (out : List Nat) : State :=
  let s := (List.range 28).foldl (fun s n => match rails[n]? with
    | some x => s.setPreg .pwr (0x200 + 4 * n) (BitVec.ofNat 32 (min 0xFFFF x.2 * 2 ^ 16 + min 0xFFFF x.1))
    | none => s) s
  let new := out.filter (fun n => decide (n < 28) && !s.power.railsOut.contains n)
  new.foldl (fun s n => s.pwrRecord 0x40B 1 n s.nowN 0) (s.pw (fun p => { p with railsOut := out.filter (· < 28) }))

/-- Every bay steps down one point with reason EXCURSION, and code 0x40C is written. -/
def State.excursionOver (s : State) : State :=
  ((List.range 16).foldl (fun s b => s.stepDown 9 b) s).pwrRecord 0x40C 1 9 ((s.power.excFrom).getD s.nowN) (s.nowN - (s.power.excFrom).getD s.nowN)

/-- The excursion allowance (R516): above 2,800 W for at most 10 ms and never above 3,000 W, and at most 2,800 W on average over the 100 ms after. -/
def State.excursion (s : State) (pin : Nat) : State :=
  let t := s.nowN
  let up := decide (28000 < pin)
  let s := match s.power.after with
    | none => s
    | some (e, sum, n) =>
      if t < e + 2457600 then s.pw (fun p => { p with after := some (e, sum + pin, n + 1) })
      else
        let s := s.pw (fun p => { p with after := none })
        if n * 28000 < sum then s.excursionOver else s
  match s.power.excFrom with
  | none =>
    let s := if up then s.pw (fun p => { p with excFrom := some t }) else s
    if 30000 < pin then s.excursionOver else s
  | some f =>
    if !up then s.pw (fun p => { p with excFrom := none, after := some (t, 0, 0) })
    else if 30000 < pin || decide (f + 245760 < t) then s.excursionOver
    else s

/-- Reply to a CAP_SET or a TELEM_REQ (Table 17-5). LEASE_S of a reply is not stated: a free value. -/
def State.mgmtReply (s : State) (typ status seq : Nat) : List Byte :=
  leBytes 4 0x52575042 ++ leBytes 1 1 ++ leBytes 1 typ ++ leBytes 2 status ++ leBytes 4 seq ++ leBytes 2 s.effectiveCap.1 ++
    leBytes 2 (Config.freeNat s.freeCtr) ++ leBytes 8 s.nowN ++ leBytes 8 0

/-- CAP_REPLYs owed are sent once the cap is in force, or when 2 ms have passed (R521). -/
def State.sendReplies (s : State) (pin : Nat) : State :=
  let due := fun (x : Owed) => decide (pin ≤ s.effectiveCap.1 * 10) || decide (x.at_ + 49152 ≤ s.nowN)
  let go := s.power.replies.filter due
  let s := s.pw (fun p => { p with replies := p.replies.filter (fun x => !due x) })
  go.foldl (fun s x => (s.sendMgmt x.port x.addr x.sport (s.mgmtReply 2 0 x.seq)).useFree) s

/-- The points the caps allow: `fits` per bay, the highest whose predicted draw keeps the limit; in boost a rise only to `room`, where it stays at or below 98 % (R515). -/
def State.fitCaps (s : State) (fits room : List Nat) : State :=
  (List.range 16).foldl (fun s b =>
    let f := fits.getD b 8
    let v := if s.pwrMode = 1 then (if s.point b = 15 then min (room.getD b 8) f else max (min (s.point b) f) (min (room.getD b 8) f)) else f
    s.setLimit 0 b (if v < s.ceiling then some v else none)) s

/-- GOVERNOR_EVALUATION (R516): every 100 µs. `fits` and `room` are the core's own predictions of draw, which the spec leaves to firmware; `out`
the rails whose calibration record is outside its window. -/
def State.evaluate (s : State) (vin iin pin : Nat) (fits room : List Nat) (rails : List (Nat × Nat)) (out : List Nat) : State :=
  if !s.governed then s
  else
    let s := ((s.readings vin iin pin).railReadings rails out).pw (fun p =>
      { p with unacked := none, capBrake := false, current := p.current && decide (7800 < iin) })
    let s := ((s.excursion pin).fitCaps fits room).settlePoints
    let s := (List.range 16).foldl State.riseBay s
    s.govern.sendReplies pin

def execGovernorEvaluation (vin iin pin : Nat) (fits room : List Nat) (rails : List (Nat × Nat)) (out : List Nat) (s : State) :
    Host.Outcome State Fault Refusal := .next (s.evaluate vin iin pin fits room rails out)

/-- MODE_CHANGE (R515): the committed mode comes into force; bays above its ceiling fall, the others rise by the steps of R516. -/
def State.modeChange (s : State) : State :=
  if !s.governed then s
  else
    let m := wfield (s.preg .pwr 0x104) 1 0
    if m = s.pwrMode || m = 3 then s else (s.putPreg .pwr 0x100 1 0 m).govern

def execModeChange (s : State) : Host.Outcome State Fault Refusal := .next s.modeChange

/-! ### Caps (R518, R519) -/

/-- A value a source may hold: 1,200–2,800 W, or 0 for none. -/
def capLegal (w : Nat) : Bool := w == 0 || (decide (1200 ≤ w) && decide (w ≤ 2800))

/-- A cap changes; a lower one from SMBus or Ethernet waits in the hardware register for the core's acknowledgement (R519). -/
def State.capChanged (s : State) (hardware : Bool) (f : State → State) : State :=
  let old := s.effectiveCap.1
  let s := f s
  let s := if hardware && decide (s.effectiveCap.1 < old) && s.power.unacked.isNone then s.pw (fun p => { p with unacked := some s.nowN }) else s
  s.govern

/-- The expiry of a lease of `n` seconds; none without a lease. -/
def leaseEnd (now n : Nat) : Option Nat := if n = 0 then none else some (now + n * 24576000)

def State.setSmbusCap (s : State) (w lease : Nat) : State :=
  s.capChanged true (fun s => s.pw (fun p => { p with smbus := { watts := w, expiry := if w = 0 then none else leaseEnd s.nowN lease } }))
def State.setEthCap (s : State) (w lease : Nat) : State :=
  s.capChanged true (fun s => s.pw (fun p => { p with eth := { watts := w, expiry := if w = 0 then none else leaseEnd s.nowN lease } }))

/-- A management message of Table 17-5 of the type wanted. -/
def mgmtOk (typ : Nat) (m : List Byte) : Bool := decide (32 ≤ m.length) && getLE m 0 4 == 0x52575042 && getLE m 4 1 == 1 && getLE m 5 1 == typ

/-- A management message is taken: the module is up, and the message is of its type and from a peer of ETH_MGMT_PEER0–3 (R324, R521). -/
def State.mgmtTaken (s : State) (port typ : Nat) (x : MgmtIn) : Bool := mgmtOk typ x.msg && s.mgmtPeer port x.addr

/-- CAP_SET (R521): the Ethernet cap is set or withdrawn, or the message refused with STATUS 1. -/
def State.capSet (s : State) (port : Nat) (x : MgmtIn) : State :=
  if s.life != .up then s
  else if !s.mgmtTaken port 1 x then s.ethDrop (port % 2)
  else
    let w := getLE x.msg 12 2
    let l := getLE x.msg 14 2
    let q := getLE x.msg 8 4
    if !capLegal w || decide (3600 < l) then (s.sendMgmt port x.addr x.sport (s.mgmtReply 2 1 q)).useFree
    else (s.setEthCap w l).pw (fun p => { p with replies := p.replies ++ [{ port, addr := x.addr, sport := x.sport, seq := q, at_ := s.nowN }] })

def execCapSet (port : Nat) (m : MgmtIn) (s : State) : Host.Outcome State Fault Refusal := .next (s.capSet port m)

/-- TELEM_REQ (R521), answered with TELEM. -/
def State.telemReq (s : State) (port : Nat) (x : MgmtIn) : State :=
  if s.life != .up then s
  else if !s.mgmtTaken port 3 x then s.ethDrop (port % 2)
  else
    let r := fun (o : Nat) => (s.preg .pwr o).toNat
    let t := leBytes 4 (r 0x128) ++ leBytes 2 (r 0x120) ++ leBytes 2 (r 0x124) ++ leBytes 2 (r 0x140) ++ leBytes 1 (min 255 (s.hottest 0 16)) ++
      leBytes 1 (min 255 (s.hottest 16 16)) ++ leBytes 1 (min 255 (s.hottest 60 16)) ++ leBytes 1 (min 255 (s.sensor 76)) ++ leBytes 2 0 ++
      leBytes 8 (s.preg64 .pwr 0x130 0x134) ++ leBytes 8 0
    (s.sendMgmt port x.addr x.sport (s.mgmtReply 4 0 (getLE x.msg 8 4) ++ t)).useFree

def execTelemReq (port : Nat) (m : MgmtIn) (s : State) : Host.Outcome State Fault Refusal := .next (s.telemReq port m)

/-- CAP_LEASE_EXPIRY (R518): the value of PWR_CAP_FAILSAFE at that moment replaces the cap of SMBus (2) or Ethernet (3), with no lease. -/
def State.leaseExpiry (s : State) (source : Nat) : State :=
  let c := if source = 2 then s.power.smbus else s.power.eth
  let go := match c.expiry with
    | some t => decide (t < s.nowN)
    | none => false
  if !go || (source != 2 && source != 3) then s
  else
    let n : CapSrc := { watts := wfield (s.preg .pwr 0x10C) 11 0, failsafe := true }
    let s := s.capChanged true (fun s => s.pw (fun p => if source = 2 then { p with smbus := n } else { p with eth := n }))
    (s.pwrRecord 0x402 1 0 s.nowN 0).alertN

def execCapLeaseExpiry (source : Nat) (s : State) : Host.Outcome State Fault Refusal := .next (s.leaseExpiry source)

/-- CAP_UNACKNOWLEDGED (R519): 1 ms after a lowered cap landed, the hardware engages the brake path. -/
def State.capUnacked (s : State) : State :=
  match s.power.unacked with
  | some t => if t + 24576 ≤ s.nowN && s.life == .up then (s.pw (fun p => { p with capBrake := true })).govern else s
  | none => s

def execCapUnacknowledged (s : State) : Host.Outcome State Fault Refusal := .next s.capUnacked

/-! ### PMBus (R520, Table 17-4) -/

def pmbusAddr : Nat := 0x5A
/-- The PEC of a transaction: CRC-8 over every byte of it, addresses included. -/
def pec (bs : List Byte) : Byte := BitVec.ofNat 8 (crc8 bs)

/-- A read: the command's data, then the PEC over address, command, address and data. Nothing is acknowledged while the core does not run (R576). -/
def State.pmRead (s : State) (code : Nat) (d : List Byte) : State :=
  if !s.governed then s
  else s.emit (.smbus (d ++ [pec ([BitVec.ofNat 8 (2 * pmbusAddr), BitVec.ofNat 8 code, BitVec.ofNat 8 (2 * pmbusAddr + 1)] ++ d)]))

/-- A block read carries its byte count first. -/
def State.pmBlock (s : State) (code : Nat) (d : List Byte) : State := s.pmRead code (leBytes 1 d.length ++ d)

/-- A write word is acknowledged with a valid PEC, and the hardware cap register stands by the core, hold or not. -/
def State.pmWriteOk (s : State) (code v p : Nat) : Bool :=
  s.life == .up && pec ([BitVec.ofNat 8 (2 * pmbusAddr), BitVec.ofNat 8 code] ++ leBytes 2 v) == BitVec.ofNat 8 p

/-- STATUS_WORD: TEMPERATURE (bit 2) while a temperature reason is active; POUT_OP_WARNING shows in bit 14 while CAP is active (log 112). -/
def State.statusWord (s : State) : Nat :=
  let r := s.preg .pwr 0x140
  b2n (wbit r 2 || wbit r 3 || wbit r 4 || wbit r 5 || wbit r 6) * 4 + b2n (wbit r 0) * 2 ^ 14

def execStatusWord (s : State) : Host.Outcome State Fault Refusal := .next (s.pmRead 0x79 (leBytes 2 s.statusWord))
def execReadVin (s : State) : Host.Outcome State Fault Refusal := .next (s.pmRead 0x88 (leBytes 2 (Config.linear11 (s.preg .pwr 0x120).toNat 1000).toNat))
def execReadIin (s : State) : Host.Outcome State Fault Refusal := .next (s.pmRead 0x89 (leBytes 2 (Config.linear11 (s.preg .pwr 0x124).toNat 100).toNat))
def execReadPin (s : State) : Host.Outcome State Fault Refusal := .next (s.pmRead 0x97 (leBytes 2 (Config.linear11 (s.preg .pwr 0x128).toNat 10).toNat))
/-- READ_TEMPERATURE_1: the hottest compute-die sensor. -/
def execReadTemperature1 (s : State) : Host.Outcome State Fault Refusal := .next (s.pmRead 0x8D (leBytes 2 (Config.linear11 (s.hottest 0 16) 1).toNat))
/-- READ_TEMPERATURE_2: the hottest memory sensor. -/
def execReadTemperature2 (s : State) : Host.Outcome State Fault Refusal := .next (s.pmRead 0x8E (leBytes 2 (Config.linear11 (s.hottest 16 16) 1).toNat))
/-- READ_TEMPERATURE_3: the coolant inlet. -/
def execReadTemperature3 (s : State) : Host.Outcome State Fault Refusal := .next (s.pmRead 0x8F (leBytes 2 (Config.linear11 (s.sensor 76) 1).toNat))
def execPmbusRevision (s : State) : Host.Outcome State Fault Refusal := .next (s.pmRead 0x98 [0x44])
/-- MFR_ID: "BASLITH". -/
def execMfrId (s : State) : Host.Outcome State Fault Refusal := .next (s.pmBlock 0x99 [0x42, 0x41, 0x53, 0x4C, 0x49, 0x54, 0x48])

/-- The part number in ASCII, padded with zeros: CHIP_PART0–3 (Table 15-18). -/
def partBytes (h : Bool) : List Byte :=
  [0x42, 0x53, 0x4C, 0x2D, 0x56, 0x4D, 0x39, 0x36] ++ (if h then [0x2D, 0x48] else [0, 0]) ++ leBytes 6 0

def execMfrModel (s : State) : Host.Outcome State Fault Refusal := .next (s.pmBlock 0x9A (partBytes s.isH))
def execMfrSerial (s : State) : Host.Outcome State Fault Refusal := .next (s.pmBlock 0x9E (leBytes 8 Config.serial.toNat))

/-- MFR_CAP_SET: the SMBus cap, under the lease that MFR_CAP_LEASE gave for it. A value out of range leaves the cap as it was. -/
def State.mfrCapSet (s : State) (w p : Nat) : State :=
  if !s.pmWriteOk 0xD0 w p || !capLegal w then s
  else
    let l := s.power.nextLease
    (s.pw (fun x => { x with nextLease := 0 })).setSmbusCap w l

def execMfrCapSet (watts pec : Nat) (s : State) : Host.Outcome State Fault Refusal := .next (s.mfrCapSet watts pec)

/-- MFR_CAP_LEASE: 0 or 1–3,600 s, for the next MFR_CAP_SET. -/
def execMfrCapLease (seconds pec : Nat) (s : State) : Host.Outcome State Fault Refusal :=
  .next (if !s.pmWriteOk 0xD1 seconds pec || 3600 < seconds then s else s.pw (fun x => { x with nextLease := seconds }))

def execMfrCapActive (s : State) : Host.Outcome State Fault Refusal := .next (s.pmRead 0xD2 (leBytes 2 s.effectiveCap.1))
def execMfrThrottle (s : State) : Host.Outcome State Fault Refusal := .next (s.pmRead 0xD3 (leBytes 2 (s.preg .pwr 0x140).toNat))

/-- ALERT_RESPONSE (R576): a read of address 0x0C releases MOD_ALERT_N and is answered with 0x5A. -/
def State.alertResponse (s : State) : State :=
  if !s.alert || !s.governed then s
  else
    let s := { s with alert := false }
    (s.drive "MOD_ALERT_N" true).emit (.smbus [BitVec.ofNat 8 pmbusAddr])

def execAlertResponse (s : State) : Host.Outcome State Fault Refusal := .next s.alertResponse

/-! ### Brake and droop (R522, R523) -/

/-- PWR_BRAKE_N_ASSERT (R522): bays above the brake point fall at once. It has no effect in reset, but the pin's level is kept (Table 19-15). -/
def State.brakeOn (s : State) : State :=
  if s.power.brake then s
  else
    let s := s.pw (fun p => { p with brake := true })
    if s.life != .up then s else ((s.govern.irq .pwr 3).pwrRecord 0x403 1 1 s.nowN 0)

def execPwrBrakeNAssert (s : State) : Host.Outcome State Fault Refusal := .next s.brakeOn

/-- PWR_BRAKE_N_DEASSERT (R522): the bays return by the rising steps. -/
def State.brakeOff (s : State) : State :=
  let s := s.pw (fun p => { p with brake := false })
  if s.life == .up then s.govern else s

def execPwrBrakeNDeassert (s : State) : Host.Outcome State Fault Refusal := .next s.brakeOff

/-- DROOP_DETECT (R523): the clock of a running bay stretches, which changes timing only; the event counts in PWR_DROOP. -/
def execDroopDetect (bay : Nat) (s : State) : Host.Outcome State Fault Refusal :=
  .next (if s.life == .up && bay < 16 && !s.absent bay then s.count .pwr 0x150 1 else s)

/-- DROOP_STEP_DOWN (R523): one point down with reason DROOP. -/
def execDroopStepDown (bay : Nat) (s : State) : Host.Outcome State Fault Refusal :=
  .next (if s.governed && bay < 16 then (s.stepDown 11 bay).govern else s)

/-! ### Temperature (R525–R527) -/

/-- A sensor reads `v` °C: the registers show it, and a throttle or critical limit crossed upwards is recorded (Table 17-8). -/
def State.sense (s : State) (n v : Nat) : State :=
  let old := s.sensor n
  let l := sensorLimits n
  let s := (s.pw (fun p => { p with sensors := mset p.sensors n v }))
  let s := if 60 ≤ n && n < 76 then { s with flashTemp := mset s.flashTemp (n - 60) v } else s
  let s := s.showTemps
  let s := if old < l.1 && l.1 ≤ v then (s.irq .pwr 4).pwrRecord 0x404 1 n s.nowN 0 else s
  if old < l.2.1 && l.2.1 ≤ v then ((s.irq .pwr 4).pwrRecord 0x405 1 n s.nowN 0).alertN else s

/-- THERMAL_THRESHOLD (R525, R244): a die, near-tier, stack, regulator or coolant sensor crosses its throttle threshold, in either direction. -/
def execThermalThreshold (sensor value : Nat) (s : State) : Host.Outcome State Fault Refusal :=
  .next (if s.life == .up && (sensor < 60 || sensor = 76) then (s.sense sensor value).govern else s)

/-- THROTTLE_STEP (R525) of a bay: one point down every 1 ms while a sensor that affects it is at its threshold; one point up every 10 ms once every
such sensor is 3 °C below. -/
def State.throttleStep (s : State) (b : Nat) : State :=
  if !s.governed || 16 ≤ b || s.absent b then s
  else
    let mine := (List.range 60).filter (fun n => (sensorBays n).contains b)
    let hot := mine.filter (fun n => decide ((sensorLimits n).1 ≤ s.sensor n))
    let cool := mine.all (fun n => decide (s.sensor n + 3 ≤ (sensorLimits n).1))
    let last := (mget s.power.downAt b).getD 0
    let stamp := fun (s : State) => s.pw (fun p => { p with downAt := mset p.downAt b s.nowN })
    if !hot.isEmpty then
      if s.nowN < last + 24576 && (mget s.power.downAt b).isSome then s
      else (stamp ((hot.map sensorReason).eraseDups.foldl (fun s r => s.setLimit r b (some (s.point b - 1))) s)).govern
    else if cool && decide (last + 245760 ≤ s.nowN) then
      let held := [2, 3, 4, 6].filter (fun r => (s.limit r b).isSome)
      if held.isEmpty then s
      else
        let s := held.foldl (fun s r =>
          let v := (s.limit r b).getD 0 + 1
          s.setLimit r b (if s.ceiling ≤ v then none else some v)) s
        let s := if s.point b < s.allowed b then s.setPoint b (s.point b + 1) else s
        (stamp s).govern
    else s

def execThrottleStep (bay : Nat) (s : State) : Host.Outcome State Fault Refusal := .next (s.throttleStep bay)

/-- CRITICAL_LIMIT (R525): at its critical limit a sensor's bays drop to P0 in hardware. -/
def State.critical (s : State) (n v : Nat) : State :=
  if s.life != .up || 60 ≤ n || v < (sensorLimits n).2.1 then s
  else
    let s := s.sense n v
    ((sensorBays n).foldl (fun s b => (s.setLimit (sensorReason n) b (some 0)).pw (fun p => { p with downAt := mset p.downAt b s.nowN })) s).govern

def execCriticalLimit (sensor value : Nat) (s : State) : Host.Outcome State Fault Refusal := .next (s.critical sensor value)

/-- FLASH_TEMPERATURE (R526): programs and erases wait at 90 °C; ageing, metadata commits and reads go on. -/
def execFlashTemperature (package value : Nat) (s : State) : Host.Outcome State Fault Refusal :=
  .next (if s.life == .up && package < 16 then (s.sense (60 + package) value).govern else s)

/-- THERMAL_TRIP (R527): THERM_TRIP_N is asserted, LOSS lines leave, the close sequence runs from the input and the rails fall. THERM_TRIP_N stays
asserted until the input is removed (R582). -/
def State.trip (s : State) (n v : Nat) : State :=
  if s.life == .held && n < 76 && (sensorLimits n).2.2 ≤ v then { s with tripped := true, life := .down }
  else if s.life == .held || s.life == .down || 76 ≤ n || v < (sensorLimits n).2.2 then s
  else
    let s := (s.sense n v).pwrRecord 0x406 4 n s.nowN 0
    let s := { s.sendLoss with tripped := true }
    let s := (s.emit (.pin "THERM_TRIP_N" (some false))).closeDeep true
    (s.afterPower .down).emit (.pin "THERM_TRIP_N" (some false))

def execThermalTrip (sensor value : Nat) (s : State) : Host.Outcome State Fault Refusal := .next (s.trip sensor value)

/-! ### Power gating (R401, R529) -/

/-- Some window of a job is open on bay `b`, or on the deep tier's controller (none). -/
def State.openWindow (s : State) (b : Option Nat) : Bool :=
  s.jobNums.any (fun j => (List.range 4096).any (fun w =>
    let x := s.win j w
    x.state == 1 && (match b with
      | some b => x.target == 1 && x.bay == b
      | none => x.target == 2)))

/-- The deep tier is gated: metadata is committed and its STATE reads 0x4; ungating mounts it again (R529). -/
def State.gateDeep (s : State) (on : Bool) : State :=
  let s := if on then (s.closeDeep true).setDeepState 4 else s.showReady
  (s.setPreg .pwr 0x11C (wassign (s.preg .pwr 0x11C) 16 on)).irq .pwr 7

/-- A write of PWR_GATE: refused whole, or accepted. Bays follow at the next pass formation, the deep tier at once. -/
def State.pwrGate (s : State) (w : Word) : State :=
  let old := s.preg .pwr 0x118
  let v := w &&& 0x1FFFF
  let new := fun (i : Nat) => wbit v i && !wbit old i
  let bad := (List.range 16).any (fun b => new b && s.openWindow (some b)) ||
    (new 16 && (!s.jobs.isEmpty || s.fetch.isSome || s.openWindow none))
  if bad then s.refuseReg .pwr 0x3118 w
  else
    let s := s.setPreg .pwr 0x118 v
    if wbit v 16 == wbit old 16 then s else s.gateDeep (wbit v 16)

def execPwrGate (v : Word) (s : State) : Host.Outcome State Fault Refusal := .next (s.pwrGate v)

/-! ### The hold (R530, R343) -/

/-- HEARTBEAT_LOSS: the hold begins; sideband outputs are tri-stated and egress stops on a frame boundary. -/
def State.holdBegins (s : State) : State :=
  if !s.governed then s
  else
    let s := (s.pw (fun p => { p with hold := some s.nowN })).letGo
    let s := s.setPreg .media 0x100 (wset (s.preg .media 0x100) 30)
    ((s.showReasons.plumbCheck).irq .pwr 6).pwrRecord 0x409 1 10 s.nowN 0

def execHeartbeatLoss (s : State) : Host.Outcome State Fault Refusal := .next s.holdBegins

/-- HEARTBEAT_RETURN within 2 s: the core takes up governance, HOLD clears and egress resumes. -/
def State.holdEnds (s : State) : State :=
  match s.power.hold with
  | none => s
  | some t =>
    if s.life != .up || t + 49152000 ≤ s.nowN then s
    else
      let s := (s.pw (fun p => { p with hold := none })).redrive
      let s := s.setPreg .media 0x100 (wclear (s.preg .media 0x100) 30)
      (s.govern.irq .pwr 6).pwrRecord 0x40A 0 10 t (s.nowN - t)

def execHeartbeatReturn (s : State) : Host.Outcome State Fault Refusal := .next s.holdEnds

/-- HOLD_EXPIRY: 2 s without a heartbeat. Every bay clock stops and the module is lost. -/
def State.holdExpires (s : State) : State :=
  match s.power.hold with
  | none => s
  | some t =>
    if s.life != .up || s.nowN < t + 49152000 then s
    else
      let s := (s.pwrRecord 0x409 4 10 t (s.nowN - t)).sendLoss
      let s := { s.endJobs with life := .lost }
      ((s.pw (fun p => { p with hold := none })).setReady false).settlePoints.showReasons

def execHoldExpiry (s : State) : Host.Outcome State Fault Refusal := .next s.holdExpires

/-! ### Input limits (R531) -/

/-- INPUT_LOW: VIN below 40.0 V, in mV, holds every bay at P4 or below. -/
def State.inputIsLow (s : State) (vin : Nat) : State :=
  if s.life != .up || 40000 ≤ vin || s.power.inputLow then s
  else ((s.pw (fun p => { p with inputLow := true })).govern).pwrRecord 0x407 1 7 s.nowN 0

def execInputLow (vin : Nat) (s : State) : Host.Outcome State Fault Refusal := .next (s.inputIsLow vin)

/-- INPUT_LOW_RECOVERY: VIN has stayed at 41.0 V or above for 10 ms. -/
def execInputLowRecovery (s : State) : Host.Outcome State Fault Refusal :=
  .next (if s.life == .up && s.power.inputLow then (s.pw (fun p => { p with inputLow := false })).govern else s)

/-- INPUT_CURRENT: IIN, in units of 10 mA, above 78.0 A; `fits` are the points at which the limit would hold (R516). -/
def State.inputCurrent (s : State) (iin : Nat) (fits : List Nat) : State :=
  if s.life != .up || iin ≤ 7800 then s
  else
    let s := s.pw (fun p => { p with current := true })
    let s := (List.range 16).foldl (fun s b => if s.point b = 15 then s else s.setLimit 8 b (some (min (s.point b) (fits.getD b 8)))) s
    s.govern

def execInputCurrent (iin : Nat) (fits : List Nat) (s : State) : Host.Outcome State Fault Refusal := .next (s.inputCurrent iin fits)

/-- SUPPLY_EVENT (R531, R267): VIN, in mV, below 38.0 V or above 62.0 V. `energy` is what the hold-up gave: 0 none, 1 too little for the sequence, 2 all
of it. LOSS lines leave unless there was none (R556). On a tripped module it is the removal of the input (R582). -/
def State.supplyEvent (s : State) (vin energy : Nat) : State :=
  if 38000 ≤ vin && vin ≤ 62000 then s
  else if s.life == .down then
    (if s.tripped then { s.scanLetGo with tripped := false, input := false }.emit (.pin "THERM_TRIP_N" none) else { s.scanLetGo with input := false })
  else if s.life == .held then { s.scanLetGo with input := false, life := .down }
  else
    let s := s.pwrRecord 0x408 4 0 s.nowN 0
    let s := if energy = 0 then s else s.sendLoss
    { (s.closeDeep (energy == 2)).afterPower .down with tripped := false, input := false }

def execSupplyEvent (vin energy : Nat) (s : State) : Host.Outcome State Fault Refusal := .next (s.supplyEvent vin energy)

end Sys2Proof.Machine
end

