-- ==== Sys2Proof/Machine/TxRegs.lean ====
section
/-!
DEFINITION. TX registers: what each page's rules allow, and what a committed value does (R247, R280, R346–R348, R377, R378, R396–R399, R422, R423,
R426, R432–R434, R480, R534). A rule is judged on the committed state with the written values laid over it.
-/

namespace Sys2Proof.Machine

open Sys2Proof

/-- The page whose TXN_MEMBER and BLK_STAT govern a TX register, and its writable bits; reserved bits ignore writes (R17). -/
def txMask (off : Nat) : Option (Page × Word) :=
  match Page.ofOffset off with
  | some (p, r) => match p.row r with
    | some row => if row.tx == 0 then none else some (p, row.tx)
    | none => none
  | none => match Region.ofOffset off with
    | some (.windowWord _ _ _) => some (.window, 0xFFFFFFFF)
    | some (.pegWord _ 1) => some (.peg, 0x00FF01CF)
    | some (.routeWord _ h) => some (.route, if h = 0 then 0xFFFF else 0x83FF0000)
    | _ => none

/-- Values laid over the committed registers. -/
def State.overlay (s : State) (ws : List (Nat × Word)) (off : Nat) : Word := (mget ws off).getD (s.reg off)

/-! ### The rules of each page -/

/-- A window entry's rule (R376, R377): the job exists; the words that stand while its STATE is not closed stand; and an entry whose STATE is not closed
obeys Tables 12-3 and 12-4. -/
def State.windowOk (s : State) (f : Nat → Word) (j w : Nat) : Bool :=
  let old := s.win j w
  let new := winOfWords (fun k => (f (winOff j w k)).toNat)
  (s.job j).isSome &&
  (old.state == 0 ||
    ({ old with ctrl := 0 } == { new with ctrl := 0 } && old.target == new.target && old.epochMode == new.epochMode && old.segmented == new.segmented &&
      old.qslot == new.qslot && old.shared == new.shared)) &&
  (new.state == 0 || new.legal)

/-- The routing entry of endpoint `e` under an overlay. -/
def routeOf (f : Nat → Word) (e : Nat) : Nat := (f (routeOff e)).toNat + (f (routeOff e + 4)).toNat * 2 ^ 32

/-- An entry obeys Table 13-6. -/
def routeLegal (x : Nat) : Bool := field x 57 56 != 3 && (field x 57 56 == 0 || field x 15 0 == 0)

/-- S under an overlay (R425). -/
def sourcesOf (f : Nat → Word) : Nat :=
  ((List.range 1024).filter (fun e => bit (routeOf f e) 63 && field (routeOf f e) 55 48 != 0)).length

/-- A routing entry's rule (R423). -/
def State.routeOk (s : State) (f : Nat → Word) (e : Nat) : Bool :=
  let new := routeOf f e
  let old := s.routeEntry e
  let n := sourcesOf f
  routeLegal new && wbit (s.preg .route 0x104) 31 &&
  s.jobNums.all (fun j => match s.job j with
    | some x => !(((List.range x.members).map x.member).contains e) ||
        ((bit new 63 || !bit old 63) && (bit new (48 + j) || !bit old (48 + j)))
    | none => true) &&
  (!s.anyJob || decide (n ≤ s.sources) || decide (n * s.lineGrant ≤ 32768))

/-- PEG_CTRL's rule (R398, R399, Table 13-7). -/
def State.pegCtrlOk (s : State) (p : Nat) (v : Word) : Bool :=
  let old := s.pegCtrl p
  let vec := wfield (s.reg (pegOff p 3)) 10 0
  (!wbit old 3 || wfield v 2 0 == wfield old 2 0) &&
  (!(wbit v 8 && !wbit old 8) || decide (176 ≤ vec)) &&
  !(wbit v 7 && (match s.job (wfield v 2 0) with
    | some j => wbit v 3 && j.level.active == 2
    | none => false))

/-- R247: every partition's fields in range, and the guarantees within 1,000 ‰. -/
def bwOk (f : Nat → Word) : Bool :=
  let w := fun (p : Nat) => f (Page.bwreg.base + 0x100 + 4 * p)
  (List.range 6).all (fun p => decide (wfield (w p) 9 0 ≤ wfield (w p) 25 16) && decide (1 ≤ wfield (w p) 25 16) && decide (wfield (w p) 25 16 ≤ 1000) &&
    decide (1 ≤ wfield (w p) 31 26)) &&
  decide ((List.range 6).foldl (fun a p => a + wfield (w p) 9 0) 0 ≤ 1000)

/-- A value lies in the fields of its register (Tables 07-22, 07-23, 08-5, 10-13 to 10-25, 13-14, 17-14). -/
def fieldsOk (h : Bool) (p : Page) (r : Nat) (v : Word) : Bool :=
  match p with
  | .deep => budgetLegal h v
  | .migrate =>
    if r = 0x100 then decide (1 ≤ wfield v 31 24) && decide (wfield v 23 16 < wfield v 31 24) && decide (1 ≤ wfield v 15 8)
    else decide (1 ≤ wfield v 15 0)
  | .cadence =>
    if r = 0x10C then decide (wfield v 2 0 ≤ 4)
    else if r = 0x118 then wfield v 10 9 != 3
    else if r = 0x11C then wfield v 24 0 % 24576 == 0 && decide (24576 ≤ wfield v 24 0) && decide (wfield v 24 0 ≤ 24576000)
    else true
  | .eth _ =>
    if r = 0x104 then decide (1500 ≤ wfield v 13 0) && decide (wfield v 13 0 ≤ 9216) &&
      (!wbit v 14 || (decide (1 ≤ wfield v 27 16) && decide (wfield v 27 16 ≤ 4094)))
    else if r = 0x108 then decide (1024 ≤ wfield v 31 16) && decide (1024 ≤ wfield v 15 0) && wfield v 31 16 != wfield v 15 0
    else if r = 0x12C then decide (wfield v 31 24 ≤ 128) && decide (wfield v 23 16 ≤ 128) && decide (wfield v 15 8 ≤ 32) && decide (wfield v 7 0 ≤ 32)
    else true
  | .media =>
    if r = 0x108 then decide (wfield v 7 0 ≤ 90)
    else if r = 0x10C then decide (v.toNat ≤ 24576000)
    else true
  | .link _ => wfield v 5 4 != 3
  | .pwr =>
    if r = 0x104 then decide (v.toNat ≤ 2)
    else if r = 0x108 then capLegal v.toNat
    else if r = 0x10C then decide (1200 ≤ v.toNat) && decide (v.toNat ≤ 2800)
    else decide (v.toNat ≤ 3)
  | _ => true

/-- The rules that govern one register hold with the overlay. -/
def State.txOk (s : State) (f : Nat → Word) (off : Nat) : Bool :=
  match Page.ofOffset off with
  | some (.bwreg, _) => bwOk f
  | some (.route, 0x104) => !s.anyJob
  | some (p, r) => fieldsOk s.isH p r (f off)
  | none => match Region.ofOffset off with
    | some (.windowWord j w _) => s.windowOk f j w
    | some (.pegWord p _) => s.pegCtrlOk p (f off)
    | some (.routeWord e _) => s.routeOk f e
    | _ => true

/-! ### What a committed value does -/

/-- WINDOW_DRAIN.BUSY of a job (R378). -/
def State.showDrain (s : State) (j : Nat) : State :=
  s.setPreg .window 0x100 (wassign (s.preg .window 0x100) j (s.draining.any (fun d => d.1 == j)))

/-- A window has left the open state: the requests of its job's windows admitted and not yet answered are drained (R378). -/
def State.startDrain (s : State) (j : Nat) : State :=
  let sl := s.sliceOf j
  let ks := (s.accums.flatMap (fun (a : Accum) => a.acks)).filter (fun (k : Packet) => k.slice == sl && !(s.draining.contains (j, k)))
  { s with draining := s.draining ++ ks.map (fun k => (j, k)) }.showDrain j

/-- ROUTE_STAT.SOURCES. -/
def State.showSources (s : State) : State := s.putPreg .route 0x100 26 16 s.sources

/-- PEG_STAT.ASSIGNED follows a change of VALID. -/
def State.showAssigned (s : State) (was now : Bool) : State :=
  let n := wfield (s.preg .peg 0x100) 15 0
  if was == now then s else s.putPreg .peg 0x100 15 0 (if now then n + 1 else n - 1)

/-- The consequence of one register's new value; `old` is the state before the write. -/
def State.txEffect (s old : State) (off : Nat) : State :=
  match Page.ofOffset off with
  | some (.deep, _) => s.setBudget (s.reg off)
  | some (.cadence, _) => if s.reg off == old.reg off then s else s.cadenceCommitted
  | some (.link n, _) =>
    let v := s.reg off
    (s.setReg off (old.reg off)).linkCfg n v
  | some (.pwr, _) => s.govern
  | some _ => s
  | none => match Region.ofOffset off with
    | some (.windowWord j w 0) => if (old.win j w).state == 1 && (s.win j w).state != 1 then s.startDrain j else s
    | some (.pegWord p _) =>
      let was := wbit (old.pegCtrl p) 3
      let s := s.showAssigned was (wbit (s.pegCtrl p) 3)
      if !was && wbit (s.pegCtrl p) 3 then s.setPeg p 0 else s.pegIrq p
    | some (.routeWord _ _) => s.showSources.retryHeld
    | _ => s

/-- Values take effect together: every register, then every consequence. -/
def State.txApply (s : State) (ws : List (Nat × Word)) : State :=
  let t := ws.foldl (fun t e => t.setReg e.1 e.2) s
  ws.foldl (fun t e => t.txEffect s e.1) t

/-! ### Writes (R480) -/

/-- TXN_STAT.STATE. -/
def State.txnState (s : State) : Nat := wfield (s.preg .txn 0x104) 3 0

/-- Stage a write in the open transaction; the 16,385th is ignored. -/
def State.stageTx (s : State) (off : Nat) (v : Word) : State :=
  let t := s.txn
  let e := (off, v, s.reg off)
  if t.staged.any (fun x => x.1 == off) then { s with txn := { t with staged := t.staged.map (fun x => if x.1 == off then e else x) } }
  else if 16384 ≤ t.staged.length then { s with txn := { t with full := true } }
  else { s with txn := { t with staged := t.staged ++ [e] } }.putPreg .txn 0x11C 14 0 (t.staged.length + 1)

/-- A write to a TX register: staged, stray, refused, or in effect at once. -/
def State.txWrite (s : State) (off : Nat) (v : Word) : State :=
  match txMask off with
  | none => s
  | some (p, m) =>
    let x := v &&& m
    if wbit (s.preg p 0x008) 2 then
      (if s.txnState = 1 then s.stageTx off x else s.setPreg .txn 0x104 (wset (s.preg .txn 0x104) 19))
    else if s.txOk (s.overlay [(off, x)]) off then s.txApply [(off, x)]
    else s.refuseReg p off v

/-- WINDOW_ENTRY_WRITE (R376–R378): word `k` of window `w` of job `j`. -/
def execWindowEntryWrite (j w k : Nat) (v : Word) (s : State) : Host.Outcome State Fault Refusal :=
  .next (if j < 8 && w < 4096 && k < 8 then s.txWrite (winOff j w k) v else s)

/-- WINDOW_DRAIN_DONE (R378): every request that the job's windows had admitted is answered. -/
def State.drainDone (s : State) (j : Nat) : State :=
  if wbit (s.preg .window 0x100) j && !s.draining.any (fun d => d.1 == j) then (s.showDrain j).irq .window 3 else s

def execWindowDrainDone (job : Nat) (s : State) : Host.Outcome State Fault Refusal := .next (if job < 8 then s.drainDone job else s)

/-- PEG_CTRL_WRITE (R398). -/
def execPegCtrlWrite (p : Nat) (v : Word) (s : State) : Host.Outcome State Fault Refusal :=
  .next (if p < 32768 then s.txWrite (pegOff p 1) v else s)

/-- PEG_VALUE_WRITE (R397): never staged. -/
def execPegValueWrite (p : Nat) (v : Word) (s : State) : Host.Outcome State Fault Refusal :=
  .next (if p < 32768 then s.setPeg p v.toNat else s)

/-- ROUTE_ENTRY_WRITE (R423): half `h` of the entry of endpoint `e`. -/
def execRouteEntryWrite (e h : Nat) (v : Word) (s : State) : Host.Outcome State Fault Refusal :=
  .next (if e < 1024 && h < 2 then s.txWrite (routeOff e + 4 * h) v else s)

/-- ROUTE_ENDPOINT_WRITE (R433). -/
def execRouteEndpointWrite (v : Word) (s : State) : Host.Outcome State Fault Refusal := .next (s.txWrite (Page.route.base + 0x104) v)

/-- CAP_HOST (R518): a write of PWR_CAP_HOST sets or withdraws the host's cap. -/
def execCapHost (v : Word) (s : State) : Host.Outcome State Fault Refusal := .next (s.txWrite (Page.pwr.base + 0x108) v)

end Sys2Proof.Machine
end

