-- ==== Sys2Proof/Machine/Txn.lean ====
section
/-!
DEFINITION. Configuration transactions (R277, R480–R482, R486).
-/

namespace Sys2Proof.Machine

open Sys2Proof

def State.setTxnResult (s : State) (r : Nat) : State := s.putPreg .txn 0x104 15 8 r
def State.setTxnState (s : State) (v : Nat) : State := s.putPreg .txn 0x104 3 0 v

/-- TXN_BEGIN (R480): BUSY while one is open or scheduled; otherwise the next one is open, and STRAY is clear. -/
def State.txnBegin (s : State) : State :=
  if s.txnState = 1 || s.txnState = 3 then s.setTxnResult 10
  else
    let w := wclear (wclear (s.preg .txn 0x104) 19) 17
    let s := (s.setPreg .txn 0x104 (wput (wput w 31 24 (wfield w 31 24 + 1)) 3 0 1)).setPreg .txn 0x11C 0
    { s with txn := { openAt := s.nowN, persisting := s.txn.persisting } }

def execTxnBegin (s : State) : Host.Outcome State Fault Refusal := .next s.txnBegin

/-- The staged writes as an overlay. -/
def Txn.writes (t : Txn) : List (Nat × Word) := t.staged.map (fun e => (e.1, e.2.1))

/-- The first staged register whose rules fail under the whole staged set. -/
def State.firstBad (s : State) : Option (Nat × Word) :=
  let f := fun (off : Nat) => ((s.txn.staged.find? (fun e => e.1 == off)).map (fun e => e.2.1)).getD (s.reg off)
  (s.txn.staged.find? (fun e => !s.txOk f e.1)).map (fun e => (e.1, e.2.1))

/-- Bound on the prepare of the settings staged: 10 ms + 21 ms for each KiB of the copy, header and mark included (R273). -/
def State.prepareBound (s : State) : Nat :=
  if s.settings.txnStaged.isEmpty then 0
  else 245760 + 516096 * ceilDiv (72 + bodyBytes (applyStaged s.settings.records s.settings.txnStaged)) 1024

/-- TXN_FAIL_ADDR. -/
def State.failAddr (s : State) (off : Nat) (settings : Bool) : State :=
  s.setPreg .txn 0x120 (BitVec.ofNat 32 (b2n settings * 2 ^ 31 + off % 2 ^ 26))

/-- The page's error for a staged value found illegal. -/
def State.refuseStaged (s : State) (off : Nat) (v : Word) : State :=
  match txMask off with
  | some (p, _) => s.refuseReg p off v
  | none => s

/-- TXN_COMMIT (R481): validate, fix the instant, begin the prepare and schedule. -/
def State.txnCommit (s : State) : State :=
  if s.txnState != 1 then s
  else if s.txn.full then s.rollBack 7
  else match s.firstBad with
    | some (off, v) => ((s.refuseStaged off v).failAddr off false).rollBack 3
    | none =>
      let soon := s.nowN + 4096 + s.prepareBound
      let asked := s.preg64 .txn 0x108 0x10C
      if asked != 0 && asked < soon then s.setTxnResult 9
      else if asked != 0 && s.nowN + 14745600000 < asked then s.setTxnResult 3
      else
        let s := (s.setPreg64 .txn 0x110 0x114 (if asked = 0 then soon else asked)).setTxnState 3
        if s.settings.txnStaged.isEmpty then s else (s.setSettings (fun k => { k with txnWait := true })).serveStore

def execTxnCommit (s : State) : Host.Outcome State Fault Refusal := .next s.txnCommit

/-- TXN_ROLLBACK (R482): before the commit instant. -/
def execTxnRollback (s : State) : Host.Outcome State Fault Refusal :=
  .next (if s.txnState = 1 || (s.txnState = 3 && s.nowN < s.txnInstant) then s.rollBack 2 else s)

/-- COMMIT_INSTANT (R481): the rules must still hold and the committed values be those recorded, and the settings must be prepared. -/
def State.commitInstant (s : State) : State :=
  if s.txnState != 3 || s.nowN < s.txnInstant then s
  else
    let moved := (s.txn.staged.find? (fun e => s.reg e.1 != e.2.2)).map (fun e => e.1)
    match (s.firstBad.map (·.1)).orElse (fun _ => moved) with
    | some off => (s.failAddr off false).rollBack 4
    | none =>
      let sets := !s.settings.txnStaged.isEmpty
      if sets && !(s.settings.inTxn && wbit (s.preg .settings 0x100) 1 && !s.txn.persisting) then (s.failAddr 0 true).rollBack 6
      else
        let ws := s.txn.writes
        let s := { s with txn := { persisting := sets || s.txn.persisting } }.txApply ws
        let s := s.setSettings (fun k => { k with txnStaged := [] })
        let s := s.setPreg .txn 0x104 (wclear (s.preg .txn 0x104) 18)
        let s := ((s.setTxnResult 1).setTxnState (if sets then 4 else 0)).count .txn 0x124 1
        (s.setPreg .txn 0x11C 0).irq .txn 1

def execCommitInstant (s : State) : Host.Outcome State Fault Refusal := .next s.commitInstant

/-- TXN_TIMEOUT (R482): no COMMIT has been scheduled within TXN_TIMEOUT, in ms, of BEGIN. -/
def execTxnTimeout (s : State) : Host.Outcome State Fault Refusal :=
  .next (if s.txnState = 1 && s.txn.openAt + wfield (s.preg .txn 0x118) 15 0 * 24576 ≤ s.nowN then s.rollBack 5 else s)

/-- TXN_PERSISTED (R277): the settings mark of the committed transaction is written. -/
def State.txnPersisted (s : State) : State :=
  if !s.txn.persisting then s
  else
    let s := { s.markCopy.showSettings with txn := { s.txn with persisting := false } }
    let s := s.setPreg .txn 0x104 (wset (s.preg .txn 0x104) 18)
    ((if s.txnState = 4 then (s.setTxnState 0).setPreg .txn 0x104 (wclear ((s.setTxnState 0).preg .txn 0x104) 17) else s).irq .txn 2).serveStore

def execTxnPersisted (s : State) : Host.Outcome State Fault Refusal := .next s.txnPersisted

end Sys2Proof.Machine
end

