-- ==== Sys2Proof/Machine/HostIf.lean ====
section
/-!
DEFINITION. The host interface's own events: PCIe, doorbells, the admin rings, completion backlogs, HOLD, the interface level and the interrupt words of a
page (R459–R469, R477–R479, R484, R485).
-/

namespace Sys2Proof.Machine

open Sys2Proof

/-! ### PCIe (R459, R460) -/

/-- The Device ID of the variant (R5, Table 15-1). -/
def partId (h : Bool) : Nat := if h then 0x0961 else 0x0960

/-- The words of the Type 0 header that are the module's own: Device and Vendor ID, Class code and Revision ID (Table 15-1). No command of the table reads
configuration space (log 254). -/
def State.configWord (s : State) (o : Nat) : Word :=
  match o with
  | 0x00 => BitVec.ofNat 32 (partId s.isH * 2 ^ 16 + Config.vendorId.toNat)
  | 0x08 => BitVec.ofNat 32 (0x120000 * 2 ^ 8 + Config.step.toNat)
  | _ => 0


/-- PCIE_HOT_RESET: a hot reset or link-down resets configuration space and nothing else; `up` is the link's state after it. -/
def State.hotReset (s : State) (up : Bool) : State := { s with pcie := { linkUp := up, trains := s.pcie.trains + 1 } }.showHold

def execPcieHotReset (up : Bool) (s : State) : Host.Outcome State Fault Refusal := .next (s.hotReset up)

/-- D3HOT_ENTRY: the effect of CHIP_CTRL.HOLD while the function stays in D3hot. -/
def execD3hotEntry (s : State) : Host.Outcome State Fault Refusal := .next { s with pcie := { s.pcie with d3hot := true } }.showHold

/-- D3HOT_EXIT. -/
def execD3hotExit (s : State) : Host.Outcome State Fault Refusal := .next { s with pcie := { s.pcie with d3hot := false } }.showHold

/-- MSIX_PENDING_SEND: a pending message of an unmasked vector leaves once the link is up (R460). -/
def State.sendPending (s : State) (v : Nat) : State :=
  let o := 0x10800 + v / 32 * 4
  if v < 2048 && s.pcie.linkUp && wbit (s.reg o) (v % 32) && !wbit (s.reg (0x20000 + v * 16 + 12)) 0 then
    (s.setReg o (wclear (s.reg o) (v % 32))).emit (.msix v)
  else s

def execMsixPendingSend (v : Nat) (s : State) : Host.Outcome State Fault Refusal := .next (s.sendPending v)

/-! ### Doorbells (R467, R477, R478) -/

/-- A refused TAIL: one record of the configuration class, code 0x002. -/
def tailRecord (off v : Nat) : ErrRec := { code := 0xA002, sev := 1, source := Page.host.source, key := off, detail := leBytes 4 v }

/-- DB_SQ_TAIL: TAIL of class `k` of client `c`. A value that is no index of the ring is ignored, sets DB_STAT.ERROR and writes a record. -/
def State.sqTail (s : State) (c k : Nat) (v : Word) : State :=
  match mget s.clients c with
  | none => s
  | some x =>
    let t := wfield v 15 0
    if bit x.classes k && decide (t < 2 ^ x.sqLog) then { s with clients := mset s.clients c { x with tails := mset x.tails k t, error := false } }
    else { s with clients := mset s.clients c { x with error := true } }.record (tailRecord (0x800000 + c * 0x1000 + 4 * k) v.toNat)

def execDbSqTail (c k : Nat) (v : Word) (s : State) : Host.Outcome State Fault Refusal := .next (if c < 64 && k < 4 then s.sqTail c k v else s)

/-- HOST_ASQ_TAIL (R467). -/
def State.asqTail (s : State) (v : Word) : State :=
  let t := wfield v 15 0
  if t < s.asqSize then s.setPreg .host 0x10C (BitVec.ofNat 32 t)
  else (s.irq .host 1).report .host (tailRecord 0x1010C v.toNat)

def execHostAsqTail (v : Word) (s : State) : Host.Outcome State Fault Refusal := .next (s.asqTail v)

/-- DB_CQ_ARM (R478): a write of 1 arms vector `c`. -/
def State.cqArm (s : State) (c : Nat) (v : Word) : State :=
  if (mget s.clients c).isSome && wbit v 0 then { s with clients := mmod s.clients c (fun x => { x with armed := true }) }.clientArm c else s

def execDbCqArm (c : Nat) (v : Word) (s : State) : Host.Outcome State Fault Refusal := .next (s.cqArm c v)

/-- HOST_ACQ_ARM (R478). -/
def State.acqArm (s : State) (v : Word) : State := if wbit v 0 then { s with admin := { s.admin with armed := true } }.adminArm else s

def execHostAcqArm (v : Word) (s : State) : Host.Outcome State Fault Refusal := .next (s.acqArm v)

/-! ### The admin rings (R463, R468, R485) -/

/-- The checks of HOST_ACFG.ENABLE: sizes, vector, and both rings in the host region. -/
def State.acfgOk (s : State) (v : Word) : Bool :=
  let a := wfield v 4 0
  let c := wfield v 12 8
  decide (6 ≤ a) && decide (a ≤ 16) && decide (6 ≤ c) && decide (c ≤ 16) && decide (176 ≤ wfield v 26 16) &&
  inHostRegion s.asqBase (64 * 2 ^ a) && inHostRegion s.acqBase (32 * 2 ^ c)

/-- A write of HOST_ACFG. Setting ENABLE sets up the admin completion ring, both its indices at 1, and the submission ring's at 0; while ENABLE is 1
the sizes stand. -/
def State.acfgWrite (s : State) (w : Word) : State :=
  let v := w &&& 0x87FF1F1F
  let old := s.preg .host 0x108
  if wbit old 31 && wbit v 31 then
    (if v &&& 0x1F1F == old &&& 0x1F1F && decide (176 ≤ wfield v 26 16) then s.setPreg .host 0x108 v else s.refuseReg .host 0x10108 w)
  else if !wbit v 31 then s.setPreg .host 0x108 v
  else if !s.acfgOk v then (s.setPreg .host 0x108 (wclear v 31)).refuseReg .host 0x10108 w
  else
    let s := ((s.setPreg .host 0x108 v).setPreg .host 0x110 0).setPreg .host 0x10C 0
    let s := s.rawWrite s.acqBase (leBytes 8 1 ++ leBytes 8 1 ++ leBytes 16 0)
    { s with admin := {} }

/-- HOST_ACFG_ENABLE (R485): a write of HOST_ACFG that sets ENABLE. -/
def execHostAcfgEnable (v : Word) (s : State) : Host.Outcome State Fault Refusal := .next (if wbit v 31 then s.acfgWrite v else s)

/-! ### Backlogs (R469, R476) -/

/-- Records of the run at the front of a backlog: up to the first with MORE = 0. -/
def runLength : List (List Byte) → Nat
  | [] => 0
  | r :: rs => if bit (getLE r 1 1) 1 then 1 + runLength rs else 1

/-- Write the backlog's runs in order while each fits whole; `fuel` bounds the runs. -/
def State.drainClient (s : State) (c : Nat) : Nat → State
  | 0 => s
  | fuel + 1 =>
    match mget s.clients c with
    | none => s
    | some x =>
      let n := runLength x.backlog
      if n = 0 || ringRoom (2 ^ x.cqLog) x.prod (s.clientCons x) < n then s
      else match s.clientPuts c (x.backlog.take n) with
        | none => s
        | some t => { t with clients := mmod t.clients c (fun y => { y with backlog := x.backlog.drop n }) }.drainClient c fuel

def State.drainAdmin (s : State) : Nat → State
  | 0 => s
  | fuel + 1 =>
    let x := s.admin
    let n := runLength x.backlog
    if n = 0 || ringRoom s.acqSize x.prod s.adminCons < n then s
    else
      let t := (x.backlog.take n).foldl State.adminPut s
      { t with admin := { t.admin with backlog := x.backlog.drop n } }.drainAdmin fuel

/-- COMPLETION_BACKLOG_DRAIN (R469): a full ring has gained room. -/
def execCompletionBacklogDrain (r : Ring) (s : State) : Host.Outcome State Fault Refusal :=
  .next (match r with
    | .admin => (s.drainAdmin 4096).adminArm
    | .client c _ => (s.drainClient c 4096).clientArm c)

/-! ### CHIP (R479, R484) -/

/-- A write of CHIP_CTRL. -/
def State.holdWrite (s : State) (v : Word) : State := (s.setPreg .chip 0x108 (v &&& 1)).showHold

/-- HOLD (R479). -/
def execChipHold (v : Word) (s : State) : Host.Outcome State Fault Refusal := .next (s.holdWrite v)

/-- A write of CHIP_IFLEVEL (Table 15-18). -/
def State.ringSel (s : State) (v : Word) : State :=
  let w := s.preg .chip 0x114
  let n := wfield v 23 16
  if s.anyJob || n < wfield w 7 0 || wfield w 15 8 < n then s.refuseReg .chip 0x114 v
  else s.setPreg .chip 0x114 (wput w 23 16 n)

/-- RING_SEL (R484). -/
def execRingSel (v : Word) (s : State) : Host.Outcome State Fault Refusal := .next (s.ringSel v)

/-! ### Interrupt words of a page (R464, R465) -/

/-- BLK_IRQ_ERROR_REARM: a write of 1 to ERROR in the BLK_IRQ_RAW at a BAR0 offset. -/
def execBlkIrqErrorRearm (off : Nat) (s : State) : Host.Outcome State Fault Refusal :=
  .next (match Page.ofOffset off with
    | some (p, 0x010) => s.rearm p
    | _ => s)

/-- BLK_IRQ_FORCE: each 1 sets that BLK_IRQ_RAW bit. -/
def State.forceIrq (s : State) (p : Page) (v : Word) : State :=
  s.setIrq p (s.preg p 0x010 ||| (v &&& maskBits (p.irqBits - 1) 0)) (s.preg p 0x014)

def execBlkIrqForce (off : Nat) (v : Word) (s : State) : Host.Outcome State Fault Refusal :=
  .next (match Page.ofOffset off with
    | some (p, 0x018) => s.forceIrq p v
    | _ => s)

end Sys2Proof.Machine
end

