-- ==== Sys2Proof/Machine/Boot.lean ====
section
/-!
DEFINITION. Booting: the settings copies, the image, the deep tier's mount, the tiers, the slots, and READY (R39, R239, R269, R272, R275, R493–R497,
R577–R582).
-/

namespace Sys2Proof.Machine

open Sys2Proof

/-! ### Firmware's state (R493) -/

def State.setBoot (s : State) (f : Boot → Boot) : State := { s with boot := f s.boot }
def State.setFw (s : State) (n : Nat) (f : FwSlot → FwSlot) : State := s.setBoot (fun b => b.setSlot n (f (b.slot n)))
/-- A slot changes STATE, with its RESULT and the tick. -/
def State.fwState (s : State) (n st result : Nat) : State := s.setFw n (fun f => { f with st := st, result := result, stateCt := s.nowN })

/-- A record of the firmware class: KEY slot and processor kind, DETAIL the version (Table 18-4). -/
def State.fwRecord (s : State) (code slot kind : Nat) : State :=
  s.report .chip { code := 0xE000 + code, sev := 1, key := slot + kind * 16, detail := leBytes 4 (s.boot.slot slot).version }

/-! ### The parts of a boot -/

/-- The settings store is read: the current copy is chosen, and defaults are loaded when neither is valid (R272, R275). The slot failures and the
calibrations come from firmware's records; a failure that had not reached the store yet stands in their mirror (R39, R240, R278). -/
def State.loadSettings (s : State) (okA okB : Bool) : State :=
  let k := s.settings
  let a := if okA then k.copyA else k.copyA.cleared
  let b := if okB then k.copyB else k.copyB.cleared
  let s := s.setSettings (fun k => { k with copyA := a, copyB := b })
  let s :=
    if a.valid && b.valid then s
    else if a.valid || b.valid then s.report .settings { code := 0xC106, sev := 2 }
    else
      let s := s.setSettings (fun k => { k with copyA := (SettingsCopy.make 0 0 k.mirror).marked })
      (s.putStat 4 true).report .settings { code := 0xC107, sev := 2 }
  let fw := fun (t : Nat) => (mget s.settings.records t).getD []
  let mine := fun (t : Nat) => (mget s.settings.mirror t).getD []
  { s with
    failedSlots := (slotsOfRecord (mine slotRecordType)).foldl sinsert (slotsOfRecord (fw slotRecordType))
    calStored := calsOfRecord (fw calRecordType) }.showSettings

/-- DEEP_BUDGET with a value in bits `hi` to `lo`, where it fits and the word is legal. -/
def State.budgetField (s : State) (hi lo v : Nat) : State :=
  let w := wput (s.preg .deep 0x104) hi lo v
  if v < 2 ^ (hi - lo + 1) && budgetLegal s.isH w then s.setPreg .deep 0x104 w else s

/-- A field of DEEP_BUDGET from the settings record of a type. -/
def State.loadField (s : State) (t hi lo : Nat) : State :=
  match s.setting4 t with
  | some v => s.budgetField hi lo v
  | none => s

/-- DEEP_BUDGET from records 0x1001–0x1003, each where it is present and legal (R274). -/
def State.loadBudget (s : State) : State := ((s.loadField 0x1001 10 0).loadField 0x1002 22 12).loadField 0x1003 30 24

/-- The mount (R269): counters and LEVEL from the checkpoint, STATE recovering while an open block is scanned,
records that fail their CRC removed, unlisted units free. -/
def State.mountDeep (s : State) (k : BootCheck) : State :=
  let s := s.checkpoint.counters.foldl (fun s (e : Nat × Word) => s.setPreg .deep e.1 e.2) s
  let bad := k.badSets.eraseDups.filter (fun x => (mget s.sets x).isSome)
  let s := { s with sets := mfilter s.sets (fun x _ => !bad.contains x) }
  let listed := s.listedUnits
  let s := { s with
    unitKeys := s.unitKeys.filter (fun u => listed.contains u.1)
    usedPages := s.usedPages.filter (fun p => !parkPage p)
    genSlots := s.genSlots.map (fun (e : Nat × GenSlot) => (e.1, e.2.kept)) }
  let s := bad.foldl (fun s _ => s.report .deep { code := 0xC105, sev := 2 }) s
  let s := if k.openBlock then (s.setDeepState 1).count .deep 0x148 1 else s
  let s := if s.checkpoint.short then (s.count .deep 0x14C 1).report .deep { code := 0xC108, sev := 2 } else s
  let s := { s with checkpoint := { s.checkpoint with short := false } }
  let s := s.setLevel (s.checkpoint.level.getD s.budgetDepth)
  (((s.holdupCheck k.holdup).showReady).showSets).showWear

/-- The tiers are trained (R239); after a warm reset only those whose record is out of its window (R240, Table 19-12). A withdrawn tier stays so until
power-up (R242). -/
def State.trainTiers (s : State) (k : BootCheck) (ts : List Nat) (power : Bool) : State :=
  ((ts.filter (fun t => !s.goneTiers.contains t)).foldl (fun s t =>
    let c := k.tiers.getD t (0, 0, 0, 0, 0)
    let p := tierPage t
    let keep := match mget s.calStored t with
      | some w => if !power && inWindow w c.1 c.2.1 c.2.2.1 then some w else none
      | none => none
    let w := keep.getD (calWord c.1 c.2.1 c.2.2.1)
    let s := { s.setPreg p 0x104 w with calStored := mset s.calStored t w }
    let s := s.setPreg p 0x108 (BitVec.ofNat 32 (c.2.2.2.1 % 256 * 256 + c.2.2.2.2 % 256))
    s.setTierState t 1) (s.goneTiers.foldl (fun s t => s.setTierState t 4) s)).showFree

/-- A slot disabled at manufacture: it is absent, its logical core stands on slot 16, and the bay has no spare (R38, R84, R85). -/
def State.loadAbsent (s : State) (b slot : Nat) : State :=
  let s := ((s.setSlotState b slot 3).putPreg (.core b slot) 0x104 3 0 7).putPreg (.bay b) 0x100 9 8 2
  if 16 ≤ slot then s
  else
    let s := s.putPreg (.core b slot) 0x100 20 16 0x1F
    s.mapSlot b slot 16

/-- The slots as firmware sets them before READY: those absent, those of the persistent record, their logical cores on the spares, bays without one
withdrawn (R39, R40, R84). -/
def State.loadFailed (s : State) : State :=
  let s := s.absentSlots.foldl (fun s x => if x < 272 then s.loadAbsent (x / 17) (x % 17) else s) s
  let s := s.failedSlots.foldl (fun s x =>
    let b := x / 17
    let slot := x % 17
    let was := s.slotState b slot
    let s := (s.setSlotState b slot 2).putPreg (.core b slot) 0x104 3 0 6
    let s := s.putPreg (.bay b) 0x100 4 0 (s.failedIn b)
    if was == 0 then s.putPreg (.bay b) 0x100 9 8 2 else s) s
  s.remap.showCapacity

/-- The registers that show the running image: CHIP_FW, CHIP_IFLEVEL with RING_SEL at 1, ROUTE_LEVEL (R508). -/
def State.showImage (s : State) : State :=
  let f := s.boot.slot s.boot.running
  let s := s.setPreg .chip 0x110 (BitVec.ofNat 32 f.version)
  let s := s.setPreg .chip 0x114 (BitVec.ofNat 32 (2 ^ 16 + f.ringMax % 256 * 2 ^ 8 + f.ringMin % 256))
  s.setPreg .route 0x108 (BitVec.ofNat 32 (f.fabMax % 256 * 2 ^ 8 + f.fabMin % 256))

/-- The slot the ROM boots (R494), and whether the confirmed one was found invalid. -/
def State.pickImage (s : State) (k : BootCheck) : Option (Nat × Bool) :=
  let b := s.boot
  let ok := fun (n : Nat) => (if n = 0 then k.imageA else k.imageB) && decide (2 ≤ (b.slot n).st) && decide ((b.slot n).st ≤ 4)
  if ok b.confirmed then some (b.confirmed, false)
  else if ok (otherSlot b.confirmed) then some (otherSlot b.confirmed, true)
  else none

/-- A slot whose staging or trial the reset interrupted: a half-written image fails R492; a trial image goes back to STAGED (R494, Table 16-9). -/
def State.settleSlots (s : State) : State :=
  [0, 1].foldl (fun s n =>
    match (s.boot.slot n).st with
    | 1 => s.fwState n 5 2
    | 3 => s.fwState n 2 0
    | _ => s) { s with boot := { s.boot with activate := none, jobStart := none, since := s.nowN } }

/-- The recovery pages: only CHIP, HOST and SETTINGS are served, with stack 0 trained (R495). -/
def State.recovery (s : State) (k : BootCheck) (fw : Word) : State :=
  let s := { s with life := .recovery }
  let s := s.trainTiers k [0] true
  let s := s.setPreg .chip 0x110 fw
  ((s.setPreg .chip 0x00C (wput (s.preg .chip 0x00C) 7 4 5)).setReady false)

/-- Bring the module up from a fresh state to READY (Table 16-5). `power`: rails were down, so SLOT_ID is sampled and every tier trains. -/
def State.bringUp (s : State) (k : BootCheck) (cause : Nat) (power : Bool) : State :=
  let s := if power then { s with slotId := k.slotId % 64 } else s
  let s := s.putPreg .chip 0x104 11 8 cause
  let s := s.pw (fun p => { p with sensors := k.sensors })
  let s := { s with flashTemp := k.sensors.foldl (fun m (e : Nat × Nat) => if 60 ≤ e.1 && e.1 < 76 then mset m (e.1 - 60) e.2 else m) s.flashTemp }
  if power && k.sensors.any (fun e => decide (e.1 < 76) && decide ((sensorLimits e.1).2.2 ≤ e.2)) then
    { s with tripped := true, life := .down }.emit (.pin "THERM_TRIP_N" (some false))
  else
    let s := (s.loadSettings k.copyA k.copyB).settleSlots
    match s.pickImage k with
    | none => (s.fwRecord 0x306 s.boot.confirmed 0).recovery k 0
    | some (n, failed) =>
      let s := if failed then (s.fwState s.boot.confirmed 5 2).fwRecord 0x301 s.boot.confirmed 0 else s
      let s := (s.setBoot (fun b => { b with running := n })).showImage
      let s := if mget s.settings.records 0x0010 == some s.boot.record then s else s.fwCommit []
      let s := s.loadBudget.mountDeep k
      let s := if power then s.count .deep 0x144 1 else s
      let old := s.calStored
      let s := s.trainTiers k (List.range 10) power
      let s := (if s.calStored == old then s else s.fwCommit []).loadFailed
      let s := { s with life := .up, quietUntil := s.nowN + 4915200 }
      let s := s.showTemps.govern
      let s := s.setPreg .chip 0x104 (wclear (s.preg .chip 0x104) 3)
      let s := (s.showHold).redrive
      s

end Sys2Proof.Machine
end

