-- ==== Sys2Proof/Machine/Resets.lean ====
section
/-!
DEFINITION. Resets, power-up and boundary scan (R460, R484, R572, R578–R585).
-/

namespace Sys2Proof.Machine

open Sys2Proof

/-- What a warm module reset leaves (R583, Table 19-13): the cadence counter, the contents of the tiers with their poison, which tiers are withdrawn (R242), the error log and its SEQ,
what is durable, and of the power state the caps of SMBus and Ethernet, the pin and the points. The registers of failed and absent slots stand (R85). Every other
register is at its Reset value. -/
def State.warmState (s : State) : State :=
  let mine := s.failedSlots ++ s.absentSlots
  let slots := mine.map (fun x => (Page.core (x / 17) (x % 17)).base)
  let stands := fun (o : Nat) => slots.any (fun a => decide (a + 0x100 ≤ o) && decide (o < a + 0x1000))
  let keep := [Page.errlog.base + 0x100, Page.errlog.base + 0x104, Page.errlog.base + 0x108, Page.pwr.base + 0x138, Page.pwr.base + 0x13C]
  { s.durable with
    now := s.now, scratch := s.scratch, mem := s.mem, poison := s.poison, pcie := s.pcie, flashTemp := s.flashTemp, goneTiers := s.goneTiers
    regs := s.regs.filter (fun e => keep.contains e.1 || stands e.1)
    clocks := s.clocks.filter (fun e => stands e.1), clockBase := s.nowN
    errSeq := s.errSeq, openRecs := s.openRecs, fatalSlots := s.fatalSlots
    power := { smbus := s.power.smbus, eth := s.power.eth, nextLease := s.power.nextLease, brake := s.power.brake } }

/-- A warm module reset (R581): LOSS lines, the close sequence, and a boot with the rails kept. An open or scheduled transaction has rolled back with RESET. -/
def State.warmReset (s : State) (cause : Nat) (k : BootCheck) : State :=
  if s.life == .held || s.life == .down then s
  else
    let s := (if s.life == .up then s.sendLoss else s).closeDeep true
    let was := s.txnState = 1 || s.txnState = 3
    let t := s.warmState.showLoss.showContaining.letGo.bringUp k cause false
    if was then (t.setTxnResult 8).irq .txn 1 else t

/-- CHIP_RESET (R484): a write of KEY 0xA501, every other bit 0. -/
def execChipReset (v : Word) (k : BootCheck) (s : State) : Host.Outcome State Fault Refusal :=
  .next (if v == 0x0000A501 then s.warmReset 1 k else s)

/-- FLR (R581): configuration space is reset with it. -/
def execFlr (k : BootCheck) (s : State) : Host.Outcome State Fault Refusal := .next ({ s with pcie := { linkUp := s.pcie.linkUp, trains := s.pcie.trains } }.warmReset 2 k)

/-- WARM_MODULE_RESET by firmware, after a controller fault (Table 15-17). -/
def execWarmModuleReset (k : BootCheck) (s : State) : Host.Outcome State Fault Refusal := .next (s.warmReset 4 k)

/-- POWER_UP (R578): the input is applied. The module boots unless MOD_RESET_N holds it. A module whose rails a trip has lowered stays down until the input
has been removed (R582). -/
def State.powerUp (s : State) (k : BootCheck) : State :=
  if s.life != .boot && (s.life != .down || s.input) then s
  else
    let s := { s with input := true, tripped := false, tap := {} }
    if s.resetN then { s with life := .held } else { s with life := .boot }.bringUp k 0 true

def execPowerUp (k : BootCheck) (s : State) : Host.Outcome State Fault Refusal := .next (s.powerUp k)

/-- MOD_RESET_N_ASSERT (R579): the close sequence completes from the input and the rails fall; nothing is sent to the peers. On a tripped module the line
THERM_TRIP_N is tri-stated meanwhile (R582). -/
def State.resetAssert (s : State) : State :=
  let s := { s with resetN := true }
  if s.life == .held then s
  else if s.life == .down then (if s.tripped then s.emit (.pin "THERM_TRIP_N" none) else s)
  else { (s.closeDeep true).afterPower .held with resetN := true }

def execModResetNAssert (s : State) : Host.Outcome State Fault Refusal := .next s.resetAssert

/-- MOD_RESET_N_DEASSERT (R578, R582): power-up starts, or THERM_TRIP_N is asserted again after a trip. Outputs that boundary scan drove are let go. -/
def State.resetDeassert (s : State) (k : BootCheck) : State :=
  let s := { s.scanLetGo with resetN := false }
  if s.tripped && s.input then { s with life := .down }.emit (.pin "THERM_TRIP_N" (some false))
  else if s.life == .held then { s with life := .boot }.bringUp k 3 true
  else s

def execModResetNDeassert (k : BootCheck) (s : State) : Host.Outcome State Fault Refusal := .next (s.resetDeassert k)

/-- MOD_PRESENT_N_BREAK (R580): the short pin breaks first. What follows, the tray's MOD_RESET_N and the loss of the input, are events of their own. -/
def execModPresentNBreak (s : State) : Host.Outcome State Fault Refusal := .next (s.emit (.pin "MOD_PRESENT_N" none))

/-- HOST_PERST_N (R572): exactly a hot reset. -/
def execHostPerstN (s : State) : Host.Outcome State Fault Refusal := .next (s.hotReset true)

/-! ### Boundary scan (R584) -/

/-- Rail 27 is up. -/
def State.railUp (s : State) : Bool := s.input

/-- The IDCODE word (Table 19-14). -/
def State.idcode (s : State) : Word :=
  BitVec.ofNat 32 (Config.step.toNat * 2 ^ 28 + partId s.isH * 2 ^ 12 + Config.jep106.toNat * 2 + 1)

def State.setIr (s : State) (n : Nat) : State := { s with tap := { s.tap with ir := n } }

/-- Bits shifted out, least significant first. -/
def State.shift1 (s : State) (bs : List Bool) : State := if s.railUp then s.emit (.jtag bs) else s

/-- TAP_RESET: TRST_N low, or power-up; IDCODE is selected, and what the port drove is let go. -/
def State.tapReset (s : State) : State := s.scanLetGo.setIr 1
def execTapReset (s : State) : Host.Outcome State Fault Refusal := .next s.tapReset

/-- BYPASS: one bit, captured as 0. No output is driven by it (R13). -/
def State.tapBypass (s : State) : State := if s.railUp then (s.scanLetGo.setIr 0).shift1 [false] else s
def execJtagBypass (s : State) : Host.Outcome State Fault Refusal := .next s.tapBypass

/-- IDCODE. -/
def execJtagIdcode (s : State) : Host.Outcome State Fault Refusal :=
  .next (if s.railUp then (s.scanLetGo.setIr 1).shift1 ((List.range 32).map (fun i => wbit s.idcode i)) else s)

/-- Levels of the sideband outputs as boundary scan samples them; none: tri-stated, so that the pin's level is the tray's. -/
def State.pinLevels (s : State) : List (String × Option Bool) :=
  if s.tristated then [("MOD_READY", none), ("MOD_ALERT_N", none), ("THERM_TRIP_N", none)]
  else [("MOD_READY", some (wbit (s.preg .chip 0x104) 0)), ("MOD_ALERT_N", some (!s.alert)), ("THERM_TRIP_N", some (!s.tripped))]

/-- SAMPLE/PRELOAD: the sideband pins are sampled, with the levels that stand outside the module in `ins`, and the boundary register takes `cells`. -/
def State.samplePreload (s : State) (ins : List Bool) (cells : List (String × Bool)) : State :=
  if !s.railUp then s
  else
    let outs := s.pinLevels.filterMap (fun x => x.2)
    { s.scanLetGo with tap := { ir := 2, cells := cells } }.shift1 (outs ++ ins)

def execJtagSamplePreload (ins : List Bool) (cells : List (String × Bool)) (s : State) : Host.Outcome State Fault Refusal :=
  .next (s.samplePreload ins cells)

/-- Drive the outputs from the boundary register; an output that its cells do not hold any more is let go. -/
def State.driveCells (s : State) : State :=
  let s := { s with tap := { s.tap with driven := s.tap.driven.filter (fun n => !(s.tap.cells.any (fun c => c.1 == n))) } }.scanLetGo
  let s := s.tap.cells.foldl (fun s c => s.emit (.pin c.1 (some c.2))) s
  { s with tap := { s.tap with driven := s.tap.cells.map (·.1) } }

/-- EXTEST drives the outputs while MOD_RESET_N is asserted; otherwise it acts as BYPASS. -/
def execJtagExtest (s : State) : Host.Outcome State Fault Refusal :=
  .next (if !s.railUp then s else if s.resetN then (s.setIr 3).driveCells else s.tapBypass)

/-- CLAMP holds the outputs at their preloaded values and selects bypass. -/
def execJtagClamp (s : State) : Host.Outcome State Fault Refusal :=
  .next (if !s.railUp then s else if s.resetN then ((s.setIr 4).driveCells).shift1 [false] else s.tapBypass)

/-- HIGHZ tri-states every sideband output. -/
def execJtagHighz (s : State) : Host.Outcome State Fault Refusal :=
  .next (if !s.railUp then s else if s.resetN then ((s.setIr 5).letGo).emit (.pin "SMB_DAT" none) else s.tapBypass)

end Sys2Proof.Machine
end

