-- ==== Sys2Proof/Machine/Firmware.lean ====
section
/-!
DEFINITION. Firmware updates: staging, activation, trial, confirmation, the boot-flash check, recovery, and a control processor's reset (R488, R492,
R495, R497–R506, R509).
-/

namespace Sys2Proof.Machine

open Sys2Proof

/-! ### Images (R491, R492) -/

/-- Entry `i` of the component table is well formed: padding 0, the component within the image, its digest right. -/
def componentOk (im : List Byte) (len i : Nat) : Bool :=
  let a := 64 + 64 * i
  let o := getLE im (a + 4) 4
  let l := getLE im (a + 8) 4
  getLE im (a + 1) 3 == 0 && getLE im (a + 12) 4 == 0 && decide (4096 ≤ o) && decide (o + l ≤ len) && sha384 (slice im o l) == slice im (a + 16) 48

/-- The header obeys Table 16-3. -/
def headerOk (im : List Byte) : Bool :=
  let len := getLE im 16 4
  getLE im 0 4 == 0x46574942 && getLE im 4 2 == 1 && getLE im 6 2 == 6 && getLE im 12 4 != 0 && decide (8192 ≤ len) && decide (len ≤ 32505856) &&
    decide (getLE im 28 1 < 4) && getLE im 29 35 == 0 && getLE im 448 640 == 0 && getLE im 1184 2912 == 0 &&
    sortBy (fun x => x) ((List.range 6).map (fun i => getLE im (64 + 64 * i) 1)) == [1, 2, 3, 4, 5, 6]

/-- SIGNATURE over SHA-384 of bytes 0–1,087, by Baslith's key (log 6). -/
def signatureOk (im : List Byte) : Bool := ecdsaVerify Config.vendorKey (sha384 (slice im 0 1088)) (slice im 1088 96)

/-- What R492 finds, as a RESULT: 1 valid, 2 signature, digest or header failed, 3 SVN below the floor. -/
def imageResult (im : List Byte) (floor : Nat) : Nat :=
  if !(headerOk im && signatureOk im && (List.range 6).all (fun i => componentOk im (getLE im 16 4) i)) then 2
  else if getLE im 12 4 < floor then 3
  else 1

/-- A slot filled from an image. -/
def FwSlot.ofImage (im : List Byte) : FwSlot :=
  { version := getLE im 8 4, svn := getLE im 12 4, fabMin := getLE im 20 1, fabMax := getLE im 21 1, ringMin := getLE im 22 1, ringMax := getLE im 23 1
    manMin := getLE im 24 2, manMax := getLE im 26 2, flags := getLE im 28 1, image := im }

/-- The new image is compatible with the running one (R499). -/
def FwSlot.compatible (new run : FwSlot) : Bool :=
  decide (new.fabMin ≤ run.fabMax) && decide (run.fabMax ≤ new.fabMax) && decide (new.ringMin ≤ run.ringMax) && decide (run.ringMax ≤ new.ringMax) &&
    decide (new.manMin ≤ run.manMin) && decide (run.manMax ≤ new.manMax)

/-! ### Commits that record an outcome (R493, R498) -/

/-- A state change can be committed: a credit is there (R275). Its record waits while a copy is being prepared (R278). -/
def State.fwMay (s : State) : Bool := s.life == .up && s.credits != 0

/-- A firmware commit that takes a credit. -/
def State.fwSpend (s : State) (edits : List (Nat × Option (List Byte))) : State :=
  s.takeCredit.fwCommit edits

/-- A committed request of the host: its record, unless firmware has taken it and its removal waits for the store. -/
def State.fwRequest (s : State) (t : Nat) : Option (List Byte) :=
  if (mget s.settings.fwEdits t).isSome then none else mget s.settings.records t

/-- RESULT of a slot whose STATE stands. -/
def State.fwResult (s : State) (n result : Nat) : State := s.setFw n (fun f => { f with result := result })

/-! ### Staging (R498–R500) -/

/-- An FW_STAGE record read: the address, the length and the target slot; none where its SLOT is no slot. -/
def State.stageRecord (s : State) (v : List Byte) : Nat × Nat × Option Nat :=
  let k := getLE v 12 1
  (getLE v 0 8, getLE v 8 4, if k = 0xFF then some (otherSlot s.boot.running) else if k < 2 then some k else none)

/-- The source is unusable: malformed record, misaligned, outside the host region, poisoned, or its LENGTH is not IMAGE_LEN. -/
def State.badSource (s : State) (v : List Byte) : Bool :=
  let a := getLE v 0 8
  let l := getLE v 8 4
  v.length != 16 || getLE v 13 3 != 0 || a % 4096 != 0 || !inHostRegion a l || decide (l < 4096) || (s.poisonIn a l).isSome || getLE (s.readPa (a + 16) 4) 0 4 != l

/-- The RESULT with which FW_STAGE is refused for a target slot, or none. `live`: a running image stands, so that the slot rules and compatibility apply. -/
def State.stageRefusal (s : State) (v : List Byte) (n : Nat) (live : Bool) : Option Nat :=
  let b := s.boot
  let busy := n == b.running || (n == b.confirmed && (b.slot b.running).st == 3) || b.slotA.st == 1 || b.slotB.st == 1
  if live && busy then some 7
  else if s.badSource v then some 5
  else
    let im := s.readPa (getLE v 0 8) (getLE v 8 4)
    let r := imageResult im b.floor
    if r != 1 then some r
    else if live && !(FwSlot.ofImage im).compatible (b.slot b.running) then some 4
    else none

/-- A committed FW_STAGE record: staging starts, or is refused with its RESULT and code 0x303. The record is removed in the same commit. -/
def State.fwStage (s : State) : State :=
  match s.fwRequest 0x1100 with
  | none => s
  | some v =>
    if !s.fwMay then s
    else
      match (s.stageRecord v).2.2 with
      | none => ((s.fwResult (otherSlot s.boot.running) 5).fwRecord 0x303 (otherSlot s.boot.running) 0).fwSpend [(0x1100, none)]
      | some n =>
        match s.stageRefusal v n true with
        | some r => ((s.fwResult n r).fwRecord 0x303 n 0).fwSpend [(0x1100, none)]
        | none =>
          let im := s.readPa (getLE v 0 8) (getLE v 8 4)
          ((s.setFw n (fun _ => FwSlot.ofImage im)).fwState n 1 0).fwSpend [(0x1100, none)]

def execFwStage (s : State) : Host.Outcome State Fault Refusal := .next s.fwStage

/-- The slot that is STAGING. -/
def State.stagingSlot (s : State) : Option Nat := [0, 1].find? (fun n => (s.boot.slot n).st == 1)

/-- FW_STAGE_COMPLETE (R500): the slot is programmed and verified again. `flash`: the flash took every program and erase; `intact`: it holds what was
programmed. -/
def State.stageComplete (s : State) (flash intact : Bool) : State :=
  match s.stagingSlot with
  | none => s
  | some n =>
    if !s.fwMay then s
    else
      let r := if !flash then 6 else if !intact then 2 else if (s.boot.slot n).svn < s.boot.floor then 3 else 1
      let s := if r = 1 then s.fwState n 2 1 else (s.fwState n 5 r).fwRecord 0x303 n 0
      s.fwSpend []

def execFwStageComplete (flash intact : Bool) (s : State) : Host.Outcome State Fault Refusal := .next (s.stageComplete flash intact)

/-! ### Activation and trial (R501–R504) -/

/-- A committed FW_ACTIVATE record: it waits for the last job's end when it names a STAGED slot, and is removed with RESULT 0x07 otherwise. -/
def State.fwActivate (s : State) : State :=
  match s.fwRequest 0x1101 with
  | none => s
  | some v =>
    let n := getLE v 0 1
    if v.length = 4 && getLE v 1 3 = 0 && n < 2 && (s.boot.slot n).st = 2 then s.setBoot (fun b => { b with activate := some n })
    else if !s.fwMay then s
    else (if n < 2 then s.fwResult n 7 else s).fwSpend [(0x1101, none)]

def execFwActivate (s : State) : Host.Outcome State Fault Refusal := .next s.fwActivate

/-- The sequence of Table 16-8 up to READY: the deep tier is committed, the image of slot `n` runs, and the deep tier is mounted again. No reset. -/
def State.runImage (s : State) (n : Nat) (k : BootCheck) : State :=
  let s := (s.setReady false).closeDeep true
  let s := s.setBoot (fun b => { b with running := n, activate := none, jobStart := none, since := s.nowN })
  s.showImage.mountDeep { k with openBlock := false }

/-- ACTIVATION (R501): no job exists and FW_ACTIVATE has named a STAGED slot. The slot enters TRIAL; an image that fails R492 leaves the running one. -/
def State.activation (s : State) (k : BootCheck) : State :=
  match s.boot.activate with
  | none => s
  | some n =>
    if !s.fwMay || !s.jobNums.isEmpty then s
    else if (s.boot.slot n).st != 2 then s.setBoot (fun b => { b with activate := none })
    else if !(if n = 0 then k.imageA else k.imageB) then
      ((s.setBoot (fun b => { b with activate := none })).fwState n 5 2).fwSpend [(0x1101, none)]
    else
      let s := (s.runImage n k).fwState n 3 1
      (s.fwSpend [(0x1101, none)]).setReady s.mayServe

def execActivation (k : BootCheck) (s : State) : Host.Outcome State Fault Refusal := .next (s.activation k)

/-- The running image is in its trial. -/
def State.onTrial (s : State) : Bool := (s.boot.slot s.boot.running).st == 3

/-- Confirmation (R503, R504): the slot is CONFIRMED; an image with RAISE_FLOOR raises the floor, and the other slot fails below it. -/
def State.confirm (s : State) (edits : List (Nat × Option (List Byte))) : State :=
  let n := s.boot.running
  let f := s.boot.slot n
  let s := (s.fwState n 4 1).setBoot (fun b => { b with confirmed := n })
  let s :=
    if f.flags % 2 = 1 && s.boot.floor < f.svn then
      let s := (s.setBoot (fun b => { b with floor := f.svn })).fwRecord 0x305 n 0
      let m := otherSlot n
      if (s.boot.slot m).st != 0 && (s.boot.slot m).svn < f.svn then s.fwState m 5 3 else s
    else s
  s.fwSpend edits

/-- A committed FW_CONFIRM record. -/
def State.fwConfirm (s : State) : State :=
  match s.fwRequest 0x1102 with
  | none => s
  | some v =>
    if !s.fwMay then s
    else if v.length = 4 && getLE v 0 4 = s.boot.running && s.onTrial then s.confirm [(0x1102, none)]
    else s.fwSpend [(0x1102, none)]

def execFwConfirm (s : State) : Host.Outcome State Fault Refusal := .next s.fwConfirm

/-- TRIAL_AUTO_CONFIRM (R503): 600 s since a JOB_START that the trial image completed. -/
def State.autoConfirm (s : State) : State :=
  match s.boot.jobStart with
  | some t => if s.onTrial && s.fwMay && t + 14745600000 ≤ s.nowN then s.confirm [] else s
  | none => s

def execTrialAutoConfirm (s : State) : Host.Outcome State Fault Refusal := .next s.autoConfirm

/-- The trial slot fails with RESULT 0x08, and a record of code 0x302 is written. -/
def State.trialFails (s : State) (kind : Nat) : State := (s.fwState s.boot.running 5 8).fwRecord 0x302 s.boot.running kind

/-- The end of a trial (R503): every job is destroyed, the peers are told, and the CONFIRMED image is loaded as an activation. A commit caused by a fault takes
no credit. -/
def State.endTrial (s : State) (kind : Nat) (k : BootCheck) : State :=
  if !s.onTrial || s.life != .up then s
  else
    let s := (s.sendLoss.endJobs).trialFails kind
    let s := s.runImage s.boot.confirmed k
    (s.fwCommit []).setReady s.mayServe

def execTrialFailure (k : BootCheck) (s : State) : Host.Outcome State Fault Refusal := .next (s.endTrial 0 k)

/-! ### The boot flash (R505) and recovery (R495, R497) -/

/-- The slot holds an image. -/
def FwSlot.holds (f : FwSlot) : Bool := decide (2 ≤ f.st) && decide (f.st ≤ 4)

/-- One slot found failing: rewritten from an equal image in the other slot, or FAILED with RESULT 0x09. -/
def State.slotFails (s : State) (n : Nat) (okOther : Bool) : State :=
  let f := s.boot.slot n
  let g := s.boot.slot (otherSlot n)
  if !f.holds then s
  else if okOther && g.holds && g.svn == f.svn && g.version == f.version then (s.setFw n (fun f => { f with image := g.image })).fwRecord 0x308 n 1
  else ((s.fwState n 5 9).fwRecord 0x308 n 1).fwCommit []

/-- BOOT_FLASH_CHECK: whether slots A and B verify. -/
def execBootFlashCheck (okA okB : Bool) (s : State) : Host.Outcome State Fault Refusal :=
  .next (if s.life != .up then s
    else
      let s := if okA then s else s.slotFails 0 okB
      if okB then s else s.slotFails 1 okA)

/-- The ROM fills slot `n` from the image of a record, removes the record and restarts. -/
def State.recoverImage (s : State) (v : List Byte) (n : Nat) (k : BootCheck) : State :=
  let im := s.readPa (getLE v 0 8) (getLE v 8 4)
  let s := ((s.setFw n (fun _ => FwSlot.ofImage im)).fwState n 2 1).fwCommit [(0x1100, none)]
  s.warmState.showLoss.showContaining.letGo.bringUp k 4 false

/-- A staging record for slot `n` met in recovery: refused with its RESULT, or carried out. -/
def State.recoverRecord (s : State) (v : List Byte) (n : Nat) (k : BootCheck) : State :=
  if 2 ≤ n then s
  else match s.stageRefusal v n false with
  | some r => ((s.fwResult n r).fwRecord 0x303 n 0).fwCommit [(0x1100, none)]
  | none => s.recoverImage v n k

/-- RECOVERY_STAGE (R495): in recovery, a committed record 0x1100 with SLOT 0 or 1 makes the ROM stage the image and restart from it. -/
def State.recoveryStage (s : State) (k : BootCheck) : State :=
  match mget s.settings.records 0x1100 with
  | none => s
  | some v => if s.life == .recovery then s.recoverRecord v (getLE v 12 1) k else s

def execRecoveryStage (k : BootCheck) (s : State) : Host.Outcome State Fault Refusal := .next (s.recoveryStage k)

/-- READY_TIMEOUT (R497): 30 s after t = 0 the module is not READY. -/
def execReadyTimeout (k : BootCheck) (s : State) : Host.Outcome State Fault Refusal :=
  .next (if s.life == .boot && decide (s.boot.since + 737280000 ≤ s.nowN) then
      let s := s.loadSettings k.copyA k.copyB
      (s.fwRecord 0x307 s.boot.running 0).recovery k (BitVec.ofNat 32 (s.boot.slot s.boot.running).version)
    else s)

/-! ### Resets of control processors (R488, Tables 16-1 and 19-13) -/

/-- The scheduler core restarts: jobs are destroyed and every host channel is disabled; the outputs are tri-stated meanwhile, and egress stays stopped. -/
def State.schedulerReset (s : State) : State :=
  let s := (s.sendLoss.endJobs).letGo
  let s := s.setPreg .media 0x100 (wset (s.preg .media 0x100) 30)
  let s := { s with cores := s.cores.map (fun (e : Nat × CoreQ) => (e.1, { e.2 with prevJob := none })) }
  (s.redrive).fwRecord 0x304 s.boot.running 3

/-- A control processor of kind 0 security, 1 power management, 2 scheduler or 3 bay control core `n` resets through a fault of its own. -/
def State.processorReset (s : State) (kind n : Nat) (k : BootCheck) : State :=
  if s.life != .up then s
  else match kind with
    | 0 =>
      let s := if s.onTrial then (s.trialFails 1).fwCommit [] else s
      (s.warmReset 4 k).fwRecord 0x304 s.boot.running 1
    | 1 => if s.onTrial then (s.fwRecord 0x304 s.boot.running 2).endTrial 2 k else s.holdBegins.fwRecord 0x304 s.boot.running 2
    | 2 => if s.onTrial then (s.fwRecord 0x304 s.boot.running 3).endTrial 3 k else s.schedulerReset
    | 3 => (s.controlFails n 5).fwRecord 0x304 s.boot.running 4
    | _ => s

def execControlProcessorReset (kind n : Nat) (k : BootCheck) (s : State) : Host.Outcome State Fault Refusal := .next (s.processorReset kind n k)

end Sys2Proof.Machine
end

