-- ==== Sys2Proof/Machine/Faults.lean ====
section
/-!
DEFINITION. Detected faults, the drain, the replay, promotion, injected faults and the memory tiers' own errors (R40, R84, R242, R309, R540, R544,
R545, R551, R552, R555, R559, R561–R566).
-/

namespace Sys2Proof.Machine

open Sys2Proof

/-- The module announces its own loss and forms no pass until a warm module reset: after a third overrun, with a module table lost, or with a tier
withdrawn that the others cannot absorb (R242, R552, R561). -/
def State.announceLoss (s : State) : State :=
  let s := s.sendLoss
  (s.jobNums.foldl (fun s n =>
    match s.job n with
    | none => s
    | some j =>
      (s.modJob n (fun j => { j with lossWait := sinsert j.lossWait s.endpoint, episode := none })).dropPasses n
        ((j.named.map (fun (p : Pass) => p.seq)).getD j.nextSeq)) s).showLoss.showContaining.reschedule

/-! ### Detection (R544, Table 18-5) -/

/-- The job whose work holds a core's queue, else the cores. -/
def State.coreJob (s : State) (b l : Nat) : Option Nat := ((s.core b l).job).orElse (fun _ => s.holder.bind s.holderJob)

/-- A logical core of the bay is on a failed slot until the remap phase: the bay's spare, if it has one, is for that core (R40). -/
def State.remapDue (s : State) (b : Nat) : Bool :=
  (List.range 16).any (fun l => decide (s.slotOf b l ≤ 16) && s.slotState b (s.slotOf b l) == 2)

/-- An active slot fails: it is recorded as failed, and its logical core moves to the spare or its bay is withdrawn in the remap phase, at once on a
module with no job (R39, R40, R84, Table 18-8). -/
def State.coreFault (s : State) (b slot checker : Nat) : State :=
  if 16 ≤ b || 17 ≤ slot || s.slotState b slot != 1 then s
  else
    let p : Page := .core b slot
    let l := ((List.range 16).find? (fun l => s.slotOf b l == slot)).getD 0x1F
    let d := (s.core b l).q.headD []
    let spare := if s.remapDue b then none else s.spareSlot b
    let job := s.coreJob b l
    let s := s.failSlot b slot
    let s := s.contained p {
      code := if spare.isSome then 0x0001 else 0x0002, sev := 3, source := p.source b, key := hwKey b slot l (spare.getD 0x1F)
      detail := hwDetail (cTag d) (cOp d) checker (s.baysUp - b2n spare.isNone), job := job }
    if s.jobs.isEmpty then s.remap else s

/-- Ticks of 24 hours. -/
def dayCt : Nat := 2123366400000

/-- An uncorrectable scratchpad read: code 0x008 of the memory class; a second one in the slot within 24 h fails the slot (Table 18-10). -/
def State.scratchFault (s : State) (b slot line : Nat) : State :=
  if 16 ≤ b || 17 ≤ slot || s.slotState b slot != 1 then s
  else
    let p : Page := .core b slot
    let k := b * 17 + slot
    let again := match mget s.scratchErrs k with
      | some t => decide (s.nowN < t + dayCt)
      | none => false
    let l := ((List.range 16).find? (fun l => s.slotOf b l == slot)).getD 0x1F
    let job := s.coreJob b l
    let s := { s with scratchErrs := mset s.scratchErrs k s.nowN }
    let r : ErrRec := { code := 0x5008, sev := 3, source := p.source b, key := line % 2 ^ 41 * 128, detail := leBytes 1 3 ++ leBytes 1 b, job := job }
    if again then (s.report p r).coreFault b slot 1 else s.contained p r

/-- A line of the near tier, the main tier or bay memory that a read finds uncorrectable: it is poisoned, and read by pass or run work it is a contained
fault (R562); outside such work it is a notice (Table 18-2). -/
def State.lineFault (s : State) (line : Nat) : State :=
  let pa := line * 128
  match place s.isH pa with
  | .near _ | .main _ | .bay _ =>
    let s := s.setPoison line
    match s.holder.bind s.holderJob with
    | some j => s.unitPoison j pa 0
    | none => s.report ((memPage s.isH pa).getD .migrate) { code := 0x5002, sev := 1, key := lineKey pa, detail := memDetail s.isH pa 0 }
  | _ => s

/-- The job address of a page's line, where a job maps it. -/
def State.vaOfLine (s : State) (line : Nat) : Nat :=
  match s.holders (line * 128 / 65536) with
  | (_, vp) :: _ => vp * 65536 + line * 128 % 65536
  | [] => 0

/-- A corrected ECC error of a scratchpad, bay memory or a DRAM tier, met outside scrub: counted in its block where the block has a count, and recorded under
code 0x001 of the memory class (R561, Table 18-10). -/
def State.lineCorrected (s : State) (line : Nat) : State :=
  let pa := line * 128
  let r := fun (p : Page) (u va : Nat) =>
    ({ code := 0x5001, sev := 0, source := p.source u, key := lineKey pa, detail := memDetail s.isH pa va } : ErrRec)
  match place s.isH pa with
  | .near d => (s.count (.near d) 0x110 1).report (.near d) (r (.near d) 0 (s.vaOfLine line))
  | .main st => (s.count (.main st) 0x110 1).report (.main st) (r (.main st) 0 (s.vaOfLine line))
  | .bay b => s.report (.bay b) (r (.bay b) 0 0)
  | .scratch b x => s.report (.core b x) (r (.core b x) b 0)
  | _ => s

/-- A module table's entry is corrected, or reloaded from its shadow: code 0x007 of the memory class (Table 18-10). -/
def State.tableCorrected (s : State) (line : Nat) : State :=
  s.report .errlog { code := 0x5007, sev := 0, key := line % 2 ^ 41 * 128, detail := leBytes 1 4 }

/-- CONTAINED_FAULT_DETECTION: a hardware checker reports. `kind` 0: a core fault of a slot, 1: an uncorrectable scratchpad read at a module line,
2: an uncorrectable line, 3: both copies of a module table lost, which is module loss; and, since the table has no other command for them, 4: a corrected
error of a line, 5: a module table's entry corrected (log 274). -/
def State.faultDetected (s : State) (kind b slot checker line : Nat) : State :=
  match kind with
  | 0 => s.coreFault b slot checker
  | 1 => s.scratchFault b slot line
  | 2 => s.lineFault line
  | 3 => s.announceLoss
  | 4 => s.lineCorrected line
  | 5 => s.tableCorrected line
  | _ => s

def execContainedFaultDetection (kind bay slot checker line : Nat) (s : State) : Host.Outcome State Fault Refusal :=
  .next (s.faultDetected kind bay slot checker line)

/-- SPARE_SLOT_FAILURE (R555): a spare fails while unmapped. -/
def State.spareFails (s : State) (b slot : Nat) : State :=
  if 16 ≤ b || 17 ≤ slot || s.slotState b slot != 0 then s
  else
    let s := s.failSlot b slot
    let p : Page := .core b slot
    s.report p { code := 0x000B, sev := 0, source := p.source b, key := hwKey b slot 0x1F 0x1F, detail := hwDetail 0 0 0 s.baysUp }

def execSpareSlotFailure (bay slot : Nat) (s : State) : Host.Outcome State Fault Refusal := .next (s.spareFails bay slot)

/-! ### The drain (R545, R387–R389, R208, R362, R563) -/

/-- Writes and increments of a job that have left and are not answered yet. -/
def State.unanswered (s : State) (n : Nat) : List Req := s.reqs.filter (fun r => r.job == n && r.sent && r.pkt.typ != tLineRead)

/-- The pass an episode names. -/
def Job.episodePass (j : Job) : Option Pass :=
  match j.episode with
  | some e => (j.executing.filter (fun (p : Pass) => p.seq == e.seq)).orElse (fun _ => j.formed.filter (fun (p : Pass) => p.seq == e.seq))
  | none => none

/-- Pegs go back to their recorded bases: the expert pegs, and BARRIER_PEG unless an earlier pass is still to commit. FORM_PEG keeps its value, since no
formation exchange is repeated (R207, R208, R359, R362). -/
def State.restorePegs (s : State) (n : Nat) : State :=
  match s.job n with
  | none => s
  | some j =>
    match j.episodePass with
    | none => j.pegBase.foldl (fun s (e : Nat × Nat) => s.setPeg e.1 e.2) s
    | some p =>
      let s := p.pegBases.foldl (fun s (e : Nat × Nat) => s.setPeg e.1 e.2) s
      if j.executing.any (fun (x : Pass) => x.seq != p.seq) then s else s.setPeg j.barrierPeg p.barrierBase

/-- The drain of one job is complete: pegs restored, failure flags cleared, and a JOIN that waited answered. -/
def State.drainJob (s : State) (n : Nat) : State :=
  let s := s.restorePegs n
  let s := s.modJob n (fun j => { j with failed := [], episode := j.episode.map (fun e => { e with drained := true }) })
  let s := s.putPreg .window 0x124 n n 0
  match (s.job n).bind (fun (j : Job) => j.joinHeld) with
  | some (e, t) => s.answerJoin n e t
  | none => s

/-- Jobs in an episode whose drain may end now. -/
def State.drainable (s : State) : List Nat :=
  s.jobNums.filter (fun n => match s.job n with
    | some j => j.draining && (s.unanswered n).isEmpty
    | none => false)

/-- DRAIN_COMPLETE: every write past egress of a halted job is answered or its destination lost. Spares are mapped, poisoned lines repaired and failed
copies reloaded. A job that the teardown reached with no pass to discard loses its failure flags too (R388). -/
def State.drainComplete (s : State) : State :=
  let ns := s.drainable
  let local_ := s.faultCt.isSome && s.jobNums.all (fun n => ns.contains n || !((s.job n).map Job.draining).getD false)
  if ns.isEmpty && !local_ then s
  else
    let s := ns.foldl State.drainJob s
    let s := if local_ then
        let s := s.jobNums.foldl (fun s n => (s.modJob n (fun j => { j with failed := [] })).putPreg .window 0x124 n n 0) s
        { s.remap with faultCt := none }
      else s
    (s.repairAll).reloadCopies

def execDrainComplete (s : State) : Host.Outcome State Fault Refusal := .next s.drainComplete

/-! ### The replay (R550–R553) -/

/-- R of an episode. -/
def Episode.replayAt (e : Episode) : Nat := e.e + 13824

/-- An overrun is waiting when every write still unanswered goes to a destination silent since the episode's E. -/
def State.waitingOverrun (s : State) (n e : Nat) : Bool :=
  !(s.unanswered n).isEmpty && (s.unanswered n).all (fun r => match mget s.heard r.pkt.dst with
    | some t => decide (t < e)
    | none => true)

/-- Drain or remap is not complete at R: a HALT with code 0x006 that opens a new episode, or, for a third local overrun in a row, the module's loss. -/
def State.overrun (s : State) (n : Nat) (ep : Episode) : State :=
  let wait := s.waitingOverrun n ep.e
  if !wait && 2 ≤ ep.localOverruns then s.announceLoss
  else
    let r := ep.replayAt
    let s := s.report .errlog { code := 0x0006, sev := 3, key := s.endpoint, job := some n, pass := some ep.seq, halt := s.haltGoes }
    let s := s.episodeLine n ep.seq r false
    let s := s.modJob n (fun j => { j with episode := j.episode.map (fun e => { e with localOverruns := if wait then e.localOverruns else e.localOverruns + 1 }) })
    match s.job n with
    | none => s
    | some j =>
      let lab := (j.episodePass.map (fun (p : Pass) => p.label)).getD 0
      let att := (j.episode.map (fun e => e.attempt)).getD 1
      s.sendContain n (fun j => containLine 1 false j.myMember 0x0006 (min 3 (max 1 att)) (some (ep.seq, lab)) r s.endpoint)

/-- The replay of one job: at the later of R and the start tick the pass would have had. A pass that had not begun starts by PASS_START. -/
def State.replayJob (s : State) (n : Nat) : State :=
  match s.job n with
  | none => s
  | some j =>
    match j.episode with
    | none => s
    | some ep =>
      if !j.lossWait.isEmpty || j.suspended || s.nowN < ep.replayAt then s
      else if !ep.drained || s.faultCt.isSome then s.overrun n ep
      else match j.executing with
        | some p =>
          if p.seq == ep.seq then
            if s.nowN < p.start.getD 0 then s
            else (((s.setJob n { j with executing := some { p with begun := true }, episode := none }).clearBay n).count .errlog 0x12C 1).showContaining
          else ((s.setJob n { j with episode := none }).count .errlog 0x12C 1).showContaining
        | none => ((s.setJob n { j with episode := none }).count .errlog 0x12C 1).showContaining

/-- REPLAY_LAUNCH (R551). -/
def execReplayLaunch (s : State) : Host.Outcome State Fault Refusal := .next (s.jobNums.foldl State.replayJob s).reschedule

/-! ### Promotion (R308, R558, R559) -/

/-- Map the ranges of a private part of a slot's image; none when one does not fit (R223, R308). -/
def State.mapPart (s : State) (n slot part : Nat) (m : List Byte) : List RangeRec → Option State
  | [] => some s
  | r :: rs =>
    if !s.classFits r.cls r.pages then none
    else (s.mapWeight n r.cls r.aff (slotPage slot ((manPart m part).first + r.partPage) / 65536) (r.va / 65536) r.pages).mapPart n slot part m rs

/-- The placement bank that an entry names for a role: its ENDPOINT of entry MY_SOURCE. -/
def State.roleEndpoint (s : State) (n va : Nat) : Option Nat :=
  match s.readVa n va 2176 with
  | .ok hd => some (getLE hd (128 + 2 * getLE hd 6 2) 2)
  | _ => none

/-- PROMOTE. The bank is one of the job's two (log 120). -/
def State.promoteEntry (s : State) (e : Entry) : State :=
  let n := e.jobNum
  match s.job n with
  | none => s.complete e stJob
  | some j =>
    let k := e.f 16 1
    let part := e.f 17 1
    let va := e.f 24 8
    if j.phase != .serving || !j.standby || j.promoting.isSome then s.complete e stJob
    else if 1 < k then s.complete e stInvalid 16
    else
      let m := s.slotManifest k
      let mine := (manRanges m).filter (fun r => r.part == part && r.kind != 3)
      if (s.gslot k).st != 2 || manTag m != manTag j.manifest then s.complete e stSlot
      else if secCount m 1 ≤ part || (manPart m part).kind != 1 then s.complete e stInvalid 17
      else match reservedBad e.bytes [(18, 6)] with
        | some o => s.complete e stInvalid o
        | none =>
          if va != j.bankVa 0 && va != j.bankVa 1 then s.complete e stInvalid 24
          else match reservedBad e.bytes [(32, 32)] with
            | some o => s.complete e stInvalid o
            | none => match s.roleEndpoint n va with
              | none => s.complete e stInvalid 24
              | some ep =>
                match s.bankBad n j va ep, j.memberList.findIdx? (· == ep) with
                | some o, _ => s.complete e stInvalid o
                | none, none => s.complete e stInvalid 6
                | none, some i =>
                  if mine.any (fun r => !(s.mapped n (r.va / 65536) r.pages).isEmpty) then s.complete e stInvalid 17
                  else match s.mapPart n k part m mine with
                    | none => s.complete e stRoom
                    | some s =>
                      let role := (manPart m part).role
                      let own := ((List.range (secCount j.manifest 1)).find? (fun x => (manPart j.manifest x).role == role)).getD part
                      let x : Promote := {
                        ring := e.ring, cookie := e.cookie, priv := own, bank := if va = j.bankVa 0 then 0 else 1
                        ranges := mine.map (fun r => (r.va / 65536, r.pages)) }
                      let s := s.setPreg .route 0x104 (BitVec.ofNat 32 (2 ^ 31 + ep % 1024))
                      (s.modJob n (fun j => { j with myMember := i, promoting := some x })).showFree

def execPromote (r : Ring) (s : State) : Host.Outcome State Fault Refusal := .next (s.onEntry r 0x53 State.promoteEntry)

/-- Every page of the part that must lie in DRAM does. -/
def State.partResident (s : State) (n : Nat) (x : Promote) : Bool :=
  x.ranges.all (fun g => s.mapReady ⟨x.ring, x.cookie, n, g.1, g.2⟩)

/-- A promotion is complete: PROMOTED, record 0x00C, and a JOIN to every other member at tick J. -/
def State.promoted (s : State) (n : Nat) : State :=
  match s.job n with
  | none => s
  | some j =>
    match j.promoting with
    | none => s
    | some x =>
      if !s.partResident n x then s
      else
        let t := s.nowN
        let s := s.setJob n { j with
          promoted := true, promoting := none, priv := some x.priv, placement := { j.placement with active := x.bank }, syncFrom := some t }
        let s := (s.showBank n).completeLater x.ring 0x53 x.cookie stPromoted
        let s := s.report .errlog { code := 0x000C, sev := 1, key := s.endpoint, job := some n }
        s.sendContain n (fun j => containLine 3 false j.myMember 0 0 none t s.endpoint)

/-- PROMOTED (R559). -/
def execPromoted (s : State) : Host.Outcome State Fault Refusal := .next (s.jobNums.foldl State.promoted s)

/-- FETCH_SOURCE_TIMEOUT (R309): the source of the fetch (kind 0), of weight load `id` (1) or of the promotion of job `id` (2) has been unreachable or
erroring for 10 s. A promotion that fails leaves nothing of its part mapped. -/
def State.sourceTimeout (s : State) (kind id : Nat) : State :=
  match kind with
  | 0 => match s.fetch with
    | some f => s.fetchFails f stFailedSource
    | none => s
  | 1 => match s.loads[id]? with
    | some w => s.loadEnd w stFailedSource
    | none => s
  | 2 => match s.job id with
    | some j => match j.promoting with
      | some x =>
        let s := x.ranges.foldl (fun s g => (s.mapped id g.1 g.2).foldl (fun s vp => s.unmapPage id vp) s) s
        ((s.modJob id (fun j => { j with promoting := none })).showFree).completeLater x.ring 0x53 x.cookie stFailedSource
      | none => s
    | none => s
  | _ => s

def execFetchSourceTimeout (kind id : Nat) (s : State) : Host.Outcome State Fault Refusal := .next (s.sourceTimeout kind id)

/-! ### The error log's own commands (R540, R566) -/

/-- ERRLOG_RELEASE: the slot's fatal record may be overwritten. -/
def State.releaseRecord (s : State) (slot : Nat) : State :=
  if s.fatalSlots.contains slot then
    let s := { s with fatalSlots := s.fatalSlots.filter (fun x => x != slot) }
    s.setPreg .errlog 0x100 (wclear (wput (s.preg .errlog 0x100) 16 0 s.fatalSlots.length) 19)
  else s

def execErrlogRelease (v : Word) (s : State) : Host.Outcome State Fault Refusal := .next (s.releaseRecord (wfield v 15 0))

/-- ERRLOG_INJECT with CONTAIN = 0. -/
def State.injectRecord (s : State) (code : Nat) : State := s.report .errlog { code := code % 65536, sev := 1 }

def execErrlogInjectRecord (v : Word) (s : State) : Host.Outcome State Fault Refusal :=
  .next (if wbit v 31 then s else s.injectRecord (wfield v 15 0))

/-- ERRLOG_INJECT with CONTAIN = 1: a contained fault with no culprit. -/
def State.injectContain (s : State) : State := s.contained .errlog { code := 0x000A, sev := 3 } false

def execErrlogInjectContain (v : Word) (s : State) : Host.Outcome State Fault Refusal := .next (if wbit v 31 then s.injectContain else s)

/-! ### The memory tiers' own errors (R242, R561, R564) -/

/-- Pages of the tiers that are withdrawn. -/
def State.gonePages (s : State) : Nat := sumOver s.goneTiers tierPages

/-- A tier is withdrawn until power-up. -/
def State.withdrawTier (s : State) (t : Nat) : State :=
  let s := { s with trainQueue := s.trainQueue.filter (fun e => e.1 != t), goneTiers := sinsert s.goneTiers t }
  (s.setTierState t 4).showFree

/-- A tier that holds no page leaves evacuation: it trains, or is withdrawn until power-up. A withdrawal that R224's room of one stack cannot absorb is module
loss: more is withdrawn than that room, or pages are left that no move can take away (R242, log 69). -/
def State.evacuated (s : State) (t : Nat) : State :=
  let out := s.trainQueue.any (fun e => e.1 == t && e.2)
  if 10 ≤ t || s.tierState t != 2 then s
  else if s.tierUsed t != 0 then
    (if out && !s.moves.any (fun m => m.kind == .evacuate && (m.started || (s.startMove m).isSome)) then s.announceLoss else s)
  else if out then
    let s := s.withdrawTier t
    (if 786432 < s.gonePages then s.announceLoss else s).nextTraining
  else s.setTierState t 3

def execEvacuationComplete (tier : Nat) (s : State) : Host.Outcome State Fault Refusal := .next (s.evacuated tier)

/-- SCRUB_READ: a line of a DRAM tier, served by its controller (Table 07-12), reads clean (`found` 0), corrected (1) or uncorrectable (2). -/
def State.scrub (s : State) (line found : Nat) : State :=
  let pa := line * 128
  match memPage s.isH pa with
  | none => s
  | some p =>
    let rec_ : ErrRec := { code := 0x5001, sev := 0, key := lineKey pa, detail := memDetail s.isH pa (s.vaOfLine line) }
    let s := s.served pa 128
    match found with
    | 1 => (s.count p 0x110 1).report p rec_
    | 2 => { s.setPoison line with scrubbed := sinsert s.scrubbed line }.report p { rec_ with code := 0x5002, sev := 1 }
    | _ => s

def execScrubRead (line found : Nat) (s : State) : Host.Outcome State Fault Refusal := .next (s.scrub line found)

end Sys2Proof.Machine
end

