-- ==== Sys2Proof/Machine/Ether.lean ====
section
/-!
DEFINITION. Frames received on the Ethernet ports: classes, and the answers to ARP, Neighbour Solicitation and echo (R10, R323–R326, R347, R521). The frame
formats are those of IEEE 802.3 and 802.1Q and of the Internet standards (PRESUMED, log 121).
-/

namespace Sys2Proof.Machine

open Sys2Proof

/-- An IPv4 packet without fragmentation, its header checksum right. -/
def ipv4 (b : List Byte) : Option IpPkt :=
  let h := getLE b 0 1 % 16 * 4
  let n := getBE b 2 2
  if getLE b 0 1 / 16 != 4 || h < 20 || n < h || b.length < n || inetSum (slice b 0 h) != 65535 || getBE b 6 2 % 16384 != 0 then none
  else some ⟨true, v4Prefix ++ slice b 12 4, v4Prefix ++ slice b 16 4, getLE b 9 1, slice b h (n - h), getLE b 8 1⟩

/-- An IPv6 packet without extension headers. -/
def ipv6 (b : List Byte) : Option IpPkt :=
  let n := getBE b 4 2
  if getLE b 0 1 / 16 != 6 || b.length < 40 + n then none
  else some ⟨false, slice b 8 16, slice b 24 16, getLE b 6 1, slice b 40 n, getLE b 7 1⟩

/-- The UDP checksum holds; zero is legal over neither family (R326). -/
def udpOk (p : IpPkt) : Bool := decide (8 ≤ p.body.length) && getBE p.body 4 2 == p.body.length && getBE p.body 6 2 != 0 && transportSum p == 65535

/-! ### Answers -/

/-- An echo may be answered: no more than 100 in a second on a port. -/
def State.echoRoom (s : State) (port : Nat) : Option State :=
  match mget s.echoes port with
  | some (t, n) =>
    if t + 24576000 ≤ s.nowN then some { s with echoes := mset s.echoes port (s.nowN, 1) }
    else if n < 100 then some { s with echoes := mset s.echoes port (t, n + 1) }
    else none
  | none => some { s with echoes := mset s.echoes port (s.nowN, 1) }

/-- ARP over Ethernet: a request for an own address is answered; its sender is remembered. -/
def State.arp (s : State) (port : Nat) (b : List Byte) : State :=
  let sha := slice b 8 6
  let spa := slice b 14 4
  let tpa := slice b 24 4
  let own := (s.ownAddrs port).contains (v4Prefix ++ tpa)
  if b.length < 28 || getBE b 0 2 != 1 || getBE b 2 2 != 0x0800 || getBE b 4 2 != 0x0604 || !own then s.ethDrop port
  else
    let s := s.learn port (v4Prefix ++ spa) sha
    if getBE b 6 2 = 1 then
      s.sendEth port sha 0x0806 (beBytes 2 1 ++ beBytes 2 0x0800 ++ beBytes 2 0x0604 ++ beBytes 2 2 ++ s.portMac port ++ tpa ++ sha ++ spa)
    else s

/-- ICMP echo. -/
def State.echo4 (s : State) (port : Nat) (mac : List Byte) (p : IpPkt) : State :=
  if getLE p.body 0 1 != 8 || getLE p.body 1 1 != 0 || p.body.length < 8 || inetSum p.body != 65535 then s.ethDrop port
  else match s.echoRoom port with
    | none => s.ethDrop port
    | some s =>
      let m0 := [0, 0, 0, 0] ++ p.body.drop 4
      let m := [0, 0] ++ beBytes 2 (inetCheck m0) ++ p.body.drop 4
      let h := fun (c : Nat) => [0x45, 0] ++ beBytes 2 (20 + m.length) ++ [0, 0, 0, 0] ++ [64, 1] ++ beBytes 2 c ++ p.dst.drop 12 ++ p.src.drop 12
      s.sendEth port mac 0x0800 (h (inetCheck (h 0)) ++ m)

/-- An ICMPv6 message sent from `src` to `dst`. -/
def State.sendIcmp6 (s : State) (port : Nat) (mac src dst body : List Byte) (hop : Nat) : State :=
  let m := fun (c : Nat) => slice body 0 2 ++ beBytes 2 c ++ body.drop 4
  let c := 65535 - transportSum ⟨false, src, dst, 58, m 0, hop⟩
  s.sendEth port mac 0x86DD (beBytes 4 0x60000000 ++ beBytes 2 body.length ++ [58, BitVec.ofNat 8 hop] ++ src ++ dst ++ m c)

/-- ICMPv6: echo, Neighbour Solicitation for an own address, and Neighbour Advertisement. -/
def State.icmp6 (s : State) (port : Nat) (mac : List Byte) (p : IpPkt) : State :=
  let own := s.ownAddrs port
  let target := slice p.body 8 16
  if transportSum p != 65535 then s.ethDrop port
  else match getLE p.body 0 1 with
  | 128 =>
    if !own.contains p.dst || p.body.length < 8 then s.ethDrop port
    else match s.echoRoom port with
      | none => s.ethDrop port
      | some s => s.sendIcmp6 port mac p.dst p.src ([129, 0, 0, 0] ++ p.body.drop 4) 64
  | 135 =>
    if p.hop != 255 || p.body.length < 24 || !own.contains target then s.ethDrop port
    else (s.learn port p.src mac).sendIcmp6 port mac target p.src
      ([136, 0, 0, 0] ++ [0x60, 0, 0, 0] ++ target ++ [2, 1] ++ s.portMac port) 255
  | 136 => if p.hop != 255 || p.body.length < 24 then s.ethDrop port else s.learn port target mac
  | _ => s.ethDrop port

/-! ### Classes (Table 10-3) -/

/-- A UDP datagram. -/
def State.udp (s : State) (port : Nat) (p : IpPkt) : State :=
  let dport := getBE p.body 2 2
  let cfg := s.preg (.eth port) 0x108
  if !udpOk p then s.ethDrop port
  else if dport = 319 || dport = 320 then s
  else if !(s.ownAddrs port).contains p.dst then s.ethDrop port
  else if dport = wfield cfg 15 0 then s.audioFrame port p.src (getBE p.body 0 2) (p.body.drop 8)
  else if dport = wfield cfg 31 16 && s.mgmtPeer port p.src then
    let m := p.body.drop 8
    let x : MgmtIn := { addr := p.src, sport := getBE p.body 0 2, msg := m }
    if mgmtOk 1 m then s.capSet port x else if mgmtOk 3 m then s.telemReq port x else s.ethDrop port
  else s.ethDrop port

/-- A fetch over Ethernet is in progress: its connections take TCP segments. -/
def State.fetchesTcp (s : State) : Bool :=
  match s.fetch with
  | some f => f.source == 2 || (f.source == 4 && f.gap)
  | none => false

def State.ip (s : State) (port : Nat) (mac : List Byte) (p : IpPkt) : State :=
  if p.proto = 17 then s.udp port p
  else if p.proto = 58 && !p.v4 then s.icmp6 port mac p
  else if !(s.ownAddrs port).contains p.dst then s.ethDrop port
  else if p.proto = 6 then (if s.fetchesTcp then s else s.ethDrop port)
  else if p.proto = 1 && p.v4 then s.echo4 port mac p
  else s.ethDrop port

/-- What follows the source address, the tag taken off: none where the tag is not as ETH_CFG asks. -/
def State.untag (s : State) (port : Nat) (f : List Byte) : Option (List Byte) :=
  let cfg := s.preg (.eth port) 0x104
  let tagged := getBE f 12 2 == 0x8100
  if wbit cfg 14 then (if tagged && getBE f 14 2 % 4096 == wfield cfg 27 16 then some (f.drop 16) else none)
  else if tagged then none else some (f.drop 12)

/-- ETH_FRAME_RECEIVE: a whole frame without its FCS, which was right; a port that is off or quiesced takes none. A PTP frame goes to the cadence, whose measurement is an event of its own. -/
def State.ethFrame (s : State) (port : Nat) (f : List Byte) : State :=
  if 2 ≤ port || s.life != .up || !wbit (s.preg (.eth port) 0x100) 0 || !s.ethOn port then s
  else
    let s := s.count64 (.eth port) 0x1C0 0x1C4 1
    let mac := slice f 6 6
    if f.length < 14 then s.ethDrop port
    else if getBE f 12 2 = 0x8808 then s.count (.eth port) 0x1D4 1
    else if slice f 0 6 != s.portMac port && getLE f 0 1 % 2 = 0 then s.ethDrop port
    else match s.untag port f with
      | none => s.ethDrop port
      | some r =>
        let body := r.drop 2
        if wfield (s.preg (.eth port) 0x104) 13 0 < body.length then s.ethDrop port
        else match getBE r 0 2 with
          | 0x88F7 => s
          | 0x0806 => s.arp port body
          | 0x0800 => match ipv4 body with
            | some p => s.ip port mac p
            | none => s.ethDrop port
          | 0x86DD => match ipv6 body with
            | some p => s.ip port mac p
            | none => s.ethDrop port
          | _ => s.ethDrop port

def execEthFrameReceive (port : Nat) (frame : List Byte) (s : State) : Host.Outcome State Fault Refusal := .next (s.ethFrame port frame)

end Sys2Proof.Machine
end

