-- ==== Sys2Proof/Machine/RegFile.lean ====
section
/-!
DEFINITION. Host accesses through the two BARs: REGISTER_WRITE, REGISTER_READ and BAR2_ACCESS (R14–R17, R460–R466, R477, R529, R539, R562).
A register whose write is a command of its own acts here by that command's operation.
-/

namespace Sys2Proof.Machine

open Sys2Proof

/-! ### Which accesses are served -/

/-- The function answers: the module is powered and out of reset, and the link is up (R460, R571). -/
def State.answers (s : State) : Bool := s.life != .held && s.life != .down && s.pcie.linkUp

/-- In recovery the CHIP, HOST and SETTINGS pages alone are served (R495), beside the function's own MSI-X table. -/
def State.serves (s : State) (off : Nat) : Bool :=
  s.life != .recovery || (match Page.ofOffset off with
    | some (.chip, _) => true
    | some (.host, _) => true
    | some (.settings, _) => true
    | some _ => false
    | none => match Region.ofOffset off with
      | some (.msixTable _ _) => true
      | _ => false)

/-- An offset of BAR0 that a 32-bit aligned access may name (R16, R461). -/
def barOffset (off : Nat) : Bool := decide (off < 0x4000000) && off % 4 == 0

/-- The bay whose gating a page follows (R529). -/
def Page.gateBay : Page → Option Nat
  | .bay b => some b
  | .scribe b => some b
  | .dovetail b => some b
  | .baydma b => some b
  | .core b _ => some b
  | _ => none

/-- The page belongs to a bay that is gated. -/
def State.pageGated (s : State) (p : Page) : Bool :=
  match p.gateBay with
  | some b => s.gated b
  | none => false

/-! ### Header writes (R464–R466) -/

/-- A page holds staged writes of the open transaction (R480). -/
def State.holdsStaged (s : State) (p : Page) : Bool :=
  (p == .settings && !s.settings.txnStaged.isEmpty) ||
  s.txn.staged.any (fun e => match txMask e.1 with
    | some (q, _) => q == p
    | none => false)

/-- BLK_STAT of an ETH page follows its ENABLE and QUIESCE bits (R31, Table 15-3). A port takes no new frame from then on; it holds none between commands, each
frame leaving or coming in within one, and owes no credit: so QUIESCED shows at once. -/
def State.showCtrl (s : State) (p : Page) : State :=
  match p with
  | .eth _ =>
    let c := s.preg p 0x008
    let on := wbit c 0
    let quiet := on && wbit c 1
    let w := wassign (wassign (s.preg p 0x00C) 0 on) 1 quiet
    s.setPreg p 0x00C (wput w 7 4 (if !on then 0 else if quiet then 4 else 2))
  | _ => s

/-- A write of BLK_CTRL: bits that the host does not own keep their values; on some pages an attempt to change ENABLE or QUIESCE sets UNMAPPED.
Clearing TXN_MEMBER while the page holds staged writes is ignored and sets BLK_STAT.ERROR (R480). -/
def State.ctrlWrite (s : State) (p : Page) (v : Word) : State :=
  let old := s.preg p 0x008
  let m := p.ctrlMask
  let new := (old &&& ~~~m) ||| (v &&& m)
  let s := if p.ctrlUnmaps && wfield v 1 0 != wfield old 1 0 then s.unmapped else s
  if wbit old 2 && !wbit new 2 && s.holdsStaged p then s.refuseReg p (p.base + 0x008) v
  else (s.setPreg p 0x008 new).showCtrl p

/-- A write of BLK_IRQ_RAW: each 1 clears that bit; ERROR arms the page again (R465). -/
def State.rawIrqWrite (s : State) (p : Page) (v : Word) : State :=
  let s := if wbit v p.errorBit then s.rearm p else s
  s.setIrq p (s.preg p 0x010 &&& ~~~v) (s.preg p 0x014)

/-- A write of BLK_IRQ_VEC: CADENCE's is RW and takes any vector, PWR's reads 144 whatever is written (R466, R322, R534, R566; log 237). -/
def State.vecWrite (s : State) (p : Page) (v : Word) : State :=
  let n := wfield v 10 0
  match p with
  | .pwr => s
  | .cadence => s.setPreg p 0x01C (BitVec.ofNat 32 n)
  | .errlog => if 128 ≤ n && n ≤ 143 then s.setPreg p 0x01C (BitVec.ofNat 32 n) else s
  | _ => if 176 ≤ n then s.setPreg p 0x01C (BitVec.ofNat 32 n) else s.refuseReg p (p.base + 0x01C) v

/-- A write to a header register. -/
def State.headerWrite (s : State) (p : Page) (r : Nat) (v : Word) : State :=
  match r with
  | 0x008 => s.ctrlWrite p v
  | 0x010 => s.rawIrqWrite p v
  | 0x014 => s.setIrq p (s.preg p 0x010) (v &&& maskBits (p.irqBits - 1) 0)
  | 0x018 => s.forceIrq p v
  | 0x01C => s.vecWrite p v
  | 0x02C => s.setPreg p 0x02C (v &&& 0xFFFF)
  | _ => s

/-! ### Block registers -/

/-- A write by access code: RW bits take the value, W1C bits clear where it is 1, TX bits are staged or checked, the rest ignore it (R15). -/
def State.plainWrite (s : State) (p : Page) (row : RegRow) (v : Word) : State :=
  if row.tx != 0 then s.txWrite (p.base + row.off) v
  else
    let old := s.preg p row.off
    s.setPreg p row.off ((old &&& ~~~row.rw &&& ~~~(v &&& row.w1c)) ||| (v &&& row.rw))

/-- TXN_CTRL (R486): other values are ignored. -/
def State.txnCtrl (s : State) (v : Word) : State :=
  match wfield v 3 0 with
  | 1 => s.txnBegin
  | 2 => s.txnCommit
  | 3 => if s.txnState = 1 || (s.txnState = 3 && s.nowN < s.txnInstant) then s.rollBack 2 else s
  | _ => s

/-- SETTINGS_CMD (Table 08-23). -/
def State.settingsCtrl (s : State) (v : Word) : State :=
  match wfield v 3 0 with
  | 1 => s.settingsRead
  | 2 => s.settingsStage
  | 3 => s.settingsDelete
  | 4 => s.settingsCommit
  | 5 => s.settingsDiscard
  | _ => s

/-- A write to a register of host channel `n` (R434–R436, R450, R457). -/
def State.hdmaWrite (s : State) (n o : Nat) (row : RegRow) (v : Word) : State :=
  match o with
  | 0x00 => s.hdmaCfg n (v &&& row.rw)
  | 0x04 => s.hdmaCtrl n v
  | 0x0C => s.setHReg n 0x0C (s.hReg n 0x0C &&& ~~~v)
  | 0x10 =>
    let x := s.hReg n 0x0C
    let old := s.hReg n 0x10
    let new := v &&& row.rw
    let s := s.setHReg n 0x10 new
    (List.range 3).foldl (fun s i => if wbit x i && wbit new i && !wbit old i then s.raise (64 + n) else s) s
  | 0x14 => s.hdmaTail n v
  | _ => s.plainWrite .hdma row v

/-- Training requests of a memory controller: bit 0 a margin check, bit 1 a retraining (R241, R242). -/
def State.trainWrite (s : State) (t : Nat) (v : Word) : State :=
  let s := if wbit v 0 then s.marginReq t else s
  if wbit v 1 then s.retrain t false else s

/-- LINK_TRAIN_REQ (R414–R417). -/
def State.linkWrite (s : State) (n : Nat) (v : Word) : State :=
  let s := if wbit v 2 then s.beginTest n else s
  let s := if wbit v 1 then s.linkRetrain n else s
  if wbit v 0 then s.adaptReq n else s

/-- A ring base of the admin rings stands while they are in use (R485). -/
def State.ringBaseWrite (s : State) (r : Nat) (row : RegRow) (v : Word) : State :=
  if wbit (s.preg .host 0x108) 31 then s.refuseReg .host (Page.host.base + r) v else s.plainWrite .host row v

/-- A write to a block-specific register. `k` is what a boot would find, used when the write starts a warm module reset. -/
def State.blockWrite (s : State) (p : Page) (r : Nat) (row : RegRow) (v : Word) (k : BootCheck) : State :=
  match p, r with
  | .chip, 0x108 => s.holdWrite v
  | .chip, 0x10C => if v == 0x0000A501 then s.warmReset 1 k else s
  | .chip, 0x114 => s.ringSel v
  | .txn, 0x100 => s.txnCtrl v
  | .txn, 0x118 =>
    let n := wfield v 15 0
    if 1 ≤ n && n ≤ 60000 then s.setPreg .txn 0x118 (BitVec.ofNat 32 n) else s
  | .cadence, 0x120 => s.cadenceLoad false v
  | .cadence, 0x124 => s.cadenceLoad true v
  | .pwr, 0x118 => s.pwrGate v
  | .errlog, 0x110 => s.releaseRecord (wfield v 15 0)
  | .errlog, 0x134 => if wbit v 31 then s.injectContain else s.injectRecord (wfield v 15 0)
  | .settings, 0x10C => s.settingsCtrl v
  | .host, 0x100 => s.ringBaseWrite 0x100 row v
  | .host, 0x104 => s.ringBaseWrite 0x104 row v
  | .host, 0x108 => s.acfgWrite v
  | .host, 0x10C => s.asqTail v
  | .host, 0x114 => s.acqArm v
  | .host, 0x118 => s.ringBaseWrite 0x118 row v
  | .host, 0x11C => s.ringBaseWrite 0x11C row v
  | .host, 0x120 =>
    let n := wfield v 8 0
    if 64 ≤ n && n ≤ 447 then s.setPreg .host 0x120 (BitVec.ofNat 32 n) else s.refuseReg .host (Page.host.base + 0x120) v
  | .bay b, 0x150 => s.rrcInvalidate b (wfield v 7 0)
  | .main t, 0x10C => s.trainWrite t v
  | .near d, 0x10C => s.trainWrite (8 + d) v
  | .link n, 0x110 => s.linkWrite n v
  | .media, 0x104 => s.mediaSel (wfield v 13 0)
  | .hdma, _ => if r < 0x1000 then s.plainWrite .hdma row v else s.hdmaWrite ((r - 0x1000) / 0x100) (r % 0x100) row v
  | _, _ => s.plainWrite p row v

/-- A write to offset `r` of a page: a reserved offset ignores it and sets UNMAPPED (R17); the block registers of a gated bay ignore it (R529). -/
def State.pageWrite (s : State) (p : Page) (r : Nat) (v : Word) (k : BootCheck) : State :=
  match p.row r with
  | none => s.unmapped
  | some row =>
    if r < 0x30 then s.headerWrite p r v
    else if s.pageGated p then s
    else s.blockWrite p r row v k

/-! ### Regions without a header -/

/-- A write to a doorbell page (R477): ignored where the client does not exist. A reserved offset sets UNMAPPED on any page (R17). -/
def State.doorbellWrite (s : State) (c o : Nat) (v : Word) : State :=
  if 0x28 ≤ o then s.unmapped
  else if (mget s.clients c).isNone then s
  else if o < 0x10 then s.sqTail c (o / 4) v
  else if o = 0x20 then s.cqArm c v
  else s

def State.regionWrite (s : State) (x : Region) (off : Nat) (v : Word) : State :=
  match x with
  | .msixTable _ 0 => s.setReg off (v &&& 0xFFFFFFFC)
  | .msixTable _ 3 => s.setReg off (v &&& 1)
  | .msixTable _ _ => s.setReg off v
  | .doorbell c o => s.doorbellWrite c o v
  | .pegWord p 0 => s.setPeg p v.toNat
  | .pegWord _ 1 => s.txWrite off v
  | .pegWord p 2 => (s.setReg off v).pegIrq p
  | .pegWord p _ => (s.setReg off (v &&& 0x7FF)).pegIrq p
  | .windowWord _ _ _ => s.txWrite off v
  | .routeWord _ _ => s.txWrite off v

/-- A register write at an offset of BAR0. -/
def State.regWrite (s : State) (off : Nat) (v : Word) (k : BootCheck) : State :=
  if !s.answers then s
  else if !s.serves off then s.unmapped
  else match Page.ofOffset off with
    | some (p, r) => s.pageWrite p r v k
    | none => match Region.ofOffset off with
      | some x => s.regionWrite x off v
      | none => s.unmapped

/-- REGISTER_WRITE (R15–R17). An access that is not aligned, or outside BAR0, is none the function can take. -/
def execRegisterWrite (off : Nat) (v : Word) (k : BootCheck) (s : State) : Host.Outcome State Fault Refusal :=
  if barOffset off then .next (s.regWrite off v k) else .fault (.badRegisterAccess off)

/-! ### Reads (R15, R16) -/

/-- A word of a 64-bit value by the offset of its low half. -/
def half (r lo n : Nat) : Word := if r = lo then lo32 n else hi32 n

/-- HOST_LINK: rate and width of the present training, which the link partner decides, in Flit Mode or not, and UP (R459; log 255). -/
def State.hostLink (s : State) : Word :=
  let n := Config.hostLink s.pcie.trains
  BitVec.ofNat 32 (b2n s.pcie.linkUp * 2 ^ 10 + n / 30 % 2 * 2 ^ 9 + 2 ^ (n / 6 % 5) * 2 ^ 4 + (1 + n % 6))

/-- A part number's bytes as words, low byte first, padded with zero. -/
def partWord (h : Bool) (i : Nat) : Word := BitVec.ofNat 32 (getLE (partBytes h) (4 * i) 4)

/-- The present value of a register of a page. -/
def State.pageRead (s : State) (p : Page) (r : Nat) : Word :=
  match p, r with
  | .chip, 0x100 => BitVec.ofNat 32 (Config.step.toNat * 2 ^ 24 + b2n s.isH * 2 ^ 16 + Config.vendorId.toNat)
  | .chip, 0x118 => lo32 Config.serial.toNat
  | .chip, 0x11C => hi32 Config.serial.toNat
  | .chip, 0x120 => partWord s.isH 0
  | .chip, 0x124 => partWord s.isH 1
  | .chip, 0x128 => partWord s.isH 2
  | .chip, 0x12C => partWord s.isH 3
  | .cadence, 0x100 => lo32 s.nowN
  | .cadence, 0x104 => hi32 s.nowN
  | .cadence, 0x130 => BitVec.ofNat 32 s.holdAge
  | .eth n, 0x110 => lo32 (Config.mac n).toNat
  | .eth n, 0x114 => hi32 (Config.mac n).toNat
  | .media, 0x100 => BitVec.ofNat 32 s.mediaStat
  | .host, 0x124 => s.hostLink
  | .core _ _, _ => match p.clockReg r with
    | some (lo, _) => half r lo (s.clockVal p lo)
    | none => s.preg p r
  | .bwreg, _ => match p.clockReg r with
    | some (lo, _) => BitVec.ofNat 32 (min 0xFFFFFFFF (s.clockVal p lo))
    | none => s.preg p r
  | .window, _ => match p.clockReg r with
    | some (lo, _) => BitVec.ofNat 32 (min 0xFFFFFFFF (s.clockVal p lo))
    | none => s.preg p r
  | _, _ => s.preg p r

/-- What a page shows while its bay is gated: POWERED 0, STATE 0x6, block-specific registers 0 (R529). -/
def State.gatedRead (s : State) (p : Page) (r : Nat) : Word :=
  if r = 0x00C then wput (wclear (s.preg p r) 3) 7 4 6
  else if r < 0x30 then s.pageRead p r
  else 0

/-- A doorbell page as it reads (R477). -/
def State.doorbellRead (s : State) (c o : Nat) : Word :=
  match mget s.clients c with
  | none => 0
  | some x =>
    if o < 0x10 then BitVec.ofNat 32 ((mget x.tails (o / 4)).getD 0)
    else if o < 0x20 then BitVec.ofNat 32 ((mget x.heads (o / 4 - 4)).getD 0)
    else if o = 0x24 then BitVec.ofNat 32 (1 + b2n x.error * 2 + b2n x.armed * 4 + x.job % 8 * 16 + x.classes % 16 * 256)
    else 0

/-- The register that a _HI half belongs to: the low half's offset within the page. -/
def Page.loOf (p : Page) (r : Nat) : Option Nat := (p.pairs.find? (fun e => e.2 == r)).map (·.1)
def Page.hiOf (p : Page) (r : Nat) : Option Nat := (p.pairs.find? (fun e => e.1 == r)).map (·.2)

/-- A read of a page: the value, and the state it leaves. A _LO read arms the latch with the high half of the same value, a _HI read takes an armed
latch; an RC field clears. -/
def State.pageGet (s : State) (p : Page) (r : Nat) : Word × State :=
  match p.row r with
  | none => (0, s.unmapped)
  | some row =>
    let live := fun (o : Nat) => if s.pageGated p then s.gatedRead p o else s.pageRead p o
    let clears := row.rc != 0 && !((s.pageGated p || s.pageFrozen p) && decide (0x30 ≤ r))
    let t := if clears then s.setPreg p r (s.preg p r &&& ~~~row.rc) else s
    let t := match p.clockReg r with
      | some (lo, rc) => if s.pageFrozen p then t else t.clockRead p lo rc
      | none => t
    match p.hiOf r with
    | some h => (live r, { t with hiLatch := mset t.hiLatch (p.base + h) (live h) })
    | none => match p.loOf r with
      | some _ => match mget t.hiLatch (p.base + r) with
        | some v => (v, { t with hiLatch := mdel t.hiLatch (p.base + r) })
        | none => (live r, t)
      | none => (live r, t)

/-- A routing entry is a 64-bit register: a read of its low word arms the latch of the high one, which takes it (R16, R422). -/
def State.routeGet (s : State) (off h : Nat) : Word × State :=
  if h = 0 then (s.reg off, { s with hiLatch := mset s.hiLatch (off + 4) (s.reg (off + 4)) })
  else match mget s.hiLatch off with
    | some v => (v, { s with hiLatch := mdel s.hiLatch off })
    | none => (s.reg off, s)

/-- A read of a register at an offset of BAR0. -/
def State.regRead (s : State) (off : Nat) : Word × State :=
  if !s.serves off then (0, s.unmapped)
  else match Page.ofOffset off with
    | some (p, r) => s.pageGet p r
    | none => match Region.ofOffset off with
      | some (.doorbell c o) => (s.doorbellRead c o, if 0x28 ≤ o then s.unmapped else s)
      | some (.routeWord _ h) => s.routeGet off h
      | some _ => (s.reg off, s)
      | none => (0, s.unmapped)

/-- The read's completion returns the word. -/
def State.readReg (s : State) (off : Nat) : State :=
  if s.answers then (s.regRead off).2.emit (.readWord off (s.regRead off).1) else s

/-- REGISTER_READ (R16). -/
def execRegisterRead (off : Nat) (s : State) : Host.Outcome State Fault Refusal :=
  if barOffset off then .next (s.readReg off) else .fault (.badRegisterAccess off)

/-! ### BAR2 (R462, R539, R562) -/

/-- The module physical address behind a BAR2 offset. -/
def State.bar2Target (s : State) (x : Nat) : Nat := wfield (s.preg .host 0x120) 8 0 * 2 ^ 30 + x

/-- The end of the main tier, and the error log. -/
def bar2End : Nat := 0x007000000000
def logEnd : Nat := logBase + 0x400000
def inLog (a : Nat) : Bool := decide (logBase ≤ a) && decide (a < logEnd)

/-- One store of BAR2: the parts beyond the main tier, and in the error log, are discarded and set UNMAPPED. -/
def State.bar2Write (s : State) (a : Nat) (bs : List Byte) : State :=
  let n := bs.length
  let keep := fun (i : Nat) => decide (i < bar2End) && !inLog i
  let s := if (List.range n).all (fun i => keep (a + i)) then s else s.unmapped
  if (List.range n).all (fun i => keep (a + i)) then (s.served a n).writePa a bs
  else (List.range n).foldl (fun s i => if keep (a + i) then s.writePa (a + i) (slice bs i 1) else s) s

/-- The record of a poisoned line delivered to the host (R562). -/
def State.poisonToHost (s : State) (line : Nat) : State :=
  s.report ((memPage s.isH (line * 128)).getD .migrate)
    { code := 0x5004, sev := 1, key := lineKey (line * 128), detail := memDetail s.isH (line * 128) 0 }

/-- One read of BAR2: page tables read as their entries stand (R221), bytes beyond the main tier read ones and set UNMAPPED; a poisoned line sets the Poisoned TLP bit and writes its record. -/
def State.bar2Read (s : State) (x a n : Nat) : State :=
  let m := min n (bar2End - a)
  let bs := ((s.readPa a m).zipIdx.map (fun x => (s.tableByte (a + x.2)).getD x.1)) ++ List.replicate (n - m) 0xFF
  let bad := if m = 0 then [] else s.poison.filter (fun l => decide (a / 128 ≤ l) && decide (l ≤ (a + m - 1) / 128))
  let s := if n = m then s.served a m else s.unmapped
  (bad.foldl State.poisonToHost s).emit (.readBar2 x bs (!bad.isEmpty))

/-- BAR2_ACCESS: a read of `n` bytes, or a store of `data`, at BAR2 offset `x`. -/
def State.bar2 (s : State) (x n : Nat) (data : Option (List Byte)) : State :=
  if !s.answers then s
  else match data with
    | some bs => s.bar2Write (s.bar2Target x) bs
    | none => s.bar2Read x (s.bar2Target x) n

/-- BAR2_ACCESS. An access beyond the BAR's size reaches no address of the function. -/
def execBar2Access (x n : Nat) (data : Option (List Byte)) (s : State) : Host.Outcome State Fault Refusal :=
  if x + (match data with
    | some bs => bs.length
    | none => n) ≤ 2 ^ s.pcie.bar2Log then .next (s.bar2 x n data)
  else .fault (.badBar2Access x)

end Sys2Proof.Machine
end

