-- ==== Sys2Proof/Machine/Dispatch.lean ====
section
/-!
DEFINITION. The dispatch of a command to its meaning: one arm per row of the opcode table.
-/

namespace Sys2Proof.Machine

open Host

def exec (i : Instr) (s : State) : Host.Outcome State Fault Refusal :=
  match i with
  | .passFormation => Sys2Proof.Machine.execPassFormation s
  | .formationExchangeComplete => Sys2Proof.Machine.execFormationExchangeComplete s
  | .passStart => Sys2Proof.Machine.execPassStart s
  | .barrierLineSend job done => Sys2Proof.Machine.execBarrierLineSend job done s
  | .commitBarrierComplete => Sys2Proof.Machine.execCommitBarrierComplete s
  | .creditWatchdogExpiry page => Sys2Proof.Machine.execCreditWatchdogExpiry page s
  | .coreNop bay core d => Sys2Proof.Machine.execCoreNop bay core d s
  | .copy bay core d => Sys2Proof.Machine.execCopy bay core d s
  | .gather bay core d => Sys2Proof.Machine.execGather bay core d s
  | .matmul bay core d => Sys2Proof.Machine.execMatmul bay core d s
  | .attn bay core d => Sys2Proof.Machine.execAttn bay core d s
  | .vectorOp bay core d => Sys2Proof.Machine.execVectorOp bay core d s
  | .quant bay core d => Sys2Proof.Machine.execQuant bay core d s
  | .prism bay core d => Sys2Proof.Machine.execPrism bay core d s
  | .topk bay core d => Sys2Proof.Machine.execTopk bay core d s
  | .pegWaitMet bay core => Sys2Proof.Machine.execPegWaitMet bay core s
  | .commandRetire bay core => Sys2Proof.Machine.execCommandRetire bay core s
  | .controlCoreHeartbeatStall bay => Sys2Proof.Machine.execControlCoreHeartbeatStall bay s
  | .progressMonitorExpiry bay => Sys2Proof.Machine.execProgressMonitorExpiry bay s
  | .bayRrcInv bay mask => Sys2Proof.Machine.execBayRrcInv bay mask s
  | .rrcInvDone bay => Sys2Proof.Machine.execRrcInvDone bay s
  | .recipeSwitch r => Sys2Proof.Machine.execRecipeSwitch r s
  | .stagingDescriptorStart => Sys2Proof.Machine.execStagingDescriptorStart s
  | .stagingInstall seq ok => Sys2Proof.Machine.execStagingInstall seq ok s
  | .attentionCutoff => Sys2Proof.Machine.execAttentionCutoff s
  | .scatter bay d => Sys2Proof.Machine.execScatter bay d s
  | .arrivalPegTarget bay core slot layer tag index dst stride => Sys2Proof.Machine.execArrivalPegTarget bay core slot layer tag index dst stride s
  | .returnRows bay d => Sys2Proof.Machine.execReturnRows bay d s
  | .exchangeGrant bay slot layer => Sys2Proof.Machine.execExchangeGrant bay slot layer s
  | .grantPegTarget bay => Sys2Proof.Machine.execGrantPegTarget bay s
  | .placementSwitch r => Sys2Proof.Machine.execPlacementSwitch r s
  | .mapPages r => Sys2Proof.Machine.execMapPages r s
  | .unmapPages r => Sys2Proof.Machine.execUnmapPages r s
  | .migrateHint r => Sys2Proof.Machine.execMigrateHint r s
  | .demandPromotionComplete job vpage ok => Sys2Proof.Machine.execDemandPromotionComplete job vpage ok s
  | .demandLate job vpage => Sys2Proof.Machine.execDemandLate job vpage s
  | .migrationMoveStart => Sys2Proof.Machine.execMigrationMoveStart s
  | .migrationMoveComplete job vpage ok => Sys2Proof.Machine.execMigrationMoveComplete job vpage ok s
  | .decayInterval => Sys2Proof.Machine.execDecayInterval s
  | .marginCheck tier temp volt load pass noSpare => Sys2Proof.Machine.execMarginCheck tier temp volt load pass noSpare s
  | .tierMarginReq tier => Sys2Proof.Machine.execTierMarginReq tier s
  | .tierRetrainReq tier => Sys2Proof.Machine.execTierRetrainReq tier s
  | .evacuationComplete tier => Sys2Proof.Machine.execEvacuationComplete tier s
  | .tierTrainingComplete tier temp volt load repaired low => Sys2Proof.Machine.execTierTrainingComplete tier temp volt load repaired low s
  | .scrubRead line found => Sys2Proof.Machine.execScrubRead line found s
  | .parkWrite stream => Sys2Proof.Machine.execParkWrite stream s
  | .parkComplete stream => Sys2Proof.Machine.execParkComplete stream s
  | .budgetRefill => Sys2Proof.Machine.execBudgetRefill s
  | .readDisturbRelocation block ecc => Sys2Proof.Machine.execReadDisturbRelocation block ecc s
  | .retentionAgeTick => Sys2Proof.Machine.execRetentionAgeTick s
  | .relocationCommit block retired low => Sys2Proof.Machine.execRelocationCommit block retired low s
  | .timeUnknownTimeout => Sys2Proof.Machine.execTimeUnknownTimeout s
  | .holdupCheck ok => Sys2Proof.Machine.execHoldupCheck ok s
  | .lifetimeCheckpoint => Sys2Proof.Machine.execLifetimeCheckpoint s
  | .settingsRead => Sys2Proof.Machine.execSettingsRead s
  | .settingsStage => Sys2Proof.Machine.execSettingsStage s
  | .settingsDelete => Sys2Proof.Machine.execSettingsDelete s
  | .settingsCommit => Sys2Proof.Machine.execSettingsCommit s
  | .settingsDiscard => Sys2Proof.Machine.execSettingsDiscard s
  | .commitCreditEarned => Sys2Proof.Machine.execCommitCreditEarned s
  | .settingsPrepareComplete ok => Sys2Proof.Machine.execSettingsPrepareComplete ok s
  | .fetch r => Sys2Proof.Machine.execFetch r s
  | .fetchPageArrival load page data ok => Sys2Proof.Machine.execFetchPageArrival load page data ok s
  | .broadcastEnd => Sys2Proof.Machine.execBroadcastEnd s
  | .swap r => Sys2Proof.Machine.execSwap r s
  | .swapExecute job layer => Sys2Proof.Machine.execSwapExecute job layer s
  | .weightLoad r => Sys2Proof.Machine.execWeightLoad r s
  | .promote r => Sys2Proof.Machine.execPromote r s
  | .promoted => Sys2Proof.Machine.execPromoted s
  | .weightStatus r => Sys2Proof.Machine.execWeightStatus r s
  | .glintSweepCheck page ok repair => Sys2Proof.Machine.execGlintSweepCheck page ok repair s
  | .ptpEventMessage port head time gm => Sys2Proof.Machine.execPtpEventMessage port head time gm s
  | .lockAcquired => Sys2Proof.Machine.execLockAcquired s
  | .referenceLossTimeout r => Sys2Proof.Machine.execReferenceLossTimeout r s
  | .holdoverExpiry => Sys2Proof.Machine.execHoldoverExpiry s
  | .portFailback => Sys2Proof.Machine.execPortFailback s
  | .cadenceInEdge => Sys2Proof.Machine.execCadenceInEdge s
  | .cadenceLoad v => Sys2Proof.Machine.execCadenceLoad v s
  | .cadenceAlarm n => Sys2Proof.Machine.execCadenceAlarm n s
  | .ethLinkChange port mode => Sys2Proof.Machine.execEthLinkChange port mode s
  | .ethFrameReceive port frame => Sys2Proof.Machine.execEthFrameReceive port frame s
  | .audioInFrame port addr sport payload => Sys2Proof.Machine.execAudioInFrame port addr sport payload s
  | .egressTick stream => Sys2Proof.Machine.execEgressTick stream s
  | .openStream r => Sys2Proof.Machine.execOpenStream r s
  | .streamActivation stream => Sys2Proof.Machine.execStreamActivation stream s
  | .parkStream r => Sys2Proof.Machine.execParkStream r s
  | .resumeStream r => Sys2Proof.Machine.execResumeStream r s
  | .closeStream r => Sys2Proof.Machine.execCloseStream r s
  | .closeComplete stream => Sys2Proof.Machine.execCloseComplete stream s
  | .parkList r => Sys2Proof.Machine.execParkList r s
  | .parkDelete r => Sys2Proof.Machine.execParkDelete r s
  | .mediaStreamSel stream => Sys2Proof.Machine.execMediaStreamSel stream s
  | .ringNop r => Sys2Proof.Machine.execRingNop r s
  | .jobCreate r => Sys2Proof.Machine.execJobCreate r s
  | .jobStart r => Sys2Proof.Machine.execJobStart r s
  | .jobDestroy r => Sys2Proof.Machine.execJobDestroy r s
  | .jobDestruction => Sys2Proof.Machine.execJobDestruction s
  | .clientCreate r => Sys2Proof.Machine.execClientCreate r s
  | .clientDestroy r => Sys2Proof.Machine.execClientDestroy r s
  | .run r => Sys2Proof.Machine.execRun r s
  | .runEnd => Sys2Proof.Machine.execRunEnd s
  | .runLimit => Sys2Proof.Machine.execRunLimit s
  | .preemptionRequest => Sys2Proof.Machine.execPreemptionRequest s
  | .preemptionEffective => Sys2Proof.Machine.execPreemptionEffective s
  | .lineRead port p crc => Sys2Proof.Machine.execLineRead port p crc s
  | .lineWrite port p crc => Sys2Proof.Machine.execLineWrite port p crc s
  | .pegInc port p crc => Sys2Proof.Machine.execPegInc port p crc s
  | .pegAccumulatorFlush port peg => Sys2Proof.Machine.execPegAccumulatorFlush port peg s
  | .readData p crc => Sys2Proof.Machine.execReadData p crc s
  | .ack p crc => Sys2Proof.Machine.execAck p crc s
  | .refuse p crc => Sys2Proof.Machine.execRefuse p crc s
  | .fenceComplete => Sys2Proof.Machine.execFenceComplete s
  | .windowEntryWrite j w k v => Sys2Proof.Machine.execWindowEntryWrite j w k v s
  | .windowDrainDone job => Sys2Proof.Machine.execWindowDrainDone job s
  | .pegCtrlWrite p v => Sys2Proof.Machine.execPegCtrlWrite p v s
  | .pegValueWrite p v => Sys2Proof.Machine.execPegValueWrite p v s
  | .flitReceive port f => Sys2Proof.Machine.execFlitReceive port f s
  | .ackTimeout port => Sys2Proof.Machine.execAckTimeout port s
  | .replayRetrain port => Sys2Proof.Machine.execReplayRetrain port s
  | .laneFailure port lane => Sys2Proof.Machine.execLaneFailure port lane s
  | .widthAck port => Sys2Proof.Machine.execWidthAck port s
  | .laneTest port passed => Sys2Proof.Machine.execLaneTest port passed s
  | .testLanes port => Sys2Proof.Machine.execTestLanes port s
  | .linkRetrain port => Sys2Proof.Machine.execLinkRetrain port s
  | .adapt port => Sys2Proof.Machine.execAdapt port s
  | .portDown port => Sys2Proof.Machine.execPortDown port s
  | .portTraining port lo hi id lanes temp volt load => Sys2Proof.Machine.execPortTraining port lo hi id lanes temp volt load s
  | .equalisationReadapt port temp volt load failed => Sys2Proof.Machine.execEqualisationReadapt port temp volt load failed s
  | .dedupRecordExpiry src => Sys2Proof.Machine.execDedupRecordExpiry src s
  | .routeEntryWrite e h v => Sys2Proof.Machine.execRouteEntryWrite e h v s
  | .routeEndpointWrite v => Sys2Proof.Machine.execRouteEndpointWrite v s
  | .levelChange r => Sys2Proof.Machine.execLevelChange r s
  | .dmaNop c d => Sys2Proof.Machine.execDmaNop c d s
  | .dmaCopy c d bursts bad => Sys2Proof.Machine.execDmaCopy c d bursts bad s
  | .interleave c d bursts bad => Sys2Proof.Machine.execInterleave c d bursts bad s
  | .deinterleave c d bursts bad => Sys2Proof.Machine.execDeinterleave c d bursts bad s
  | .bitplane c d bursts bad => Sys2Proof.Machine.execBitplane c d bursts bad s
  | .bitplaneInv c d bursts bad => Sys2Proof.Machine.execBitplaneInv c d bursts bad s
  | .dmaRetire c => Sys2Proof.Machine.execDmaRetire c s
  | .hdmaTail n v => Sys2Proof.Machine.execHdmaTail n v s
  | .hdmaCfg n v => Sys2Proof.Machine.execHdmaCfg n v s
  | .hdmaAbort n => Sys2Proof.Machine.execHdmaAbort n s
  | .hdmaStopped n => Sys2Proof.Machine.execHdmaStopped n s
  | .hdmaResume n => Sys2Proof.Machine.execHdmaResume n s
  | .hdmaSkip n => Sys2Proof.Machine.execHdmaSkip n s
  | .hdmaReset n => Sys2Proof.Machine.execHdmaReset n s
  | .pcieReadTimeout n => Sys2Proof.Machine.execPcieReadTimeout n s
  | .pcieHotReset up => Sys2Proof.Machine.execPcieHotReset up s
  | .d3hotEntry => Sys2Proof.Machine.execD3hotEntry s
  | .msixPendingSend v => Sys2Proof.Machine.execMsixPendingSend v s
  | .flr k => Sys2Proof.Machine.execFlr k s
  | .dbSqTail c k v => Sys2Proof.Machine.execDbSqTail c k v s
  | .hostAsqTail v => Sys2Proof.Machine.execHostAsqTail v s
  | .dbCqArm c v => Sys2Proof.Machine.execDbCqArm c v s
  | .hostAcqArm v => Sys2Proof.Machine.execHostAcqArm v s
  | .hostAcfgEnable v => Sys2Proof.Machine.execHostAcfgEnable v s
  | .completionBacklogDrain r => Sys2Proof.Machine.execCompletionBacklogDrain r s
  | .txnBegin => Sys2Proof.Machine.execTxnBegin s
  | .txnCommit => Sys2Proof.Machine.execTxnCommit s
  | .txnRollback => Sys2Proof.Machine.execTxnRollback s
  | .commitInstant => Sys2Proof.Machine.execCommitInstant s
  | .txnTimeout => Sys2Proof.Machine.execTxnTimeout s
  | .txnPersisted => Sys2Proof.Machine.execTxnPersisted s
  | .chipReset v k => Sys2Proof.Machine.execChipReset v k s
  | .chipHold v => Sys2Proof.Machine.execChipHold v s
  | .ringSel v => Sys2Proof.Machine.execRingSel v s
  | .blkIrqErrorRearm off => Sys2Proof.Machine.execBlkIrqErrorRearm off s
  | .blkIrqForce off v => Sys2Proof.Machine.execBlkIrqForce off v s
  | .registerWrite off v k => Sys2Proof.Machine.execRegisterWrite off v k s
  | .fwStage => Sys2Proof.Machine.execFwStage s
  | .fwStageComplete flash intact => Sys2Proof.Machine.execFwStageComplete flash intact s
  | .fwActivate => Sys2Proof.Machine.execFwActivate s
  | .activation k => Sys2Proof.Machine.execActivation k s
  | .fwConfirm => Sys2Proof.Machine.execFwConfirm s
  | .trialAutoConfirm => Sys2Proof.Machine.execTrialAutoConfirm s
  | .trialFailure k => Sys2Proof.Machine.execTrialFailure k s
  | .bootFlashCheck okA okB => Sys2Proof.Machine.execBootFlashCheck okA okB s
  | .recoveryStage k => Sys2Proof.Machine.execRecoveryStage k s
  | .readyTimeout k => Sys2Proof.Machine.execReadyTimeout k s
  | .controlProcessorReset kind n k => Sys2Proof.Machine.execControlProcessorReset kind n k s
  | .governorEvaluation vin iin pin fits room rails out => Sys2Proof.Machine.execGovernorEvaluation vin iin pin fits room rails out s
  | .modeChange => Sys2Proof.Machine.execModeChange s
  | .capHost v => Sys2Proof.Machine.execCapHost v s
  | .capSet port m => Sys2Proof.Machine.execCapSet port m s
  | .telemReq port m => Sys2Proof.Machine.execTelemReq port m s
  | .capLeaseExpiry source => Sys2Proof.Machine.execCapLeaseExpiry source s
  | .capUnacknowledged => Sys2Proof.Machine.execCapUnacknowledged s
  | .statusWord => Sys2Proof.Machine.execStatusWord s
  | .readVin => Sys2Proof.Machine.execReadVin s
  | .readIin => Sys2Proof.Machine.execReadIin s
  | .readPin => Sys2Proof.Machine.execReadPin s
  | .readTemperature1 => Sys2Proof.Machine.execReadTemperature1 s
  | .readTemperature2 => Sys2Proof.Machine.execReadTemperature2 s
  | .readTemperature3 => Sys2Proof.Machine.execReadTemperature3 s
  | .pmbusRevision => Sys2Proof.Machine.execPmbusRevision s
  | .mfrId => Sys2Proof.Machine.execMfrId s
  | .mfrModel => Sys2Proof.Machine.execMfrModel s
  | .mfrSerial => Sys2Proof.Machine.execMfrSerial s
  | .mfrCapSet watts pec => Sys2Proof.Machine.execMfrCapSet watts pec s
  | .mfrCapLease seconds pec => Sys2Proof.Machine.execMfrCapLease seconds pec s
  | .mfrCapActive => Sys2Proof.Machine.execMfrCapActive s
  | .mfrThrottle => Sys2Proof.Machine.execMfrThrottle s
  | .alertResponse => Sys2Proof.Machine.execAlertResponse s
  | .pwrBrakeNAssert => Sys2Proof.Machine.execPwrBrakeNAssert s
  | .pwrBrakeNDeassert => Sys2Proof.Machine.execPwrBrakeNDeassert s
  | .droopDetect bay => Sys2Proof.Machine.execDroopDetect bay s
  | .droopStepDown bay => Sys2Proof.Machine.execDroopStepDown bay s
  | .thermalThreshold sensor value => Sys2Proof.Machine.execThermalThreshold sensor value s
  | .throttleStep bay => Sys2Proof.Machine.execThrottleStep bay s
  | .criticalLimit sensor value => Sys2Proof.Machine.execCriticalLimit sensor value s
  | .thermalTrip sensor value => Sys2Proof.Machine.execThermalTrip sensor value s
  | .flashTemperature package value => Sys2Proof.Machine.execFlashTemperature package value s
  | .pwrGate v => Sys2Proof.Machine.execPwrGate v s
  | .heartbeatLoss => Sys2Proof.Machine.execHeartbeatLoss s
  | .heartbeatReturn => Sys2Proof.Machine.execHeartbeatReturn s
  | .holdExpiry => Sys2Proof.Machine.execHoldExpiry s
  | .inputLow vin => Sys2Proof.Machine.execInputLow vin s
  | .inputLowRecovery => Sys2Proof.Machine.execInputLowRecovery s
  | .inputCurrent iin fits => Sys2Proof.Machine.execInputCurrent iin fits s
  | .supplyEvent vin energy => Sys2Proof.Machine.execSupplyEvent vin energy s
  | .containedFaultDetection kind bay slot checker line => Sys2Proof.Machine.execContainedFaultDetection kind bay slot checker line s
  | .haltReceive job line => Sys2Proof.Machine.execHaltReceive job line s
  | .drainComplete => Sys2Proof.Machine.execDrainComplete s
  | .replayLaunch => Sys2Proof.Machine.execReplayLaunch s
  | .lossReceive job line => Sys2Proof.Machine.execLossReceive job line s
  | .silentMemberTimeout endpoint => Sys2Proof.Machine.execSilentMemberTimeout endpoint s
  | .joinReceive job line => Sys2Proof.Machine.execJoinReceive job line s
  | .syncReceive job line => Sys2Proof.Machine.execSyncReceive job line s
  | .errlogRelease v => Sys2Proof.Machine.execErrlogRelease v s
  | .errlogInjectRecord v => Sys2Proof.Machine.execErrlogInjectRecord v s
  | .errlogInjectContain v => Sys2Proof.Machine.execErrlogInjectContain v s
  | .powerUp k => Sys2Proof.Machine.execPowerUp k s
  | .modResetNAssert => Sys2Proof.Machine.execModResetNAssert s
  | .modResetNDeassert k => Sys2Proof.Machine.execModResetNDeassert k s
  | .warmModuleReset k => Sys2Proof.Machine.execWarmModuleReset k s
  | .modPresentNBreak => Sys2Proof.Machine.execModPresentNBreak s
  | .hostPerstN => Sys2Proof.Machine.execHostPerstN s
  | .tapReset => Sys2Proof.Machine.execTapReset s
  | .jtagBypass => Sys2Proof.Machine.execJtagBypass s
  | .jtagIdcode => Sys2Proof.Machine.execJtagIdcode s
  | .jtagSamplePreload ins cells => Sys2Proof.Machine.execJtagSamplePreload ins cells s
  | .jtagExtest => Sys2Proof.Machine.execJtagExtest s
  | .jtagClamp => Sys2Proof.Machine.execJtagClamp s
  | .jtagHighz => Sys2Proof.Machine.execJtagHighz s
  | .mapComplete => Sys2Proof.Machine.execMapComplete s
  | .fetchSourceTimeout kind id => Sys2Proof.Machine.execFetchSourceTimeout kind id s
  | .spareSlotFailure bay slot => Sys2Proof.Machine.execSpareSlotFailure bay slot s
  | .retentionScanRead block ecc => Sys2Proof.Machine.execRetentionScanRead block ecc s
  | .d3hotExit => Sys2Proof.Machine.execD3hotExit s
  | .registerRead off => Sys2Proof.Machine.execRegisterRead off s
  | .bar2Access x n data => Sys2Proof.Machine.execBar2Access x n data s

end Sys2Proof.Machine
end

