-- ==== Sys2Proof/Machine/Tick.lean ====
section
/-!
DEFINITION. One tick of the cadence counter: what an idle step does, the commands having no row for it (R312, Table 17-11; log 11).
-/

namespace Sys2Proof.Machine

open Sys2Proof

/-- A 64-bit count of 4,096 ct units grows by one where `on` holds. -/
def State.countUnit (s : State) (lo : Nat) (on : Bool) : State := if on then s.count64 .pwr lo (lo + 4) 1 else s

/-- Every 4,096 ct: the time of each throttle reason in force, and of a broken plumb envelope (Table 17-11). -/
def State.countTimes (s : State) : State :=
  let w := s.preg .pwr 0x140
  let s := (List.range 12).foldl (fun s r => s.countUnit (0x180 + 8 * r) (wbit w r)) s
  s.countUnit 0x148 (wbit (s.preg .pwr 0x144) 31)

/-- The control core of every bay that presents cores counts its heartbeat, at least once every 4,096 ct: how often is not stated (R44; log 253). -/
def State.heartbeats (s : State) : State :=
  (List.range 16).foldl (fun s b => if s.absent b then s else (s.countWrap (.bay b) 0x120 (1 + Config.freeNat s.freeCtr % (2 ^ 32 - 1))).useFree) s

/-- The counter runs from power-up on while the rails stand (R312). -/
def State.ticking (s : State) : Bool := s.life != .held && s.life != .down

/-- One tick: the counter, the counts of time, and the requests that had to wait for a tick (R419). -/
def State.tick (s : State) : State :=
  if !s.ticking then s
  else
    let s := { s with now := s.now + 1 }
    let s := if s.nowN % 4096 = 0 then s.countTimes.heartbeats else s
    s.pump

end Sys2Proof.Machine
end

