-- ==== Sys2Proof/WellFormed.lean ====
section
/-!
DEFINITION. Which commands can reach the module: every number names something the module has, every record has its size. An ill-formed command is
an event that cannot occur; it has a meaning all the same.
-/

namespace Sys2Proof

/-- Client rings: 64 clients of four classes (R350). -/
def Ring.wf : Ring → Bool
  | .admin => true
  | .client c k => decide (c < 64) && decide (k < 4)

/-- 64 host channels, and 16 in each of 16 bays (R434, R437). -/
def DmaChan.wf : DmaChan → Bool
  | .host n => decide (n < 64)
  | .bay b n => decide (b < 16) && decide (n < 16)

/-- The fields of a packet fit Table 12-2; a line is 128 bytes or absent. -/
def Packet.wf (p : Packet) : Bool :=
  decide (p.typ < 16) && decide (p.src < 1024) && decide (p.srcJob < 8) && decide (p.dst < 1024) && decide (p.slice < 64) && decide (p.epoch < 256) &&
  decide (p.seq < 2 ^ 32) && decide (p.window < 4096) && decide (p.peg < 32768) && decide (p.offset < 2 ^ 40) && decide (p.inc < 65536) && decide (p.reason < 4096) &&
  (p.line.length == 0 || p.line.length == 128)


/-- SLOT_ID has six pins; a boot reports on at most ten tiers (R577, R239). -/
def BootCheck.wf (k : BootCheck) : Bool := decide (k.slotId < 64) && decide (k.tiers.length ≤ 10)

/-- The operands of a command name what exists. -/
def Instr.wf : Instr → Bool
  | .passFormation => true
  | .formationExchangeComplete => true
  | .passStart => true
  | .barrierLineSend job _ => decide (job < 8)
  | .commitBarrierComplete => true
  | .creditWatchdogExpiry _ => true
  | .coreNop bay core d => decide (bay < 16) && decide (core < 16) && d.length == 64
  | .copy bay core d => decide (bay < 16) && decide (core < 16) && d.length == 64
  | .gather bay core d => decide (bay < 16) && decide (core < 16) && d.length == 64
  | .matmul bay core d => decide (bay < 16) && decide (core < 16) && d.length == 64
  | .attn bay core d => decide (bay < 16) && decide (core < 16) && d.length == 64
  | .vectorOp bay core d => decide (bay < 16) && decide (core < 16) && d.length == 64
  | .quant bay core d => decide (bay < 16) && decide (core < 16) && d.length == 64
  | .prism bay core d => decide (bay < 16) && decide (core < 16) && d.length == 64
  | .topk bay core d => decide (bay < 16) && decide (core < 16) && d.length == 64
  | .pegWaitMet bay core => decide (bay < 16) && decide (core < 16)
  | .commandRetire bay core => decide (bay < 16) && decide (core < 16)
  | .controlCoreHeartbeatStall bay => decide (bay < 16)
  | .progressMonitorExpiry bay => decide (bay < 16)
  | .bayRrcInv bay mask => decide (bay < 16) && decide (mask < 256)
  | .rrcInvDone bay => decide (bay < 16)
  | .recipeSwitch r => r.wf
  | .stagingDescriptorStart => true
  | .stagingInstall _ _ => true
  | .attentionCutoff => true
  | .scatter bay d => decide (bay < 16) && d.length == 64
  | .arrivalPegTarget bay core _ _ _ _ _ _ => decide (bay < 16) && decide (core < 16)
  | .returnRows bay d => decide (bay < 16) && d.length == 64
  | .exchangeGrant bay _ _ => decide (bay < 16)
  | .grantPegTarget bay => decide (bay < 16)
  | .placementSwitch r => r.wf
  | .mapPages r => r.wf
  | .unmapPages r => r.wf
  | .migrateHint r => r.wf
  | .demandPromotionComplete job _ _ => decide (job < 8)
  | .demandLate job _ => decide (job < 8)
  | .migrationMoveStart => true
  | .migrationMoveComplete job _ _ => decide (job < 8)
  | .decayInterval => true
  | .marginCheck tier _ _ _ _ _ => decide (tier < 10)
  | .tierMarginReq tier => decide (tier < 10)
  | .tierRetrainReq tier => decide (tier < 10)
  | .evacuationComplete tier => decide (tier < 10)
  | .tierTrainingComplete tier _ _ _ _ _ => decide (tier < 10)
  | .scrubRead _ _ => true
  | .parkWrite stream => decide (stream < 16384)
  | .parkComplete stream => decide (stream < 16384)
  | .budgetRefill => true
  | .readDisturbRelocation _ _ => true
  | .retentionAgeTick => true
  | .relocationCommit _ _ _ => true
  | .timeUnknownTimeout => true
  | .holdupCheck _ => true
  | .lifetimeCheckpoint => true
  | .settingsRead => true
  | .settingsStage => true
  | .settingsDelete => true
  | .settingsCommit => true
  | .settingsDiscard => true
  | .commitCreditEarned => true
  | .settingsPrepareComplete _ => true
  | .fetch r => r.wf
  | .fetchPageArrival _ _ _ _ => true
  | .broadcastEnd => true
  | .swap r => r.wf
  | .swapExecute job _ => decide (job < 8)
  | .weightLoad r => r.wf
  | .promote r => r.wf
  | .promoted => true
  | .weightStatus r => r.wf
  | .glintSweepCheck _ _ _ => true
  | .ptpEventMessage port head _ _ => decide (port < 2) && decide (head.domain < 128) && decide (head.transport < 3)
  | .lockAcquired => true
  | .referenceLossTimeout r => decide (1 ≤ r) && decide (r < 4)
  | .holdoverExpiry => true
  | .portFailback => true
  | .cadenceInEdge => true
  | .cadenceLoad _ => true
  | .cadenceAlarm n => decide (n < 15)
  | .ethLinkChange port _ => decide (port < 2)
  | .ethFrameReceive port _ => decide (port < 2)
  | .audioInFrame port addr _ _ => decide (port < 2) && addr.length == 16
  | .egressTick stream => decide (stream < 16384)
  | .openStream r => r.wf
  | .streamActivation stream => decide (stream < 16384)
  | .parkStream r => r.wf
  | .resumeStream r => r.wf
  | .closeStream r => r.wf
  | .closeComplete stream => decide (stream < 16384)
  | .parkList r => r.wf
  | .parkDelete r => r.wf
  | .mediaStreamSel stream => decide (stream < 16384)
  | .ringNop r => r.wf
  | .jobCreate r => r.wf
  | .jobStart r => r.wf
  | .jobDestroy r => r.wf
  | .jobDestruction => true
  | .clientCreate r => r.wf
  | .clientDestroy r => r.wf
  | .run r => r.wf
  | .runEnd => true
  | .runLimit => true
  | .preemptionRequest => true
  | .preemptionEffective => true
  | .lineRead port p crc => decide (port < 19) && p.wf && decide (crc < 2 ^ 32)
  | .lineWrite port p crc => decide (port < 19) && p.wf && decide (crc < 2 ^ 32)
  | .pegInc port p crc => decide (port < 19) && p.wf && decide (crc < 2 ^ 32)
  | .pegAccumulatorFlush port peg => decide (port < 19) && decide (peg < 32768)
  | .readData p crc => p.wf && decide (crc < 2 ^ 32)
  | .ack p crc => p.wf && decide (crc < 2 ^ 32)
  | .refuse p crc => p.wf && decide (crc < 2 ^ 32)
  | .fenceComplete => true
  | .windowEntryWrite j w k _ => decide (j < 8) && decide (w < 4096) && decide (k < 8)
  | .windowDrainDone job => decide (job < 8)
  | .pegCtrlWrite p _ => decide (p < 32768)
  | .pegValueWrite p _ => decide (p < 32768)
  | .flitReceive port f => decide (port < 18) && decide (f.rs < 3) && decide (f.bytes.length = 264)
  | .ackTimeout port => decide (port < 18)
  | .replayRetrain port => decide (port < 18)
  | .laneFailure port _ => decide (port < 18)
  | .widthAck port => decide (port < 18)
  | .laneTest port _ => decide (port < 18)
  | .testLanes port => decide (port < 18)
  | .linkRetrain port => decide (port < 18)
  | .adapt port => decide (port < 18)
  | .portDown port => decide (port < 18)
  | .portTraining port _ _ _ _ _ _ _ => decide (port < 18)
  | .equalisationReadapt port _ _ _ _ => decide (port < 18)
  | .dedupRecordExpiry src => decide (src < 1024)
  | .routeEntryWrite e h _ => decide (e < 1024) && decide (h < 2)
  | .routeEndpointWrite _ => true
  | .levelChange r => r.wf
  | .dmaNop c d => c.wf && d.length == 64
  | .dmaCopy c d _ _ => c.wf && d.length == 64
  | .interleave c d _ _ => c.wf && d.length == 64
  | .deinterleave c d _ _ => c.wf && d.length == 64
  | .bitplane c d _ _ => c.wf && d.length == 64
  | .bitplaneInv c d _ _ => c.wf && d.length == 64
  | .dmaRetire c => c.wf
  | .hdmaTail n _ => decide (n < 64)
  | .hdmaCfg n _ => decide (n < 64)
  | .hdmaAbort n => decide (n < 64)
  | .hdmaStopped n => decide (n < 64)
  | .hdmaResume n => decide (n < 64)
  | .hdmaSkip n => decide (n < 64)
  | .hdmaReset n => decide (n < 64)
  | .pcieReadTimeout n => decide (n < 64)
  | .pcieHotReset _ => true
  | .d3hotEntry => true
  | .msixPendingSend v => decide (v < 2048)
  | .flr k => k.wf
  | .dbSqTail c k _ => decide (c < 64) && decide (k < 4)
  | .hostAsqTail _ => true
  | .dbCqArm c _ => decide (c < 64)
  | .hostAcqArm _ => true
  | .hostAcfgEnable _ => true
  | .completionBacklogDrain r => r.wf
  | .txnBegin => true
  | .txnCommit => true
  | .txnRollback => true
  | .commitInstant => true
  | .txnTimeout => true
  | .txnPersisted => true
  | .chipReset _ k => k.wf
  | .chipHold _ => true
  | .ringSel _ => true
  | .blkIrqErrorRearm off => decide (off < 0x4000000) && off % 4 == 0
  | .blkIrqForce off _ => decide (off < 0x4000000) && off % 4 == 0
  | .registerWrite off _ k => decide (off < 0x4000000) && off % 4 == 0 && k.wf
  | .fwStage => true
  | .fwStageComplete _ _ => true
  | .fwActivate => true
  | .activation k => k.wf
  | .fwConfirm => true
  | .trialAutoConfirm => true
  | .trialFailure k => k.wf
  | .bootFlashCheck _ _ => true
  | .recoveryStage k => k.wf
  | .readyTimeout k => k.wf
  | .controlProcessorReset _ _ k => k.wf
  | .governorEvaluation vin iin pin _ _ _ _ => decide (vin < 65536) && decide (iin < 65536) && decide (pin < 65536)
  | .modeChange => true
  | .capHost _ => true
  | .capSet port m => decide (port < 2) && decide (m.addr.length = 16) && decide (m.sport < 2 ^ 16)
  | .telemReq port m => decide (port < 2) && decide (m.addr.length = 16) && decide (m.sport < 2 ^ 16)
  | .capLeaseExpiry _ => true
  | .capUnacknowledged => true
  | .statusWord => true
  | .readVin => true
  | .readIin => true
  | .readPin => true
  | .readTemperature1 => true
  | .readTemperature2 => true
  | .readTemperature3 => true
  | .pmbusRevision => true
  | .mfrId => true
  | .mfrModel => true
  | .mfrSerial => true
  | .mfrCapSet watts pec => decide (watts < 65536) && decide (pec < 256)
  | .mfrCapLease seconds pec => decide (seconds < 65536) && decide (pec < 256)
  | .mfrCapActive => true
  | .mfrThrottle => true
  | .alertResponse => true
  | .pwrBrakeNAssert => true
  | .pwrBrakeNDeassert => true
  | .droopDetect bay => decide (bay < 16)
  | .droopStepDown bay => decide (bay < 16)
  | .thermalThreshold sensor _ => decide (sensor < 77)
  | .throttleStep bay => decide (bay < 16)
  | .criticalLimit sensor _ => decide (sensor < 77)
  | .thermalTrip sensor _ => decide (sensor < 77)
  | .flashTemperature package _ => decide (package < 16)
  | .pwrGate _ => true
  | .heartbeatLoss => true
  | .heartbeatReturn => true
  | .holdExpiry => true
  | .inputLow vin => decide (vin < 65536)
  | .inputLowRecovery => true
  | .inputCurrent iin _ => decide (iin < 65536)
  | .supplyEvent vin _ => decide (vin < 65536)
  | .containedFaultDetection _ bay slot _ _ => decide (bay < 16) && decide (slot < 17)
  | .haltReceive job line => decide (job < 8) && line.length == 128
  | .drainComplete => true
  | .replayLaunch => true
  | .lossReceive job line => decide (job < 8) && line.length == 128
  | .silentMemberTimeout endpoint => decide (endpoint < 1024)
  | .joinReceive job line => decide (job < 8) && line.length == 128
  | .syncReceive job line => decide (job < 8) && line.length == 128
  | .errlogRelease _ => true
  | .errlogInjectRecord _ => true
  | .errlogInjectContain _ => true
  | .powerUp k => k.wf
  | .modResetNAssert => true
  | .modResetNDeassert k => k.wf
  | .warmModuleReset k => k.wf
  | .modPresentNBreak => true
  | .hostPerstN => true
  | .tapReset => true
  | .jtagBypass => true
  | .jtagIdcode => true
  | .jtagSamplePreload _ _ => true
  | .jtagExtest => true
  | .jtagClamp => true
  | .jtagHighz => true
  | .mapComplete => true
  | .fetchSourceTimeout _ _ => true
  | .spareSlotFailure bay slot => decide (bay < 16) && decide (slot < 17)
  | .retentionScanRead _ _ => true
  | .d3hotExit => true
  | .registerRead off => decide (off < 0x4000000) && off % 4 == 0
  | .bar2Access _ _ _ => true

end Sys2Proof
end

