-- ==== Sys2Proof/Safety.lean ====
section
/-!
DEFINITION. The terms in which claims are stated: the canonical form of the sparse data, what a command leaves alone, and a safe run.
-/

namespace Sys2Proof.Machine

open Sys2Proof

/-- Module memory in canonical form: addresses strictly rising, and no entry equal to what an unlisted address reads as, which is 0 (R226). -/
def Memory.wf (m : List Host.Cell) : Bool := keysRise m && m.all (fun c => c.2 != 0)

/-- The register file in canonical form: offsets strictly rising, and no entry equal to the register's Reset value. -/
def RegFile.wf (h : Bool) (r : List (Nat × Word)) : Bool := keysRise r && r.all (fun e => e.2 != resetWord h e.1)

/-- The state's memory and registers are in canonical form, so that equal contents are equal data. -/
def State.wf (s : State) : Bool := Memory.wf s.mem && RegFile.wf s.isH s.regs

/-- A command completes on a state. -/
def Completes (i : Instr) (s : State) : Prop := ∃ t, exec i s = .next t

/-- A step does not stop. -/
def SafeStep (s : State) : Prop := ∃ t, step s = .next t

/-- Every register reads in `t` as in `s`, but for those at the offsets listed. -/
def RegsBut (s t : State) (os : List Nat) : Prop := ∀ o : Nat, o ∉ os → t.reg o = s.reg o

/-- Every byte of module memory reads in `t` as in `s`, but for the `n` bytes from `a`. -/
def MemBut (s t : State) (a n : Nat) : Prop := ∀ x : Nat, ¬(a ≤ x ∧ x < a + n) → t.byte x = s.byte x

/-- Everything of a state but its registers and what left the module. -/
def State.rest (s : State) : State := { s with regs := [], out := [] }

/-- `t` shows HOLD and READY of CHIP_STAT as the conditions of `s` have them, MOD_READY follows a change of READY, and nothing else differs from `s`
(R460, R479). -/
def ShowsHold (s t : State) : Prop :=
  wbit (t.preg .chip 0x104) 2 = (wbit (s.preg .chip 0x108) 0 || s.pcie.d3hot) ∧ wbit (t.preg .chip 0x104) 0 = s.mayServe ∧
    (∀ i : Nat, i < 32 → i ≠ 0 → i ≠ 2 → wbit (t.preg .chip 0x104) i = wbit (s.preg .chip 0x104) i) ∧
    RegsBut s t [Page.chip.base + 0x104] ∧ t.rest = s.rest ∧
    t.out = if wbit (s.preg .chip 0x104) 0 = s.mayServe then s.out else .pin "MOD_READY" (if s.tristated then none else some s.mayServe) :: s.out

/-- A pending bit of the MSI-X PBA stands at this offset (R460). -/
def inPba (o : Nat) : Prop := 0x10800 ≤ o ∧ o < 0x10900

/-- `t` is `s` with BLK_IRQ_RAW of page `p` at `raw`: beside it only pending bits of the PBA differ, and only MSI-X messages leave (R464, R466). -/
def RaisesIrq (s t : State) (p : Page) (raw : Word) : Prop :=
  t.preg p 0x010 = raw ∧ (∀ o : Nat, o ≠ p.base + 0x010 → ¬inPba o → t.reg o = s.reg o) ∧ t.rest = s.rest ∧
    ∃ xs : List Output, t.out = xs ++ s.out ∧ ∀ x ∈ xs, ∃ v, x = Output.msix v

/-- No interrupt message, frame, packet or other output leaves with the change from `s` to `t`. -/
def Silent (s t : State) : Prop := t.out = s.out

end Sys2Proof.Machine
end

