-- ==== Sys2Proof/Certificates/Slice0/Obligations.lean ====
section
/-!
DEFINITION. The statements for the provers.
-/

open Sys2Proof Sys2Proof.Machine

/-- For every state whose queue of waiting commands is c followed by rest, step is exec of c on that state with the queue rest. With an empty queue step is one tick of the idle module: the tick on an empty queue is the model's own choice (log 11), the queue being the model's too. -/
def Obligations.StepTakesFrontCommand : Prop :=
  (∀ (s : State) (c : Instr) (rest : List Instr), s.pending = c :: rest → step s = exec c { s with pending := rest }) ∧
  (∀ s : State, s.pending = [] → step s = .next s.tick)

/-- On an empty queue, while the rails stand and no fabric request waits: at a tick that is no multiple of 4,096 ct the next state is the state with the cadence counter one higher and nothing else changed. With the rails down nothing changes at all. That an empty queue is a tick is the model's choice (log 11). -/
def Obligations.TickAdvancesCounter : Prop :=
  (∀ s : State, s.pending = [] → s.life ≠ .held → s.life ≠ .down → s.reqs = [] → (s.now + 1).toNat % 4096 ≠ 0 →
    step s = .next { s with now := s.now + 1 }) ∧
  (∀ s : State, s.pending = [] → s.life = .held ∨ s.life = .down → step s = .next s)

/-- At State.reset no command waits, nothing has left the module, the cadence counter is 0, every byte of module memory reads 0, every register at an offset reads its Reset column word for the BSL-VM96, no job, client or stream exists, no transaction is open and MOD_ALERT_N is not asserted. Where a Reset column gives no value the word is the model's (the log entries on reset values). -/
def Obligations.ResetValues : Prop :=
  State.reset.pending = [] ∧ State.reset.out = [] ∧ State.reset.now = 0 ∧ (∀ a : Nat, State.reset.byte a = 0) ∧
  (∀ o : Nat, State.reset.reg o = resetWord false o) ∧ State.reset.jobs = [] ∧ State.reset.clients = [] ∧ State.reset.streams = [] ∧
  State.reset.txnState = 0 ∧ State.reset.alert = false

/-- The memory and the register file of State.reset are in canonical form. -/
def Obligations.ResetIsCanonical : Prop :=
  State.reset.wf = true

/-- For every state in canonical form (memory and register file strictly rising by address, no entry equal to what an unlisted address reads as), whatever command stands at the front of the queue and with an empty queue: if step answers a next state, that state is in canonical form, so that equal memories and equal register files are equal data. -/
def Obligations.EveryStepKeepsCanonicalForm : Prop :=
  ∀ s t : State, s.wf = true → step s = .next t → t.wf = true

/-- For every memory in canonical form, every address and every list of bytes: after the bytes are stored from that address on, each address of the range reads the byte stored there, every other address reads as before, and the form is kept. -/
def Obligations.MemoryReadsWhatWasStored : Prop :=
  ∀ (s : State) (a : Nat) (bs : List Byte), Memory.wf s.mem = true →
    Memory.wf (s.rawWrite a bs).mem = true ∧
    (∀ i : Nat, i < bs.length → (s.rawWrite a bs).byte (a + i) = bs.getD i 0) ∧ MemBut s (s.rawWrite a bs) a bs.length

/-- For every state in canonical form, offset and word: the register stored to reads the word, every other register reads as before, and the state but for its registers is unchanged. -/
def Obligations.RegisterReadsWhatWasStored : Prop :=
  ∀ (s : State) (o : Nat) (v : Word), s.wf = true →
    (s.setReg o v).reg o = v ∧ RegsBut s (s.setReg o v) [o] ∧ (s.setReg o v).rest = s.rest ∧ Silent s (s.setReg o v)

/-- For every state in canonical form: PCIE_HOT_RESET with the link's state after it, HOST_PERST_N (a hot reset with the link up), D3HOT_ENTRY, D3HOT_EXIT and a write of CHIP_CTRL complete. Configuration space is at its reset after a hot reset, and the link has trained once more; the D3hot bit is set or cleared; CHIP_CTRL holds bit 0 of the word written. In the next state CHIP_STAT.HOLD is CHIP_CTRL.HOLD or D3hot, READY is 1 exactly when the module is booted with neither, MOD_READY is driven once if READY changed and nothing else leaves the module; CHIP_STAT's other bits, every other register and everything else keep their values. -/
def Obligations.HoldAndLowPowerStopService : Prop :=
  (∀ (s : State) (up : Bool), s.wf = true → ∃ t, exec (.pcieHotReset up) s = .next t ∧ ShowsHold { s with pcie := { linkUp := up, trains := s.pcie.trains + 1 } } t) ∧
  (∀ s : State, s.wf = true → ∃ t, exec .hostPerstN s = .next t ∧ ShowsHold { s with pcie := { linkUp := true, trains := s.pcie.trains + 1 } } t) ∧
  (∀ s : State, s.wf = true → ∃ t, exec .d3hotEntry s = .next t ∧ ShowsHold { s with pcie := { s.pcie with d3hot := true } } t) ∧
  (∀ s : State, s.wf = true → ∃ t, exec .d3hotExit s = .next t ∧ ShowsHold { s with pcie := { s.pcie with d3hot := false } } t) ∧
  (∀ (s : State) (v : Word), s.wf = true → ∃ t, exec (.chipHold v) s = .next t ∧ ShowsHold (s.setPreg .chip 0x108 (v &&& 1)) t)

/-- For every state and vector below 2,048: with the link up, the vector's pending bit set and its mask bit clear, MSIX_PENDING_SEND answers the state with the message at the front of what left the module and that pending bit cleared, everything else unchanged. With the bit clear, the vector masked or the link down nothing changes. -/
def Obligations.PendingInterruptLeaves : Prop :=
  (∀ (s : State) (v : Nat), v < 2048 → s.pcie.linkUp = true → wbit (s.reg (0x10800 + v / 32 * 4)) (v % 32) = true →
    wbit (s.reg (0x20000 + v * 16 + 12)) 0 = false →
    exec (.msixPendingSend v) s = .next ((s.setReg (0x10800 + v / 32 * 4) (wclear (s.reg (0x10800 + v / 32 * 4)) (v % 32))).emit (.msix v))) ∧
  (∀ (s : State) (v : Nat), s.pcie.linkUp = false ∨ wbit (s.reg (0x10800 + v / 32 * 4)) (v % 32) = false ∨ wbit (s.reg (0x20000 + v * 16 + 12)) 0 = true →
    exec (.msixPendingSend v) s = .next s)

/-- DB_SQ_TAIL of a class the client has, with an index of its ring, stores the tail and clears the client's error flag; HOST_ASQ_TAIL with an index of the admin ring stores it in HOST_ASQ_TAIL. A write of 1 to DB_CQ_ARM or HOST_ACQ_ARM arms the vector while the ring is empty, and on a ring that is not empty raises it at once and leaves it unarmed. Everything else is unchanged. -/
def Obligations.DoorbellsAndArms : Prop :=
  (∀ (s : State) (c k : Nat) (v : Word) (x : Client), c < 64 → k < 4 → mget s.clients c = some x → bit x.classes k = true → wfield v 15 0 < 2 ^ x.sqLog →
    exec (.dbSqTail c k v) s = .next { s with clients := mset s.clients c { x with tails := mset x.tails k (wfield v 15 0), error := false } }) ∧
  (∀ (s : State) (v : Word), wfield v 15 0 < s.asqSize →
    exec (.hostAsqTail v) s = .next (s.setPreg .host 0x10C (BitVec.ofNat 32 (wfield v 15 0)))) ∧
  (∀ (s : State) (c : Nat) (v : Word) (x : Client), mget (mmod s.clients c (fun y => { y with armed := true })) c = some x → x.armed = true →
    (mget s.clients c).isSome = true → wbit v 0 = true →
    x.prod = ({ s with clients := mmod s.clients c (fun y => { y with armed := true }) } : State).clientCons x →
    exec (.dbCqArm c v) s = .next { s with clients := mmod s.clients c (fun y => { y with armed := true }) }) ∧
  (∀ (s : State) (v : Word), wbit v 0 = true → s.admin.prod = s.adminCons →
    exec (.hostAcqArm v) s = .next { s with admin := { s.admin with armed := true } }) ∧
  (∀ (s : State) (v : Word), wbit v 0 = true → s.admin.prod ≠ s.adminCons →
    exec (.hostAcqArm v) s = .next (({ s with admin := { s.admin with armed := false } } : State).raise (wfield (s.preg .host 0x108) 26 16)))

/-- POWER_UP of an unpowered module (before its first power, or down with the input removed) with MOD_RESET_N asserted leaves the module held, powered, untripped, with the TAP at reset; with MOD_RESET_N released it boots with reset cause 0 from that state. MOD_RESET_N_ASSERT on a module that is up: afterwards the module is held, no job, client, stream or waiting packet exists, every register is at its Reset value, every byte below the deep tier reads 0 and every byte of the deep tier keeps its value, MOD_READY, MOD_ALERT_N and THERM_TRIP_N are tri-stated, as is every output that boundary scan drove. On a held module it only records the level. MOD_RESET_N_DEASSERT lets go what boundary scan drove; a held, untripped module boots with reset cause 3; of a tripped powered one it drives THERM_TRIP_N low and nothing boots. MOD_PRESENT_N_BREAK changes nothing but the pin. -/
def Obligations.ResetPinsAndPower : Prop :=
  (∀ (s : State) (k : BootCheck), s.life = .boot ∨ (s.life = .down ∧ s.input = false) → s.resetN = true →
    exec (.powerUp k) s = .next { s with input := true, tripped := false, tap := {}, life := .held }) ∧
  (∀ (s : State) (k : BootCheck), s.life = .boot ∨ (s.life = .down ∧ s.input = false) → s.resetN = false →
    exec (.powerUp k) s = .next (({ s with input := true, tripped := false, tap := {}, life := .boot } : State).bringUp k 0 true)) ∧
  (∀ s : State, s.life = .up → ∃ t, exec .modResetNAssert s = .next t ∧ t.life = .held ∧ t.resetN = true ∧ t.jobs = [] ∧ t.clients = [] ∧ t.streams = [] ∧
    t.reqs = [] ∧ t.txHeld = [] ∧ t.regs = [] ∧ (s.wf = true → ∀ a, t.byte a = if deepBase ≤ a then s.byte a else 0) ∧
    t.out = .pin "THERM_TRIP_N" none :: .pin "MOD_ALERT_N" none :: .pin "MOD_READY" none :: ((s.tap.driven.map (fun n => Output.pin n none)).reverse ++ s.out)) ∧
  (∀ s : State, s.life = .held → exec .modResetNAssert s = .next { s with resetN := true }) ∧
  (∀ (s : State) (k : BootCheck), s.life = .held → s.tripped = false →
    exec (.modResetNDeassert k) s = .next (({ s.scanLetGo with resetN := false, life := .boot } : State).bringUp k 3 true)) ∧
  (∀ (s : State) (k : BootCheck), s.tripped = true → s.input = true →
    exec (.modResetNDeassert k) s = .next (({ s.scanLetGo with resetN := false, life := .down } : State).emit (.pin "THERM_TRIP_N" (some false)))) ∧
  (∀ s : State, exec .modPresentNBreak s = .next (s.emit (.pin "MOD_PRESENT_N" none)))

/-- On a module that is up with no transaction open or scheduled (also after the close sequence), a CHIP_RESET write of 0xA501, a function-level reset and a warm module reset send LOSS lines, complete the close sequence, keep what a warm reset keeps, let the sideband outputs go and boot with the rails kept, with reset causes 1, 2 and 4; FLR has put configuration space to its reset first. With a transaction open or scheduled, TXN_STAT then shows RESULT RESET and its interrupt is raised. Any other CHIP_RESET word changes nothing, and a module that is held or down stays as it is. A TAP reset lets go what boundary scan drove and selects IDCODE. With rail 27 up: BYPASS shifts out one 0; IDCODE shifts out the 32 bits of the identity word, least significant first; SAMPLE/PRELOAD takes the cells and shifts out (each of the three lets go what was driven) the driven sideband levels and then the levels outside; with MOD_RESET_N asserted EXTEST drives every cell, CLAMP drives every cell and shifts out a bypass 0, and HIGHZ tri-states the sideband outputs and SMB_DAT; with MOD_RESET_N released those three act as BYPASS. With the rail down nothing changes. Nothing else of the state changes. -/
def Obligations.WarmResetsAndBoundaryScan : Prop :=
  (
  (∀ (s : State) (k : BootCheck), s.life = .up → (s.sendLoss.closeDeep true).txnState ≠ 1 → (s.sendLoss.closeDeep true).txnState ≠ 3 →
    exec (.chipReset 0x0000A501 k) s = .next ((s.sendLoss.closeDeep true).warmState.showLoss.showContaining.letGo.bringUp k 1 false) ∧
    exec (.warmModuleReset k) s = .next ((s.sendLoss.closeDeep true).warmState.showLoss.showContaining.letGo.bringUp k 4 false)) ∧
  (∀ (s : State) (k : BootCheck), s.life = .up →
    ((({ s with pcie := { linkUp := s.pcie.linkUp, trains := s.pcie.trains } } : State).sendLoss.closeDeep true).txnState ≠ 1) →
    ((({ s with pcie := { linkUp := s.pcie.linkUp, trains := s.pcie.trains } } : State).sendLoss.closeDeep true).txnState ≠ 3) →
    exec (.flr k) s = .next ((({ s with pcie := { linkUp := s.pcie.linkUp, trains := s.pcie.trains } } : State).sendLoss.closeDeep true).warmState.showLoss.showContaining.letGo.bringUp k 2 false)) ∧
  (∀ (s u : State) (k : BootCheck), s.life = .up → u = s.sendLoss.closeDeep true → u.txnState = 1 ∨ u.txnState = 3 →
    exec (.chipReset 0x0000A501 k) s = .next (((u.warmState.showLoss.showContaining.letGo.bringUp k 1 false).setTxnResult 8).irq .txn 1) ∧
    exec (.warmModuleReset k) s = .next (((u.warmState.showLoss.showContaining.letGo.bringUp k 4 false).setTxnResult 8).irq .txn 1)) ∧
  (∀ (s : State) (k : BootCheck) (v : Word), v ≠ 0x0000A501 → exec (.chipReset v k) s = .next s) ∧
  (∀ (s : State) (k : BootCheck), s.life = .held ∨ s.life = .down → exec (.chipReset 0x0000A501 k) s = .next s ∧ exec (.warmModuleReset k) s = .next s)) ∧
  (
  (∀ s : State, exec .tapReset s = .next (s.scanLetGo.setIr 1)) ∧
  (∀ s : State, s.input = true →
    exec .jtagBypass s = .next ((s.scanLetGo.setIr 0).emit (.jtag [false])) ∧
    exec .jtagIdcode s = .next ((s.scanLetGo.setIr 1).emit (.jtag ((List.range 32).map (fun i => wbit s.idcode i)))) ∧
    (∀ (ins : List Bool) (cells : List (String × Bool)), exec (.jtagSamplePreload ins cells) s =
      .next (({ s.scanLetGo with tap := { ir := 2, cells := cells } } : State).emit (.jtag (s.pinLevels.filterMap (fun x => x.2) ++ ins))))) ∧
  (∀ s : State, s.input = true → s.resetN = true →
    exec .jtagExtest s = .next (({ s with tap := { s.tap with ir := 3 } } : State).driveCells) ∧
    exec .jtagClamp s = .next ((({ s with tap := { s.tap with ir := 4 } } : State).driveCells).shift1 [false]) ∧
    exec .jtagHighz s = .next (((({ s with tap := { s.tap with ir := 5 } } : State)).letGo).emit (.pin "SMB_DAT" none))) ∧
  (∀ s : State, s.resetN = false → exec .jtagExtest s = exec .jtagBypass s ∧ exec .jtagClamp s = exec .jtagBypass s ∧ exec .jtagHighz s = exec .jtagBypass s) ∧
  (∀ s : State, s.input = false → exec .jtagBypass s = .next s ∧ exec .jtagIdcode s = .next s))

/-- With no command in progress: READ of a readable type that the current copy holds puts the value into the data words and its length into SETTINGS_CMD, with result 0; outside a transaction STAGE of a writable type with a legal length and DELETE of a writable type add an entry to the staged set while the body fits, with result 0; in a transaction STAGE and DELETE add their entry to the transaction's staged set and show the settings flag; COMMIT of a body that fits sets BUSY and waits for the store; DISCARD empties the staged set, with result 0. The store serves what waits: while a copy is being prepared, or with no credit, or with nothing waiting, only WAIT_CREDIT is shown; otherwise, with no change of firmware waiting, a scheduled transaction's prepare takes the credit and begins first, and else the COMMIT's. While a command is in progress each of the five only shows result 7. COMMIT_CREDIT_EARNED counts one credit more, at most 64, sets the time to the next, and what waits is served. The end of a prepare: outside a transaction a successful one marks the new copy, empties the staged set and shows result 0, a failed one drops the copy with result 5; in a transaction a successful one writes the copy, not marked, and shows PREPARED, and a failed one drops the copy; what waits is then served. With no prepare in progress nothing changes. -/
def Obligations.SettingsStoreCommands : Prop :=
  (
  (∀ (s : State) (v : List Byte), s.settingsBusy = false → typeReadable s.settingsType = true → mget s.settings.records s.settingsType = some v →
    exec .settingsRead s = .next ((((List.range 64).foldl (fun s i => s.setPreg .settings (0x200 + 4 * i) (BitVec.ofNat 32 (getLE v (4 * i) 4))) s).putPreg
      .settings 0x108 24 16 v.length).settingsResult 0)) ∧
  (∀ s : State, s.settingsBusy = false → s.settingsInTxn = false → typeWritable s.settingsType = true → s.settingsLen ≤ 256 →
    bodyBytes (applyStaged s.settings.records (mset s.settings.staged s.settingsType (some (slice s.settingsData 0 s.settingsLen)))) ≤ 126904 →
    exec .settingsStage s = .next ((({ s with settings :=
      { s.settings with staged := mset s.settings.staged s.settingsType (some (slice s.settingsData 0 s.settingsLen)) } } : State)).settingsResult 0)) ∧
  (∀ s : State, s.settingsBusy = false → s.settingsInTxn = false → typeWritable s.settingsType = true →
    bodyBytes (applyStaged s.settings.records (mset s.settings.staged s.settingsType none)) ≤ 126904 →
    exec .settingsDelete s = .next ((({ s with settings := { s.settings with staged := mset s.settings.staged s.settingsType none } } : State)).settingsResult 0)) ∧
  (∀ (s : State) (v : Option (List Byte)) (t : State), s.settingsBusy = false → s.settingsInTxn = true → typeWritable s.settingsType = true →
    bodyBytes (applyStaged s.settings.records (mset s.settings.txnStaged s.settingsType v)) ≤ 126904 →
    t = s.setSettings (fun k => { k with txnStaged := mset k.txnStaged s.settingsType v }) →
    (v = some (slice s.settingsData 0 s.settingsLen) → s.settingsLen ≤ 256 → exec .settingsStage s = .next ((t.setPreg .txn 0x104 (wset (t.preg .txn 0x104) 17)).settingsResult 0)) ∧
    (v = none → exec .settingsDelete s = .next ((t.setPreg .txn 0x104 (wset (t.preg .txn 0x104) 17)).settingsResult 0))) ∧
  (∀ s t : State, s.settingsBusy = false → s.settingsInTxn = false → bodyBytes (applyStaged s.settings.records s.settings.staged) ≤ 126904 →
    t = (s.putStat 0 true).setSettings (fun k => { k with plainWait := true }) → exec .settingsCommit s = .next t.serveStore) ∧
  (∀ s : State, (s.settings.preparing.isSome = true → s.serveStore = s.showWait) ∧
    (s.settings.preparing = none → s.settings.fwWait = false →
      (s.credits = 0 ∨ (s.settings.txnWait = false ∧ s.settings.plainWait = false) → s.serveStore = s.showWait) ∧
      (s.credits ≠ 0 → s.settings.txnWait = true → s.serveStore = s.spendTxnCredit.showWait) ∧
      (s.credits ≠ 0 → s.settings.txnWait = false → s.settings.plainWait = true → s.serveStore = s.spendCredit.showWait))) ∧
  (∀ s : State, s.settingsBusy = false → s.settingsInTxn = false →
    exec .settingsDiscard s = .next ((({ s with settings := { s.settings with staged := [] } } : State)).settingsResult 0)) ∧
  (∀ s : State, s.settingsBusy = true → ∀ i ∈ [Instr.settingsRead, .settingsStage, .settingsDelete, .settingsCommit, .settingsDiscard],
    exec i s = .next (s.putPreg .settings 0x100 15 8 7))) ∧
  (
  (∀ s : State, exec .commitCreditEarned s = .next ((s.putPreg .settings 0x110 22 16 (min 64 (s.credits + 1))).putPreg .settings 0x110 15 0
      (if min 64 (s.credits + 1) = 64 then 0 else 600)).serveStore) ∧
  (∀ (s : State) (c : SettingsCopy), s.settings.preparing = some c → s.settings.inTxn = false →
    exec (.settingsPrepareComplete true) s = .next ((s.markCopy.setSettings (fun k => { k with staged := [] })).settingsResult 0).serveStore ∧
    exec (.settingsPrepareComplete false) s = .next (s.dropPrepare.settingsResult 5).serveStore) ∧
  (∀ (s : State) (c : SettingsCopy), s.settings.preparing = some c → s.settings.inTxn = true →
    exec (.settingsPrepareComplete true) s = .next (s.putPrepared.putStat 1 true) ∧ exec (.settingsPrepareComplete false) s = .next s.dropPrepare.serveStore) ∧
  (∀ (s : State) (ok : Bool), s.settings.preparing = none → exec (.settingsPrepareComplete ok) s = .next s))

/-- BEGIN with none open or scheduled opens the next one: the number counts up, STATE is 1, STRAY and the settings flag clear, nothing is staged; while one is open or scheduled it only shows BUSY. COMMIT of an open transaction whose staged set is legal and fits, with COMMIT_CT 0 or a legal instant, schedules it at the earliest instant or the one asked and sets STATE 3; with settings their prepare then waits for the store. ROLLBACK of an open or scheduled transaction, and a timeout reached, roll it back with results 2 and 5. At its instant a scheduled transaction whose rules still hold, whose registers stand and whose settings are prepared takes effect whole: result 1, STATE 0 or with settings 4, COMMITS counted. When the settings mark is written the copy is current, the flag that settings persist sets, and the persisting state ends. Otherwise the timeout, the instant and the mark change nothing. Writes of a window word, of PEG_CTRL, of a routing word, of ROUTE_ENDPOINT and of PWR_CAP_HOST are writes of the transactional register at that offset. Where the page is no member of transactions, a word that keeps the rules takes effect at once and one that breaks them is refused; where the page is a member, the word is staged while a transaction is open and otherwise only sets STRAY. Bits that the register does not write are dropped first. A peg value is written at once, never staged. For a job whose drain is busy and that has no admitted request left unanswered, WINDOW_DRAIN_DONE shows the drain ended and raises the window page's interrupt bit 3; while a request is unanswered, or no drain is busy, nothing changes. -/
def Obligations.Transactions : Prop :=
  (
  (∀ s : State, s.txnState ≠ 1 → s.txnState ≠ 3 →
    exec .txnBegin s = .next { (s.setPreg .txn 0x104 (wput (wput (wclear (wclear (s.preg .txn 0x104) 19) 17) 31 24
      (wfield (wclear (wclear (s.preg .txn 0x104) 19) 17) 31 24 + 1)) 3 0 1)).setPreg .txn 0x11C 0 with
        txn := { openAt := s.nowN, persisting := s.txn.persisting } }) ∧
  (∀ s : State, s.txnState = 1 ∨ s.txnState = 3 → exec .txnBegin s = .next (s.setTxnResult 10)) ∧
  (∀ (s u : State) (a : Nat), s.txnState = 1 → s.txn.full = false → s.firstBad = none →
    (s.preg64 .txn 0x108 0x10C = 0 ∧ a = s.nowN + 4096 + s.prepareBound) ∨
      (s.preg64 .txn 0x108 0x10C = a ∧ a ≠ 0 ∧ s.nowN + 4096 + s.prepareBound ≤ a ∧ a ≤ s.nowN + 14745600000) →
    u = (s.setPreg64 .txn 0x110 0x114 a).setTxnState 3 →
    (u.settings.txnStaged = [] → exec .txnCommit s = .next u) ∧
    (u.settings.txnStaged ≠ [] → exec .txnCommit s = .next (u.setSettings (fun k => { k with txnWait := true })).serveStore)) ∧
  (∀ s : State, s.txnState = 1 ∨ (s.txnState = 3 ∧ s.nowN < s.txnInstant) → exec .txnRollback s = .next (s.rollBack 2)) ∧
  (∀ s : State, s.txnState = 1 → s.txn.openAt + wfield (s.preg .txn 0x118) 15 0 * 24576 ≤ s.nowN → exec .txnTimeout s = .next (s.rollBack 5)) ∧
  (∀ s : State, s.txnState ≠ 1 → exec .txnTimeout s = .next s) ∧
  (∀ (s t u : State) (sets : Bool), s.txnState = 3 → s.txnInstant ≤ s.nowN → s.firstBad = none → (∀ e ∈ s.txn.staged, s.reg e.1 = e.2.2) →
    sets = !s.settings.txnStaged.isEmpty → sets = false ∨ (s.settings.inTxn = true ∧ wbit (s.preg .settings 0x100) 1 = true ∧ s.txn.persisting = false) →
    t = (({ s with txn := { persisting := sets || s.txn.persisting } } : State).txApply s.txn.writes).setSettings (fun k => { k with txnStaged := [] }) →
    u = ((((t.setPreg .txn 0x104 (wclear (t.preg .txn 0x104) 18)).setTxnResult 1).setTxnState (if sets then 4 else 0)).count .txn 0x124 1) →
    exec .commitInstant s = .next ((u.setPreg .txn 0x11C 0).irq .txn 1)) ∧
  (∀ s : State, s.txnState ≠ 3 → exec .commitInstant s = .next s) ∧
  (∀ s t u : State, s.txn.persisting = true →
    t = ({ s.markCopy.showSettings with txn := { s.txn with persisting := false } } : State) → u = t.setPreg .txn 0x104 (wset (t.preg .txn 0x104) 18) →
    (u.txnState = 4 → exec .txnPersisted s = .next (((u.setTxnState 0).setPreg .txn 0x104 (wclear ((u.setTxnState 0).preg .txn 0x104) 17)).irq .txn 2).serveStore) ∧
    (u.txnState ≠ 4 → exec .txnPersisted s = .next (u.irq .txn 2).serveStore)) ∧
  (∀ s : State, s.txn.persisting = false → exec .txnPersisted s = .next s)) ∧
  (
  (∀ (s : State) (j w k : Nat) (v : Word), j < 8 → w < 4096 → k < 8 → exec (.windowEntryWrite j w k v) s = .next (s.txWrite (winOff j w k) v)) ∧
  (∀ (s : State) (p : Nat) (v : Word), p < 32768 → exec (.pegCtrlWrite p v) s = .next (s.txWrite (pegOff p 1) v) ∧
    exec (.pegValueWrite p v) s = .next (s.setPeg p v.toNat)) ∧
  (∀ (s : State) (e h : Nat) (v : Word), e < 1024 → h < 2 → exec (.routeEntryWrite e h v) s = .next (s.txWrite (routeOff e + 4 * h) v)) ∧
  (∀ (s : State) (v : Word), exec (.routeEndpointWrite v) s = .next (s.txWrite (Page.route.base + 0x104) v) ∧
    exec (.capHost v) s = .next (s.txWrite (Page.pwr.base + 0x108) v)) ∧
  (∀ (s : State) (off : Nat) (v m : Word) (p : Page), txMask off = some (p, m) → wbit (s.preg p 0x008) 2 = false →
    s.txWrite off v = if s.txOk (s.overlay [(off, v &&& m)]) off then s.txApply [(off, v &&& m)] else s.refuseReg p off v) ∧
  (∀ (s : State) (off : Nat) (v m : Word) (p : Page), txMask off = some (p, m) → wbit (s.preg p 0x008) 2 = true →
    s.txWrite off v = if s.txnState = 1 then s.stageTx off (v &&& m) else s.setPreg .txn 0x104 (wset (s.preg .txn 0x104) 19))) ∧
  (
  (∀ (s : State) (j : Nat), j < 8 → wbit (s.preg .window 0x100) j = true → s.draining.any (fun d => d.1 == j) = false →
    exec (.windowDrainDone j) s = .next ((s.setPreg .window 0x100 (wclear (s.preg .window 0x100) j)).irq .window 3)) ∧
  (∀ (s : State) (j : Nat), wbit (s.preg .window 0x100) j = false ∨ s.draining.any (fun d => d.1 == j) = true → exec (.windowDrainDone j) s = .next s))

/-- With a commit possible (module up, a credit, no prepare): a committed FW_STAGE record whose slot is legal and that no check refuses fills the target slot with the image, STATE STAGING, and removes the record in a commit; one that a check refuses shows its RESULT, writes a record of code 0x303 and is removed. The end of staging with every program taken and read back, SVN not below the floor, makes the slot STAGED with RESULT 1; otherwise FAILED. A committed FW_ACTIVATE record naming a STAGED slot waits for the last job's end; with no job and the image valid the activation runs the image, enters TRIAL, removes the record and restores READY. A committed FW_CONFIRM record for the running trial slot confirms it and is removed, any other is removed with a commit of its own; 600 s after a JOB_START that the trial image completed it is confirmed. A trial failure of a module that is up and on trial sends LOSS lines, destroys the jobs, fails the slot and runs the confirmed image again; off trial nothing happens. A boot flash check that finds both slots good changes nothing; one that finds slot A bad while slot B holds an equal good image rewrites it and writes a record. In recovery a committed FW_STAGE record for slot 0 or 1 that no check refuses stages the image and restarts from it. A module that is not READY 30 s after its start enters recovery. On a module that is up and not on trial: the security processor's reset is a warm module reset and a record of code 0x304 for kind 1; the power-management core's reset begins the hold and writes the record for kind 2; the scheduler core's reset destroys the jobs, disables every host channel and writes the record for kind 3; a bay control core's reset fails that bay's control and writes the record for kind 4. On a module that is not up nothing changes. -/
def Obligations.FirmwareAndProcessors : Prop :=
  (
  (∀ (s : State) (v : List Byte) (n : Nat), s.fwRequest 0x1100 = some v → s.fwMay = true → (s.stageRecord v).2.2 = some n →
    s.stageRefusal v n true = none →
    exec .fwStage s = .next (((s.setFw n (fun _ => FwSlot.ofImage (s.readPa (getLE v 0 8) (getLE v 8 4)))).fwState n 1 0).fwSpend [(0x1100, none)])) ∧
  (∀ (s : State) (v : List Byte) (n r : Nat), s.fwRequest 0x1100 = some v → s.fwMay = true → (s.stageRecord v).2.2 = some n →
    s.stageRefusal v n true = some r → exec .fwStage s = .next (((s.fwResult n r).fwRecord 0x303 n 0).fwSpend [(0x1100, none)])) ∧
  (∀ (s : State) (n : Nat), s.stagingSlot = some n → s.fwMay = true → s.boot.floor ≤ (s.boot.slot n).svn →
    exec (.fwStageComplete true true) s = .next ((s.fwState n 2 1).fwSpend []) ∧
    exec (.fwStageComplete true false) s = .next (((s.fwState n 5 2).fwRecord 0x303 n 0).fwSpend []) ∧
    (∀ intact, exec (.fwStageComplete false intact) s = .next (((s.fwState n 5 6).fwRecord 0x303 n 0).fwSpend []))) ∧
  (∀ (s : State) (v : List Byte), s.fwRequest 0x1101 = some v → v.length = 4 → getLE v 1 3 = 0 → getLE v 0 1 < 2 →
    (s.boot.slot (getLE v 0 1)).st = 2 → exec .fwActivate s = .next { s with boot := { s.boot with activate := some (getLE v 0 1) } }) ∧
  (∀ (s : State) (k : BootCheck) (n : Nat), s.boot.activate = some n → s.fwMay = true → s.jobNums = [] → (s.boot.slot n).st = 2 →
    (if n = 0 then k.imageA else k.imageB) = true →
    exec (.activation k) s = .next (((((s.runImage n k).fwState n 3 1)).fwSpend [(0x1101, none)]).setReady ((s.runImage n k).fwState n 3 1).mayServe))) ∧
  (
  (∀ (s : State) (v : List Byte), s.fwRequest 0x1102 = some v → s.fwMay = true → v.length = 4 → getLE v 0 4 = s.boot.running → s.onTrial = true →
    exec .fwConfirm s = .next (s.confirm [(0x1102, none)])) ∧
  (∀ (s : State) (v : List Byte), s.fwRequest 0x1102 = some v → s.fwMay = true → s.onTrial = false →
    exec .fwConfirm s = .next (s.fwSpend [(0x1102, none)])) ∧
  (∀ (s : State) (t : Nat), s.boot.jobStart = some t → s.onTrial = true → s.fwMay = true → t + 14745600000 ≤ s.nowN →
    exec .trialAutoConfirm s = .next (s.confirm [])) ∧
  (∀ (s : State) (k : BootCheck), s.onTrial = true → s.life = .up →
    exec (.trialFailure k) s = .next (((((s.sendLoss.endJobs).trialFails 0).runImage ((s.sendLoss.endJobs).trialFails 0).boot.confirmed k).fwCommit []).setReady
      ((((s.sendLoss.endJobs).trialFails 0).runImage ((s.sendLoss.endJobs).trialFails 0).boot.confirmed k)).mayServe)) ∧
  (∀ (s : State) (k : BootCheck), s.onTrial = false → exec (.trialFailure k) s = .next s) ∧
  (∀ s : State, exec (.bootFlashCheck true true) s = .next s) ∧
  (∀ s : State, s.life = .up → s.boot.slotA.holds = true → s.boot.slotB.holds = true → s.boot.slotB.svn = s.boot.slotA.svn →
    s.boot.slotB.version = s.boot.slotA.version →
    exec (.bootFlashCheck false true) s = .next ((s.setFw 0 (fun f => { f with image := s.boot.slotB.image })).fwRecord 0x308 0 1)) ∧
  (∀ (s : State) (k : BootCheck) (v : List Byte), mget s.settings.records 0x1100 = some v → s.life = .recovery → getLE v 12 1 < 2 →
    s.stageRefusal v (getLE v 12 1) false = none →
    exec (.recoveryStage k) s = .next ((((((s.setFw (getLE v 12 1) (fun _ => FwSlot.ofImage (s.readPa (getLE v 0 8) (getLE v 8 4)))).fwState (getLE v 12 1) 2 1).fwCommit
      [(0x1100, none)]).warmState).showLoss.showContaining.letGo).bringUp k 4 false)) ∧
  (∀ (s : State) (k : BootCheck), s.life = .boot → s.boot.since + 737280000 ≤ s.nowN →
    ∃ t, t = s.loadSettings k.copyA k.copyB ∧
      exec (.readyTimeout k) s = .next ((t.fwRecord 0x307 t.boot.running 0).recovery k (BitVec.ofNat 32 (t.boot.slot t.boot.running).version))) ∧
  (∀ (s : State) (k : BootCheck), s.life = .up → exec (.readyTimeout k) s = .next s)) ∧
  (
  (∀ (s : State) (n : Nat) (k : BootCheck), s.life = .up → s.onTrial = false →
    exec (.controlProcessorReset 0 n k) s = .next ((s.warmReset 4 k).fwRecord 0x304 s.boot.running 1) ∧
    exec (.controlProcessorReset 1 n k) s = .next (s.holdBegins.fwRecord 0x304 s.boot.running 2) ∧
    exec (.controlProcessorReset 2 n k) s = .next s.schedulerReset ∧
    exec (.controlProcessorReset 3 n k) s = .next ((s.controlFails n 5).fwRecord 0x304 s.boot.running 4)) ∧
  (∀ (s : State) (kind n : Nat) (k : BootCheck), s.life ≠ .up → exec (.controlProcessorReset kind n k) s = .next s))

/-- For every state in canonical form and every BAR0 offset of a BLK_IRQ_FORCE: the command completes, BLK_IRQ_RAW of that page holds its old bits with each bit of the value that the page uses set, only MSI-X messages leave, and beside BLK_IRQ_RAW only pending bits of the MSI-X PBA may differ; where no enabled bit goes from 0 to 1, the PBA stands too and nothing leaves. At a BLK_IRQ_RAW offset the re-arm of ERROR clears BLK_STAT.ERROR and BLK_IRQ_RAW.ERROR of the page and changes nothing else. At any other offset neither command changes anything. -/
def Obligations.InterruptWordsOfAPage : Prop :=
  (∀ (s : State) (off : Nat) (v : Word) (p : Page), s.wf = true → Page.ofOffset off = some (p, 0x018) →
    ∃ t, exec (.blkIrqForce off v) s = .next t ∧ RaisesIrq s t p (s.preg p 0x010 ||| (v &&& maskBits (p.irqBits - 1) 0)) ∧
      ((s.preg p 0x010 ||| (v &&& maskBits (p.irqBits - 1) 0)) &&& s.preg p 0x014 = s.preg p 0x010 &&& s.preg p 0x014 →
        t.out = s.out ∧ ∀ o : Nat, o ≠ p.base + 0x010 → t.reg o = s.reg o)) ∧
  (∀ (s : State) (off : Nat) (p : Page), s.wf = true → Page.ofOffset off = some (p, 0x010) →
    ∃ t, exec (.blkIrqErrorRearm off) s = .next t ∧ t.preg p 0x00C = wclear (s.preg p 0x00C) 2 ∧ t.preg p 0x010 = wclear (s.preg p 0x010) p.errorBit ∧
      RegsBut s t [p.base + 0x00C, p.base + 0x010] ∧ t.rest = s.rest ∧ Silent s t) ∧
  (∀ (s : State) (off : Nat) (v : Word), (∀ p, Page.ofOffset off ≠ some (p, 0x018)) → exec (.blkIrqForce off v) s = .next s) ∧
  (∀ (s : State) (off : Nat), (∀ p, Page.ofOffset off ≠ some (p, 0x010)) → exec (.blkIrqErrorRearm off) s = .next s)

/-- HOST_ACFG_ENABLE with sizes, vector and ring bases legal, on rings not enabled, stores the word, sets HOST_ASQ_HEAD and HOST_ASQ_TAIL to 0, writes the control slot of the admin completion ring with both indices at 1 and starts an empty ring; with a field illegal it stores the word with ENABLE 0 and refuses it. RING_SEL with no job and a level between the module's lowest and highest stores the level; any other value, or any while a job exists, is refused. A backlog drain of an admin ring with an empty backlog only checks the armed vector; one whose first record ends a run and fits writes that record alone when nothing else waits. -/
def Obligations.AdminRingsAndLevel : Prop :=
  (∀ (s : State) (v : Word), wbit v 31 = true → wbit (s.preg .host 0x108) 31 = false → s.acfgOk (v &&& 0x87FF1F1F) = true →
    ∃ u : State, u = ((s.setPreg .host 0x108 (v &&& 0x87FF1F1F)).setPreg .host 0x110 0).setPreg .host 0x10C 0 ∧
      exec (.hostAcfgEnable v) s = .next { u.rawWrite u.acqBase (leBytes 8 1 ++ leBytes 8 1 ++ leBytes 16 0) with admin := {} }) ∧
  (∀ (s : State) (v : Word), wbit v 31 = true → wbit (s.preg .host 0x108) 31 = false → s.acfgOk (v &&& 0x87FF1F1F) = false →
    exec (.hostAcfgEnable v) s = .next ((s.setPreg .host 0x108 (wclear (v &&& 0x87FF1F1F) 31)).refuseReg .host 0x10108 v)) ∧
  (∀ (s : State) (v : Word), s.anyJob = false → wfield (s.preg .chip 0x114) 7 0 ≤ wfield v 23 16 → wfield v 23 16 ≤ wfield (s.preg .chip 0x114) 15 8 →
    exec (.ringSel v) s = .next (s.setPreg .chip 0x114 (wput (s.preg .chip 0x114) 23 16 (wfield v 23 16)))) ∧
  (∀ (s : State) (v : Word), s.anyJob = true ∨ wfield v 23 16 < wfield (s.preg .chip 0x114) 7 0 ∨ wfield (s.preg .chip 0x114) 15 8 < wfield v 23 16 →
    exec (.ringSel v) s = .next (s.refuseReg .chip 0x114 v)) ∧
  (∀ s : State, s.admin.backlog = [] → exec (.completionBacklogDrain .admin) s = .next s.adminArm) ∧
  (∀ (s : State) (r : List Byte), s.admin.backlog = [r] → 1 ≤ ringRoom s.acqSize s.admin.prod s.adminCons →
    ∃ u : State, u = s.adminPut r ∧
      exec (.completionBacklogDrain .admin) s = .next ({ u with admin := { u.admin with backlog := [] } } : State).adminArm)

/-- An access that is not 32-bit aligned or lies beyond BAR0 stops under its own name. A module without power, in reset or with the link down ignores both. At a reserved offset of a served page the write is ignored, the read returns 0, and both set CHIP_STAT.UNMAPPED. A write of BLK_ERR_MASK stores its low 16 bits; a write of BLK_IRQ_EN stores the bits the page uses, raising what it newly enables; a write to a block register of a gated bay's page changes nothing. A read of CADENCE_COUNT_LO returns the low half and arms the latch with the high half of the same count; the next read of the high half returns the latched word and disarms it. A page in recovery that is not served reads 0 and sets UNMAPPED. -/
def Obligations.RegisterAccesses : Prop :=
  (∀ (s : State) (off : Nat) (v : Word) (k : BootCheck), barOffset off = false →
    exec (.registerWrite off v k) s = .fault (.badRegisterAccess off) ∧ exec (.registerRead off) s = .fault (.badRegisterAccess off)) ∧
  (∀ (s : State) (off : Nat) (v : Word) (k : BootCheck), barOffset off = true → s.answers = false →
    exec (.registerWrite off v k) s = .next s ∧ exec (.registerRead off) s = .next s) ∧
  (∀ (s : State) (off : Nat) (v : Word) (k : BootCheck), barOffset off = true → s.answers = true → s.serves off = false →
    exec (.registerWrite off v k) s = .next s.unmapped ∧ exec (.registerRead off) s = .next (s.unmapped.emit (.readWord off 0))) ∧
  (∀ (s : State) (off : Nat) (v : Word) (k : BootCheck) (p : Page) (r : Nat), barOffset off = true → s.answers = true → s.serves off = true →
    Page.ofOffset off = some (p, r) → p.row r = none →
    exec (.registerWrite off v k) s = .next s.unmapped ∧ exec (.registerRead off) s = .next (s.unmapped.emit (.readWord off 0))) ∧
  (∀ (s : State) (off : Nat) (v : Word) (k : BootCheck) (p : Page), barOffset off = true → s.answers = true → s.serves off = true →
    (Page.ofOffset off = some (p, 0x02C) → exec (.registerWrite off v k) s = .next (s.setPreg p 0x02C (v &&& 0xFFFF))) ∧
    (Page.ofOffset off = some (p, 0x014) →
      exec (.registerWrite off v k) s = .next (s.setIrq p (s.preg p 0x010) (v &&& maskBits (p.irqBits - 1) 0)))) ∧
  (∀ (s : State) (off : Nat) (v : Word) (k : BootCheck) (p : Page) (r : Nat), barOffset off = true → s.answers = true → s.serves off = true →
    Page.ofOffset off = some (p, r) → 0x30 ≤ r → (p.row r).isSome = true → s.pageGated p = true → exec (.registerWrite off v k) s = .next s) ∧
  (∀ s : State, s.answers = true → s.serves 0x2100 = true →
    exec (.registerRead 0x2100) s = .next (({ s with hiLatch := mset s.hiLatch 0x2104 (hi32 s.nowN) } : State).emit (.readWord 0x2100 (lo32 s.nowN)))) ∧
  (∀ (s : State) (w : Word), s.answers = true → s.serves 0x2104 = true → mget s.hiLatch 0x2104 = some w →
    exec (.registerRead 0x2104) s = .next (({ s with hiLatch := mdel s.hiLatch 0x2104 } : State).emit (.readWord 0x2104 w)))

/-- An access that reaches beyond the BAR stops under its own name; a module that does not answer ignores it. A store whose bytes all lie in the main tier and outside the error log reaches memory at HOST_BAR2_BASE times 1 GiB plus the offset. A read of lines none of which is poisoned returns the bytes in memory, without the Poisoned TLP bit; a read wholly beyond the main tier returns ones and sets CHIP_STAT.UNMAPPED; a store wholly in the error log is discarded and sets it. -/
def Obligations.HostWindowOntoMemory : Prop :=
  (∀ (s : State) (x n : Nat), 2 ^ s.pcie.bar2Log < x + n → exec (.bar2Access x n none) s = .fault (.badBar2Access x)) ∧
  (∀ (s : State) (x n : Nat) (bs : List Byte), 2 ^ s.pcie.bar2Log < x + bs.length → exec (.bar2Access x n (some bs)) s = .fault (.badBar2Access x)) ∧
  (∀ (s : State) (x n : Nat), x + n ≤ 2 ^ s.pcie.bar2Log → s.answers = false → exec (.bar2Access x n none) s = .next s) ∧
  (∀ (s : State) (x n a : Nat) (bs : List Byte), x + bs.length ≤ 2 ^ s.pcie.bar2Log → s.answers = true → a = s.bar2Target x → a + bs.length ≤ bar2End →
    a + bs.length ≤ logBase ∨ logEnd ≤ a → exec (.bar2Access x n (some bs)) s = .next ((s.served a bs.length).writePa a bs)) ∧
  (∀ (s : State) (x n a : Nat), x + n ≤ 2 ^ s.pcie.bar2Log → s.answers = true → a = s.bar2Target x → 0 < n → a + n ≤ bar2End →
    (∀ l ∈ s.poison, l < a / 128 ∨ (a + n - 1) / 128 < l) →
    exec (.bar2Access x n none) s = .next ((s.served a n).emit (.readBar2 x (s.readPa a n) false))) ∧
  (∀ (s : State) (x n : Nat), x + n ≤ 2 ^ s.pcie.bar2Log → s.answers = true → 0 < n → bar2End ≤ s.bar2Target x →
    exec (.bar2Access x n none) s = .next (s.unmapped.emit (.readBar2 x (List.replicate n 0xFF) false))) ∧
  (∀ (s : State) (x n : Nat) (bs : List Byte), x + bs.length ≤ 2 ^ s.pcie.bar2Log → s.answers = true → 0 < bs.length →
    logBase ≤ s.bar2Target x → s.bar2Target x + bs.length ≤ logEnd → exec (.bar2Access x n (some bs)) s = .next s.unmapped)

/-- While READY is 1 and a ring is the one whose turn it is: an entry whose opcode may stand there at the module's level and whose header is legal is taken: HEAD advances, HOST_ENTRY_COUNT counts it, and the entry's command runs. An entry whose opcode is reserved, stands in the wrong kind of ring or needs a higher interface level completes with REFUSED_OPCODE; one with an illegal header completes with REFUSED_INVALID and DETAIL the byte offset, and nothing else happens, whichever of the 24 ring commands took it (that any may is the model's choice, log 21). A ring command that is not what happens next changes nothing (the model's choice, log 10). -/
def Obligations.TakingAnEntry : Prop :=
  (∀ (s : State) (r : Ring) (op job : Nat) (bs : List Byte) (e : Entry) (t : State), s.ready = true → s.nextRing = some r → s.headEntry r = some (bs, job) →
    e = ⟨r, bs, job⟩ → t = (s.advanceHead r).count64 .host 0x130 0x134 1 →
    ((if e.isAdmin then opcodeRings e.opcode % 2 = 0 else opcodeRings e.opcode < 2) ∨ (bit (e.f 1 1) 0 = true ∧ s.ringLevel < 2) →
      s.takeEntry r op = some (t.complete e stOpcode, none)) ∧
    ((if e.isAdmin then opcodeRings e.opcode % 2 = 1 else 2 ≤ opcodeRings e.opcode) → (bit (e.f 1 1) 0 = false ∨ 2 ≤ s.ringLevel) → e.opcode = op →
      (∀ o, headerBad e s.ringLevel = some o → s.takeEntry r op = some (t.complete e stInvalid o, none)) ∧
      (headerBad e s.ringLevel = none → s.takeEntry r op = some (t, some e)))) ∧
  (∀ (s : State) (r : Ring), s.takeEntry r 0x00 = none → exec (.ringNop r) s = .next s) ∧
  (∀ (s : State) (r : Ring), s.takeEntry r 0x01 = none → exec (.jobCreate r) s = .next s) ∧
  (∀ (s : State) (r : Ring), s.takeEntry r 0x02 = none → exec (.jobStart r) s = .next s) ∧
  (∀ (s : State) (r : Ring), s.takeEntry r 0x03 = none → exec (.jobDestroy r) s = .next s) ∧
  (∀ (s : State) (r : Ring), s.takeEntry r 0x04 = none → exec (.clientCreate r) s = .next s) ∧
  (∀ (s : State) (r : Ring), s.takeEntry r 0x05 = none → exec (.clientDestroy r) s = .next s) ∧
  (∀ (s : State) (r : Ring), s.takeEntry r 0x10 = none → exec (.mapPages r) s = .next s) ∧
  (∀ (s : State) (r : Ring), s.takeEntry r 0x11 = none → exec (.unmapPages r) s = .next s) ∧
  (∀ (s : State) (r : Ring), s.takeEntry r 0x12 = none → exec (.migrateHint r) s = .next s) ∧
  (∀ (s : State) (r : Ring), s.takeEntry r 0x20 = none → exec (.recipeSwitch r) s = .next s) ∧
  (∀ (s : State) (r : Ring), s.takeEntry r 0x21 = none → exec (.placementSwitch r) s = .next s) ∧
  (∀ (s : State) (r : Ring), s.takeEntry r 0x22 = none → exec (.levelChange r) s = .next s) ∧
  (∀ (s : State) (r : Ring), s.takeEntry r 0x30 = none → exec (.openStream r) s = .next s) ∧
  (∀ (s : State) (r : Ring), s.takeEntry r 0x31 = none → exec (.parkStream r) s = .next s) ∧
  (∀ (s : State) (r : Ring), s.takeEntry r 0x32 = none → exec (.resumeStream r) s = .next s) ∧
  (∀ (s : State) (r : Ring), s.takeEntry r 0x33 = none → exec (.closeStream r) s = .next s) ∧
  (∀ (s : State) (r : Ring), s.takeEntry r 0x34 = none → exec (.parkList r) s = .next s) ∧
  (∀ (s : State) (r : Ring), s.takeEntry r 0x35 = none → exec (.parkDelete r) s = .next s) ∧
  (∀ (s : State) (r : Ring), s.takeEntry r 0x40 = none → exec (.run r) s = .next s) ∧
  (∀ (s : State) (r : Ring), s.takeEntry r 0x50 = none → exec (.fetch r) s = .next s) ∧
  (∀ (s : State) (r : Ring), s.takeEntry r 0x51 = none → exec (.swap r) s = .next s) ∧
  (∀ (s : State) (r : Ring), s.takeEntry r 0x52 = none → exec (.weightLoad r) s = .next s) ∧
  (∀ (s : State) (r : Ring), s.takeEntry r 0x53 = none → exec (.promote r) s = .next s) ∧
  (∀ (s : State) (r : Ring), s.takeEntry r 0x54 = none → exec (.weightStatus r) s = .next s) ∧
  (∀ (s t : State) (r : Ring), s.takeEntry r 0x00 = some (t, none) → exec (.ringNop r) s = .next t) ∧
  (∀ (s t : State) (r : Ring), s.takeEntry r 0x01 = some (t, none) → exec (.jobCreate r) s = .next t) ∧
  (∀ (s t : State) (r : Ring), s.takeEntry r 0x02 = some (t, none) → exec (.jobStart r) s = .next t) ∧
  (∀ (s t : State) (r : Ring), s.takeEntry r 0x03 = some (t, none) → exec (.jobDestroy r) s = .next t) ∧
  (∀ (s t : State) (r : Ring), s.takeEntry r 0x04 = some (t, none) → exec (.clientCreate r) s = .next t) ∧
  (∀ (s t : State) (r : Ring), s.takeEntry r 0x05 = some (t, none) → exec (.clientDestroy r) s = .next t) ∧
  (∀ (s t : State) (r : Ring), s.takeEntry r 0x10 = some (t, none) → exec (.mapPages r) s = .next t) ∧
  (∀ (s t : State) (r : Ring), s.takeEntry r 0x11 = some (t, none) → exec (.unmapPages r) s = .next t) ∧
  (∀ (s t : State) (r : Ring), s.takeEntry r 0x12 = some (t, none) → exec (.migrateHint r) s = .next t) ∧
  (∀ (s t : State) (r : Ring), s.takeEntry r 0x20 = some (t, none) → exec (.recipeSwitch r) s = .next t) ∧
  (∀ (s t : State) (r : Ring), s.takeEntry r 0x21 = some (t, none) → exec (.placementSwitch r) s = .next t) ∧
  (∀ (s t : State) (r : Ring), s.takeEntry r 0x22 = some (t, none) → exec (.levelChange r) s = .next t) ∧
  (∀ (s t : State) (r : Ring), s.takeEntry r 0x30 = some (t, none) → exec (.openStream r) s = .next t) ∧
  (∀ (s t : State) (r : Ring), s.takeEntry r 0x31 = some (t, none) → exec (.parkStream r) s = .next t) ∧
  (∀ (s t : State) (r : Ring), s.takeEntry r 0x32 = some (t, none) → exec (.resumeStream r) s = .next t) ∧
  (∀ (s t : State) (r : Ring), s.takeEntry r 0x33 = some (t, none) → exec (.closeStream r) s = .next t) ∧
  (∀ (s t : State) (r : Ring), s.takeEntry r 0x34 = some (t, none) → exec (.parkList r) s = .next t) ∧
  (∀ (s t : State) (r : Ring), s.takeEntry r 0x35 = some (t, none) → exec (.parkDelete r) s = .next t) ∧
  (∀ (s t : State) (r : Ring), s.takeEntry r 0x40 = some (t, none) → exec (.run r) s = .next t) ∧
  (∀ (s t : State) (r : Ring), s.takeEntry r 0x50 = some (t, none) → exec (.fetch r) s = .next t) ∧
  (∀ (s t : State) (r : Ring), s.takeEntry r 0x51 = some (t, none) → exec (.swap r) s = .next t) ∧
  (∀ (s t : State) (r : Ring), s.takeEntry r 0x52 = some (t, none) → exec (.weightLoad r) s = .next t) ∧
  (∀ (s t : State) (r : Ring), s.takeEntry r 0x53 = some (t, none) → exec (.promote r) s = .next t) ∧
  (∀ (s t : State) (r : Ring), s.takeEntry r 0x54 = some (t, none) → exec (.weightStatus r) s = .next t)

/-- NOP with its payload zero completes DONE and changes nothing else; a payload byte that is not zero completes REFUSED_INVALID with its offset. CLIENT_CREATE with every field legal, a free client number and a job that is not being destroyed writes the ring's control slot with both indices at 1, adds the client with empty rings and completes DONE; an existing client completes REFUSED_BUSY; no such job completes REFUSED_JOB. CLIENT_DESTROY of an existing client with no stream marks it as being destroyed, so that no further entry of it is taken; once every entry it had handed over has posted its first completion the client is gone and the destroy completes DONE on the admin ring, at once where none is waiting. With a stream it completes REFUSED_BUSY, of no client REFUSED_INVALID at 16. -/
def Obligations.EntriesForClients : Prop :=
  (∀ (s t : State) (r : Ring) (e : Entry), s.takeEntry r 0x00 = some (t, some e) →
    (reservedBad e.bytes [(16, 48)] = none → exec (.ringNop r) s = .next (t.complete e stDone)) ∧
    (∀ o, reservedBad e.bytes [(16, 48)] = some o → exec (.ringNop r) s = .next (t.complete e stInvalid o))) ∧
  (∀ (s t : State) (r : Ring) (e : Entry), s.takeEntry r 0x04 = some (t, some e) → e.f 16 1 < 64 → e.f 17 1 < 8 → t.job (e.f 17 1) = none →
    exec (.clientCreate r) s = .next (t.complete e stJob)) ∧
  (∀ (s t u : State) (r : Ring) (e : Entry) (j : Job), s.takeEntry r 0x04 = some (t, some e) → e.f 16 1 < 64 → e.f 17 1 < 8 → t.job (e.f 17 1) = some j →
    0 < e.f 18 1 → e.f 18 1 < 16 → 6 ≤ e.f 19 1 → e.f 19 1 ≤ 16 → 6 ≤ e.f 20 1 → e.f 20 1 ≤ 16 →
    (j.phase = .loading ∨ ringHolds (e.f 20 1) j.passMax = true) → e.f 21 3 = 0 → e.f 24 8 % 64 = 0 →
    (∀ k, k < 4 → bit (e.f 18 1) k = true → t.firmRange (e.f 17 1) (e.f 24 8 + k * 64 * 2 ^ e.f 19 1) (64 * 2 ^ e.f 19 1) false = true) →
    e.f 32 8 % 32 = 0 → t.firmRange (e.f 17 1) (e.f 32 8) (32 * 2 ^ e.f 20 1) true = true → e.f 40 8 % 128 = 0 →
    t.firmRange (e.f 17 1) (e.f 40 8) 128 true = true → e.f 48 16 = 0 →
    (mget t.clients (e.f 16 1) = none → j.phase ≠ .destroying →
      t.writeVa (e.f 17 1) (e.f 32 8) (leBytes 4 1 ++ leBytes 4 0 ++ leBytes 4 1 ++ leBytes 20 0) = .ok u →
      exec (.clientCreate r) s = .next ({ u with clients := mset u.clients (e.f 16 1) { job := e.f 17 1, classes := e.f 18 1, sqLog := e.f 19 1, cqLog := e.f 20 1, sqBase := e.f 24 8, cqBase := e.f 32 8, acct := e.f 40 8 } }.complete e stDone)) ∧
    ((mget t.clients (e.f 16 1)).isSome = true → exec (.clientCreate r) s = .next (t.complete e stBusy))) ∧
  (∀ (s t : State) (r : Ring) (e : Entry), s.takeEntry r 0x05 = some (t, some e) →
    (∀ (x : Client) (u : State), mget t.clients (e.f 16 1) = some x → x.dying = none → reservedBad e.bytes [(17, 47)] = none →
      (t.streams.any (fun x => x.2.client == e.f 16 1) = true → exec (.clientDestroy r) s = .next (t.complete e stBusy)) ∧
      (t.streams.any (fun x => x.2.client == e.f 16 1) = false → u = { t with clients := mset t.clients (e.f 16 1) { x with dying := some e.cookie } } →
        exec (.clientDestroy r) s = .next (u.reapClient (e.f 16 1)))) ∧
    (mget t.clients (e.f 16 1) = none → exec (.clientDestroy r) s = .next (t.complete e stInvalid 16))) ∧
  (∀ (s : State) (c k : Nat) (x : Client), mget s.clients c = some x → x.dying = some k →
    ((∀ w ∈ x.waiting, w.2 = 0) → s.reapClient c = (({ s with clients := mdel s.clients c } : State).adminPost [Comp.bytes { opcode := 0x05, cookie := k }]).adminDone) ∧
    ((∃ w ∈ x.waiting, w.2 ≠ 0) → s.reapClient c = s))

/-- JOB_CREATE of a free job number whose block lies in the host region, whose model slot is READY, whose manifest and fields are legal and whose ranges find room: the job exists in phase loading with the block, the manifest and the level of the block, its ranges are mapped, each bay partition is assigned (free values, log 102), the registers show it and the entry completes DONE. A number in use completes REFUSED_BUSY, a block outside the host region REFUSED_INVALID at 16, a slot not READY REFUSED_SLOT. JOB_START of a loading job with a start at least 24,576 ct ahead that no check refuses makes it serving with that start, writes the initial recipe bank, the misroute ring's control slot and the bank registers, and completes DONE with the start in RESULT; one too near completes REFUSED_LATE, one of a job not loading REFUSED_JOB. JOB_DESTROY of a job that is not being destroyed, with its reserved bytes zero, sets the job's phase to destroying with EFFECTIVE_CT and the entry's ring and cookie, shows it, and posts no completion yet; of no job, or one already being destroyed, it completes REFUSED_JOB. JOB_DESTRUCTION destroys the one job whose last pass before EFFECTIVE_CT is behind it, and changes nothing while no job is due. -/
def Obligations.JobLife : Prop :=
  (
  (∀ (s t u v : State) (r : Ring) (e : Entry) (j : Job) (blk m : List Byte), s.takeEntry r 0x01 = some (t, some e) → t.job e.jobNum = none →
    e.f 16 8 % 4096 = 0 → inHostRegion (e.f 16 8) 4096 = true → reservedBad e.bytes [(24, 40)] = none → blk = t.readPa (e.f 16 8) 4096 →
    getLE blk 89 1 ≤ 1 → (t.gslot (getLE blk 89 1)).st = 2 → m = t.slotManifest (getLE blk 89 1) → manifestBad m = none →
    t.jobs.any (fun x => manTag x.2.manifest != manTag m) = false →
    (getLE blk 90 1 = 255 ∨ (getLE blk 90 1 < secCount m 1 ∧ (manPart m (getLE blk 90 1)).kind = 1)) → 2 ≤ getLE blk 91 1 → getLE blk 91 1 ≤ 3 →
    getLE blk 92 1 < 64 → t.jobs.any (fun x => x.2.slice == getLE blk 92 1) = false →
    j = { block := blk, manifest := m, myMember := getLE blk 112 2, priv := if getLE blk 90 1 = 255 then none else some (getLE blk 90 1), level := { active := getLE blk 91 1 } } →
    t.membersBad e.jobNum j = none → ((t.grantLines.setJob e.jobNum j).needTable (level1Key e.jobNum)).mapRanges e.jobNum j (manRanges m) = some u →
    u.bankTrips e.jobNum j = none → v = ({ u with rrc := u.rrc.filter (fun x => rrcJobOf x.1 != e.jobNum) } : State).staleReads (fun _ k => k == e.jobNum) →
    exec (.jobCreate r) s = .next ((((((if v.power.hold = none then v.setPreg .media 0x100 (wclear (v.preg .media 0x100) 30) else v).assignPartitions e.jobNum).showJob
      e.jobNum).showFree).complete e stDone))) ∧
  (∀ (s t : State) (r : Ring) (e : Entry), s.takeEntry r 0x01 = some (t, some e) →
    ((t.job e.jobNum).isSome = true → exec (.jobCreate r) s = .next (t.complete e stBusy)) ∧
    (t.job e.jobNum = none → inHostRegion (e.f 16 8) 4096 = false → exec (.jobCreate r) s = .next (t.complete e stInvalid 16)) ∧
    (t.job e.jobNum = none → e.f 16 8 % 4096 = 0 → inHostRegion (e.f 16 8) 4096 = true → reservedBad e.bytes [(24, 40)] = none →
      getLE (t.readPa (e.f 16 8) 4096) 89 1 ≤ 1 → (t.gslot (getLE (t.readPa (e.f 16 8) 4096) 89 1)).st ≠ 2 →
      exec (.jobCreate r) s = .next (t.complete e stSlot))) ∧
  (∀ (s t u v : State) (r : Ring) (e : Entry) (j : Job), s.takeEntry r 0x02 = some (t, some e) → t.job e.jobNum = some j →
    (j.phase ≠ .loading → exec (.jobStart r) s = .next (t.complete e stJob)) ∧
    (j.phase = .loading → reservedBad e.bytes [(24, 40)] = none → e.f 16 8 < t.nowN + 24576 → exec (.jobStart r) s = .next (t.complete e stLate)) ∧
    (j.phase = .loading → reservedBad e.bytes [(24, 40)] = none → t.nowN + 24576 ≤ e.f 16 8 → firstFail (t.blockChecks e.jobNum j) = none →
      t.clients.any (fun c => c.2.job == e.jobNum && !ringHolds c.2.cqLog j.passMax) = false → t.recipeAreasBad e.jobNum j = none →
      initRecipesBad j.manifest = none → t.placementBad e.jobNum j = none →
      u = t.setJob e.jobNum { j with phase := .serving, startCt := e.f 16 8, misProd := 1, formAt := if j.standby then none else some (max t.nowN (e.f 16 8 - j.formCt)) } →
      v = { u with boot := { u.boot with jobStart := some (u.boot.jobStart.getD u.nowN) } } →
      exec (.jobStart r) s = .next (((v.startWrites e.jobNum j).showJob e.jobNum).complete e stDone 0 (leBytes 8 (e.f 16 8)))))) ∧
  (
  (∀ (s t : State) (r : Ring) (e : Entry) (j : Job), s.takeEntry r 0x03 = some (t, some e) → t.job e.jobNum = some j →
    (j.phase ≠ .destroying → reservedBad e.bytes [(24, 40)] = none →
      exec (.jobDestroy r) s = .next ((t.setJob e.jobNum { j with phase := .destroying, destroy := some { ring := e.ring, cookie := e.cookie, effective := e.f 16 8 } }).showJob e.jobNum)) ∧
    (j.phase = .destroying → exec (.jobDestroy r) s = .next (t.complete e stJob))) ∧
  (∀ (s t : State) (r : Ring) (e : Entry), s.takeEntry r 0x03 = some (t, some e) → t.job e.jobNum = none → exec (.jobDestroy r) s = .next (t.complete e stJob)) ∧
  (∀ (s : State) (n : Nat) (j : Job), s.jobNums = [n] → s.job n = some j → s.destroyDue j = true → exec .jobDestruction s = .next (s.destroyJob n)) ∧
  (∀ s : State, (∀ n j, n ∈ s.jobNums → s.job n = some j → s.destroyDue j = false) → exec .jobDestruction s = .next s))

/-- Each entry for a serving job with a legal value, no switch of its kind pending, an effective count at least 24,576 ct ahead and, for a bank, contents that no check refuses: the switch is pending on the job with its value and count, the registers show it, and no completion is posted yet. A job not serving completes REFUSED_JOB, an illegal value REFUSED_INVALID at 16, a count too near REFUSED_LATE. -/
def Obligations.Switches : Prop :=
  (∀ (s t : State) (r : Ring) (e : Entry) (j : Job), s.takeEntry r 0x20 = some (t, some e) → t.job e.jobNum = some j →
    (j.phase ≠ .serving → exec (.recipeSwitch r) s = .next (t.complete e stJob)) ∧
    (j.phase = .serving → 2 ≤ e.f 16 1 → exec (.recipeSwitch r) s = .next (t.complete e stInvalid 16)) ∧
    (j.phase = .serving → e.f 16 1 < 2 → reservedBad e.bytes [(17, 7), (32, 32)] = none → j.recipe.pending = none →
      (e.f 24 8 < t.nowN + 24576 → exec (.recipeSwitch r) s = .next (t.complete e stLate)) ∧
      (t.nowN + 24576 ≤ e.f 24 8 → t.recipesBad e.jobNum j (e.f 16 1) = none → exec (.recipeSwitch r) s = .next
        ((t.setJob e.jobNum { j with recipe := { j.recipe with pending := some { ring := e.ring, cookie := e.cookie, value := e.f 16 1, effective := e.f 24 8 } } }).showBank e.jobNum)))) ∧
  (∀ (s t : State) (r : Ring) (e : Entry) (j : Job), s.takeEntry r 0x21 = some (t, some e) → t.job e.jobNum = some j →
    (j.phase ≠ .serving → exec (.placementSwitch r) s = .next (t.complete e stJob)) ∧
    (j.phase = .serving → 2 ≤ e.f 16 1 → exec (.placementSwitch r) s = .next (t.complete e stInvalid 16)) ∧
    (j.phase = .serving → e.f 16 1 < 2 → reservedBad e.bytes [(17, 7), (32, 32)] = none → j.placement.pending = none →
      (e.f 24 8 < t.nowN + 24576 → exec (.placementSwitch r) s = .next (t.complete e stLate)) ∧
      (t.nowN + 24576 ≤ e.f 24 8 → t.bankBad e.jobNum j (j.bankVa (e.f 16 1)) t.endpoint = none → exec (.placementSwitch r) s = .next
        ((t.setJob e.jobNum { j with placement := { j.placement with pending := some { ring := e.ring, cookie := e.cookie, value := e.f 16 1, effective := e.f 24 8 } } }).showBank e.jobNum)))) ∧
  (∀ (s t : State) (r : Ring) (e : Entry) (j : Job), s.takeEntry r 0x22 = some (t, some e) → t.job e.jobNum = some j →
    (j.phase ≠ .serving → exec (.levelChange r) s = .next (t.complete e stJob)) ∧
    (j.phase = .serving → 3 < e.f 16 1 → exec (.levelChange r) s = .next (t.complete e stInvalid 16)) ∧
    (j.phase = .serving → 2 ≤ e.f 16 1 → e.f 16 1 ≤ 3 → reservedBad e.bytes [(17, 7), (32, 32)] = none → j.level.pending = none →
      (e.f 24 8 < t.nowN + 24576 → exec (.levelChange r) s = .next (t.complete e stLate)) ∧
      (t.nowN + 24576 ≤ e.f 24 8 → exec (.levelChange r) s = .next
        ((t.setJob e.jobNum { j with level := { j.level with pending := some { ring := e.ring, cookie := e.cookie, value := e.f 16 1, effective := e.f 24 8 } } }).showBank e.jobNum))))

/-- OPEN from a client of a serving job, naming a free stream number and a mapped descriptor whose fields, buffers and first deadline are legal, with RESUME_KEY 0: the stream stands in the table active with the descriptor's bytes, its job, client and frame duration filled in, and the entry completes OPENED. A number in use completes REFUSED_BUSY, a descriptor field outside Table 10-6 REFUSED_INVALID with its offset, a first deadline nearer than 24,576 ct REFUSED_LATE, a park key that names no set REFUSED_MISSING, a job not serving REFUSED_JOB. For a serving job and a stream of it: PARK of an active stream with a key that is not 0 makes it parking with that key and RELEASE, CLOSE of an active, parking or parked stream makes it closing (a parking one closes after its park), RESUME of a parked stream with frames for its tail and a first deadline at least 24,576 ct ahead makes it resuming with the new deadline and stages its tail pages; each remembers ring and cookie and posts no completion yet. PARK of a stream not active, RESUME of one not parked and CLOSE of one closing or resuming complete REFUSED_STATE; a deadline too near completes REFUSED_LATE. -/
def Obligations.StreamLife : Prop :=
  (
  (∀ (s t : State) (r : Ring) (e : Entry) (j : Job), s.takeEntry r 0x30 = some (t, some e) → t.job e.job = some j → j.phase ≠ .serving →
    exec (.openStream r) s = .next (t.complete e stJob)) ∧
  (∀ (s t : State) (c k : Nat) (e : Entry) (j : Job), s.takeEntry (.client c k) 0x30 = some (t, some e) → e.ring = .client c k → t.job e.job = some j →
    j.phase = .serving → e.f 16 2 < 16384 → reservedBad e.bytes [(18, 6), (32, 32)] = none → e.f 24 8 % 128 = 0 → t.firmRange e.job (e.f 24 8) 128 false = true →
    ((t.stream (e.f 16 2)).isSome = true → exec (.openStream (.client c k)) s = .next (t.complete e stBusy)) ∧
    (∀ (bs : List Byte) (x y z : Stream), t.stream (e.f 16 2) = none → t.readVa e.job (e.f 24 8) 128 = .ok bs → x = { e := bs } →
      (∀ o, openBad j.manifest (wfield (t.preg (.eth x.port) 0x104) 13 0) x = some o → exec (.openStream (.client c k)) s = .next (t.complete e stInvalid o)) ∧
      (openBad j.manifest (wfield (t.preg (.eth x.port) 0x104) 13 0) x = none → t.firmRange e.job x.inBase (x.inStride * x.inCount) false = true →
        t.firmRange e.job x.outBase (x.outStride * x.outCount) true = true →
        (x.nextOut < x.lead + t.nowN + 24576 → exec (.openStream (.client c k)) s = .next (t.complete e stLate)) ∧
        (x.lead + t.nowN + 24576 ≤ x.nextOut →
          y = ((((x.put 0 1 1).put 1 1 e.job).put 2 1 (c + k * 64)).put 20 4 (x.inSamples * rateTicks (x.u 74 1 % 16))).put 112 8 t.nowN →
          z = { y with key := x.u 48 8, bound := !y.flag 3 } →
          (x.u 48 8 = 0 → exec (.openStream (.client c k)) s = .next ((t.setStream (e.f 16 2) z).complete e stOpened)) ∧
          (x.u 48 8 ≠ 0 → mget t.sets (x.u 48 8) = none → exec (.openStream (.client c k)) s = .next (t.complete e stMissing))))))) ∧
  (
  (∀ (s t : State) (r : Ring) (e : Entry) (j : Job) (x : Stream), s.takeEntry r 0x31 = some (t, some e) → t.job e.job = some j → j.phase = .serving →
    e.f 16 2 < 16384 → t.stream (e.f 16 2) = some x → x.job = e.job → reservedBad e.bytes [(19, 5), (32, 32)] = none → e.f 18 1 ≤ 1 → e.f 24 8 ≠ 0 →
    (x.st = 1 → exec (.parkStream r) s = .next (t.setStream (e.f 16 2) { x.put 0 1 2 with key := e.f 24 8, release := e.f 18 1 == 1, op := some (e.ring, e.cookie, 0x31) })) ∧
    (x.st ≠ 1 → exec (.parkStream r) s = .next (t.complete e stState))) ∧
  (∀ (s t : State) (r : Ring) (e : Entry) (j : Job) (x : Stream), s.takeEntry r 0x32 = some (t, some e) → t.job e.job = some j → j.phase = .serving →
    e.f 16 2 < 16384 → t.stream (e.f 16 2) = some x → x.job = e.job → reservedBad e.bytes [(18, 6), (32, 32)] = none →
    (x.st ≠ 3 → exec (.resumeStream r) s = .next (t.complete e stState)) ∧
    (x.st = 3 → x.release = false → e.f 24 8 < x.lead + t.nowN + 24576 → exec (.resumeStream r) s = .next (t.complete e stLate)) ∧
    (x.st = 3 → x.release = false → x.lead + t.nowN + 24576 ≤ e.f 24 8 → j.arena.used.length + t.tailFrames (e.f 16 2) x j ≤ j.frames →
      exec (.resumeStream r) s = .next ((t.setStream (e.f 16 2) { (x.put 24 8 (e.f 24 8)).put 0 1 4 with op := some (e.ring, e.cookie, 0x32) }).stageTails (e.f 16 2)))) ∧
  (∀ (s t : State) (r : Ring) (e : Entry) (j : Job) (x : Stream), s.takeEntry r 0x33 = some (t, some e) → t.job e.job = some j → j.phase = .serving →
    e.f 16 2 < 16384 → t.stream (e.f 16 2) = some x → x.job = e.job → reservedBad e.bytes [(18, 46)] = none → x.close = none →
    (x.st = 1 ∨ x.st = 3 → exec (.closeStream r) s = .next (t.setStream (e.f 16 2) { x.put 0 1 5 with close := some (e.ring, e.cookie) })) ∧
    (x.st = 2 → exec (.closeStream r) s = .next (t.setStream (e.f 16 2) { x with close := some (e.ring, e.cookie) })) ∧
    (x.st = 0 ∨ 3 < x.st → exec (.closeStream r) s = .next (t.complete e stState))))

/-- A resuming stream whose tail pages are no longer deep becomes active, its whole pages are pre-staged to its first deadline, and the OPEN or RESUME that began it completes OPENED or RESUMED; while a tail page is deep its staging is asked for again, and a stream that is not resuming stays as it is. Before its tick a queued frame stays. At or after it, a ready slot leaves through the stream's port with its audio and END where it is the last, and the frame is dequeued; with the media controller stopped nothing leaves, MEDIA_LATE counts and the frame is dequeued. A closing stream with nothing queued and in no pass sends the END frame unless one left, is freed, and its CLOSE completes CLOSED; while frames are queued nothing happens. MEDIA_STREAM_SEL shows the entry of the stream, or zeros, in MEDIA_STREAM_ENTRY. -/
def Obligations.StreamProgress : Prop :=
  (∀ (s : State) (n : Nat) (x : Stream) (r : Ring) (c op : Nat), s.stream n = some x → x.st = 4 → s.deepTails n = [] → x.op = some (r, c, op) →
    exec (.streamActivation n) s = .next (((s.setStream n { x.put 0 1 1 with op := none, woken := false }).preStageRange n 0 (x.len / 16) (x.nextOut - x.lead) 0).completeLater r op c
      (if op = 0x30 then stOpened else stResumed))) ∧
  (∀ (s : State) (n : Nat) (x : Stream), s.stream n = some x → (x.st ≠ 4 → exec (.streamActivation n) s = .next s) ∧
    (x.st = 4 → s.deepTails n ≠ [] → exec (.streamActivation n) s = .next (s.stageTails n))) ∧
  (∀ (s : State) (n : Nat) (x : Stream) (f : OutFrame) (rest : List OutFrame), s.stream n = some x → x.out = f :: rest →
    (s.nowN < f.tick → exec (.egressTick n) s = .next s) ∧
    (∀ bs : List Byte, f.tick ≤ s.nowN → s.mediaStopped = false → s.mediaParked = false → x.st = 1 →
      s.readVa x.job (x.outBase + f.seq % x.outCount * x.outStride) (32 + x.outBytes) = .ok bs → slotReady x n f bs = true →
      exec (.egressTick n) s = .next ((s.sendFrame x (putBytes bs 1 (leBytes 1 (getLE bs 1 1)))).modStream n (fun x => { x with out := rest, endSent := x.endSent || false }))) ∧
    (f.tick ≤ s.nowN → s.mediaStopped = true → x.st = 1 →
      exec (.egressTick n) s = .next (((s.count .media 0x128 1).irq .media 1).modStream n (fun x => { x with out := rest, endSent := x.endSent || false })))) ∧
  (∀ (s : State) (n : Nat) (x : Stream) (r : Ring) (c : Nat), s.stream n = some x → x.st = 5 → x.out = [] → s.inAnyPass x.job n = false → x.close = some (r, c) →
    exec (.closeComplete n) s = .next ((if x.endSent || s.mediaStopped then s else s.sendFrame x (frameHeader x n 2 x.outSeq s.nowN 0 0)).freeStream n |>.completeLater r 0x33 c stClosed)) ∧
  (∀ (s : State) (n : Nat) (x : Stream), s.stream n = some x → x.out ≠ [] → exec (.closeComplete n) s = .next s) ∧
  (∀ (s : State) (n : Nat) (x : Stream), s.wf = true → n < 16384 → s.stream n = some x →
    ∃ t, exec (.mediaStreamSel n) s = .next t ∧ t.preg .media 0x104 = BitVec.ofNat 32 n ∧
      (∀ i, i < 32 → t.preg .media (0x200 + 4 * i) = BitVec.ofNat 32 (getLE x.e (4 * i) 4)) ∧ t.rest = s.rest ∧ Silent s t ∧
      (∀ o : Nat, o ≠ Page.media.base + 0x104 → ¬(Page.media.base + 0x200 ≤ o ∧ o < Page.media.base + 0x280) → t.reg o = s.reg o))

/-- A payload shorter than 32 bytes or of another type counts under drop reason 0, a free stream under 1, another epoch under 2, a wrong length or format under 4, a sequence number behind IN_NEXT under 5, one beyond the buffer of a stream not parked under 6, one already held under 7, each with no other effect. An accepted frame of an active stream bound to its source is written with its header and its samples to the slot of its sequence number, the stream holds that sequence, and MEDIA_IN_FRAMES and MEDIA_NONFINITE count. -/
def Obligations.AudioFramesReceived : Prop :=
  (∀ (s : State) (port sport : Nat) (addr p : List Byte), p.length < 32 ∨ getLE p 0 1 ≠ 0x11 → exec (.audioInFrame port addr sport p) s = .next (s.mediaDrop 0)) ∧
  (∀ (s : State) (port sport : Nat) (addr p : List Byte), 32 ≤ p.length → getLE p 0 1 = 0x11 → s.stream (getLE p 2 2) = none →
    exec (.audioInFrame port addr sport p) s = .next (s.mediaDrop 1)) ∧
  (∀ (s : State) (port sport : Nat) (addr p : List Byte) (x : Stream), 32 ≤ p.length → getLE p 0 1 = 0x11 → s.stream (getLE p 2 2) = some x → x.st = 1 →
    (getLE p 8 8 ≠ x.u 40 8 → exec (.audioInFrame port addr sport p) s = .next (s.mediaDrop 2)) ∧
    (getLE p 8 8 = x.u 40 8 → x.bound = true → slice addr 0 16 = slice x.e 80 16 → sport = x.u 96 2 → port = x.port →
      (getLE p 28 2 ≠ x.inSamples → exec (.audioInFrame port addr sport p) s = .next (s.mediaDrop 4)) ∧
      (getLE p 26 1 = x.u 72 1 → getLE p 28 2 = x.inSamples → getLE p 24 2 = x.inSamples * x.inCh * audioBytes x.inFmt → p.length = 32 + getLE p 24 2 →
        (2 ^ 31 ≤ (getLE p 4 4 + 2 ^ 32 - x.inNext) % 2 ^ 32 → exec (.audioInFrame port addr sport p) s = .next (s.mediaDrop 5)) ∧
        (x.inCount ≤ (getLE p 4 4 + 2 ^ 32 - x.inNext) % 2 ^ 32 → (getLE p 4 4 + 2 ^ 32 - x.inNext) % 2 ^ 32 < 2 ^ 31 →
          exec (.audioInFrame port addr sport p) s = .next (s.mediaDrop 6)) ∧
        ((getLE p 4 4 + 2 ^ 32 - x.inNext) % 2 ^ 32 < x.inCount → (getLE p 4 4 + 2 ^ 32 - x.inNext) % 2 ^ 32 < 2 ^ 31 →
          (mget x.inSlots (getLE p 4 4 % x.inCount) = some (getLE p 4 4) → exec (.audioInFrame port addr sport p) s = .next ((s.setStream (getLE p 2 2) x).mediaDrop 7)) ∧
          (∀ (u w : State) (v : List Nat × Nat), mget x.inSlots (getLE p 4 4 % x.inCount) ≠ some (getLE p 4 4) → v = planar x.inFmt x.inCh x.inSamples (p.drop 32) →
            (s.setStream (getLE p 2 2) x).writeVa x.job (x.inBase + getLE p 4 4 % x.inCount * x.inStride)
              ((leBytes 4 (getLE p 4 4) ++ leBytes 1 (getLE p 1 1 % 4) ++ leBytes 3 0 ++ leBytes 8 s.nowN ++ leBytes 8 (getLE p 16 8) ++ List.replicate 40 0) ++ v.1.flatMap (leBytes 4)) = .ok u →
            w = u.touch x.job (x.inBase + getLE p 4 4 % x.inCount * x.inStride) (64 + 4 * v.1.length) →
            exec (.audioInFrame port addr sport p) s = .next (((w.setStream (getLE p 2 2) { x with inSlots := mset x.inSlots (getLE p 4 4 % x.inCount) (getLE p 4 4), voiced := atLeastDb (meanSquare v.1) (wfield (w.preg .media 0x108) 7 0) }).count64 .media 0x118 0x11C 1).count .media 0x13C v.2))))))

/-- PARK_LIST for a serving job with a count of 1 to 4,096 writes the records of the sets whose keys lie above the one given, in rising order and at most that many, and completes LISTED with the number; a count outside that range completes REFUSED_INVALID at 40. PARK_DELETE of a set that no opening stream uses deletes it and completes DELETED; of no set it completes REFUSED_MISSING. A destination that cannot be written refuses the list at 24 (the model's choice, log 93). -/
def Obligations.ParkSetsNamed : Prop :=
  (∀ (s t u : State) (r : Ring) (e : Entry) (j : Job) (rs : List (List Byte)), s.takeEntry r 0x34 = some (t, some e) → t.job e.jobNum = some j → j.phase = .serving →
    reservedBad e.bytes [(16, 8), (44, 20)] = none →
    (e.f 40 4 = 0 ∨ 4096 < e.f 40 4 → exec (.parkList r) s = .next (t.complete e stInvalid 40)) ∧
    (0 < e.f 40 4 → e.f 40 4 ≤ 4096 → rs = ((t.sets.filter (fun x => decide (e.f 32 8 < x.1))).take (e.f 40 4)).map (fun x => slice x.2.record 0 64) →
      t.writeVa e.jobNum (e.f 24 8) rs.flatten = .ok u → exec (.parkList r) s = .next (u.complete e stListed 0 (leBytes 4 rs.length)))) ∧
  (∀ (s t : State) (r : Ring) (e : Entry) (j : Job), s.takeEntry r 0x35 = some (t, some e) → t.job e.jobNum = some j → j.phase = .serving →
    reservedBad e.bytes [(16, 8), (32, 32)] = none →
    (mget t.sets (e.f 24 8) = none → exec (.parkDelete r) s = .next (t.complete e stMissing)) ∧
    ((mget t.sets (e.f 24 8)).isSome = true → (∀ x ∈ t.streams, x.2.st ≠ 4) → exec (.parkDelete r) s = .next ((t.deleteSet (e.f 24 8)).showFree.complete e stDeleted)))

/-- For every state in canonical form BUDGET_REFILL completes; LEVEL is the smaller of its old value plus RATE times 1,000 and DEPTH in bytes, as a signed 64-bit count; DEEP_STAT.EXHAUSTED is 1 exactly while LEVEL lies below RESERVE and DEEP_STAT's other bits stand; beside DEEP_STAT, the two LEVEL words and the DEEP page's BLK_IRQ_RAW only pending bits of the MSI-X PBA may differ, only MSI-X messages leave, and everything but the registers is unchanged. -/
def Obligations.WriteBudgetRefills : Prop :=
  ∀ s : State, s.wf = true → ∃ t, exec .budgetRefill s = .next t ∧ t.level = min (s.level + (s.budgetRate * 1000 : Nat)) (s.budgetDepth : Nat) ∧
    wbit (t.preg .deep 0x100) 8 = decide (t.level < s.budgetReserve) ∧ (∀ i : Nat, i < 32 → i ≠ 8 → wbit (t.preg .deep 0x100) i = wbit (s.preg .deep 0x100) i) ∧
    (∀ o : Nat, o ∉ [Page.deep.base + 0x100, Page.deep.base + 0x108, Page.deep.base + 0x10C, Page.deep.base + 0x010] → ¬inPba o → t.reg o = s.reg o) ∧
    t.rest = s.rest ∧ ∃ xs : List Output, t.out = xs ++ s.out ∧ ∀ x ∈ xs, ∃ v, x = Output.msix v

/-- A block that is not moving and has reached its read limit, or needed more than 70 % of the correction capability, begins a relocation. The commit of a moving block below 90 °C counts the read of the block and the relocation or refresh, charges a park-region block to LEVEL and its program counter and a weight-region block to DEEP_PROG_WEIGHT, resets its counters, counts a retired block and shows the wear; with the spare blocks of the park region low that region becomes read-only. A block not moving does not commit. One second ages each block by the weight of its package temperature and counts DEEP_POWER_ON and the CHECK_AGE fields. 600 s after a mount without PTP time TIME_UNKNOWN sets and every block is to be scanned. A scan read counts the read of every page of its block, marks it, starts its refresh above 50 %, and ends the scan with the last block. -/
def Obligations.FlashBlocks : Prop :=
  (∀ (s : State) (k ecc : Nat) (b : Block), mget s.blocks k = some b → b.moving = 0 → readLimit k ≤ b.reads ∨ 70 < ecc →
    exec (.readDisturbRelocation k ecc) s = .next { s with blocks := mset s.blocks k { b with moving := 1 } }) ∧
  (∀ (s : State) (k ecc : Nat), mget s.blocks k = none → exec (.readDisturbRelocation k ecc) s = .next s) ∧
  (∀ (s : State) (k ecc : Nat) (b : Block), mget s.blocks k = some b → b.reads < readLimit k → ecc ≤ 70 → exec (.readDisturbRelocation k ecc) s = .next s) ∧
  (∀ (s u v w : State) (k : Nat) (retired low : Bool), (s.block k).moving ≠ 0 → s.packageTemp k < 90 →
    u = (s.blockRead k (Config.blockBytes k)).count .deep (if (s.block k).moving = 1 then 0x154 else 0x158) 1 →
    v = (if blockPark k then (u.count64 .deep 0x120 0x124 (Config.blockBytes k)).programOther (Config.blockBytes k) else u.count64 .deep 0x128 0x12C (Config.blockBytes k)).setBlock k
      { scanned := (s.block k).scanned } →
    w = (if retired then v.count .deep 0x150 1 else v).showWear →
    (low = false ∨ blockPark k = false → exec (.relocationCommit k retired low) s = .next w) ∧
    (low = true → blockPark k = true → exec (.relocationCommit k retired low) s = .next ({ w with sparesLow := true } : State).showReady)) ∧
  (∀ (s : State) (k : Nat) (r l : Bool), (s.block k).moving = 0 ∨ 90 ≤ s.packageTemp k → exec (.relocationCommit k r l) s = .next s) ∧
  (∀ s : State, ∃ t, t = ((s.ageBlocks (fun k => ageWeight (s.packageTemp k))).count .deep 0x140 1).checkAges ∧
    exec .retentionAgeTick s = .next (t.putPreg .settings 0x110 15 0 (wfield (t.preg .settings 0x110) 15 0 - 1))) ∧
  (∀ s : State, s.ptpTime = none → exec .timeUnknownTimeout s =
    .next ({ s with blocks := s.blocks.map (fun (e : Nat × Block) => (e.1, { e.2 with scanned := false })) }.setPreg .deep 0x100 (wassign (wset (s.preg .deep 0x100) 10) 11 (!s.blocks.isEmpty)))) ∧
  (∀ s : State, s.ptpTime.isSome = true → exec .timeUnknownTimeout s = .next s) ∧
  (∀ (s t : State) (k ecc : Nat) (b : Block), wbit (s.preg .deep 0x100) 11 = true → mget s.blocks k = some b → b.scanned = false → b.moving = 0 →
    t = (s.blockRead k (Config.blockBytes k)).setBlock k { (s.blockRead k (Config.blockBytes k)).block k with scanned := true, moving := if 50 < ecc then 2 else 0 } →
    exec (.retentionScanRead k ecc) s = .next (if t.blocks.all (fun e => e.2.scanned) then t.setPreg .deep 0x100 (wclear (t.preg .deep 0x100) 11) else t))

/-- With the deep tier serving reads, STAGING_DESCRIPTOR_START starts the outstanding descriptor with the earliest deadline and counts the read of its unit, where the unit is in use; a demand promotion that could start and whose deadline is not later goes first (at one deadline the model's choice, log 265). With none outstanding, or the tier not serving, nothing happens. A staging install of a started descriptor whose page is still deep and whose unit passes its checks writes the page's frames and sidecar, makes its entry resident and wakes the walks that wait; one whose unit fails its checks, of a page that is no tail, writes the record, raises STAGE_FAIL, makes the page penumbra only and the stream degraded, and frees the frame; one whose page is no longer deep frees the frame; one that was never started does nothing. HOLDUP_CHECK shows its result in HOLDUP_OK and interrupts when it falls. LIFETIME_CHECKPOINT stores LEVEL, PTP time (the last one known) and the lifetime counters and changes nothing else. -/
def Obligations.StagingAndDeepChecks : Prop :=
  (∀ (s t : State) (g : Stage) (ahead : Bool), s.deepReads = true → earliest (s.stages.filter (fun g => g.issued && !g.started)) = some g →
    ahead = s.movesDue.any (fun m => m.kind == .demand && (g.deadline == 0 || decide (m.deadline ≤ g.deadline)) && (s.startMove m).isSome) →
    t = { s with stages := s.stages.map (fun (h : Stage) => if h.seq == g.seq && h.issued then { h with started := true } else h) } →
    (ahead = true → exec .stagingDescriptorStart s = .next s) ∧
    (ahead = false → (mget s.unitKeys (g.ref % 2 ^ 29)).isSome = true → exec .stagingDescriptorStart s = .next (t.flashRead (unitLa (g.ref % 2 ^ 29)) (4096 * g.width))) ∧
    (ahead = false → mget s.unitKeys (g.ref % 2 ^ 29) = none → exec .stagingDescriptorStart s = .next t)) ∧
  (∀ s : State, s.deepReads = false ∨ s.stages.filter (fun g => g.issued && !g.started) = [] → exec .stagingDescriptorStart s = .next s) ∧
  (∀ (s u : State) (seq : Nat) (g : Stage) (j : Job) (x : Stream) (e : Nat), s.stages.find? (fun g => g.issued && g.started && g.seq == seq) = some g → s.job g.key.job = some j →
    s.stream g.key.stream = some x → x.job = g.key.job → e = s.pte g.key x j.hg g.page → pteState e = 2 → g.dropped = false → s.stageBad g true x.len = none →
    s.stageWrite g j = .ok u →
    exec (.stagingInstall seq true) s = .next (((u.setPte g.key x j.hg g.page (pteMake 1 true (ptePen e) g.frame)).stageGone g false).stepScribes)) ∧
  (∀ (s v : State) (seq : Nat) (ok : Bool) (g : Stage) (j : Job) (x : Stream) (e code : Nat), s.stages.find? (fun g => g.issued && g.started && g.seq == seq) = some g →
    s.job g.key.job = some j → s.stream g.key.stream = some x → x.job = g.key.job → e = s.pte g.key x j.hg g.page → pteState e = 2 → g.dropped = false →
    s.stageBad g ok x.len = some code → x.tailAt g.page = false →
    v = (s.storedState code g.key (slice g.desc 0 16) (unitLa (g.ref % 2 ^ 29))).irq (.scribe g.bay) 2 →
    exec (.stagingInstall seq ok) s = .next ((((((v.setPte g.key x j.hg g.page (pteMake 3 false (ptePen e) 0)).degrade g.key.stream).penOnlyPage g.key g.page).stageGone g true).stepScribes))) ∧
  (∀ (s : State) (seq : Nat) (ok : Bool) (g : Stage) (j : Job) (x : Stream), s.stages.find? (fun g => g.issued && g.started && g.seq == seq) = some g → s.job g.key.job = some j →
    s.stream g.key.stream = some x → g.dropped = true ∨ x.job ≠ g.key.job ∨ pteState (s.pte g.key x j.hg g.page) ≠ 2 →
    exec (.stagingInstall seq ok) s = .next (s.stageGone g true)) ∧
  (∀ (s : State) (seq : Nat) (ok : Bool), s.stages.find? (fun g => g.issued && g.started && g.seq == seq) = none → exec (.stagingInstall seq ok) s = .next s) ∧
  (∀ s : State, exec .attentionCutoff s = .next s.stepScribes) ∧
  (∀ (s t : State) (ok : Bool), t = s.setPreg .deep 0x100 (wassign (s.preg .deep 0x100) 9 ok) →
    exec (.holdupCheck ok) s = .next (if wbit (s.preg .deep 0x100) 9 = true ∧ ok = false then t.irq .deep 4 else t)) ∧
  (∀ s : State, exec .lifetimeCheckpoint s = .next { s with checkpoint := { level := some s.level, ptp := s.ptpTime.orElse (fun _ => s.checkpoint.ptp), counters := lifetimeRegs.map (fun r => (r, s.preg .deep r)) } })

/-- A parking stream that lies in no pass, whose park does not fit the records, units, sets or budget of the deep tier, or whose units find no place as the free ones lie, stays active and its PARK completes NOT_PARKED; one that fits is charged to LEVEL and its pages are written as the plan lists them, in the full mode while LEVEL leaves RESERVE, else in the penumbra mode; sets of new keys that other parks will commit count against the limit of 262,144. PARK_COMPLETE without a plan does nothing; with one, the set of its key holds the plan's pages and units, the second unit of a pair among them, the stream is parked, and its PARK completes PARKED with the mode and the two page counts. -/
def Obligations.ParkingAStream : Prop :=
  (∀ (s : State) (n : Nat), s.stream n = none → exec (.parkWrite n) s = .next s ∧ exec (.parkComplete n) s = .next s) ∧
  (∀ (s : State) (n : Nat) (x : Stream) (j : Job), s.stream n = some x → s.job x.job = some j → x.st ≠ 2 ∨ x.plan.isSome = true ∨ s.inAnyPass x.job n = true ∨ s.flashHot = true →
    exec (.parkWrite n) s = .next s) ∧
  (∀ (s : State) (n : Nat) (x : Stream) (j : Job) (c : Nat × Nat × Nat), s.stream n = some x → s.job x.job = some j → x.st = 2 → x.plan = none → s.inAnyPass x.job n = false →
    s.flashHot = false → c = parkCounts ((s.streamPages j x.job n x).map (fun g => (s.parkPageOf j x g.1 g.2.1 g.2.2.1, g.2.2.2))) →
    s.deepState ≠ 2 ∨ s.freeUnits < c.1 ∨ j.penRecords ≤ c.2.2 + j.arena.usedPen.length ∨ (262144 ≤ s.sets.length + s.newSets ∧ mget s.sets x.key = none) ∨
      (s.level - ((c.1 * 4096 : Nat) : Int) < (s.budgetReserve : Int) ∧ s.level - ((c.2.1 * 4096 : Nat) : Int) < 0) →
    exec (.parkWrite n) s = .next (s.notParked n x)) ∧
  (∀ (s a b u : State) (n : Nat) (x : Stream) (j : Job) (c : Nat × Nat × Nat) (full : Bool) (q : Parker), s.stream n = some x → s.job x.job = some j → x.st = 2 → x.plan = none →
    s.inAnyPass x.job n = false → s.flashHot = false → c = parkCounts ((s.streamPages j x.job n x).map (fun g => (s.parkPageOf j x g.1 g.2.1 g.2.2.1, g.2.2.2))) →
    s.deepState = 2 → c.1 ≤ s.freeUnits → c.2.2 + j.arena.usedPen.length < j.penRecords → s.sets.length + s.newSets < 262144 →
    full = decide ((s.budgetReserve : Int) ≤ s.level - ((c.1 * 4096 : Nat) : Int)) → full = true ∨ (0 : Int) ≤ s.level - ((c.2.1 * 4096 : Nat) : Int) →
    a = s.setLevel (s.level - ((if full then c.1 * 4096 else c.2.1 * 4096 : Nat) : Int)) → b = (if full then a else a.count .deep 0x15C 1) →
    q = b.parkPlan j x full (s.streamPages j x.job n x) →
    u = q.s.modStream n (fun x => { x with plan := some { mode := if full then 1 else 2, pages := q.pages } }) →
    exec (.parkWrite n) s = .next (if q.short then s.notParked n x else u.showFree)) ∧
  (∀ (s u v w : State) (n c : Nat) (x y : Stream) (pl : ParkPlan) (j : Job) (r : Ring) (kind : Nat → Nat) (units : List Nat) (set : ParkSet), s.stream n = some x → x.plan = some pl →
    s.job x.job = some j → x.op = some (r, c, 0x31) → x.release = false → x.close = none → kind = (fun k => (pl.pages.filter (fun g => g.2.1 == k)).length) →
    units = ((pl.pages.filter (fun g => g.2.1 != 4)).map (fun g => g.2.2.1 % 2 ^ 29)).foldl (fun us u => if s.secondUnit (u + 1) then sinsert (sinsert us u) (u + 1) else sinsert us u) [] →
    set.record = setRecord x.key (manTag j.manifest) x.len j.layers j.hg pl.mode (kind 0 + kind 1) (kind 2 + kind 3) (s.ptpTime.getD 0) units.length (kind 4) →
    set.pages = pl.pages.foldl (fun m g => mset m g.1 (if g.2.1 ≤ 1 then 0 else if g.2.1 ≤ 3 then 1 else 2, g.2.2.1)) [] → set.units = units →
    u = s.freeFrames j x.job n x (fun k p => match mget (pl.pages.map (fun g => (g.1, g.2))) (pagePlace k.layer k.group p) with
      | some (kd, _, pn) => if kd ≤ 1 then pteMake 2 true pn 0 else pteMake 3 false pn 0
      | none => 0) →
    y = { x.put 104 4 (kind 2 + kind 3 + kind 4) with plan := none, op := none, woken := false, refs := (pl.pages.filter (fun g => decide (g.2.1 ≤ 1))).foldl (fun m g => mset m g.1 g.2.2.1) [] } →
    v = (u.setStream n ((y.put 0 1 3).put 3 1 (Nat.lor (x.u 3 1) (b2n (decide (0 < kind 2 + kind 3 + kind 4)))))).commitSet x.key set →
    w = v.completeLater r 0x31 c stParked (leBytes 1 pl.mode ++ leBytes 3 0 ++ leBytes 4 (kind 0 + kind 1) ++ leBytes 4 (kind 2 + kind 3)) →
    exec (.parkComplete n) s = .next w.issueStages.showFree) ∧
  (∀ (s : State) (n : Nat) (x : Stream), s.stream n = some x → x.plan = none → exec (.parkComplete n) s = .next s)

/-- MAP of a legal range of unmapped pages with a zero source that finds room maps each page to a page of module memory that reads zero, shows the free counts and waits; a page so taken is cleared, no other byte of memory changes, its tables exist and its leaf has the WRITE, CLASS and AFFINITY asked. With a weight range as source it maps the part's pages of the weight region. A range with a page mapped already completes REFUSED_INVALID at 16, one that does not fit REFUSED_ROOM. The oldest map whose pages are all where their class wants them completes DONE. UNMAP of a legal range unmaps every page of it that is mapped and completes DONE. MIGRATE_HINT of a mapped range to a tier that every page's class allows queues the moves and completes DONE; a target above 2 completes REFUSED_INVALID at 28. -/
def Obligations.PagesMapped : Prop :=
  (∀ (s : State) (job cls aff vp n : Nat) (write : Bool) (r : State × Nat), s.placeNew vp cls aff = some r →
    s.mapZero job write cls aff vp (n + 1) = ((((r.1.clearPage r.2).served (r.2 * 65536) 65536).addTable job vp).setLeaf job vp
      { write := write, cls := cls, affinity := aff, page := r.2 }).mapZero job write cls aff (vp + 1) n ∧
    (∀ a : Nat, inPage r.2 a = true → (r.1.clearPage r.2).byte a = 0) ∧ (∀ a : Nat, inPage r.2 a = false → (r.1.clearPage r.2).byte a = r.1.byte a)) ∧
  (∀ (s t : State) (r : Ring) (e : Entry) (j : Job), s.takeEntry r 0x10 = some (t, some e) → t.job e.jobNum = some j → rangeBad e = none → e.f 28 1 < 32 → e.f 28 1 / 8 ≠ 3 →
    reservedBad e.bytes [(30, 2), (40, 24)] = none →
    (e.f 29 1 = 0 → t.mapped e.jobNum (e.f 16 8 / 65536) (e.f 24 4) ≠ [] → exec (.mapPages r) s = .next (t.complete e stInvalid 16)) ∧
    (e.f 29 1 = 0 → t.mapped e.jobNum (e.f 16 8 / 65536) (e.f 24 4) = [] → t.classFits (e.f 28 1 / 2 % 4) (e.f 24 4) = false →
      exec (.mapPages r) s = .next (t.complete e stRoom)) ∧
    (∀ u : State, e.f 29 1 = 0 → t.mapped e.jobNum (e.f 16 8 / 65536) (e.f 24 4) = [] → t.classFits (e.f 28 1 / 2 % 4) (e.f 24 4) = true →
      t.mapZero e.jobNum (bit (e.f 28 1) 0) (e.f 28 1 / 2 % 4) (e.f 28 1 / 8) (e.f 16 8 / 65536) (e.f 24 4) = some u →
      exec (.mapPages r) s = .next ({ u with maps := u.maps ++ [⟨e.ring, e.cookie, e.jobNum, e.f 16 8 / 65536, e.f 24 4⟩] } : State).showFree) ∧
    (∀ (first : Nat) (u : State), e.f 29 1 = 1 → bit (e.f 28 1) 0 = false → mapSource j e = .ok first → t.mapped e.jobNum (e.f 16 8 / 65536) (e.f 24 4) = [] →
      t.classFits (e.f 28 1 / 2 % 4) (e.f 24 4) = true →
      u = t.mapWeight e.jobNum (e.f 28 1 / 2 % 4) (e.f 28 1 / 8) (slotBase j.genSlot / 65536 + first) (e.f 16 8 / 65536) (e.f 24 4) →
      exec (.mapPages r) s = .next ({ u with maps := u.maps ++ [⟨e.ring, e.cookie, e.jobNum, e.f 16 8 / 65536, e.f 24 4⟩] } : State).showFree)) ∧
  (∀ (s : State) (w : MapWait), s.maps.find? s.mapReady = some w → exec .mapComplete s = .next (({ s with maps := s.maps.erase w } : State).completeLater w.ring 0x10 w.cookie stDone)) ∧
  (∀ s : State, (∀ w ∈ s.maps, s.mapReady w = false) → exec .mapComplete s = .next s) ∧
  (∀ (s t : State) (r : Ring) (e : Entry), s.takeEntry r 0x11 = some (t, some e) → (t.job e.jobNum).isSome = true → rangeBad e = none → reservedBad e.bytes [(28, 36)] = none →
    exec (.unmapPages r) s = .next (((t.mapped e.jobNum (e.f 16 8 / 65536) (e.f 24 4)).foldl (fun s vp => s.unmapPage e.jobNum vp) t).showFree.complete e stDone)) ∧
  (∀ (s t : State) (r : Ring) (e : Entry), s.takeEntry r 0x12 = some (t, some e) → (t.job e.jobNum).isSome = true → rangeBad e = none →
    (2 < e.f 28 1 → exec (.migrateHint r) s = .next (t.complete e stInvalid 28)) ∧
    (e.f 28 1 ≤ 2 → reservedBad e.bytes [(29, 3), (40, 24)] = none → e.f 24 4 ≤ (t.mapped e.jobNum (e.f 16 8 / 65536) (e.f 24 4)).length →
      (∀ v ∈ t.mapped e.jobNum (e.f 16 8 / 65536) (e.f 24 4), ∃ l, t.leafOf e.jobNum v = some l ∧ classAllows l.cls (e.f 28 1) = true) →
      exec (.migrateHint r) s = .next (((t.mapped e.jobNum (e.f 16 8 / 65536) (e.f 24 4)).foldl (fun s v => s.queueMove e.jobNum v .hint (e.f 28 1) (e.f 32 8)) t).complete e stDone)))

/-- The moves that waiting maps, prefer-near ranges and the room kept free call for join the queue; then the first move in order is started if it can, and where none can nothing more happens. A start of a page that must be copied takes a free destination and makes its leaves read MSTATE copying. A started move of a page outside the deep tier switches every leaf to the destination page, and the units that wait for it go on; a demand promotion from the deep tier counts the read of its page and lands where the page verifies; one not yet started, whose turn it is, is started first. A move of a page that is no longer mapped is abandoned. A demand promotion whose deadline has passed is marked late once and sets MIGRATE's interrupt. A decay chooses candidates and halves every access counter; counters of zero are no longer listed. -/
def Obligations.PagesMoved : Prop :=
  (∀ s t : State, t = s.mapMoves.preferMoves.keepFree → (∀ m ∈ t.movesDue, t.startMove m = none) → exec .migrationMoveStart s = .next t) ∧
  (∀ (s t u : State) (m : Move) (rest : List Move), t = s.mapMoves.preferMoves.keepFree → t.movesDue = m :: rest → t.startMove m = some u →
    exec .migrationMoveStart s = .next u) ∧
  (∀ (s : State) (m : Move) (l : Leaf) (t : State) (p : Nat), s.leafOf m.job m.vpage = some l → s.demoteFree l m.dest = none → l.mstate = 0 → s.demandWaits m = false →
    m.dest ≠ 2 ∨ s.stagedBy l.page = false → s.placeMove m l = some (t, p) →
    s.inFlight (dieOf s.isH (p * 65536)) < 64 →
    s.startMove m = some (({ t with moves := t.moves.map (fun (x : Move) => if x.isOf m.job m.vpage then { x with started := true, page := p } else x) } : State).eachLeaf l.page
      (fun l => { l with mstate := 1 })).showMigrate) ∧
  (∀ (s : State) (job vp : Nat) (ok : Bool) (m : Move) (l : Leaf), s.moves.find? (fun m => m.isOf job vp && m.started && m.kind != .demand) = some m →
    s.leafOf m.job m.vpage = some l → tierOf s.isH (l.page * 65536) ≠ some 2 →
    exec (.migrationMoveComplete job vp ok) s = .next (((({ s with moves := s.moves.filter (fun x => !x.isOf m.job m.vpage) } : State).shift l m.page).showMigrate).landedAll (s.holders l.page))) ∧
  (∀ (s : State) (job vp : Nat) (ok : Bool) (m : Move), s.moves.find? (fun m => m.isOf job vp && m.started && m.kind != .demand) = some m → s.leafOf m.job m.vpage = none →
    exec (.migrationMoveComplete job vp ok) s = .next (s.abandonMove m)) ∧
  (∀ (s : State) (job vp : Nat) (ok : Bool), s.moves.find? (fun m => m.isOf job vp && m.started && m.kind != .demand) = none → exec (.migrationMoveComplete job vp ok) s = .next s) ∧
  (∀ (s : State) (job vp : Nat) (ok : Bool) (m : Move) (l : Leaf), s.moves.find? (fun m => m.isOf job vp && m.kind == .demand) = some m → m.started = true →
    s.leafOf m.job m.vpage = some l → tierOf s.isH (l.page * 65536) ≠ some 2 →
    exec (.demandPromotionComplete job vp ok) s = .next (((({ s with moves := s.moves.filter (fun x => !x.isOf m.job m.vpage) } : State).shift l m.page).showMigrate).landedAll (s.holders l.page))) ∧
  (∀ (s u : State) (job vp : Nat) (ok : Bool) (m : Move) (l : Leaf), s.moves.find? (fun m => m.isOf job vp && m.kind == .demand) = some m → m.started = true →
    s.leafOf m.job m.vpage = some l → tierOf s.isH (l.page * 65536) = some 2 → s.deepReads = true → u = s.flashRead (l.page * 65536 - deepBase) 65536 →
    (if isWeight l.page then u.weightOk l.page ok else ok) = true → exec (.demandPromotionComplete job vp ok) s =
      .next (((({ u with moves := u.moves.filter (fun x => !x.isOf m.job m.vpage) } : State).shift l m.page).showMigrate).landedAll (u.holders l.page))) ∧
  (∀ (s t : State) (job vp : Nat) (ok : Bool) (m n : Move), s.moves.find? (fun m => m.isOf job vp && m.kind == .demand) = some m → m.started = false →
    s.movesDue.find? (fun x => x.kind == .demand && (s.startMove x).isSome) = some m → s.startMove m = some t →
    t.moves.find? (fun m => m.isOf job vp && m.kind == .demand) = some n → exec (.demandPromotionComplete job vp ok) s = .next (t.finishMove n ok)) ∧
  (∀ (s : State) (job vp : Nat) (m : Move), m ∈ s.moves → m.isOf job vp = true → m.kind = .demand → m.late = false → m.deadline < s.nowN →
    exec (.demandLate job vp) s = .next (({ s with moves := s.moves.map (fun (m : Move) => if m.isOf job vp then { m with late := true } else m) } : State).irq .migrate 2)) ∧
  (∀ (s : State) (job vp : Nat), (∀ m ∈ s.moves, m.isOf job vp = true → m.late = true) → exec (.demandLate job vp) s = .next s) ∧
  (∀ s t : State, t = (s.leaves.foldl (fun s e => s.decayPage e.1 e.2) s).keepFree →
    exec .decayInterval s = .next { t with counters := (t.counters.map (fun e => (e.1, e.2 / 4096 / 2 * 4096 + e.2 % 4096))).filter (fun e => e.2 != 0) })

/-- A request for a margin check of an available tier sets MARGIN; a check clears MARGIN, clears IN_WINDOW with interrupt 3 where the conditions lie outside the record's window, and then, where it passes, stores a new calibration record that the firmware commits, and where it fails starts a retraining. A retraining of an available tier begins its evacuation when no other tier retrains, and otherwise waits in turn. An evacuating tier with no page left on it starts training, or is withdrawn until power-up where a lane failed with no spare, which is module loss once more is withdrawn than the room of one stack; while a page is left nothing happens, but that a tier to be withdrawn whose pages no move can take away is module loss. A tier that has trained stores its record, its repaired and spare lanes, is available again, and the next tier in turn begins. A tier that is not in the state named changes nothing. -/
def Obligations.TierTraining : Prop :=
  (∀ (s : State) (t : Nat), t < 10 → s.tierState t = 1 → exec (.tierMarginReq t) s = .next (s.setPreg (tierPage t) 0x100 (wset (s.preg (tierPage t) 0x100) 0))) ∧
  (∀ (s : State) (t : Nat), 10 ≤ t ∨ s.tierState t ≠ 1 → exec (.tierMarginReq t) s = .next s ∧ exec (.tierRetrainReq t) s = .next s) ∧
  (∀ (s u : State) (t : Nat), t < 10 → s.tierState t = 1 → u = { s with trainQueue := if s.trainQueue.any (fun e => e.1 == t) then s.trainQueue else s.trainQueue ++ [(t, false)] } →
    ((∀ x, x < 10 → u.tierState x ≠ 2 ∧ u.tierState x ≠ 3) → exec (.tierRetrainReq t) s = .next (u.evacuate t)) ∧
    ((∃ x, x < 10 ∧ (u.tierState x = 2 ∨ u.tierState x = 3)) → exec (.tierRetrainReq t) s = .next u)) ∧
  (∀ (s u v : State) (t temp volt load : Nat) (ns : Bool), t < 10 → s.tierState t = 1 → u = s.setPreg (tierPage t) 0x100 (wclear (s.preg (tierPage t) 0x100) 0) →
    v = (if inWindow (u.preg (tierPage t) 0x104) temp volt load = true then u else (u.setPreg (tierPage t) 0x104 (wclear (u.preg (tierPage t) 0x104) 8)).irq (tierPage t) 3) →
    exec (.marginCheck t temp volt load true ns) s =
      .next (({ v.setPreg (tierPage t) 0x104 (calWord temp volt load) with calStored := mset v.calStored t (calWord temp volt load) } : State).fwCommit []) ∧
    exec (.marginCheck t temp volt load false ns) s = .next (v.retrain t ns)) ∧
  (∀ (s : State) (t : Nat), t < 10 → s.tierState t = 2 → s.tierUsed t = 0 → s.trainQueue.any (fun e => e.1 == t && e.2) = false →
    exec (.evacuationComplete t) s = .next (s.setTierState t 3)) ∧
  (∀ (s u : State) (t : Nat), t < 10 → s.tierState t = 2 → s.tierUsed t = 0 → s.trainQueue.any (fun e => e.1 == t && e.2) = true →
    u = ((({ s with trainQueue := s.trainQueue.filter (fun e => e.1 != t), goneTiers := sinsert s.goneTiers t } : State).setTierState t 4).showFree) →
    exec (.evacuationComplete t) s = .next (if 786432 < sumOver u.goneTiers tierPages then u.announceLoss.nextTraining else u.nextTraining)) ∧
  (∀ (s : State) (t : Nat), s.tierState t ≠ 2 → exec (.evacuationComplete t) s = .next s) ∧
  (∀ (s : State) (t : Nat), t < 10 → s.tierState t = 2 → s.tierUsed t ≠ 0 →
    (s.trainQueue.any (fun e => e.1 == t && e.2) = false ∨ s.moves.any (fun m => m.kind == .evacuate && (m.started || (s.startMove m).isSome)) = true → exec (.evacuationComplete t) s = .next s) ∧
    (s.trainQueue.any (fun e => e.1 == t && e.2) = true → s.moves.any (fun m => m.kind == .evacuate && (m.started || (s.startMove m).isSome)) = false →
      exec (.evacuationComplete t) s = .next s.announceLoss)) ∧
  (∀ (s u v : State) (t temp volt load rep low : Nat), t < 10 → s.tierState t = 3 →
    u = ({ s.setPreg (tierPage t) 0x104 (calWord temp volt load) with calStored := mset s.calStored t (calWord temp volt load), trainQueue := s.trainQueue.filter (fun e => e.1 != t) } : State).setPreg
      (tierPage t) 0x108 (BitVec.ofNat 32 (rep % 256 * 256 + low % 256)) →
    v = (if wfield (s.preg (tierPage t) 0x108) 15 8 < rep % 256 then u.irq (tierPage t) 2 else u) →
    exec (.tierTrainingComplete t temp volt load rep low) s = .next ((((v.fwCommit []).setTierState t 1).showFree).nextTraining)) ∧
  (∀ (s : State) (t temp volt load rep low : Nat), s.tierState t ≠ 3 → exec (.tierTrainingComplete t temp volt load rep low) s = .next s)

/-- FETCH of a legal block, with no fetch standing and a slot that no job and no other state holds, makes the slot FETCHING and the fetch stand with its block and rate, and posts no completion yet; a second fetch completes REFUSED_BUSY. With no fetch standing, the tier not ready or the packages hot, an arriving page changes nothing. A part page whose leaf digest is the one stored is written to its slot page, pushed to the receivers of a broadcast, and the next is awaited; a tree page is written, and with the last page of its tree the tree is checked: one that gives ROOT is pushed and the fetch goes on, one that does not writes an error record and the pages at fault are asked for again, up to three times; a part page whose digest differs writes an error record and is asked for again, up to three times, after which the fetch fails with FAILED_DIGEST and the slot is EMPTY. The last page commits the image: the slot is READY with its repair source and the fetch completes DONE. The end of a broadcast turns to the gap source. WEIGHT_STATUS of slot 0 or 1 completes DONE with the slot's state and, of a READY slot, its revision and tag; a slot above 1 completes REFUSED_INVALID at 16. -/
def Obligations.WeightFetches : Prop :=
  (∀ (s t : State) (r : Ring) (e : Entry), s.takeEntry r 0x50 = some (t, some e) → e.f 16 1 ≤ 1 → 0 < e.f 17 1 → e.f 17 1 ≤ 24 → reservedBad e.bytes [(18, 6)] = none →
    inHostRegion (e.f 24 8) 512 = true → reservedBad e.bytes [(32, 32)] = none → fetchBlockBad (t.readPa (e.f 24 8) 512) = none →
    (t.fetch.isSome = true → exec (.fetch r) s = .next (t.complete e stBusy)) ∧
    (t.fetch = none → t.gslotCode (e.f 16 1) ≠ 1 → t.gslotCode (e.f 16 1) ≠ 3 →
      exec (.fetch r) s = .next { t.setGslot (e.f 16 1) { t.gslot (e.f 16 1) with st := 1 } with
        fetch := some { ring := e.ring, cookie := e.cookie, slot := e.f 16 1, block := t.readPa (e.f 24 8) 512, rate := e.f 17 1, was := (t.gslot (e.f 16 1)).st } })) ∧
  (∀ (s : State) (p : Nat) (data : List Byte) (ok : Bool), s.fetch = none ∨ s.deepState ≠ 2 ∨ s.flashHot = true → exec (.fetchPageArrival 0 p data ok) s = .next s) ∧
  (∀ (s : State) (f : Fetch) (x : Part) (p : Nat) (data : List Byte), s.fetch = some f → s.fetchDue f p = true → s.deepState = 2 → s.flashHot = false →
    f.source = 2 → f.known = true → treeOf (s.slotManifest f.slot) p = none → partAt (s.slotManifest f.slot) p = some x →
    (leafDigest x.role (p - x.first) (slice data 0 65536) = s.storedLeaf f.slot x (p - x.first) →
      exec (.fetchPageArrival 0 p data true) s = .next (((s.putSlotPage f.slot p data).pushPage f p).fetchStep f (f.todo.filter (· != p)))) ∧
    (leafDigest x.role (p - x.first) (slice data 0 65536) ≠ s.storedLeaf f.slot x (p - x.first) → f.tries < 3 →
      exec (.fetchPageArrival 0 p data true) s = .next { s.weightError 0x201 x.role (p - x.first) with
        fetch := some { f with todo := f.todo, tries := f.tries + 1, got := [], lines := f.lines.filter (fun y => !f.todo.contains y.1) } }) ∧
    (leafDigest x.role (p - x.first) (slice data 0 65536) ≠ s.storedLeaf f.slot x (p - x.first) → 3 ≤ f.tries →
      exec (.fetchPageArrival 0 p data true) s = .next (((({ s.weightError 0x201 x.role (p - x.first) with fetch := none } : State).setGslot f.slot {}).completeLater f.ring 0x50 f.cookie stFailedDigest)))) ∧
  (∀ (s u : State) (f : Fetch) (x : Part) (p : Nat) (data : List Byte) (bad todo : List Nat), s.fetch = some f → s.fetchDue f p = true → s.deepState = 2 → s.flashHot = false →
    f.source = 2 → f.known = true → treeOf (s.slotManifest f.slot) p = some x → u = s.putSlotPage f.slot p data → todo = f.todo.filter (· != p) →
    bad = ((List.range x.treePages).map (x.tree + ·)).filter (u.treePageBad f.slot x) →
    ((∃ q ∈ todo, x.tree ≤ q ∧ q < x.tree + x.treePages) → exec (.fetchPageArrival 0 p data true) s = .next (u.fetchStep f todo)) ∧
    ((∀ q ∈ todo, q < x.tree ∨ x.tree + x.treePages ≤ q) →
      (u.treeOk f.slot x = true → exec (.fetchPageArrival 0 p data true) s =
        .next (((List.range x.treePages).foldl (fun s i => s.pushPage f (x.tree + i)) u).fetchStep { f with treeTries := 0 } todo)) ∧
      (u.treeOk f.slot x = false → f.treeTries < 3 → exec (.fetchPageArrival 0 p data true) s = .next { u.weightError 0x205 x.role (bad.headD x.tree - x.tree) with
        fetch := some { f with todo := bad ++ todo, tries := 0, treeTries := f.treeTries + 1, got := [], lines := f.lines.filter (fun y => !bad.contains y.1) } }) ∧
      (u.treeOk f.slot x = false → 3 ≤ f.treeTries → exec (.fetchPageArrival 0 p data true) s =
        .next (((({ u.weightError 0x205 x.role (bad.headD x.tree - x.tree) with fetch := none } : State).setGslot f.slot {}).completeLater f.ring 0x50 f.cookie stFailedDigest))))) ∧
  (∀ (s : State) (f : Fetch), ∃ t : State, t = (({ s with fetch := none } : State).setGslot f.slot { st := 2, repair := slice f.block 256 256 }).completeLater f.ring 0x50 f.cookie stDone ∧
    s.fetchStep f [] = { t with lostPages := t.lostPages.filter (fun p => pageSlot p != f.slot) }) ∧
  (∀ (s : State) (f : Fetch), s.fetch = some f → f.source = 4 → exec .broadcastEnd s = .next { s with fetch := some { f with gap := true } }) ∧
  (∀ s : State, s.fetch = none → exec .broadcastEnd s = .next s) ∧
  (∀ (s t : State) (r : Ring) (e : Entry), s.takeEntry r 0x54 = some (t, some e) →
    (1 < e.f 16 1 → exec (.weightStatus r) s = .next (t.complete e stInvalid 16)) ∧
    (e.f 16 1 ≤ 1 → reservedBad e.bytes [(17, 47)] = none →
      ((t.gslot (e.f 16 1)).st = 2 → exec (.weightStatus r) s = .next (t.complete e stDone 0
        (leBytes 4 (t.gslotCode (e.f 16 1)) ++ leBytes 4 (getLE (t.readPa (slotBase (e.f 16 1)) 64) 16 4) ++ leBytes 8 (getLE (t.readPa (slotBase (e.f 16 1)) 64) 8 8)))) ∧
      ((t.gslot (e.f 16 1)).st ≠ 2 → exec (.weightStatus r) s = .next (t.complete e stDone 0 (leBytes 4 (t.gslotCode (e.f 16 1)) ++ leBytes 4 0 ++ leBytes 8 0)))))

/-- SWAP of a layer of a serving job whose slot holds the same model and ranges, with none standing for the layer, time to stage, room and at most 16,384 pages in place: the swap stands with its pages and is staged, and posts no completion yet; a second one for the layer completes REFUSED_BUSY, one whose slot is not READY or holds another model REFUSED_SLOT, one whose range records of the layer differ REFUSED_MISMATCH, one too near REFUSED_LATE, one without room REFUSED_ROOM, one too large in place REFUSED_SIZE, and one that names a bank with a failing entry REFUSED_INVALID with that entry's index. SWAP_EXECUTE of a staged in-place swap at or after its count, with no pass in the way, points every leaf at its staged page and switches the recipe bank; before its count it changes nothing. WEIGHT_LOAD with legal fields stands and posts no completion yet. A page of it from host memory whose digest is the one listed is written into the range and the load goes on, or completes DONE with its last page, which counts as clean; one whose digest differs writes an error record and completes FAILED_DIGEST. A load whose source descriptor holds no known code completes FAILED_SOURCE. -/
def Obligations.WeightSwapsAndLoads : Prop :=
  (∀ (s t : State) (r : Ring) (e : Entry) (j : Job) (m : List Byte) (rs : List RangeRec) (bank : Option Nat) (pages fresh near : List (Nat × Nat × Nat)), s.takeEntry r 0x51 = some (t, some e) → t.job e.jobNum = some j → j.phase = .serving →
    e.f 16 1 < manLayers j.manifest → e.f 17 1 ≤ 1 → e.f 18 1 ≤ 3 → reservedBad e.bytes [(19, 5), (32, 32)] = none → m = t.slotManifest (e.f 17 1) →
    rs = j.swapRanges m (e.f 16 1) → pages = swapPages m (e.f 17 1) rs → fresh = pages.filter (fun g => (t.residentOf g.2.1).isNone) →
    near = fresh.filter (fun g => rs.any (fun r => r.cls == 2 && decide (r.va / 65536 ≤ g.1) && decide (g.1 < r.va / 65536 + r.pages))) →
    bank = (if bit (e.f 18 1) 0 then some (b2n (bit (e.f 18 1) 1)) else none) →
    (t.swaps.any (fun x => x.job == e.jobNum && x.layer == e.f 16 1) = true → exec (.swap r) s = .next (t.complete e stBusy)) ∧
    (t.swaps.any (fun x => x.job == e.jobNum && x.layer == e.f 16 1) = false → (t.gslot (e.f 17 1)).st ≠ 2 ∨ manTag m ≠ manTag j.manifest ∨ manLayers m ≠ manLayers j.manifest →
      exec (.swap r) s = .next (t.complete e stSlot)) ∧
    (t.swaps.any (fun x => x.job == e.jobNum && x.layer == e.f 16 1) = false → (t.gslot (e.f 17 1)).st = 2 → manTag m = manTag j.manifest → manLayers m = manLayers j.manifest →
      (sameRanges (layerRecords j.manifest (e.f 16 1)) (layerRecords m (e.f 16 1)) = false ∨ sameRanges (j.swapRanges j.manifest (e.f 16 1)) rs = false →
        exec (.swap r) s = .next (t.complete e stMismatch)) ∧
      (sameRanges (layerRecords j.manifest (e.f 16 1)) (layerRecords m (e.f 16 1)) = true → sameRanges (j.swapRanges j.manifest (e.f 16 1)) rs = true →
      (e.f 24 8 < t.nowN + 24576 + stagingCt pages.length → exec (.swap r) s = .next (t.complete e stLate)) ∧
      (t.nowN + 24576 + stagingCt pages.length ≤ e.f 24 8 →
        (t.dramFree < fresh.length + 786432 ∨ t.nearFree < near.length → exec (.swap r) s = .next (t.complete e stRoom)) ∧
        (fresh.length + 786432 ≤ t.dramFree → near.length ≤ t.nearFree → manPrivileged j.manifest (e.f 16 1) = false → 16384 < pages.length → exec (.swap r) s = .next (t.complete e stSize)) ∧
        (∀ i : Nat, fresh.length + 786432 ≤ t.dramFree → near.length ≤ t.nearFree → manPrivileged j.manifest (e.f 16 1) = true ∨ pages.length ≤ 16384 →
          bank.bind (t.recipesBad e.jobNum j) = some i → exec (.swap r) s = .next (t.complete e stInvalid i))) ∧
      (∀ x : Swap, t.nowN + 24576 + stagingCt pages.length ≤ e.f 24 8 → fresh.length + 786432 ≤ t.dramFree → near.length ≤ t.nearFree →
        manPrivileged j.manifest (e.f 16 1) = true ∨ pages.length ≤ 16384 → bank.bind (t.recipesBad e.jobNum j) = none →
        x = { ring := e.ring, cookie := e.cookie, job := e.jobNum, layer := e.f 16 1, slot := e.f 17 1, bank := bank, effective := e.f 24 8, shadow := manPrivileged j.manifest (e.f 16 1), pages := pages } →
        exec (.swap r) s = .next (({ t with swaps := t.swaps ++ [x] } : State).stageSwap x j))))) ∧
  (∀ (s : State) (job layer : Nat) (x : Swap) (j : Job), s.swaps.find? (fun x => x.job == job && x.layer == layer && x.executed.isNone) = some x → s.job job = some j → x.staged = true →
    (s.nowN < x.effective → exec (.swapExecute job layer) s = .next s) ∧
    (∀ t u : State, x.effective ≤ s.nowN → x.shadow = false → j.executing = none → j.formed = none → t = x.pages.foldl (fun s g => s.repoint job g.1 g.2.2) s →
      u = t.modJob job (fun j => j.withBank x.bank) →
      exec (.swapExecute job layer) s = .next ({ u with swaps := u.swaps.map (fun (y : Swap) => if y.job == job && y.layer == layer then { y with executed := some j.nextSeq } else y) } : State).showFree)) ∧
  (∀ (s t : State) (r : Ring) (e : Entry) (j : Job), s.takeEntry r 0x52 = some (t, some e) → t.job e.jobNum = some j → e.f 16 4 < secCount j.manifest 3 →
    2 ≤ (manRange j.manifest (e.f 16 4)).kind → e.f 20 4 + e.f 24 4 ≤ (manRange j.manifest (e.f 16 4)).pages → 0 < e.f 24 4 → e.f 24 4 ≤ 65536 →
    reservedBad e.bytes [(30, 2), (36, 4)] = none → e.f 40 8 < 2 ^ 52 → (∀ a b c, t.transRange e.jobNum (e.f 40 8) (32 * e.f 24 4) false ≠ .bad a b c) →
    adBitsOk (e.f 48 8) = true → 2 ≤ adSpace (e.f 48 8) → reservedBad e.bytes [(56, 8)] = none →
    exec (.weightLoad r) s = .next { t with loads := t.loads ++ [{ ring := e.ring, cookie := e.cookie, job := e.jobNum, bytes := e.bytes }] }) ∧
  (∀ (s : State) (i page : Nat) (data bs dig : List Byte) (w : WLoad) (j : Job), s.loads[i]? = some w → s.readVa w.job (w.digests + 32 * w.pos) 32 = .ok dig → adSpace w.source = 3 →
    bs = slice (s.readHost (adLocal w.source + w.pos * 65536) 65536) 0 65536 → s.job w.job = some j →
    (leafDigest w.role w.index bs ≠ dig → exec (.fetchPageArrival (i + 1) page data true) s = .next ((s.weightError 0x201 w.role w.index).loadEnd w stFailedDigest)) ∧
    (∀ (t u : State) (vp : Nat), leafDigest w.role w.index bs = dig → vp = (manRange j.manifest w.range).va / 65536 + w.first + w.pos → s.loadInto w.job vp bs = some t → w.count ≤ w.pos + 1 →
      u = { t with loaded := mset t.loaded (vkey w.job vp) (dig, w.role, w.index) } →
      exec (.fetchPageArrival (i + 1) page data true) s = .next (State.loadEnd (match u.leafOf w.job vp with | some l => { u with cleanAt := mset u.cleanAt l.page u.commits } | none => u) w stDone))) ∧
  (∀ (s : State) (i page : Nat) (data dig desc : List Byte) (w : WLoad) (j : Job) (ok : Bool), s.loads[i]? = some w → s.readVa w.job (w.digests + 32 * w.pos) 32 = .ok dig → adSpace w.source = 0 →
    s.readVa w.job w.source 256 = .ok desc → s.job w.job = some j → getLE desc 0 1 = 0 ∨ 4 < getLE desc 0 1 → exec (.fetchPageArrival (i + 1) page data ok) s = .next (s.loadEnd w stFailedSource))

/-- A check of a resident weight page that is read well and matches its stored digest notes the page clean as of the passes committed; one that fails is a contained fault with code 0x203 whose record gives the passes since its last clean check, and the page is to be reloaded, but that a page which only swaps not in effect use is staged again from its flash copy. A page of neither a slot nor a load changes nothing, as does a check of a slot that is not READY. A check of a page of a READY slot reads flash: a part page that matches its leaf digest and a tree page that its tree needs to give ROOT change nothing more. PROMOTE of a serving standby job from a READY slot of its model, with a private part of it, a bank of the job whose checks pass and room for the part: the part is mapped, the endpoint becomes the module's, and the job waits to be promoted; a job that is not a standby completes REFUSED_JOB. PROMOTED completes once every page of the part is resident: the job serves with its part and bank, the entry completes PROMOTED, a record is written and JOIN lines leave. -/
def Obligations.GlintSweepAndPromotion : Prop :=
  (∀ (s : State) (d slot i : Nat) (ok : Bool) (p : Part) (rep : Option (List Byte)), isWeight d = false → (mget s.homes d).bind s.partOf = some (slot, p, i) →
    (ok = true ∧ leafDigest p.role i (s.readPa (d * 65536) 65536) = s.storedLeaf slot p i → exec (.glintSweepCheck d ok rep) s = .next { s with cleanAt := mset s.cleanAt d s.commits }) ∧
    (∀ w : Nat, ok = false ∨ leafDigest p.role i (s.readPa (d * 65536) 65536) ≠ s.storedLeaf slot p i → mget s.homes d = some w → s.onlyStaged d = true →
      exec (.glintSweepCheck d ok rep) s = .next (if s.deepReads = true ∧ s.weightOk w true = true then ((s.copyPage w d).flashRead (w * 65536 - deepBase) 65536).carryClean w d
        else (s.restage d 0).flashPageFails w true none)) ∧
    (ok = false ∨ leafDigest p.role i (s.readPa (d * 65536) 65536) ≠ s.storedLeaf slot p i → s.onlyStaged d = false →
      exec (.glintSweepCheck d ok rep) s = .next (({ s with reload := sinsert s.reload d } : State).contained .deep
        { code := 0xC203, sev := 3, key := weightKey p.role i, detail := leBytes 8 (s.commits - (mget s.cleanAt d).getD 0), job := (s.holders d).head?.map (·.1) }))) ∧
  (∀ (s : State) (d : Nat) (ok : Bool) (rep : Option (List Byte)), isWeight d = false → (mget s.homes d).bind s.partOf = none →
    (∀ h ∈ s.holders d, mget s.loaded (vkey h.1 h.2) = none) → exec (.glintSweepCheck d ok rep) s = .next s) ∧
  (∀ (s : State) (w : Nat) (ok : Bool) (rep : Option (List Byte)), isWeight w = true → (s.gslot (pageSlot w)).st ≠ 2 → exec (.glintSweepCheck w ok rep) s = .next s) ∧
  (∀ (s u : State) (w p : Nat) (x : Part) (m : List Byte) (rep : Option (List Byte)), isWeight w = true → (s.gslot (pageSlot w)).st = 2 → s.deepState = 2 → s.lostPages.contains w = false →
    p = w - slotBase (pageSlot w) / 65536 → m = s.slotManifest (pageSlot w) → u = s.flashRead (w * 65536 - deepBase) 65536 →
    (treeOf m p = none → partAt m p = some x → u.pageChecks (pageSlot w) x (p - x.first) = true → exec (.glintSweepCheck w true rep) s = .next u) ∧
    (treeOf m p = some x → u.treePageBad (pageSlot w) x p = false → exec (.glintSweepCheck w true rep) s = .next u)) ∧
  (∀ (s t : State) (r : Ring) (e : Entry) (j : Job), s.takeEntry r 0x53 = some (t, some e) → t.job e.jobNum = some j →
    (j.phase ≠ .serving ∨ j.standby = false ∨ j.promoting.isSome = true → exec (.promote r) s = .next (t.complete e stJob)) ∧
    (∀ (u : State) (m : List Byte) (mine : List RangeRec) (ep i : Nat) (x : Promote), j.phase = .serving → j.standby = true → j.promoting = none → e.f 16 1 ≤ 1 → m = t.slotManifest (e.f 16 1) →
      (t.gslot (e.f 16 1)).st = 2 → manTag m = manTag j.manifest → e.f 17 1 < secCount m 1 → (manPart m (e.f 17 1)).kind = 1 → reservedBad e.bytes [(18, 6)] = none →
      e.f 24 8 = j.bankVa 0 ∨ e.f 24 8 = j.bankVa 1 → reservedBad e.bytes [(32, 32)] = none → t.roleEndpoint e.jobNum (e.f 24 8) = some ep →
      t.bankBad e.jobNum j (e.f 24 8) ep = none → j.memberList.findIdx? (· == ep) = some i → mine = (manRanges m).filter (fun r => r.part == e.f 17 1 && r.kind != 3) →
      mine.any (fun r => !(t.mapped e.jobNum (r.va / 65536) r.pages).isEmpty) = false → t.mapPart e.jobNum (e.f 16 1) (e.f 17 1) m mine = some u →
      x = { ring := e.ring, cookie := e.cookie, priv := ((List.range (secCount j.manifest 1)).find? (fun x => (manPart j.manifest x).role == (manPart m (e.f 17 1)).role)).getD (e.f 17 1), bank := if e.f 24 8 = j.bankVa 0 then 0 else 1, ranges := mine.map (fun r => (r.va / 65536, r.pages)) } →
      exec (.promote r) s = .next ((((u.setPreg .route 0x104 (BitVec.ofNat 32 (2 ^ 31 + ep % 1024))).modJob e.jobNum (fun j => { j with myMember := i, promoting := some x })).showFree)))) ∧
  (∀ (s t u : State) (n : Nat) (j : Job) (x : Promote), s.jobNums = [n] → s.job n = some j → j.promoting = some x → s.partResident n x = true →
    t = s.setJob n { j with promoted := true, promoting := none, priv := some x.priv, placement := { j.placement with active := x.bank }, syncFrom := some s.nowN } →
    u = (t.showBank n).completeLater x.ring 0x53 x.cookie stPromoted →
    exec .promoted s = .next ((u.report .errlog { code := 0x000C, sev := 1, key := u.endpoint, job := some n }).sendContain n
      (fun j => containLine 3 false j.myMember 0 0 none s.nowN (u.report .errlog { code := 0x000C, sev := 1, key := u.endpoint, job := some n }).endpoint))) ∧
  (∀ s : State, (∀ n j, s.job n = some j → j.promoting = none) → exec .promoted s = .next s)

/-- For every job with no label fixed by a rejoin, a grid spacing PASS_CT above 0 and a last label L: the next label is L + j PASS_CT for some j of at least 1, it is at least the last start tick plus FORM_CT, and no smaller j of at least 1 reaches that. For a job that has formed no pass it is START_CT. -/
def Obligations.PassLabels : Prop :=
  (∀ (j : Job) (l : Nat), j.relabel = none → j.lastLabel = some l → 0 < j.passCt →
    ∃ k : Nat, 1 ≤ k ∧ j.nextLabel = l + k * j.passCt ∧ j.lastStart + j.formCt ≤ j.nextLabel ∧
      ∀ m : Nat, 1 ≤ m → j.lastStart + j.formCt ≤ l + m * j.passCt → k ≤ m) ∧
  (∀ j : Job, j.relabel = none → j.lastLabel = none → j.nextLabel = j.startCt)

/-- With no formation due PASS_FORMATION changes nothing. The formation of a job that is due walks its candidates in order, keeps the streams found eligible, the failed and the capped, and sends its bitmap and an increment to every module of the formation group. While FORM_PEG has not reached its target the exchange changes nothing; at its target the pass is formed from the bitmaps read, but not while an effective swap of the job is not executed or not staged; beyond it the job has a scheduling fault with code 0x002. A formed pass whose start tick has come, of a job that is not halted, suspended, ending or waiting, begins where no contained fault is being drained: it is the executing pass, and the formation of the next begins at its start tick; before that tick nothing begins. -/
def Obligations.PassesFormedAndStarted : Prop :=
  (∀ s : State, (∀ n ∈ s.jobNums, ∀ j, s.job n = some j → s.formationDue n j = false) → exec .passFormation s = .next s) ∧
  (∀ (s : State) (n : Nat) (j : Job), s.jobNums = [n] → s.job n = some j → s.formationDue n j = true → exec .passFormation s = .next (s.gateBays.formJob n)) ∧
  (∀ (s t u : State) (n : Nat) (j : Job) (cs took failed capped : List Nat), s.job n = some j → s.formationDue n j = true → cs = s.candidates n j j.nextLabel →
    s.walk n j.passMax cs [] [] = (t, took, failed, capped) →
    u = t.modJob n (fun j' => { j' with forming := some { seq := j'.nextSeq, label := j.nextLabel, eligible := took, framesFailed := failed, capped := capped, formBase := j'.formBase }, waits := cs.foldl (fun w i => if (mget w i).isSome then w else mset w i (j.formAt.getD s.nowN)) j'.waits }) →
    s.formJob n = j.peerList.foldl (fun s e => s.sendFenced n j.formWindow (j.formOff j.nextSeq (j.myPeer s.endpoint)) j.formPeg (bitmapOf took) e) u) ∧
  (∀ (s : State) (n : Nat) (j : Job) (f : Forming), s.jobNums = [n] → s.job n = some j → j.forming = some f →
    (reached (s.pegValue j.formPeg) ((f.formBase + j.formPeers) % 2 ^ 32) = false → exec .formationExchangeComplete s = .next s) ∧
    (reached (s.pegValue j.formPeg) ((f.formBase + j.formPeers) % 2 ^ 32) = true → s.pegValue j.formPeg ≠ (f.formBase + j.formPeers) % 2 ^ 32 →
      exec .formationExchangeComplete s = .next (s.schedFault n 2 j.myMember f.label 0)) ∧
    (∀ bms, reached (s.pegValue j.formPeg) ((f.formBase + j.formPeers) % 2 ^ 32) = true → s.pegValue j.formPeg = (f.formBase + j.formPeers) % 2 ^ 32 → s.bitmaps n j f.seq j.formPeers = .ok bms →
      exec .formationExchangeComplete s = .next (if s.swapHolds n = true then s else s.formPass n f bms))) ∧
  (∀ (s : State) (n : Nat) (j : Job) (p : Pass) (t : Nat), s.jobNums = [n] → s.job n = some j → j.formed = some p → j.executing = none → p.start = some t →
    (t ≤ s.nowN → s.faultCt = none → j.halts p.seq = false → j.ended p.label = false → j.suspended = false → j.lossWait = [] →
      exec .passStart s = .next (((s.setJob n { j with executing := some { p with begun := true }, formed := none, lastStart := t, formAt := some t }).clearBay n).reschedule)) ∧
    (s.nowN < t → exec .passStart s = .next s.reschedule))

/-- RUN on an entry taken, of a serving job with a legal argument block, limit and a start at least 24,576 ct ahead, adds the run with its client, class and fields; a limit below 24,576 completes REFUSED_INVALID at 40, a start too near REFUSED_LATE. With no holder the best runnable unit takes the cores; a runnable unit of a class strictly lower than the holder's asks for a pre-emption, one of an equal class does not; step 10 of a committed pass is never pre-empted and gives the cores up once every frame of its is ready and its bays are quiet; between a contained fault and the end of its drain nothing is given. A pre-emption takes effect when every unit of the holder has stopped, and not before. A run that holds the cores with its bays quiet ends: accounting, DONE, and the cores pass on. A run that has held the cores for its limit is a scheduling fault with code 0x003, and not before. -/
def Obligations.CoresShared : Prop :=
  (∀ (s t : State) (c k : Nat) (e : Entry) (j : Job), s.takeEntry (.client c k) 0x40 = some (t, some e) → e.ring = .client c k → t.job e.job = some j → j.phase = .serving → e.f 24 8 < 2 ^ 52 →
    (e.f 40 4 < 24576 → exec (.run (.client c k)) s = .next (t.complete e stInvalid 40)) ∧
    (24576 ≤ e.f 40 4 → reservedBad e.bytes [(44, 20)] = none → e.f 32 8 < t.nowN + 24576 → exec (.run (.client c k)) s = .next (t.complete e stLate)) ∧
    (24576 ≤ e.f 40 4 → reservedBad e.bytes [(44, 20)] = none → t.nowN + 24576 ≤ e.f 32 8 → j.suspended = false →
      exec (.run (.client c k)) s = .next { t with
        runs := t.runs ++ [{ uid := t.runUid, client := c, cls := k, job := e.job, cookie := e.cookie, id := e.f 20 4, template := e.f 16 4, args := e.f 24 8, start := e.f 32 8, limit := e.f 40 4, arrival := t.nowN }]
        runUid := t.runUid + 1 })) ∧
  (∀ (s : State) (b : Holder × List Nat), s.holder = none → s.faultCt = none → s.best = some b → exec .preemptionRequest s = .next (s.giveCores b.1)) ∧
  (∀ (s : State) (h : Holder) (b : Holder × List Nat), s.holder = some h → h.steady = false → s.faultCt = none → s.best = some b → s.preempting = none →
    (b.2.headD 4 < s.unitClass h → exec .preemptionRequest s = .next { s with preempting := some b.1 }) ∧
    (s.unitClass h ≤ b.2.headD 4 → exec .preemptionRequest s = .next s)) ∧
  (∀ (s : State) (n : Nat), s.holder = some (.tail n) →
    (s.tailDone n = false ∨ s.baysQuiet n = false → exec .preemptionRequest s = .next s) ∧
    (∀ t : State, s.tailDone n = true → s.baysQuiet n = true → t = { s.modJob n (fun x => { x with tail := [] }) with holder := none, preempting := none } →
      exec .preemptionRequest s = .next t.reschedule)) ∧
  (∀ s : State, (∀ n, s.holder ≠ some (.tail n)) → s.best = none ∨ s.faultCt.isSome = true → exec .preemptionRequest s = .next s) ∧
  (∀ (s : State) (h n : Holder), s.holder = some h → s.preempting = some n →
    (s.preemptReady = true → exec .preemptionEffective s = .next (s.saveHolder h).reschedule) ∧ (s.preemptReady = false → exec .preemptionEffective s = .next s)) ∧
  (∀ (s : State) (u : Nat) (r : Run), s.holder = some (.run u) → s.runs.find? (fun r => r.uid == u) = some r →
    (s.baysQuiet r.job = false → exec .runEnd s = .next s) ∧
    (s.baysQuiet r.job = true → exec .runEnd s = .next (((({ s with runs := s.runs.filter (fun (x : Run) => x.uid != u) } : State).accountOr r.client (runAccount r s.nowN)).endRun r stDone).dropHolder (.run u))) ∧
    (r.held + (s.nowN - r.heldFrom.getD s.nowN) < r.limit → exec .runLimit s = .next s) ∧
    (r.limit ≤ r.held + (s.nowN - r.heldFrom.getD s.nowN) → exec .runLimit s = .next (s.schedFault r.job 3 ((s.job r.job).elim 0 (·.myMember)) 0 r.id))) ∧
  (∀ s : State, s.holder = none → exec .runEnd s = .next s ∧ exec .runLimit s = .next s ∧ exec .preemptionEffective s = .next s)

/-- A begun pass that holds the cores with its bays quiet, its next pass formed and its end reached sends its barrier line with sequence, label, end and member to every member, each followed by an increment of BARRIER_PEG, once; while its line cannot be sent nothing happens. A pass that has not sent its line does not commit. Once BARRIER_PEG stands at the base plus MEMBERS and every line names this pass, it commits with the largest end among the lines; a line of another pass is a scheduling fault with code 0x001 naming its member, a peg beyond the target one with code 0x002. A stream that commits is one position longer, with IN_NEXT, NEXT_OUT_CT and OUT_SEQ advanced and its frame queued for the old NEXT_OUT_CT. -/
def Obligations.PassesCommitted : Prop :=
  (∀ (s t : State) (n done : Nat) (j : Job) (p : Pass), s.job n = some j → j.executing = some p → s.holder = some (.pass n) → p.begun = true → p.barrierSent = false →
    j.formed.isSome = true ∨ j.ended j.nextLabel = true → s.baysQuiet n = true → done ≤ s.nowN → j.halts p.seq = false →
    t = s.setJob n { j with executing := some { p with barrierSent := true, doneCt := done } } →
    exec (.barrierLineSend n done) s = .next (j.memberList.foldl (fun s e => s.sendFenced n j.barrierWindow ((p.seq % 2 * j.members + j.myMember) * 128) j.barrierPeg
      (leBytes 8 p.seq ++ leBytes 8 p.label ++ leBytes 8 done ++ leBytes 2 j.myMember ++ leBytes 102 0) e) t)) ∧
  (∀ (s : State) (n done : Nat) (j : Job) (p : Pass), s.job n = some j → j.executing = some p → s.holder ≠ some (.pass n) ∨ p.barrierSent = true ∨ s.baysQuiet n = false ∨ s.nowN < done →
    exec (.barrierLineSend n done) s = .next s) ∧
  (∀ (s : State) (n : Nat) (j : Job) (p : Pass), s.jobNums = [n] → s.job n = some j → j.executing = some p →
    (p.barrierSent = false ∨ reached (s.pegValue j.barrierPeg) ((p.barrierBase + j.members) % 2 ^ 32) = false → exec .commitBarrierComplete s = .next s) ∧
    (p.barrierSent = true → reached (s.pegValue j.barrierPeg) ((p.barrierBase + j.members) % 2 ^ 32) = true →
      (s.pegValue j.barrierPeg ≠ (p.barrierBase + j.members) % 2 ^ 32 → exec .commitBarrierComplete s = .next (s.schedFault n 2 j.myMember p.label 0)) ∧
      (∀ ls : List (List Byte), s.pegValue j.barrierPeg = (p.barrierBase + j.members) % 2 ^ 32 → s.barrierLines n j p.seq j.members = .ok ls →
        ((∀ l ∈ ls, getLE l 0 8 = p.seq ∧ getLE l 8 8 = p.label) → exec .commitBarrierComplete s = .next (s.commitPass n ((ls.map (fun l => getLE l 16 8)).foldl max 0))) ∧
        (∀ i, ls.findIdx? (fun l => getLE l 0 8 != p.seq || getLE l 8 8 != p.label) = some i → exec .commitBarrierComplete s = .next (s.schedFault n 1 i p.label 0))))) ∧
  (∀ (s : State) (n : Nat) (x : Stream), s.stream n = some x → x.fullTold = true →
    s.commitStream n = (s.setStream n { ((((x.put 4 4 (x.len + 1)).put 36 4 (x.inNext + 1)).put 24 8 (x.nextOut + x.frameCt)).put 100 4 (x.outSeq + 1)) with out := x.out ++ [{ seq := x.outSeq, tick := x.nextOut }], freePen := [], fullTold := true }).modArena x.job
      (fun a => (x.freePen.foldl (fun (a : Arena) q => a.dropPen q) a).unreserve n))

/-- While power is governed, a PMBus read answers its data bytes, least significant first, followed by the CRC-8 over address with write bit (0xB4), command code, address with read bit (0xB5) and the data; readings are the model's Linear11 form, an opaque function of the reading (the rounding of the encoder is not stated), of PWR_VIN, PWR_IIN and PWR_PIN and of the hottest compute-die sensor, memory sensor and the coolant inlet; blocks carry their count first; MFR_CAP_ACTIVE answers the effective cap in watts and MFR_THROTTLE PWR_THR_REASON. STATUS_WORD shows TEMPERATURE while a temperature reason is active; its other bits are the model's choice (log 112). With the power-management core stopped or the module not running, a read answers nothing (model's choice, log 192). An alert response releases MOD_ALERT_N and answers 0x5A only while an alert is asserted. -/
def Obligations.PmbusReads : Prop :=
  (∀ s : State, s.governed = true →
    let r := fun (code : Byte) (d : List Byte) => s.emit (.smbus (d ++ [pec ([0xB4, code, 0xB5] ++ d)]))
    let t := fun (n k d : Nat) => leBytes 2 (Config.linear11 (if k = 0 then s.sensor n else s.hottest n k) d).toNat
    exec .statusWord s = .next (r 0x79 (leBytes 2 s.statusWord)) ∧
    exec .readVin s = .next (r 0x88 (leBytes 2 (Config.linear11 (s.preg .pwr 0x120).toNat 1000).toNat)) ∧
    exec .readIin s = .next (r 0x89 (leBytes 2 (Config.linear11 (s.preg .pwr 0x124).toNat 100).toNat)) ∧
    exec .readPin s = .next (r 0x97 (leBytes 2 (Config.linear11 (s.preg .pwr 0x128).toNat 10).toNat)) ∧
    exec .readTemperature1 s = .next (r 0x8D (t 0 16 1)) ∧ exec .readTemperature2 s = .next (r 0x8E (t 16 16 1)) ∧ exec .readTemperature3 s = .next (r 0x8F (t 76 0 1)) ∧
    exec .pmbusRevision s = .next (r 0x98 [0x44]) ∧
    exec .mfrId s = .next (r 0x99 [7, 0x42, 0x41, 0x53, 0x4C, 0x49, 0x54, 0x48]) ∧
    exec .mfrModel s = .next (r 0x9A (16 :: partBytes s.isH)) ∧
    exec .mfrSerial s = .next (r 0x9E (8 :: leBytes 8 Config.serial.toNat)) ∧
    exec .mfrCapActive s = .next (r 0xD2 (leBytes 2 s.effectiveCap.1)) ∧
    exec .mfrThrottle s = .next (r 0xD3 (leBytes 2 (s.preg .pwr 0x140).toNat)) ∧
    (s.alert = true → exec .alertResponse s = .next ((({ s with alert := false } : State).drive "MOD_ALERT_N" true).emit (.smbus [0x5A]))) ∧
    (s.alert = false → exec .alertResponse s = .next s)) ∧
  (∀ s : State, s.governed = false → ∀ c ∈ ([.statusWord, .readVin, .readIin, .readPin, .readTemperature1, .readTemperature2, .readTemperature3, .pmbusRevision,
    .mfrId, .mfrModel, .mfrSerial, .mfrCapActive, .mfrThrottle, .alertResponse] : List Instr), exec c s = .next s)

/-- MFR_CAP_SET with a valid PEC and a value of 0 or 1,200 to 2,800 W becomes the SMBus cap under the lease last given by MFR_CAP_LEASE; with a wrong PEC or another value it changes nothing. MFR_CAP_LEASE stores 0 to 3,600 s. A legal CAP_SET from a configured management peer becomes the Ethernet cap and owes its sender a reply; an illegal one is answered at once with STATUS 1 and sets no cap; a message of another MAGIC, VERSION or TYPE, or of no management peer, counts in ETH_DROP. TELEM_REQ is answered to its sender with TELEM; one of another form or sender counts too. A lease that has run out is replaced by PWR_CAP_FAILSAFE, recorded with 0x402 and alerted; one that has not changes nothing. A cap lowered by SMBus or Ethernet waits for the core from that tick, and 24,576 ct later the brake path engages. MODE_CHANGE brings the committed mode into force when it differs. Without a governing core neither the mode nor the points change; an evaluation clears the wait and the brake path before it works. -/
def Obligations.CapsAndModes : Prop :=
  (∀ (s : State) (w p l : Nat), s.life = .up → s.power.nextLease = l → w = 0 ∨ (1200 ≤ w ∧ w ≤ 2800) →
    BitVec.ofNat 8 p = pec ([0xB4, 0xD0] ++ leBytes 2 w) →
    exec (.mfrCapSet w p) s = .next ((s.pw (fun x => { x with nextLease := 0 })).capChanged true
      (fun s => s.pw (fun p => { p with smbus := { watts := w, expiry := if w = 0 then none else leaseEnd s.nowN l } })))) ∧
  (∀ (s : State) (w p : Nat), BitVec.ofNat 8 p ≠ pec ([0xB4, 0xD0] ++ leBytes 2 w) ∨ (0 < w ∧ w < 1200) ∨ 2800 < w → exec (.mfrCapSet w p) s = .next s) ∧
  (∀ (s : State) (n p : Nat), s.life = .up → BitVec.ofNat 8 p = pec ([0xB4, 0xD1] ++ leBytes 2 n) →
    (n ≤ 3600 → exec (.mfrCapLease n p) s = .next (s.pw (fun x => { x with nextLease := n }))) ∧ (3600 < n → exec (.mfrCapLease n p) s = .next s)) ∧
  (∀ (s : State) (k : Nat) (m : MgmtIn) (w l : Nat), s.life = .up → mgmtOk 1 m.msg = true → s.mgmtPeer k m.addr = true → w = getLE m.msg 12 2 → l = getLE m.msg 14 2 →
    (w = 0 ∨ (1200 ≤ w ∧ w ≤ 2800) → l ≤ 3600 → exec (.capSet k m) s = .next ((s.capChanged true
      (fun s => s.pw (fun p => { p with eth := { watts := w, expiry := if w = 0 then none else leaseEnd s.nowN l } }))).pw
        (fun p => { p with replies := p.replies ++ [{ port := k, addr := m.addr, sport := m.sport, seq := getLE m.msg 8 4, at_ := s.nowN }] }))) ∧
    ((0 < w ∧ w < 1200) ∨ 2800 < w ∨ 3600 < l → exec (.capSet k m) s = .next (s.sendMgmt k m.addr m.sport (s.mgmtReply 2 1 (getLE m.msg 8 4))).useFree)) ∧
  (∀ (s : State) (k : Nat) (m : MgmtIn), s.life = .up → (mgmtOk 1 m.msg = false ∨ s.mgmtPeer k m.addr = false → exec (.capSet k m) s = .next (s.ethDrop (k % 2))) ∧
    (mgmtOk 3 m.msg = false ∨ s.mgmtPeer k m.addr = false → exec (.telemReq k m) s = .next (s.ethDrop (k % 2)))) ∧
  (∀ (s : State) (k : Nat) (m : MgmtIn) (t : List Byte), s.life = .up → mgmtOk 3 m.msg = true → s.mgmtPeer k m.addr = true →
    t = leBytes 4 (s.preg .pwr 0x128).toNat ++ leBytes 2 (s.preg .pwr 0x120).toNat ++ leBytes 2 (s.preg .pwr 0x124).toNat ++ leBytes 2 (s.preg .pwr 0x140).toNat ++
      leBytes 1 (min 255 (s.hottest 0 16)) ++ leBytes 1 (min 255 (s.hottest 16 16)) ++ leBytes 1 (min 255 (s.hottest 60 16)) ++ leBytes 1 (min 255 (s.sensor 76)) ++ leBytes 2 0 ++
      leBytes 8 (s.preg64 .pwr 0x130 0x134) ++ leBytes 8 0 →
    exec (.telemReq k m) s = .next (s.sendMgmt k m.addr m.sport (s.mgmtReply 4 0 (getLE m.msg 8 4) ++ t)).useFree) ∧
  (∀ (s : State) (t : Nat), s.power.smbus.expiry = some t → (s.nowN ≤ t → exec (.capLeaseExpiry 2) s = .next s) ∧
    (t < s.nowN → exec (.capLeaseExpiry 2) s = .next (((s.capChanged true
      (fun s' => s'.pw (fun p => { p with smbus := { watts := wfield (s.preg .pwr 0x10C) 11 0, failsafe := true } }))).pwrRecord 0x402 1 0
        ((s.capChanged true (fun s' => s'.pw (fun p => { p with smbus := { watts := wfield (s.preg .pwr 0x10C) 11 0, failsafe := true } }))).nowN) 0).alertN))) ∧
  (∀ s : State, s.power.eth.expiry = none → exec (.capLeaseExpiry 3) s = .next s) ∧
  (∀ (s : State) (t : Nat), s.life = .up → s.power.unacked = some t →
    (t + 24576 ≤ s.nowN → exec .capUnacknowledged s = .next (s.pw (fun p => { p with capBrake := true })).govern) ∧
    (s.nowN < t + 24576 → exec .capUnacknowledged s = .next s)) ∧
  (∀ (s : State) (m : Nat), s.governed = true → m = wfield (s.preg .pwr 0x104) 1 0 →
    (m < 3 → m ≠ s.pwrMode → exec .modeChange s = .next (s.putPreg .pwr 0x100 1 0 m).govern) ∧ (m = s.pwrMode → exec .modeChange s = .next s)) ∧
  (∀ (s : State) (vin iin pin : Nat) (fits room : List Nat) (rails : List (Nat × Nat)) (out : List Nat),
    (s.governed = true → exec (.governorEvaluation vin iin pin fits room rails out) s = .next
      ((((List.range 16).foldl State.riseBay (((((s.readings vin iin pin).railReadings rails out).pw (fun p =>
        { p with unacked := none, capBrake := false, current := p.current && decide (7800 < iin) })).excursion pin).fitCaps fits room).settlePoints).govern).sendReplies pin)) ∧
    (s.governed = false → exec (.governorEvaluation vin iin pin fits room rails out) s = .next s ∧ exec .modeChange s = .next s))

/-- An assertion of PWR_BRAKE_N on a running module settles every bay under the brake point, raises IRQ BRAKE and records 0x403; while asserted already it does nothing, and in reset only its level is kept; deassertion lets the bays return. A droop of a present bay of a running module counts in PWR_DROOP; one point down with reason DROOP when the governor runs. A threshold crossing and a flash temperature on a running module are shown and governed. Below its critical limit a sensor has no critical effect; at it the sensor's bays are limited to P0. A bay with a hot sensor steps down at once if it has not stepped before, and not again within 1 ms. Below a trip limit nothing trips; at it a running module records 0x406, sends LOSS, asserts THERM_TRIP_N, runs the close sequence and loses power, and its trip stays latched. -/
def Obligations.BrakeDroopAndHeat : Prop :=
  (∀ s : State, (s.power.brake = true → exec .pwrBrakeNAssert s = .next s) ∧
    (s.power.brake = false → s.life = .up → exec .pwrBrakeNAssert s = .next (((s.pw (fun p => { p with brake := true })).govern.irq .pwr 3).pwrRecord 0x403 1 1 s.nowN 0)) ∧
    (s.power.brake = false → s.life ≠ .up → exec .pwrBrakeNAssert s = .next (s.pw (fun p => { p with brake := true }))) ∧
    (s.life = .up → exec .pwrBrakeNDeassert s = .next (s.pw (fun p => { p with brake := false })).govern) ∧
    (s.life ≠ .up → exec .pwrBrakeNDeassert s = .next (s.pw (fun p => { p with brake := false })))) ∧
  (∀ (s : State) (b : Nat), (s.life = .up → b < 16 → s.absent b = false → exec (.droopDetect b) s = .next (s.count .pwr 0x150 1)) ∧
    (s.life ≠ .up ∨ 16 ≤ b ∨ s.absent b = true → exec (.droopDetect b) s = .next s) ∧
    (s.governed = true → b < 16 → s.point b ≠ 15 → exec (.droopStepDown b) s = .next (s.setLimit 11 b (some (s.point b - 1))).govern) ∧
    (s.governed = false → exec (.droopStepDown b) s = .next s)) ∧
  (∀ (s : State) (n v : Nat), s.life = .up →
    (n < 60 ∨ n = 76 → exec (.thermalThreshold n v) s = .next (s.sense n v).govern) ∧
    (n < 16 → exec (.flashTemperature n v) s = .next (s.sense (60 + n) v).govern) ∧
    (n < 60 → v < (sensorLimits n).2.1 → exec (.criticalLimit n v) s = .next s) ∧
    (n < 60 → (sensorLimits n).2.1 ≤ v → exec (.criticalLimit n v) s = .next ((sensorBays n).foldl (fun s b => (s.setLimit (sensorReason n) b (some 0)).pw
      (fun p => { p with downAt := mset p.downAt b s.nowN })) (s.sense n v)).govern) ∧
    (n < 76 → v < (sensorLimits n).2.2 → exec (.thermalTrip n v) s = .next s) ∧
    (n < 76 → (sensorLimits n).2.2 ≤ v → exec (.thermalTrip n v) s = .next
      ((((({ ((s.sense n v).pwrRecord 0x406 4 n s.nowN 0).sendLoss with tripped := true } : State).emit (.pin "THERM_TRIP_N" (some false))).closeDeep true).afterPower .down).emit (.pin "THERM_TRIP_N" (some false))))) ∧
  (∀ (s : State) (b n : Nat) (hot : List Nat), s.governed = true → b < 16 → s.absent b = false →
    hot = ((List.range 60).filter (fun n => (sensorBays n).contains b)).filter (fun n => decide ((sensorLimits n).1 ≤ s.sensor n)) → n ∈ hot →
    (mget s.power.downAt b = none → exec (.throttleStep b) s = .next ((((hot.map sensorReason).eraseDups.foldl (fun s r => s.setLimit r b (some (s.point b - 1))) s).pw
      (fun p => { p with downAt := mset p.downAt b (((hot.map sensorReason).eraseDups.foldl (fun s r => s.setLimit r b (some (s.point b - 1))) s).nowN) })).govern)) ∧
    (∀ t, mget s.power.downAt b = some t → s.nowN < t + 24576 → exec (.throttleStep b) s = .next s)) ∧
  (∀ (s : State) (b : Nat), s.governed = false ∨ 16 ≤ b ∨ s.absent b = true → exec (.throttleStep b) s = .next s)

/-- A write of PWR_GATE that would gate a bay with an open window, or the deep tier while a job exists, a fetch runs or one of its windows is open, is refused whole; otherwise its low 17 bits are stored and the deep tier is closed, or comes back as it stands to be mounted, at once when its bit changes. The loss of the heartbeat begins the hold: outputs let go, egress held, reason HOLD, 0x409. Its return within 2 s ends it with 0x40A; later it does not, and the expiry then loses the module; before 2 s it does not expire. VIN below 40.0 V holds bays at P4 with 0x407, once; at 40.0 V or above nothing happens; recovery lets go. IIN of at most 78.0 A does nothing. VIN from 38.0 to 62.0 V is no supply event; outside it a running module records 0x408, sends LOSS if any energy is left, runs the close sequence and loses its power and input; on a module tripped and down it is the removal of the input, and pins that boundary scan drives are let go. -/
def Obligations.HoldGateAndSupply : Prop :=
  (∀ (s : State) (w v : Word) (bad : Bool), v = w &&& 0x1FFFF →
    bad = ((List.range 16).any (fun b => wbit v b && !wbit (s.preg .pwr 0x118) b && s.openWindow (some b)) || (wbit v 16 && !wbit (s.preg .pwr 0x118) 16 && (!s.jobs.isEmpty || s.fetch.isSome || s.openWindow none))) →
    (bad = true → exec (.pwrGate w) s = .next (s.refuseReg .pwr 0x3118 w)) ∧
    (bad = false → wbit v 16 = wbit (s.preg .pwr 0x118) 16 → exec (.pwrGate w) s = .next (s.setPreg .pwr 0x118 v)) ∧
    (bad = false → wbit v 16 ≠ wbit (s.preg .pwr 0x118) 16 → exec (.pwrGate w) s = .next ((s.setPreg .pwr 0x118 v).gateDeep (wbit v 16)))) ∧
  (∀ s : State, s.governed = false → exec .heartbeatLoss s = .next s) ∧
  (∀ (s h m : State), s.governed = true → h = (s.pw (fun p => { p with hold := some s.nowN })).letGo → m = h.setPreg .media 0x100 (wset (h.preg .media 0x100) 30) →
    exec .heartbeatLoss s = .next ((m.showReasons.plumbCheck.irq .pwr 6).pwrRecord 0x409 1 10 m.nowN 0)) ∧
  (∀ (s h m : State) (t : Nat), s.power.hold = some t → s.life = .up →
    (s.nowN < t + 49152000 → h = (s.pw (fun p => { p with hold := none })).redrive → m = h.setPreg .media 0x100 (wclear (h.preg .media 0x100) 30) →
      exec .heartbeatReturn s = .next ((m.govern.irq .pwr 6).pwrRecord 0x40A 0 10 t (m.nowN - t))) ∧
    (t + 49152000 ≤ s.nowN → exec .heartbeatReturn s = .next s) ∧
    (s.nowN < t + 49152000 → exec .holdExpiry s = .next s) ∧
    (t + 49152000 ≤ s.nowN → exec .holdExpiry s = .next
      (((({ (((s.pwrRecord 0x409 4 10 t (s.nowN - t)).sendLoss).endJobs) with life := .lost } : State).pw (fun p => { p with hold := none })).setReady false).settlePoints.showReasons))) ∧
  (∀ s : State, s.power.hold = none → exec .heartbeatReturn s = .next s ∧ exec .holdExpiry s = .next s) ∧
  (∀ (s g : State) (vin : Nat), s.life = .up →
    (s.power.inputLow = false → vin < 40000 → g = (s.pw (fun p => { p with inputLow := true })).govern → exec (.inputLow vin) s = .next (g.pwrRecord 0x407 1 7 s.nowN 0)) ∧
    (s.power.inputLow = true ∨ 40000 ≤ vin → exec (.inputLow vin) s = .next s) ∧
    (s.power.inputLow = true → exec .inputLowRecovery s = .next (s.pw (fun p => { p with inputLow := false })).govern) ∧
    (s.power.inputLow = false → exec .inputLowRecovery s = .next s)) ∧
  (∀ (s : State) (iin : Nat) (fits : List Nat), (iin ≤ 7800 → exec (.inputCurrent iin fits) s = .next s) ∧
    (s.life = .up → 7800 < iin → exec (.inputCurrent iin fits) s = .next ((List.range 16).foldl (fun s b => if s.point b = 15 then s else s.setLimit 8 b (some (min (s.point b) (fits.getD b 8))))
      (s.pw (fun p => { p with current := true }))).govern)) ∧
  (∀ (s : State) (vin e : Nat), (38000 ≤ vin → vin ≤ 62000 → exec (.supplyEvent vin e) s = .next s) ∧
    (vin < 38000 ∨ 62000 < vin →
      (s.life = .down → s.tripped = true → exec (.supplyEvent vin e) s = .next (({ s.scanLetGo with tripped := false, input := false } : State).emit (.pin "THERM_TRIP_N" none))) ∧
      (s.life = .down → s.tripped = false → exec (.supplyEvent vin e) s = .next { s.scanLetGo with input := false }) ∧
      (s.life = .held → exec (.supplyEvent vin e) s = .next { s.scanLetGo with input := false, life := .down }) ∧
      (s.life ≠ .down → s.life ≠ .held → exec (.supplyEvent vin e) s = .next
        { (((if e = 0 then s.pwrRecord 0x408 4 0 s.nowN 0 else (s.pwrRecord 0x408 4 0 s.nowN 0).sendLoss).closeDeep (e == 2)).afterPower .down) with tripped := false, input := false })))

/-- On a host channel each DMA row fetches the descriptor at HEAD of an idle channel with entries, then works on the head descriptor when its operation is the row's, and otherwise does no more. On a bay channel with nothing queued or held for it, of a present bay whose cores a job holds, a row takes the descriptor given and works on it; with 16 descriptors queued or one held already, the control core holds it; with no job holding the cores it changes nothing. DMA_NOP meets reserved operations too. The work of a descriptor not yet started: the lowest code of its defects is the error, with record 0x8000 plus the code; a WAIT not met shows the channel waiting; otherwise it starts, and with no output bytes it goes to its fence. A channel with its descriptor done, or at its fence, parked or stopped does no work. Retirement of a descriptor that is not done changes nothing; of one that is done it signals, reports, and takes the next place. -/
def Obligations.DmaDescriptorsRun : Prop :=
  (∀ (s h : State) (n k : Nat) (d : List Byte) (bad : Bool) (c : DmaChan), c = .host n → h = s.hostFetch n → (h.chan c).q ≠ [] →
    (dOp (h.chan c).head = 0 ∨ dmaListed (dOp (h.chan c).head) = false → exec (.dmaNop c d) s = .next (h.dmaWork c 0 false)) ∧
    (dOp (h.chan c).head = 0x01 → exec (.dmaCopy c d k bad) s = .next (h.dmaWork c k bad)) ∧ (dOp (h.chan c).head ≠ 0x01 → exec (.dmaCopy c d k bad) s = .next h) ∧
    (dOp (h.chan c).head = 0x10 → exec (.interleave c d k bad) s = .next (h.dmaWork c k bad)) ∧ (dOp (h.chan c).head ≠ 0x10 → exec (.interleave c d k bad) s = .next h) ∧
    (dOp (h.chan c).head = 0x11 → exec (.deinterleave c d k bad) s = .next (h.dmaWork c k bad)) ∧ (dOp (h.chan c).head ≠ 0x11 → exec (.deinterleave c d k bad) s = .next h) ∧
    (dOp (h.chan c).head = 0x18 → exec (.bitplane c d k bad) s = .next (h.dmaWork c k bad)) ∧ (dOp (h.chan c).head ≠ 0x18 → exec (.bitplane c d k bad) s = .next h) ∧
    (dOp (h.chan c).head = 0x19 → exec (.bitplaneInv c d k bad) s = .next (h.dmaWork c k bad)) ∧ (dOp (h.chan c).head ≠ 0x19 → exec (.bitplaneInv c d k bad) s = .next h)) ∧
  (∀ (s t : State) (b n k job : Nat) (d : List Byte) (bad : Bool) (c : DmaChan), c = .bay b n → b < 16 → n < 16 → s.absent b = false →
    s.holder.bind s.holderJob = some job → (s.chan c).q = [] → s.heldHead (.bayDma b n) = none → d ≠ [] → t = s.putChan c { s.chan c with q := [slice d 0 64], job := job } 1 →
    (dOp d = 0 ∨ dmaListed (dOp d) = false → exec (.dmaNop c d) s = .next (t.dmaWork c 0 false)) ∧
    (dOp d = 0x01 → exec (.dmaCopy c d k bad) s = .next (t.dmaWork c k bad)) ∧
    (dOp d = 0x10 → exec (.interleave c d k bad) s = .next (t.dmaWork c k bad)) ∧
    (dOp d = 0x11 → exec (.deinterleave c d k bad) s = .next (t.dmaWork c k bad)) ∧
    (dOp d = 0x18 → exec (.bitplane c d k bad) s = .next (t.dmaWork c k bad)) ∧
    (dOp d = 0x19 → exec (.bitplaneInv c d k bad) s = .next (t.dmaWork c k bad))) ∧
  (∀ (s : State) (b n job : Nat) (d : List Byte) (c : DmaChan), c = .bay b n → b < 16 → n < 16 → s.absent b = false → s.holder.bind s.holderJob = some job →
    16 ≤ (s.chan c).q.length ∨ ((s.chan c).q ≠ [] ∧ (s.heldHead (.bayDma b n)).isSome = true) → d ≠ [] → dOp d = 0x01 → dOp (s.chan c).head ≠ 0x01 →
    ∀ (k : Nat) (bad : Bool), exec (.dmaCopy c d k bad) s = .next (s.holdUnit (.bayDma b n) job d)) ∧
  (∀ (s : State) (b n k : Nat) (d : List Byte) (bad : Bool) (c : DmaChan), c = .bay b n → s.holder.bind s.holderJob = none ∨ 16 ≤ b ∨ 16 ≤ n ∨ s.absent b = true →
    exec (.dmaNop c d) s = .next s ∧
    exec (.dmaCopy c d k bad) s = .next s ∧
    exec (.interleave c d k bad) s = .next s ∧
    exec (.deinterleave c d k bad) s = .next s ∧
    exec (.bitplane c d k bad) s = .next s ∧
    exec (.bitplaneInv c d k bad) s = .next s) ∧
  (∀ (s : State) (c : DmaChan) (x : Chan) (k : Nat) (bad : Bool), s.chan c = x →
    (x.q = [] ∨ x.done = true ∨ x.fencing = true ∨ s.chanState c = 3 ∨ 5 ≤ s.chanState c → s.dmaWork c k bad = s) ∧
    (x.q ≠ [] → x.done = false → x.fencing = false → s.chanState c ≠ 3 → s.chanState c < 5 → x.started = false →
      (∀ code, dmaCause (dmaIsHost c) (fun p => s.pegOwned p (s.chanJob c)) (s.partition (dmaBay c) (s.chanJob c)).2 x.head = some code →
        s.dmaWork c k bad = s.dmaError c (s.chanJob c) code (0x8000 + code)) ∧
      (dmaCause (dmaIsHost c) (fun p => s.pegOwned p (s.chanJob c)) (s.partition (dmaBay c) (s.chanJob c)).2 x.head = none →
        (dFlag x.head 0 = true → reached (s.pegValue (cWaitPeg x.head)) (cWaitTarget x.head) = false → s.dmaWork c k bad = s.putChan c x 2) ∧
        (dFlag x.head 0 = false ∨ reached (s.pegValue (cWaitPeg x.head)) (cWaitTarget x.head) = true → dmaIsHost c = true ∨ s.preempting = none →
          (dTotal x.head = 0 → s.dmaWork c k bad = (s.putChan c { x with started := true } 1).dmaFinish c (s.chanJob c)) ∧
          (0 < dTotal x.head → s.dmaWork c k bad = (s.putChan c { x with started := true } 1).dmaBursts c (s.chanJob c) bad k))))) ∧
  (∀ (s : State) (c : DmaChan), ((s.chan c).done = false ∨ s.chanState c = 3 ∨ 6 ≤ s.chanState c → exec (.dmaRetire c) s = .next s) ∧
    ((s.chan c).done = true → s.chanState c < 3 → dFlag (s.chan c).head 2 = false →
      (dFlag (s.chan c).head 1 = false → exec (.dmaRetire c) s = .next (s.chanNext c)) ∧
      (dFlag (s.chan c).head 1 = true → dFlag (s.chan c).head 5 = false →
        exec (.dmaRetire c) s = .next ((s.pegLocal (cSignalPeg (s.chan c).head) (cSignalInc (s.chan c).head)).chanNext c)) ∧
      (dFlag (s.chan c).head 1 = true → dFlag (s.chan c).head 5 = true → exec (.dmaRetire c) s = .next ((s.sendReq (dmaUnit c) (s.chanJob c)
        (pktInc (dSigEp (s.chan c).head) (dWin (s.chan c).head) (cSignalPeg (s.chan c).head) (cSignalInc (s.chan c).head) (dEpoch (s.chan c).head))).chanNext c))) ∧
    (∀ n, c = .host n → (s.chan c).done = true → s.chanState c < 3 → dFlag (s.chan c).head 2 = true → dFlag (s.chan c).head 1 = false → exec (.dmaRetire c) s = .next ((s.hIrq n 0).chanNext c)) ∧
    (∀ b n, c = .bay b n → (s.chan c).done = true → s.chanState c < 3 → dFlag (s.chan c).head 2 = true → dFlag (s.chan c).head 1 = false →
      exec (.dmaRetire c) s = .next (({ s with notes := s.notes ++ [(b, cTag (s.chan c).head)] } : State).chanNext c)))

/-- A host write to the CFG, TAIL or CTRL of channels 56 to 63 changes nothing but CHIP_STAT.UNMAPPED. TAIL is stored in 16 bits; a value at or beyond the ring size is error 0x00B, otherwise an idle channel fetches. CFG on a channel that is neither disabled, idle nor stopped with an empty ring, or an enable that names no job, is refused; a legal CFG without EN disables it; with EN it becomes idle and fetches, or has error 0x00B when the ring is not valid. ABORT of a running channel shows stopping, of a waiting one stops at once, of an idle one does nothing; an aborting channel stops when none of its reads of the fabric is outstanding. RESUME of a stopped or halted channel with no descriptor is idle and fetches; SKIP of one with a descriptor retires it and fetches; RESET of a stopped, halted or erring channel makes HEAD equal TAIL and idles it. In other states these three do nothing. A timeout of a host-memory read of a running channel is error 0x00A. -/
def Obligations.HostDmaChannels : Prop :=
  (∀ (s : State) (n : Nat) (v : Word), 56 ≤ n → n < 64 → ∀ c ∈ ([.hdmaTail n v, .hdmaCfg n v, .hdmaAbort n, .hdmaResume n, .hdmaSkip n, .hdmaReset n] : List Instr), exec c s = .next s.unmapped) ∧
  (∀ (s t : State) (n : Nat) (v : Word), n < 56 → t = s.setHReg n 0x14 (BitVec.ofNat 32 (wfield v 15 0)) →
    (2 ^ wfield (t.hReg n 0) 20 16 ≤ wfield v 15 0 → exec (.hdmaTail n v) s = .next (t.dmaError (.host n) (t.chanJob (.host n)) 0xB 0x800B)) ∧
    (wfield v 15 0 < 2 ^ wfield (t.hReg n 0) 20 16 → exec (.hdmaTail n v) s = .next (t.hostFetch n))) ∧
  (∀ (s t : State) (n : Nat) (v : Word), n < 56 → t = (s.setHReg n 0 v).putChan (.host n) {} 0 →
    ((s.hState n ≠ 9 ∧ s.hState n ≠ 0 ∧ s.hState n ≠ 6) ∨ (s.hState n = 6 ∧ s.hHead n ≠ s.hTail n) ∨ (wbit v 0 = true ∧ s.job (wfield v 10 8) = none) →
      exec (.hdmaCfg n v) s = .next (s.refuseReg .hdma (Page.base .hdma + hOff n 0) v)) ∧
    (s.hState n = 9 ∨ s.hState n = 0 ∨ (s.hState n = 6 ∧ s.hHead n = s.hTail n) →
      (wbit v 0 = false → exec (.hdmaCfg n v) s = .next ((s.setHReg n 0 v).putChan (.host n) {} 9)) ∧
      (wbit v 0 = true → (s.job (wfield v 10 8)).isSome = true → (t.ringOk n = true → exec (.hdmaCfg n v) s = .next (t.hostFetch n)) ∧
        (t.ringOk n = false → exec (.hdmaCfg n v) s = .next (t.dmaError (.host n) (wfield v 10 8) 0xB 0x800B))))) ∧
  (∀ (s : State) (n : Nat) (x : Chan), n < 56 → s.chan (.host n) = x →
    (s.hState n = 1 → exec (.hdmaAbort n) s = .next (s.putChan (.host n) { x with stopping := true } 5)) ∧
    (s.hState n = 2 → exec (.hdmaAbort n) s = .next ((s.putChan (.host n) x 6).hIrq n 1)) ∧
    (s.hState n = 3 → exec (.hdmaAbort n) s = .next (((s.unpark (.hostDma n)).putChan (.host n) x 6).hIrq n 1)) ∧
    (s.hState n = 4 → exec (.hdmaAbort n) s = .next ((({ s with fences := s.fences.filter (fun (f : Fence) => f.unit != UnitId.hostDma n) } : State).putChan (.host n) { x with fencing := false } 6).hIrq n 1)) ∧
    (s.hState n = 0 ∨ 5 ≤ s.hState n → exec (.hdmaAbort n) s = .next s) ∧
    (s.hState n = 6 ∨ s.hState n = 7 →
      (x.q = [] → exec (.hdmaResume n) s = .next ((s.putChan (.host n) {} 0).hostFetch n)) ∧
      (x.q ≠ [] → x.started = false → exec (.hdmaResume n) s = .next (s.putChan (.host n) { x with stopping := false, fencing := false } 1)) ∧
      (x.q ≠ [] → exec (.hdmaSkip n) s = .next ((s.chanNext (.host n)).hostFetch n))) ∧
    (s.hState n = 6 ∨ s.hState n = 7 ∨ s.hState n = 8 → exec (.hdmaReset n) s = .next ((s.setHReg n 0x18 (BitVec.ofNat 32 (s.hTail n))).putChan (.host n) {} 0)) ∧
    (s.hState n < 6 ∨ 8 < s.hState n → exec (.hdmaResume n) s = .next s ∧ exec (.hdmaSkip n) s = .next s ∧ exec (.hdmaReset n) s = .next s)) ∧
  (∀ (s : State) (n : Nat),
    (s.hState n = 5 → (∀ r ∈ s.reqs, r.unit ≠ .hostDma n ∨ r.pkt.typ ≠ tLineRead) →
      exec (.hdmaStopped n) s = .next ((s.putChan (.host n) { s.chan (.host n) with stopping := false } 6).hIrq n 1)) ∧
    (s.hState n ≠ 5 → exec (.hdmaStopped n) s = .next s) ∧
    (∀ r ∈ s.reqs, r.unit = .hostDma n → r.pkt.typ = tLineRead → exec (.hdmaStopped n) s = .next s) ∧
    (s.hState n = 1 → adSpace (dSrc (s.chan (.host n)).head) = 3 → (s.chan (.host n)).done = false →
      exec (.pcieReadTimeout n) s = .next (s.dmaError (.host n) (s.chanJob (.host n)) 0xA 0x800A)) ∧
    (s.hState n ≠ 1 ∨ adSpace (dSrc (s.chan (.host n)).head) ≠ 3 → exec (.pcieReadTimeout n) s = .next s))

/-- While a job holds the cores, a command written to a core of a present bay with fewer than 64 commands, not under remap and with none held for it, enters the queue's tail with its 64 bytes, moves the tail, counts one issued descriptor and, for a run, notes the first command; with commands before it nothing more happens, and as the only one it is taken up at once. With 64 commands queued, the core under remap, or one of that core's held already, the control core holds it, and the tick since which it waits is kept. A command of an absent bay is written to the same core of the bay that its unit is dealt to, over the bays that present cores in ascending order (the numbering of units is the model's choice, log 250). With no holder, no bay that presents cores, or no core so numbered, nothing happens. Each of the nine rows does so for a descriptor of its own opcode (COPY 0x01, GATHER 0x02, MATMUL 0x10, ATTN 0x18, VECTOR 0x20, QUANT 0x28, PRISM 0x30, TOPK 0x38; CORE_NOP for 0x00 and every reserved opcode), and nothing for another. -/
def Obligations.CoreCommandsIssued : Prop :=
  (∀ (s t u : State) (b l job : Nat) (d : List Byte) (c : CoreQ), s.holder.bind s.holderJob = some job → b < 16 → l < 16 → s.absent b = false →
    c = s.core b l → c.q.length < 64 → s.underRemap b l = false → (∀ x ∈ s.ccHeld, x.1 ≠ coreKey b l) →
    u = (s.noteFirst.count64 (.bay b) 0x128 0x12C 1).putCore b l { c with q := c.q ++ [slice d 0 64], tail := (c.tail + 1) % 64, job := some job } →
    (c.q ≠ [] ∧ t = u) ∨ (c.q = [] ∧ t = u.headStep b l) →
    (cOp d = 0 ∨ opListed (cOp d) = false → exec (.coreNop b l d) s = .next t) ∧
    (cOp d = 0x01 → exec (.copy b l d) s = .next t) ∧
    (cOp d = 0x02 → exec (.gather b l d) s = .next t) ∧
    (cOp d = 0x10 → exec (.matmul b l d) s = .next t) ∧
    (cOp d = 0x18 → exec (.attn b l d) s = .next t) ∧
    (cOp d = 0x20 → exec (.vectorOp b l d) s = .next t) ∧
    (cOp d = 0x28 → exec (.quant b l d) s = .next t) ∧
    (cOp d = 0x30 → exec (.prism b l d) s = .next t) ∧
    (cOp d = 0x38 → exec (.topk b l d) s = .next t)) ∧
  (∀ (s t : State) (b l job : Nat) (d : List Byte), s.holder.bind s.holderJob = some job → b < 16 → l < 16 → s.absent b = false → 64 ≤ (s.core b l).q.length ∨ s.underRemap b l = true ∨ (∃ x ∈ s.ccHeld, x.1 = coreKey b l) →
    t = { s with
      ccHeld := s.ccHeld ++ [(coreKey b l, job, slice d 0 64)]
      cores := mset s.cores (coreKey b l) { s.core b l with waitFrom := some ((s.core b l).waitFrom.getD s.nowN) } } →
    (cOp d = 0 ∨ opListed (cOp d) = false → exec (.coreNop b l d) s = .next t) ∧
    (cOp d = 0x01 → exec (.copy b l d) s = .next t) ∧
    (cOp d = 0x02 → exec (.gather b l d) s = .next t) ∧
    (cOp d = 0x10 → exec (.matmul b l d) s = .next t) ∧
    (cOp d = 0x18 → exec (.attn b l d) s = .next t) ∧
    (cOp d = 0x20 → exec (.vectorOp b l d) s = .next t) ∧
    (cOp d = 0x28 → exec (.quant b l d) s = .next t) ∧
    (cOp d = 0x30 → exec (.prism b l d) s = .next t) ∧
    (cOp d = 0x38 → exec (.topk b l d) s = .next t)) ∧
  (∀ (s : State) (b l x kind : Nat) (d : List Byte) (up : List Nat), b < 16 → s.absent b = true → up = (List.range 16).filter (fun x => !s.absent x) → up ≠ [] →
    kind = ((s.holder.bind s.holderJob).bind s.job).elim 0 (fun j => manWithdrawUnit j.manifest) →
    up[(((List.range b).filter (fun x => s.absent x)).length * 16 + dealUnit kind l d) % up.length]? = some x →
    exec (.coreNop b l d) s = exec (.coreNop x l d) s ∧ exec (.copy b l d) s = exec (.copy x l d) s ∧ exec (.gather b l d) s = exec (.gather x l d) s ∧
    exec (.matmul b l d) s = exec (.matmul x l d) s ∧ exec (.attn b l d) s = exec (.attn x l d) s ∧ exec (.vectorOp b l d) s = exec (.vectorOp x l d) s ∧
    exec (.quant b l d) s = exec (.quant x l d) s ∧ exec (.prism b l d) s = exec (.prism x l d) s ∧ exec (.topk b l d) s = exec (.topk x l d) s) ∧
  (∀ (s t : State) (b l : Nat) (d : List Byte), s.holder.bind s.holderJob = none ∨ 16 ≤ b ∨ 16 ≤ l ∨ (∀ x, x < 16 → s.absent x = true) → t = s →
    (cOp d = 0 ∨ opListed (cOp d) = false → exec (.coreNop b l d) s = .next t) ∧
    (cOp d = 0x01 → exec (.copy b l d) s = .next t) ∧
    (cOp d = 0x02 → exec (.gather b l d) s = .next t) ∧
    (cOp d = 0x10 → exec (.matmul b l d) s = .next t) ∧
    (cOp d = 0x18 → exec (.attn b l d) s = .next t) ∧
    (cOp d = 0x20 → exec (.vectorOp b l d) s = .next t) ∧
    (cOp d = 0x28 → exec (.quant b l d) s = .next t) ∧
    (cOp d = 0x30 → exec (.prism b l d) s = .next t) ∧
    (cOp d = 0x38 → exec (.topk b l d) s = .next t)) ∧
  (∀ (s : State) (b l : Nat) (d : List Byte),
    (cOp d ≠ 0x01 → exec (.copy b l d) s = .next s) ∧ (cOp d ≠ 0x02 → exec (.gather b l d) s = .next s) ∧ (cOp d ≠ 0x10 → exec (.matmul b l d) s = .next s) ∧ (cOp d ≠ 0x18 → exec (.attn b l d) s = .next s) ∧ (cOp d ≠ 0x20 → exec (.vectorOp b l d) s = .next s) ∧ (cOp d ≠ 0x28 → exec (.quant b l d) s = .next s) ∧ (cOp d ≠ 0x30 → exec (.prism b l d) s = .next s) ∧ (cOp d ≠ 0x38 → exec (.topk b l d) s = .next s))

/-- A core whose queue is empty, halted or executed, or whose bay is withdrawn, does not advance. A head that breaks the first stage of the check is an illegal command with that code. A legal head with WAIT_EN below its target shows waiting; otherwise it starts and runs, after a core whose last command was another job's has zeroed its scratchpad. A CORE_NOP that runs is executed with no store. A command with an executed head retires: signal, notification, count, credit; without one nothing happens. A COPY's output is its input. PEG_WAIT_MET takes up the head of the core, port or DMA channel named; a core that does not wait stays as it is. BAY_RRC_INV joins the jobs named to the invalidation and shows INV_BUSY; its end drops exactly the entries of those jobs, lets no read outstanding of theirs fill the cache, and raises the interrupt, and without one under way nothing happens. The heartbeat or progress failure of a bay that has no work writes 0x0003 and withdraws it; with work it is contained; a withdrawn or absent bay number changes nothing, nor does a progress expiry without work. The expiry of the credit watchdog of a consumer with a producer's work waiting without credit for 2,048 ct is a contained fault with code 0x0004 of the page's SOURCE (KEY and culprit of a queue that is no core's are the model's choice, log 251); of a quiesced consumer, of one with no such work, and of the deep tier and fabric egress, it changes nothing. -/
def Obligations.CoreHeadsAndRetirement : Prop :=
  (∀ (s : State) (b l : Nat) (c : CoreQ), s.core b l = c →
    (c.q = [] ∨ c.job = none ∨ c.halted = true ∨ c.executed = true ∨ s.withdrawn b = true → s.headStep b l = s) ∧
    (∀ (d : List Byte) (q : List (List Byte)) (job : Nat), c.q = d :: q → c.job = some job → c.halted = false → c.executed = false → s.withdrawn b = false →
      (c.started = true → s.headStep b l = s.runHead b l job d) ∧
      (c.started = false → s.preempting = none →
        (∀ code, s.legal1 b job d = some code → s.headStep b l = s.illegalCmd b l job d code) ∧
        (s.legal1 b job d = none →
          (cWaitEn d = true → reached (s.pegValue (cWaitPeg d)) (cWaitTarget d) = false → s.headStep b l = s.putCore b l { c with st := 3 }) ∧
          (cWaitEn d = false ∨ reached (s.pegValue (cWaitPeg d)) (cWaitTarget d) = true →
            s.headStep b l = ((((if c.prevJob = some job then s else s.zeroScratch b (s.slotOf b l)).fillScratch b (s.slotOf b l) job).putCore b l
              { c with started := true, st := 2, prevJob := some job, waitFrom := c.waitFrom.map (fun _ => s.nowN) }).runHead b l job d)))))) ∧
  (∀ (s t : State) (b l job : Nat) (d : List Byte) (tr : Trouble), s.runCmd b l job d = .done t tr →
    s.runHead b l job d = (t.trouble job (cRecipe d) tr).putCore b l { (t.trouble job (cRecipe d) tr).core b l with executed := true, lines := [], waitPage := none, st := 2 }) ∧
  (∀ (d x : List Byte) (e : Eff) (r : Option Recipe), cOp d = 1 → cmdOut d e r [x] = (x, {})) ∧
  (∀ (s u v t : State) (b l : Nat) (d : List Byte) (q : List (List Byte)), (s.core b l).q = d :: q → (s.core b l).executed = true →
    u = (if cSignalEn d = true then s.pegLocal (cSignalPeg d) (cSignalInc d) else s) → v = (if cNotify d = true then { u with notes := u.notes ++ [(b, cTag d)] } else u) →
    t = v.count64 (.core b (v.slotOf b l)) 0x120 0x124 1 →
    exec (.commandRetire b l) s = .next (((t.putCore b l
      { s.core b l with q := q, head := ((s.core b l).head + 1) % 64, started := false, executed := false, waitFrom := (s.core b l).waitFrom.map (fun _ => t.nowN), st := if q.isEmpty then 1 else 2 }).headStep b l).release b l)) ∧
  (∀ (s : State) (b l : Nat), (s.core b l).q = [] ∨ (s.core b l).executed = false → exec (.commandRetire b l) s = .next s) ∧
  (∀ (s t : State) (b l job : Nat) (c : CoreQ) (d : List Byte) (q : List (List Byte)), l < 16 → c = s.core b l → c.st = 3 → c.q = d :: q → c.job = some job → c.halted = false → c.executed = false →
    c.started = false → s.withdrawn b = false → s.preempting = none → s.legal1 b job d = none → reached (s.pegValue (cWaitPeg d)) (cWaitTarget d) = true →
    t = ((if c.prevJob = some job then s else s.zeroScratch b (s.slotOf b l)).fillScratch b (s.slotOf b l) job).putCore b l
      { c with started := true, st := 2, prevJob := some job, waitFrom := c.waitFrom.map (fun _ => s.nowN) } →
    exec (.pegWaitMet b l) s = .next (t.runHead b l job d)) ∧
  (∀ (s : State) (b k : Nat), (k < 16 → (s.core b k).st = 3 → exec (.pegWaitMet b k) s = .next (s.headStep b k)) ∧
    (k < 16 → (s.core b k).st ≠ 3 → exec (.pegWaitMet b k) s = .next s) ∧ exec (.pegWaitMet b 16) s = .next (s.dvStep b) ∧
    (k < 16 → exec (.pegWaitMet b (32 + k)) s = .next (s.dmaWork (.bay b k) 0 false)) ∧ (k < 64 → exec (.pegWaitMet b (64 + k)) s = .next (s.dmaWork (.host k) 0 false)) ∧
    ((16 < k ∧ k < 32) ∨ (48 ≤ k ∧ k < 64) ∨ 128 ≤ k → exec (.pegWaitMet b k) s = .next s)) ∧
  (∀ (s : State) (b m : Nat), b < 16 → exec (.bayRrcInv b m) s = .next (({ s with rrcInv := mset s.rrcInv b (Nat.lor ((mget s.rrcInv b).getD 0) (m % 256)) } : State).setPreg (.bay b) 0x154 1)) ∧
  (∀ (s : State) (b : Nat), (mget s.rrcInv b = none → exec (.rrcInvDone b) s = .next s) ∧
    (∀ m, mget s.rrcInv b = some m → exec (.rrcInvDone b) s = .next (((({ s with
      rrc := s.rrc.filter (fun (e : Nat × List Byte) => !(rrcBayOf e.1 == b && bit m (rrcJobOf e.1))), rrcInv := mdel s.rrcInv b } : State).staleReads (fun x j => x == b && bit m j)).setPreg (.bay b) 0x154 0).irq (.bay b) 3))) ∧
  (∀ (s : State) (b k : Nat) (r : ErrRec), b < 16 → s.withdrawn b = false → s.bayBusy b = false →
    r = { code := 0x0003, sev := 0, key := hwKey b 0x1F 0x1F 0x1F, detail := hwDetail 0 0 k (s.baysUp - 1), job := none } → k = 5 →
    exec (.controlCoreHeartbeatStall b) s = .next ((({ s with boot := { s.boot with jobStart := none } } : State).report (.bay b) r).withdrawBay b)) ∧
  (∀ (s : State) (b : Nat), (16 ≤ b ∨ s.withdrawn b = true → exec (.controlCoreHeartbeatStall b) s = .next s) ∧
    (s.bayBusy b = false ∨ 16 ≤ b ∨ s.withdrawn b = true → exec (.progressMonitorExpiry b) s = .next s)) ∧
  (∀ (s : State) (b : Nat) (r : ErrRec), b < 16 → s.withdrawn b = false → s.bayBusy b = true →
    r = { code := 0x0003, sev := 0, key := hwKey b 0x1F 0x1F 0x1F, detail := hwDetail 0 0 4 (s.baysUp - 1), job := s.holder.bind s.holderJob } →
    exec (.progressMonitorExpiry b) s = .next ((({ s with boot := { s.boot with jobStart := none } } : State).contained (.bay b) r).withdrawBay b)) ∧
  (∀ (s : State) (b : Nat) (r : ErrRec), b < 16 → s.withdrawn b = false → s.bayBusy b = true →
    r = { code := 0x0003, sev := 0, key := hwKey b 0x1F 0x1F 0x1F, detail := hwDetail 0 0 5 (s.baysUp - 1), job := s.holder.bind s.holderJob } →
    exec (.controlCoreHeartbeatStall b) s = .next ((({ s with boot := { s.boot with jobStart := none } } : State).contained (.bay b) r).withdrawBay b)) ∧
  (∀ (s : State) (x o : Nat) (p : Page), Page.ofOffset x = some (p, o) →
    (p = .deep ∨ p = .chip ∨ (∃ n, p = .link n) ∨ s.quiesced p = true ∨ s.watched p = false → exec (.creditWatchdogExpiry x) s = .next s) ∧
    (∀ b slot l t, p = .core b slot → l < 16 → s.slotOf b l = slot → (s.core b l).waitFrom = some t → t + 2048 ≤ s.nowN → s.watched p = true) ∧
    (∀ b u job t d, (p = .dovetail b ∧ u = .dovetail b) ∨ (∃ n, n < 16 ∧ p = .baydma b ∧ u = .bayDma b n) → (u, job, t, d) ∈ s.unitHeld → t + 2048 ≤ s.nowN → s.watched p = true) ∧
    (s.watched p = true → s.quiesced p = false → exec (.creditWatchdogExpiry x) s = .next (s.contained p
      { code := 0x0004, sev := 3, source := watchSource p, key := s.watchKey p, detail := hwDetail 0 0 5 s.baysUp, job := s.holder.bind s.holderJob })))

/-- A message of a port beyond 1, or of another domain, transport or delay mechanism than CADENCE_PTP_CFG gives, changes nothing. Another marks its port's reference valid; in FREE it does no more, and where no reference is in use the source's is taken up. A message of a port that is not the reference then does no more; of the reference it stores the grandmaster and is measured against (T - ORIGIN) x 24,576,000, rounded down. In LOCKED, a measurement within 24,576 ct of the count shows the phase error, ends STEP_PENDING and steers; one further off steps the counter to the count given, or, where only slewing is allowed, leaves the counter and sets STEP_PENDING, with record 0xD003 when it was clear. While STEP_PENDING stands the rate is 200 ppm towards the reference; otherwise the steering value is a free value (log 90). In ACQUIRING a measurement within 500 ns counts as good and another begins the count anew. Lock follows 16 good measurements in ACQUIRING and not fewer. The loss of the reference in LOCKED with a single source enters HOLDOVER with 0xD001; the loss of another reference marks a port invalid only. HOLDOVER expires with 0xD002 at 600 s of age, not before. With SOURCE 4 on port 1, port 0 takes over again after 245,760,000 ct of validity, not before. -/
def Obligations.CadenceLock : Prop :=
  (∀ (s : State) (p : Nat) (h : PtpHead) (t g : Nat), 2 ≤ p ∨ h.domain ≠ wfield (s.preg .cadence 0x118) 6 0 ∨ h.transport ≠ wfield (s.preg .cadence 0x118) 10 9 ∨
    h.p2p ≠ wbit (s.preg .cadence 0x118) 8 → exec (.ptpEventMessage p h t g) s = .next s) ∧
  (∀ (s u v : State) (p : Nat) (h : PtpHead) (t g : Nat), p < 2 → h.domain = wfield (s.preg .cadence 0x118) 6 0 → h.transport = wfield (s.preg .cadence 0x118) 10 9 →
    h.p2p = wbit (s.preg .cadence 0x118) 8 → u = s.setPtpOk p true → v = (if u.cadRef = 0 then u.setRef (u.refOf u.cadSource) else u) →
    (u.cadState = 0 → exec (.ptpEventMessage p h t g) s = .next u) ∧
    (u.cadState ≠ 0 → v.cadRef ≠ p + 1 → exec (.ptpEventMessage p h t g) s = .next v) ∧
    (u.cadState ≠ 0 → v.cadRef = p + 1 → exec (.ptpEventMessage p h t g) s = .next ((v.setPreg64 .cadence 0x138 0x13C g).measure
      (BitVec.ofInt 64 (((t : Int) - 1000000000 * (v.preg64 .cadence 0x110 0x114 : Int)) * 24576000 / 1000000000))))) ∧
  (∀ (s u w : State) (c : DWord) (d : Int), d = (s.now - c).toInt →
    u = s.setPreg .cadence 0x128 (BitVec.ofNat 32 (unsigned 32 (max (-2147483648) (min 2147483647 (d * 1000000000 / 24576000))))) →
    w = { u with cad := { u.cad with good := if (d * 1000000000 / 24576000).natAbs ≤ 500 then u.cad.good + 1 else 0 } } →
    (u.cadState = 2 → d.natAbs ≤ 24576 → s.measure c = (u.setPending false).steer d) ∧
    (u.cadState = 1 → d.natAbs ≤ 24576 → s.measure c = (w.setPending false).steer d) ∧
    (u.cadState = 2 → 24576 < d.natAbs → u.slewOnly = false → s.measure c = (({ u with now := c } : State).setPending false).steer d) ∧
    (u.cadState = 2 → 24576 < d.natAbs → u.slewOnly = true → u.stepPending = true → s.measure c = u.steer d) ∧
    (u.cadState = 2 → 24576 < d.natAbs → u.slewOnly = true → u.stepPending = false →
      s.measure c = ((((u.setPreg .cadence 0x108 (wassign (u.preg .cadence 0x108) 11 true)).irq .cadence 16).cadenceRecord 3).steer d))) ∧
  (∀ (s : State) (d : Int), (s.stepPending = true → 0 < d → s.steer d = s.setPreg .cadence 0x12C (BitVec.ofNat 32 (unsigned 32 (-200000)))) ∧
    (s.stepPending = true → d ≤ 0 → s.steer d = s.setPreg .cadence 0x12C (BitVec.ofNat 32 (unsigned 32 200000)))) ∧
  (∀ (s t : State), t = s.enterLock 2 →
    (s.cadState = 1 → 16 ≤ s.cad.good → t.cadRef = 3 ∨ wbit (t.preg .cadence 0x108) 8 = true → exec .lockAcquired s = .next t) ∧
    (s.cadState = 1 → 16 ≤ s.cad.good → t.cadRef = 1 ∨ t.cadRef = 2 → wbit (t.preg .cadence 0x108) 8 = false →
      exec .lockAcquired s = .next (t.setPreg .cadence 0x108 (wset (t.preg .cadence 0x108) 8)).ageSince) ∧
    (s.cadState ≠ 1 ∨ s.cad.good < 16 → exec .lockAcquired s = .next s)) ∧
  (∀ (s u : State) (r : Nat), r = 1 ∨ r = 2 → u = s.setPtpOk (r - 1) false →
    (u.cadRef ≠ r → exec (.referenceLossTimeout r) s = .next u) ∧
    (∀ v : State, u.cadRef = r → u.cadSource ≠ 4 → v = { u.setRef 0 with cad := { (u.setRef 0).cad with good := 0 } } →
      (v.cadState = 2 → exec (.referenceLossTimeout r) s = .next ((v.enterLock 3).cadenceRecord 1)) ∧ (v.cadState ≠ 2 → exec (.referenceLossTimeout r) s = .next v)) ∧
    (u.cadRef = r → u.cadSource = 4 → u.refOf 4 ≠ 0 → exec (.referenceLossTimeout r) s = .next (u.setRef (u.refOf 4)))) ∧
  (∀ s : State, (s.cadState = 3 → 600 ≤ s.holdAge → exec .holdoverExpiry s = .next ((s.enterLock 4).cadenceRecord 2)) ∧
    (s.cadState ≠ 3 ∨ s.holdAge < 600 → exec .holdoverExpiry s = .next s)) ∧
  (∀ (s : State) (t : Nat), s.cadSource = 4 → s.cadRef = 2 → mget s.cad.validFrom 0 = some t →
    (t + 245760000 ≤ s.nowN → exec .portFailback s = .next (s.setRef 1)) ∧ (s.nowN < t + 245760000 → exec .portFailback s = .next s)) ∧
  (∀ s : State, s.cadSource ≠ 4 ∨ s.cadRef ≠ 2 ∨ mget s.cad.validFrom 0 = none → exec .portFailback s = .next s)

/-- An edge counts only with SOURCE 3 outside FREE, and brings CADENCE_IN into use; with no load due it is measured against the nearest multiple of the period. CADENCE_LOAD stores both words while no job exists and refuses each otherwise. An enabled alarm whose count has come disables itself and sets its IRQ bit; one disabled, not due or beyond 14 changes nothing. A link change shows mode and state, with LINK_CHANGE when the state differs. A port that is off, in another number or on a module not running takes no frame. A whole frame counts as received; one shorter than a header, for another MAC, with a tag other than configured or longer than the MTU is dropped and counted in ETH_DROP; MAC control counts in its own register; a PTP frame ends at the cadence; ARP and IP go to their handlers. The frame formats are those the model took from the standards (log 121). -/
def Obligations.CadenceInAlarmsAndPorts : Prop :=
  (∀ s : State, s.cadSource ≠ 3 ∨ s.cadState = 0 → exec .cadenceInEdge s = .next s) ∧
  (∀ (s u : State) (p : Nat), s.cadSource = 3 → s.cadState ≠ 0 → u = s.setRef 3 → p = max 1 (wfield (u.preg .cadence 0x11C) 24 0) →
    (u.slewOnly = true ∨ u.cad.load = none → exec .cadenceInEdge s = .next (u.measure (BitVec.ofNat 64 (nearestMultiple u.nowN p)))) ∧
    (∀ v, u.slewOnly = false → u.cad.load = some v → exec .cadenceInEdge s = .next
      (({ u with now := BitVec.ofNat 64 (nearestMultiple v p), cad := { u.cad with load := none } } : State).measure (BitVec.ofNat 64 (nearestMultiple v p))))) ∧
  (∀ (s : State) (v : DWord), (s.anyJob = true → exec (.cadenceLoad v) s = .next ((s.refuseReg .cadence 0x2120 (lo32 v.toNat)).cadenceLoad true (hi32 v.toNat))) ∧
    (s.anyJob = false → exec (.cadenceLoad v) s = .next { s with cad := { s.cad with load := some ((hi32 v.toNat).toNat * 2 ^ 32 + (s.cad.load.getD 0 / 2 ^ 32 * 2 ^ 32 + (lo32 v.toNat).toNat) % 2 ^ 32) } })) ∧
  (∀ (s : State) (n : Nat), (n < 15 → wbit (s.preg .cadence 0x140) n = true → s.preg64 .cadence (0x180 + 8 * n) (0x184 + 8 * n) ≤ s.nowN →
      exec (.cadenceAlarm n) s = .next ((s.setPreg .cadence 0x140 (wclear (s.preg .cadence 0x140) n)).irq .cadence n)) ∧
    (15 ≤ n ∨ wbit (s.preg .cadence 0x140) n = false ∨ s.nowN < s.preg64 .cadence (0x180 + 8 * n) (0x184 + 8 * n) → exec (.cadenceAlarm n) s = .next s)) ∧
  (∀ (s t : State) (p m : Nat), t = s.putPreg (.eth p) 0x100 2 0 (m * 2 + b2n (decide (m ≠ 0))) →
    (p < 2 → 0 < m → m ≤ 2 → exec (.ethLinkChange p m) s = .next (if wbit (s.preg (.eth p) 0x100) 0 then t else t.irq (.eth p) 1)) ∧
    (2 ≤ p ∨ 2 < m → exec (.ethLinkChange p m) s = .next s)) ∧
  (∀ (s : State) (p : Nat) (f : List Byte), 2 ≤ p ∨ s.life ≠ .up ∨ wbit (s.preg (.eth p) 0x100) 0 = false ∨ s.ethOn p = false → exec (.ethFrameReceive p f) s = .next s) ∧
  (∀ (s t : State) (p : Nat) (f : List Byte), p < 2 → s.life = .up → wbit (s.preg (.eth p) 0x100) 0 = true → s.ethOn p = true → t = s.count64 (.eth p) 0x1C0 0x1C4 1 →
    (f.length < 14 → exec (.ethFrameReceive p f) s = .next (t.count (.eth p) 0x1D0 1)) ∧
    (14 ≤ f.length → getBE f 12 2 = 0x8808 → exec (.ethFrameReceive p f) s = .next (t.count (.eth p) 0x1D4 1)) ∧
    (14 ≤ f.length → getBE f 12 2 ≠ 0x8808 →
      (slice f 0 6 ≠ t.portMac p → getLE f 0 1 % 2 = 0 → exec (.ethFrameReceive p f) s = .next (t.count (.eth p) 0x1D0 1)) ∧
      (slice f 0 6 = t.portMac p ∨ getLE f 0 1 % 2 = 1 →
        (t.untag p f = none → exec (.ethFrameReceive p f) s = .next (t.count (.eth p) 0x1D0 1)) ∧
        (∀ r, t.untag p f = some r → 
          (wfield (t.preg (.eth p) 0x104) 13 0 < (r.drop 2).length → exec (.ethFrameReceive p f) s = .next (t.count (.eth p) 0x1D0 1)) ∧
          ((r.drop 2).length ≤ wfield (t.preg (.eth p) 0x104) 13 0 →
            (getBE r 0 2 = 0x88F7 → exec (.ethFrameReceive p f) s = .next t) ∧
            (getBE r 0 2 = 0x0806 → exec (.ethFrameReceive p f) s = .next (t.arp p (r.drop 2))) ∧
            (∀ k, getBE r 0 2 = 0x0800 → ipv4 (r.drop 2) = some k → exec (.ethFrameReceive p f) s = .next (t.ip p (slice f 6 6) k)) ∧
            (∀ k, getBE r 0 2 = 0x86DD → ipv6 (r.drop 2) = some k → exec (.ethFrameReceive p f) s = .next (t.ip p (slice f 6 6) k)))))))

/-- A request of another known type is not the command; of a reserved type, or one that fails its end-to-end check, it is dropped, counted and contained. A SEQ that is being applied or lies more than 2,048 behind is dropped and counted; one answered with a refusal is refused again with the same code, one acknowledged is acknowledged again, and a line read is read afresh; a fresh one is noted and checked. A slice no job has is refused with 0x001; otherwise the first of checks 2 to 7 that fails is the code of the refusal; with none failing the request has its effect. A line read counts and answers with the line at its window's place. A line write stores its line at the base plus OFFSET of a TARGET 0 window, or in the bay that a TARGET 1 window names, counts and acknowledges, a line of the containment area then being handed on; one that does not translate is refused with 0x00A. The line stored is the packet's through a window without segments. An increment of a head port adds to its peg and is acknowledged; of a plane port it joins its accumulator. The flush adds the sum and acknowledges each increment; without an accumulator nothing happens. A source's record goes 2,457,600 ct after its last request, not before. -/
def Obligations.FabricRequests : Prop :=
  (∀ (s : State) (k c : Nat) (p : Packet),
    (p.typ ≠ tLineRead → pktKnown p = true → exec (.lineRead k p c) s = .next s) ∧
    (p.typ ≠ tLineWrite → pktKnown p = true → exec (.lineWrite k p c) s = .next s) ∧
    (p.typ ≠ tPegInc → pktKnown p = true → exec (.pegInc k p c) s = .next s) ∧
    (c ≠ pktCrc p ∧ (p.typ = tLineRead ∨ p.typ = tLineWrite ∨ p.typ = tPegInc) ∨ pktKnown p = false →
      (p.typ ≠ tLineWrite → p.typ ≠ tPegInc → exec (.lineRead k p c) s = .next (s.crcDrop p)) ∧
      (p.typ ≠ tLineRead → p.typ ≠ tPegInc → exec (.lineWrite k p c) s = .next (s.crcDrop p)) ∧
      (p.typ ≠ tLineRead → p.typ ≠ tLineWrite → exec (.pegInc k p c) s = .next (s.crcDrop p)))) ∧
  (∀ (s u : State) (k : Nat) (p : Packet), u = { s with heard := mset s.heard p.src s.nowN } → ∀ t : State,
    (u.dupOf p = .drop ∧ t = u.count .route 0x114 1) ∨ (∃ c, u.dupOf p = .repeated c ∧ t = (u.noteRequest p).answerAgain k p c) ∨
      (u.dupOf p = .fresh ∧ t = (u.noteRequest p).handleReq k p) →
    (p.typ = tLineRead → exec (.lineRead k p (pktCrc p)) s = .next t) ∧ (p.typ = tLineWrite → exec (.lineWrite k p (pktCrc p)) s = .next t) ∧
    (p.typ = tPegInc → exec (.pegInc k p (pktCrc p)) s = .next t)) ∧
  (∀ (s : State) (k n c : Nat) (j : Job) (p : Packet), s.jobOfSlice p.slice = some (n, j) →
    (c ≠ 0 → s.answerAgain k p c = s.answer n p tRefuse c false []) ∧ (p.typ ≠ tLineRead → s.answerAgain k p 0 = s.answer n p tAck 0 false []) ∧
    (p.typ = tLineRead → s.answerAgain k p 0 = s.handleReq k p)) ∧
  (∀ (s : State) (k : Nat) (p : Packet), s.jobOfSlice p.slice = none → s.handleReq k p = s.refusePkt none p 0x001) ∧
  (∀ (s : State) (k n : Nat) (j : Job) (p : Packet), s.jobOfSlice p.slice = some (n, j) →
    (s.routed p.src n = false → s.handleReq k p = s.refusePkt none p 0x001) ∧
    (s.routed p.src n = true → ∀ w : Win, w = s.win n p.window →
      (∀ c, firstFail (s.ingressChecks n j w p) = some c → c ≠ 8 → c ≠ 9 → s.handleReq k p = s.refusePkt (some n) p c) ∧
      (firstFail (s.ingressChecks n j w p) = none →
        (p.typ = tLineRead → w.target = 1 → ∀ b, s.winRead n p.window p.offset 128 = .ok b →
          s.handleReq k p = (s.count64 .window 0x130 0x134 1).answer n p tReadData 0 w.shared b) ∧
        (p.typ = tLineRead → w.target = 0 → ∀ b, s.winRead n p.window p.offset 128 = .ok b →
          s.handleReq k p = ((s.touch n (w.base + p.offset) 128).count64 .window 0x130 0x134 1).answer n p tReadData 0 w.shared b) ∧
        (p.typ = tLineWrite → ∀ u v : State, v = (u.count64 .window 0x128 0x12C 1).answer n p tAck 0 false [] →
          ((w.target = 0 ∧ ∃ t, s.writeVa n (w.base + p.offset) (s.lineToStore n j w p) = .ok t ∧ u = t.touch n (w.base + p.offset) 128) ∨
            (w.target = 1 ∧ u = s.writeBay w.bay ((s.partition w.bay n).1 + w.bayOff + p.offset) (s.lineToStore n j w p))) →
          (j.containHas p = false → s.handleReq k p = v) ∧ (j.containHas p = true → s.handleReq k p = v.lineReceived n (s.lineToStore n j w p))) ∧
        (p.typ = tLineWrite → w.target = 0 → ∀ c x y, s.writeVa n (w.base + p.offset) (s.lineToStore n j w p) = .bad c x y →
            s.handleReq k p = (s.lastFault c n (w.base + p.offset) 5 0).refusePkt (some n) p 0x00A) ∧
        (w.segmented = false → s.lineToStore n j w p = slice p.line 0 128) ∧
        (p.typ = tPegInc → 16 ≤ k → s.handleReq k p = ((s.count64 .peg 0x110 0x114 1).pegAdd p.peg p.inc).answer n p tAck 0 false []) ∧
        (p.typ = tPegInc → k < 16 → ∀ a : Accum, (s.count64 .peg 0x110 0x114 1).accums.find? (fun (a : Accum) => a.port == k && a.peg == p.peg) = some a →
          s.handleReq k p = { s.count64 .peg 0x110 0x114 1 with accums := (s.count64 .peg 0x110 0x114 1).accums.map (fun (x : Accum) =>
            if x == a then { x with sum := (x.sum + p.inc) % 2 ^ 32, acks := x.acks ++ [p] } else x) })))) ∧
  (∀ (s : State) (k g : Nat), (s.accums.find? (fun (a : Accum) => a.port == k && a.peg == g) = none → exec (.pegAccumulatorFlush k g) s = .next s) ∧
    (∀ (a : Accum) (v w : State), s.accums.find? (fun (a : Accum) => a.port == k && a.peg == g) = some a →
      v = (({ s with accums := s.accums.filter (fun (x : Accum) => x != a) } : State).pegAdd a.peg a.sum).count64 .peg 0x118 0x11C 1 →
      w = a.acks.foldl (fun (s : State) (p : Packet) => s.answer (((s.jobOfSlice p.slice).map (·.1)).getD 0) p tAck 0 false []) v →
      exec (.pegAccumulatorFlush k g) s = .next { w with draining := w.draining.filter (fun (x : Nat × Packet) => !a.acks.contains x.2) })) ∧
  (∀ (s : State) (e : Nat), (mget s.dedup e = none → exec (.dedupRecordExpiry e) s = .next s) ∧
    (∀ r, mget s.dedup e = some r → (r.lastAt + 2457600 ≤ s.nowN → exec (.dedupRecordExpiry e) s = .next { s with dedup := mdel s.dedup e }) ∧
      (s.nowN < r.lastAt + 2457600 → exec (.dedupRecordExpiry e) s = .next s)))

/-- An answer of another known type is not the command; of a reserved type, or one that fails its end-to-end check, it is dropped, counted and contained; one that matches no outstanding request counts as unmatched. An ACK settles its request, and the unit goes on. READ_DATA settles it, hands the line to the reader, and the unit goes on. A REFUSE counts and sets the interrupt, writes the record, marks the destination failed for a job not in its drain (a line pushed by a broadcast fetch, which is no job's, marks none), and settles the request with its reason as the error; a refused line read ends its command: a weight load with FAILED_SOURCE, and another unit's command as a contained fault, while a fetch reads again. A settled request is outstanding no longer and no fence waits on it. With no fence whose requests are all answered FENCE_COMPLETE changes nothing; the oldest such fence leaves the list, and completes as a contained fault of class 0x6 when it has an error and without one otherwise. -/
def Obligations.FabricAnswers : Prop :=
  (∀ (s : State) (c : Nat) (p : Packet),
    (p.typ ≠ tReadData → pktKnown p = true → exec (.readData p c) s = .next s) ∧ (p.typ = tReadData → c ≠ pktCrc p → exec (.readData p c) s = .next (s.crcDrop p)) ∧
    (p.typ ≠ tAck → pktKnown p = true → exec (.ack p c) s = .next s) ∧ (p.typ = tAck → c ≠ pktCrc p → exec (.ack p c) s = .next (s.crcDrop p)) ∧
    (p.typ ≠ tRefuse → pktKnown p = true → exec (.refuse p c) s = .next s) ∧ (p.typ = tRefuse → c ≠ pktCrc p → exec (.refuse p c) s = .next (s.crcDrop p)) ∧
    (pktKnown p = false → p.typ ≠ tReadData → p.typ ≠ tAck → p.typ ≠ tRefuse →
      exec (.readData p c) s = .next (s.crcDrop p) ∧ exec (.ack p c) s = .next (s.crcDrop p) ∧ exec (.refuse p c) s = .next (s.crcDrop p))) ∧
  (∀ (s u : State) (p : Packet), u = { s with heard := mset s.heard p.src s.nowN } → u.matched p = none →
    (p.typ = tReadData → exec (.readData p (pktCrc p)) s = .next (u.count .window 0x118 1)) ∧
    (p.typ = tAck → exec (.ack p (pktCrc p)) s = .next (u.count .window 0x118 1)) ∧
    (p.typ = tRefuse → exec (.refuse p (pktCrc p)) s = .next (u.count .window 0x118 1))) ∧
  (∀ (s u : State) (p : Packet) (r : Req), u = { s with heard := mset s.heard p.src s.nowN } → u.matched p = some r →
    (p.typ = tReadData → exec (.readData p (pktCrc p)) s = .next (((u.settle r none).lineFor r p.shared p.line).goOn r.unit)) ∧
    (p.typ = tAck → exec (.ack p (pktCrc p)) s = .next ((u.settle r none).goOn r.unit)) ∧
    (∀ v w : State, v = ((u.count .window 0x10C 1).irq .window 2).refusalRecord r.pkt (p.reason % 4096) → p.typ = tRefuse →
      w = (if r.unit = .fetch ∨ (∃ j, v.job r.job = some j ∧ j.draining = true) then v else v.setFailed r.job r.pkt.dst (p.reason % 4096)).settle r (some (p.reason % 4096)) →
      (r.pkt.typ ≠ tLineRead → exec (.refuse p (pktCrc p)) s = .next w) ∧
      (r.pkt.typ = tLineRead → r.unit = .fetch → exec (.refuse p (pktCrc p)) s = .next w) ∧
      (r.pkt.typ = tLineRead → r.unit = .weights → ∀ l, w.loads.find? (fun (l : WLoad) => l.job == r.job) = some l → exec (.refuse p (pktCrc p)) s = .next (w.loadEnd l stFailedSource)) ∧
      (r.pkt.typ = tLineRead → r.unit ≠ .fetch → r.unit ≠ .weights → exec (.refuse p (pktCrc p)) s = .next (w.containedQuiet (0x6000 + p.reason % 4096) r.job)))) ∧
  (∀ (s : State) (r : Req) (e : Option Nat), ∃ t : State, s.settle r e = t.pump ∧ (∀ x ∈ t.reqs, x.pkt.dst ≠ r.pkt.dst ∨ x.pkt.seq ≠ r.pkt.seq) ∧
    (∀ f ∈ t.fences, (r.pkt.dst, r.pkt.seq) ∉ f.waits)) ∧
  (∀ s : State, (∀ f ∈ s.fences, f.waits ≠ []) → exec .fenceComplete s = .next s) ∧
  (∀ (s u : State) (f : Fence), s.fences.find? (fun (f : Fence) => f.waits.isEmpty) = some f → u = { s with fences := s.fences.erase f } →
    (∀ c, u.fenceError f = some c → exec .fenceComplete s = .next (u.containedQuiet (0x6000 + c) f.job)) ∧
    (u.fenceError f = none → exec .fenceComplete s = .next (u.fenceGood f)))

/-- A core fault of an active slot fails it and is a contained fault, 0x0001 with a spare and 0x0002 without; of a slot that is not active it is nothing. An uncorrectable scratchpad read of an active slot is a contained fault 0x5008; a second one in the slot within 24 h is that record and a core fault of the slot. An uncorrectable line of a memory tier or of bay memory is poisoned, contained when work holds the cores, a notice 0x5002 when none does. The failure of a mapped or withdrawn slot is no spare failure; of a spare it fails the slot with record 0x000B. A scrub read of a DRAM tier counts the line served; a clean one changes nothing else; a corrected one counts and writes 0x5001; an uncorrectable one poisons the line and writes 0x5002. An inject with CONTAIN 0 writes a record of that code, severity 1; with CONTAIN 1 it is a contained fault 0x000A; each command is nothing for the other's bit. A release of a slot that holds a fatal record frees it and clears FULL; of another slot it is nothing. A source given up fails the fetch, the weight load or the promotion named with FAILED_SOURCE; with none under way nothing happens. -/
def Obligations.FaultsDetected : Prop :=
  (∀ (s u : State) (b k c l : Nat) (sp : Option Nat), b < 16 → k < 17 → s.slotState b k = 1 → sp = s.spareSlot b →
    u = (s.failSlot b k).contained (.core b k) {
      code := if sp.isSome then 0x0001 else 0x0002, sev := 3, source := (Page.core b k).source b, key := hwKey b k (((List.range 16).find? (fun i => s.slotOf b i == k)).getD 0x1F) (sp.getD 0x1F)
      detail := hwDetail (cTag ((s.core b (((List.range 16).find? (fun i => s.slotOf b i == k)).getD 0x1F)).q.headD [])) (cOp ((s.core b (((List.range 16).find? (fun i => s.slotOf b i == k)).getD 0x1F)).q.headD [])) c ((s.failSlot b k).baysUp - b2n sp.isNone)
      job := s.coreJob b (((List.range 16).find? (fun i => s.slotOf b i == k)).getD 0x1F) } →
    exec (.containedFaultDetection 0 b k c l) s = .next (if u.jobs.isEmpty then u.remap else u)) ∧
  (∀ (s : State) (b k c l : Nat), 16 ≤ b ∨ 17 ≤ k ∨ s.slotState b k ≠ 1 → exec (.containedFaultDetection 0 b k c l) s = .next s ∧ exec (.containedFaultDetection 1 b k c l) s = .next s) ∧
  (∀ (s u : State) (b k c l : Nat) (r : ErrRec), b < 16 → k < 17 → s.slotState b k = 1 → u = { s with scratchErrs := mset s.scratchErrs (b * 17 + k) s.nowN } →
    r = { code := 0x5008, sev := 3, source := (Page.core b k).source b, key := l % 2 ^ 41 * 128, detail := leBytes 1 3 ++ leBytes 1 b
          job := s.coreJob b (((List.range 16).find? (fun i => s.slotOf b i == k)).getD 0x1F) } →
    (mget s.scratchErrs (b * 17 + k) = none → exec (.containedFaultDetection 1 b k c l) s = .next (u.contained (.core b k) r)) ∧
    (∀ t, mget s.scratchErrs (b * 17 + k) = some t →
      (t + 2123366400000 ≤ s.nowN → exec (.containedFaultDetection 1 b k c l) s = .next (u.contained (.core b k) r)) ∧
      (s.nowN < t + 2123366400000 → exec (.containedFaultDetection 1 b k c l) s = .next ((u.report (.core b k) r).coreFault b k 1)))) ∧
  (∀ (s : State) (b k c l t j : Nat), place s.isH (l * 128) = .near t ∨ place s.isH (l * 128) = .main t ∨ place s.isH (l * 128) = .bay t →
    ((s.setPoison l).holder.bind (s.setPoison l).holderJob = some j → exec (.containedFaultDetection 2 b k c l) s = .next ((s.setPoison l).unitPoison j (l * 128) 0)) ∧
    ((s.setPoison l).holder.bind (s.setPoison l).holderJob = none → exec (.containedFaultDetection 2 b k c l) s = .next ((s.setPoison l).report ((memPage (s.setPoison l).isH (l * 128)).getD .migrate)
      { code := 0x5002, sev := 1, key := lineKey (l * 128), detail := memDetail (s.setPoison l).isH (l * 128) 0 }))) ∧
  (∀ (s : State) (b k c l : Nat), exec (.containedFaultDetection 3 b k c l) s = .next s.announceLoss) ∧
  (∀ (s : State) (b k : Nat), (16 ≤ b ∨ 17 ≤ k ∨ s.slotState b k ≠ 0 → exec (.spareSlotFailure b k) s = .next s) ∧
    (b < 16 → k < 17 → s.slotState b k = 0 → exec (.spareSlotFailure b k) s = .next ((s.failSlot b k).report (.core b k)
      { code := 0x000B, sev := 0, source := (Page.core b k).source b, key := hwKey b k 0x1F 0x1F, detail := hwDetail 0 0 0 (s.failSlot b k).baysUp }))) ∧
  (∀ (s u : State) (l : Nat) (p : Page), memPage s.isH (l * 128) = some p → u = s.served (l * 128) 128 → exec (.scrubRead l 0) s = .next u ∧
    exec (.scrubRead l 1) s = .next ((u.count p 0x110 1).report p { code := 0x5001, sev := 0, key := lineKey (l * 128), detail := memDetail s.isH (l * 128) (s.vaOfLine l) }) ∧
    exec (.scrubRead l 2) s = .next (({ u.setPoison l with scrubbed := sinsert u.scrubbed l } : State).report p
      { code := 0x5002, sev := 1, key := lineKey (l * 128), detail := memDetail s.isH (l * 128) (s.vaOfLine l) })) ∧
  (∀ (s : State) (l f : Nat), memPage s.isH (l * 128) = none → exec (.scrubRead l f) s = .next s) ∧
  (∀ (s : State) (v : Word), (wbit v 31 = false → exec (.errlogInjectRecord v) s = .next (s.report .errlog { code := wfield v 15 0 % 65536, sev := 1 }) ∧ exec (.errlogInjectContain v) s = .next s) ∧
    (wbit v 31 = true → exec (.errlogInjectRecord v) s = .next s ∧ exec (.errlogInjectContain v) s = .next (s.contained .errlog { code := 0x000A, sev := 3 } false)) ∧
    (wfield v 15 0 ∉ s.fatalSlots → exec (.errlogRelease v) s = .next s) ∧
    (∀ fs, wfield v 15 0 ∈ s.fatalSlots → fs = s.fatalSlots.filter (fun x => x != wfield v 15 0) →
      exec (.errlogRelease v) s = .next (({ s with fatalSlots := fs } : State).setPreg .errlog 0x100 (wclear (wput (s.preg .errlog 0x100) 16 0 fs.length) 19)))) ∧
  (∀ (s : State) (i : Nat), (∀ f, s.fetch = some f → exec (.fetchSourceTimeout 0 i) s = .next (s.fetchFails f stFailedSource)) ∧ (s.fetch = none → exec (.fetchSourceTimeout 0 i) s = .next s) ∧
    (∀ w, s.loads[i]? = some w → exec (.fetchSourceTimeout 1 i) s = .next (s.loadEnd w stFailedSource)) ∧ (s.loads[i]? = none → exec (.fetchSourceTimeout 1 i) s = .next s) ∧
    (∀ (j : Job) (x : Promote), s.job i = some j → j.promoting = some x → exec (.fetchSourceTimeout 2 i) s = .next
      ((((x.ranges.foldl (fun s g => (s.mapped i g.1 g.2).foldl (fun s vp => s.unmapPage i vp) s) s).modJob i (fun j => { j with promoting := none })).showFree).completeLater x.ring 0x53 x.cookie stFailedSource)) ∧
    (∀ j : Job, s.job i = some j → j.promoting = none → exec (.fetchSourceTimeout 2 i) s = .next s))

/-- A line of another kind is not the command. A HALT of a job writes record 0x0005; without DISCARD, or for a job that takes no halts, nothing more; with it the pass named stops and its episode is set. A LOSS declares its writer lost. A JOIN of an endpoint the job waits for is answered when its drain is complete, kept when it is not; another JOIN is nothing. A SYNC that answers this module's JOIN restarts the job at its SEQ; another is nothing. A member from which nothing is awaited, or heard within 245,760 ct, is not lost; otherwise it is declared lost. A halted job with no episode, or before E + 13,824, does not replay; one whose drain is complete and whose pass has come replays it with its units cleared, counted; one not drained, or with the module's own fault still to be drained and remapped, is an overrun. With nothing to drain and no fault of its own DRAIN_COMPLETE changes nothing; otherwise each job whose drain may end is drained; once no job is left to drain after a fault of the module its failure flags are cleared and the failed slots remapped; and lines are repaired and copies reloaded. -/
def Obligations.ContainmentBetweenMembers : Prop :=
  (∀ (s : State) (n : Nat) (l : List Byte), (getLE l 0 1 ≠ 1 → exec (.haltReceive n l) s = .next s) ∧ (getLE l 0 1 ≠ 2 → exec (.lossReceive n l) s = .next s) ∧
    (getLE l 0 1 ≠ 3 → exec (.joinReceive n l) s = .next s) ∧ (getLE l 0 1 ≠ 4 → exec (.syncReceive n l) s = .next s)) ∧
  (∀ (s r : State) (n : Nat) (l : List Byte) (j : Job), getLE l 0 1 = 1 → s.job n = some j →
    r = s.report .errlog { code := 0x0005, sev := 3, key := clEndpoint l, job := some n, pass := if clDiscard l then some (clSeq l) else none } →
    (clDiscard l = false ∨ j.takesHalts = false → exec (.haltReceive n l) s = .next r) ∧
    (clDiscard l = true → j.takesHalts = true → exec (.haltReceive n l) s = .next (((r.stopPass n (clSeq l)).episodeLine n (clSeq l) (clEvent l) (clCulprit l)).reschedule))) ∧
  (∀ (s : State) (n : Nat) (l : List Byte), getLE l 0 1 = 2 → clDiscard l = false → exec (.lossReceive n l) s = .next (s.declareLost (clEndpoint l))) ∧
  (∀ (s : State) (n : Nat) (l : List Byte) (j : Job), getLE l 0 1 = 2 → s.job n = some j → clDiscard l = true → j.takesHalts = true →
    exec (.lossReceive n l) s = .next (((s.stopPass n (clSeq l)).episodeLine n (clSeq l) (clEvent l) (clCulprit l)).declareLost (clEndpoint l))) ∧
  (∀ (s : State) (n : Nat) (l : List Byte) (j : Job), getLE l 0 1 = 3 → s.job n = some j →
    (j.standby = true ∨ j.phase ≠ .serving ∨ clEndpoint l ∉ j.lossWait → exec (.joinReceive n l) s = .next s) ∧
    (j.standby = false → j.phase = .serving → clEndpoint l ∈ j.lossWait →
      (j.drainedNow = true → exec (.joinReceive n l) s = .next (s.answerJoin n (clEndpoint l) (clEvent l))) ∧
      (j.drainedNow = false → exec (.joinReceive n l) s = .next (s.setJob n { j with joinHeld := some (clEndpoint l, clEvent l) })))) ∧
  (∀ (s : State) (n : Nat) (l : List Byte) (j : Job), getLE l 0 1 = 4 → s.job n = some j →
    (j.syncFrom ≠ some (clEvent l) → exec (.syncReceive n l) s = .next s) ∧
    (j.syncFrom = some (clEvent l) → exec (.syncReceive n l) s = .next (s.setJob n { j.restart s.nowN (j.rejoinLabel (clEvent l)) (s.pegValue j.formPeg) with
      syncFrom := none, nextSeq := clSeq l, barrierBase := s.pegValue j.barrierPeg }))) ∧
  (∀ (s : State) (e : Nat), (s.awaits e = false ∨ s.silence e < 245760 → exec (.silentMemberTimeout e) s = .next s) ∧
    (s.awaits e = true → 245760 ≤ s.silence e → exec (.silentMemberTimeout e) s = .next (s.declareLost e))) ∧
  (∀ (s : State) (n : Nat) (j : Job) (ep : Episode), s.jobNums = [n] → s.job n = some j → j.episode = some ep →
    (j.lossWait ≠ [] ∨ j.suspended = true ∨ s.nowN < ep.e + 13824 → exec .replayLaunch s = .next s.reschedule) ∧
    (j.lossWait = [] → j.suspended = false → ep.e + 13824 ≤ s.nowN →
      (ep.drained = false ∨ s.faultCt.isSome = true → exec .replayLaunch s = .next (s.overrun n ep).reschedule) ∧
      (∀ p : Pass, ep.drained = true → s.faultCt = none → j.executing = some p → p.seq = ep.seq → p.start.getD 0 ≤ s.nowN → exec .replayLaunch s = .next
        (((((s.setJob n { j with executing := some { p with begun := true }, episode := none }).clearBay n).count .errlog 0x12C 1).showContaining).reschedule)))) ∧
  (∀ (s : State) (n : Nat) (j : Job), s.jobNums = [n] → s.job n = some j → j.episode = none → exec .replayLaunch s = .next s.reschedule) ∧
  (∀ s : State, s.drainable = [] → s.faultCt = none → exec .drainComplete s = .next s) ∧
  (∀ s : State, s.drainable ≠ [] → s.faultCt = none → exec .drainComplete s = .next (((s.drainable.foldl State.drainJob s).repairAll).reloadCopies)) ∧
  (∀ s t : State, s.faultCt.isSome = true → (∀ n ∈ s.jobNums, n ∈ s.drainable ∨ ∀ j, s.job n = some j → j.drainedNow = true) →
    t = s.jobNums.foldl (fun (s : State) (n : Nat) => (s.modJob n (fun j => { j with failed := [] })).putPreg .window 0x124 n n 0) (s.drainable.foldl State.drainJob s) →
    exec .drainComplete s = .next ((({ t.remap with faultCt := none } : State).repairAll).reloadCopies))

/-- A port that is not up takes no flit. A flit that fails its check, or of a reserved kind, counts as uncorrectable and is answered by a NAK, one in 99 ct. An ACK frees every flit up to and including the one it names. A data flit with the SEQ awaited advances it; a duplicate changes nothing; after a gap a NAK is due. A good flit's credits join its class before the port's packets leave; one that carries no data and asks for no width does nothing else, and one that asks for another width is acknowledged at that width and the port's width set. Unacknowledged flits without progress for 99 ct are replayed from the oldest, counted; with none or before that nothing happens. 8 replays in a row without progress retrain the port with its record, fewer do not. WIDTH_ACK switches to the width asked for: the width shown, counted, interrupt, record, replay. -/
def Obligations.LinkFlits : Prop :=
  (∀ (s : State) (n : Nat) (x : FlitIn), s.portUp n = false → exec (.flitReceive n x) s = .next s) ∧
  (∀ (s u : State) (n : Nat) (x : FlitIn) (f : Flit), s.portUp n = true → f = flitOf x → f.good = false ∨ f.kind = 3 → u = s.count (.link n) 0x12C 1 →
    (∀ t, (u.port n).nakAt = some t → u.nowN < t + 99 → exec (.flitReceive n x) s = .next u) ∧
    ((u.port n).nakAt = none → exec (.flitReceive n x) s = .next ((u.setPort n { u.port n with nakAt := some u.nowN }).emit (.linkMsg n 0 (u.port n).expect)))) ∧
  (∀ (s u v : State) (n : Nat) (x : FlitIn) (f : Flit), s.portUp n = true → f = flitOf x → f.good = true → f.corrected = false → f.nak = false →
    u = (if f.ackValid then s.modPort n (fun p => p.freed s.nowN f.ack) else s) → v = u.modPort n (fun p => p.credited f.cls f.credit) →
    (f.kind = 1 → exec (.flitReceive n x) s = .next (v.pumpPort n)) ∧
    (f.kind = 2 → f.width = 1 ∨ f.width = 2 ∨ f.width = 4 → f.width ≠ v.portWidth n → exec (.flitReceive n x) s = .next (((v.emit (.linkMsg n 3 f.width)).setWidth n f.width).pumpPort n)) ∧
    (f.kind = 0 → f.seq = (v.port n).expect → (v.port n).expect < 4096 → exec (.flitReceive n x) s = .next ((v.setPort n { v.port n with expect := ((v.port n).expect + 1) % 4096, nakAt := none }).pumpPort n)) ∧
    (f.kind = 0 → 2048 ≤ (f.seq + 4096 - (v.port n).expect) % 4096 → exec (.flitReceive n x) s = .next (v.pumpPort n)) ∧
    (f.kind = 0 → 0 < (f.seq + 4096 - (v.port n).expect) % 4096 → (f.seq + 4096 - (v.port n).expect) % 4096 < 2048 → exec (.flitReceive n x) s = .next ((v.sendNak n).pumpPort n))) ∧
  (∀ (p : Port) (now ack : Nat), (∀ f ∈ (p.freed now ack).unacked, f ∈ p.unacked) ∧
    (∀ f ∈ p.unacked, (ack + 4096 - f.1) % 4096 < 2048 → f ∉ (p.freed now ack).unacked) ∧
    (∀ f ∈ p.unacked, 2048 ≤ (ack + 4096 - f.1) % 4096 → f ∈ (p.freed now ack).unacked)) ∧
  (∀ (s : State) (n q : Nat) (ps : List Packet) (rest : List (Nat × List Packet)), s.portUp n = true → (s.port n).unacked = (q, ps) :: rest →
    ((s.port n).ackAt + 99 ≤ s.nowN → exec (.ackTimeout n) s = .next (((s.modPort n (fun p => { p with replays := p.replays + 1, ackAt := s.nowN })).count (.link n) 0x128 1).emit (.linkMsg n 1 q))) ∧
    (s.nowN < (s.port n).ackAt + 99 → exec (.ackTimeout n) s = .next s)) ∧
  (∀ (s : State) (n : Nat), (s.portUp n = false ∨ (s.port n).unacked = [] → exec (.ackTimeout n) s = .next s) ∧
    (s.portUp n = false ∨ (s.port n).replays < 8 → exec (.replayRetrain n) s = .next s) ∧
    (s.portUp n = true → 8 ≤ (s.port n).replays → exec (.replayRetrain n) s = .next ((s.linkRecord n 5 0).goDown n 2))) ∧
  (∀ (s : State) (n : Nat), (s.portUp n = false ∨ (s.port n).newWidth = none → exec (.widthAck n) s = .next s) ∧
    (∀ w, s.portUp n = true → (s.port n).newWidth = some w → exec (.widthAck n) s = .next
      (((((((s.modPort n (fun p => { p with newWidth := none })).putPreg (.link n) 0x100 6 4 w).count (.link n) 0x134 1).irq (.link n) 3).linkRecord n (if w < s.portWidth n then 1 else 2) 0).replay n).pumpPort n)))

/-- A failed lane of a port that is up leaves its healthy lanes and the width is refitted; of a port that is down, or a lane disabled already, nothing. A test of the disabled lanes of a port that is up begins by TEST_LANES, or by LANE_TEST when it is due, and none begins for a port that is down; after 2,457,600 ct its lanes that passed are healthy again and the width is refitted, not before. A port that is up adapts when asked, or when conditions leave its record's window, which sets the interrupt and writes a record; with conditions inside the window and nothing asked a readaptation is nothing. A port that is up goes down on loss of signal, and on a retrain goes down to train; one that is training loses only its state; a port that is down and not training does neither. A disabled port, one with no lane locked, one up or in state 0 does not train; with no common level it is held down and recorded; otherwise it comes up at the lower of the highest levels and its width, resends what it held and sends IDENT. The lane margins shown are free values (log 109). -/
def Obligations.LinkPortsAndLanes : Prop :=
  (∀ (s : State) (n l : Nat), (s.portUp n = true → l ∈ (s.port n).healthy →
      exec (.laneFailure n l) s = .next ((s.putLanes n (fun p => { p with healthy := p.healthy.filter (fun x => x != l) })).fitWidth n)) ∧
    (s.portUp n = false ∨ l ∉ (s.port n).healthy → exec (.laneFailure n l) s = .next s)) ∧
  (∀ (s b : State) (n : Nat), b = s.putLanes n (fun p => { p with testing := some s.nowN, testDue := s.nowN + 245760000 }) →
    (s.portUp n = true → (s.port n).healthy.length < 4 → (s.port n).testing = none → exec (.testLanes n) s = .next b ∧
      (∀ ok, wbit (s.preg (.link n) 0x104) 1 = true → (s.port n).testDue ≤ s.nowN → exec (.laneTest n ok) s = .next b)) ∧
    (s.portUp n = false ∨ 4 ≤ (s.port n).healthy.length ∨ (s.port n).testing ≠ none → exec (.testLanes n) s = .next s) ∧
    (∀ (ok : List Nat), (s.port n).testing = none → wbit (s.preg (.link n) 0x104) 1 = false ∨ s.nowN < (s.port n).testDue → exec (.laneTest n ok) s = .next s) ∧
    (∀ (ok : List Nat) (t : Nat), (s.port n).testing = some t → (s.nowN < t + 2457600 → exec (.laneTest n ok) s = .next s) ∧
      (t + 2457600 ≤ s.nowN → exec (.laneTest n ok) s = .next ((s.putLanes n (fun p => { p with
        testing := none, healthy := (ok.filter (fun l => l < 4)).foldl (fun h l => sinsert h l) p.healthy })).fitWidth n)))) ∧
  (∀ (s : State) (n : Nat), (s.portUp n = true → exec (.adapt n) s = .next (s.modPort n (fun p => { p with adapt := true }))) ∧ (s.portUp n = false → exec (.adapt n) s = .next s)) ∧
  (∀ (s : State) (n t v l : Nat) (bad : List Nat), s.portUp n = false ∨ (inWindow (s.preg (.link n) 0x10C) t v l = true ∧ (s.port n).adapt = false) →
    exec (.equalisationReadapt n t v l bad) s = .next s) ∧
  (∀ (s u : State) (n t v l : Nat) (bad : List Nat), s.portUp n = true → inWindow (s.preg (.link n) 0x10C) t v l = false → u = (s.irq (.link n) 2).linkRecord n 7 0 →
    exec (.equalisationReadapt n t v l bad) s = .next ((((u.stampCal n t v l).modPort n (fun p => { p with adapt := false })).putLanes n
      (fun p => { p with healthy := p.healthy.filter (fun x => !bad.contains x) })).fitWidth n)) ∧
  (∀ (s : State) (n t v l : Nat) (bad : List Nat), s.portUp n = true → inWindow (s.preg (.link n) 0x10C) t v l = true → (s.port n).adapt = true →
    exec (.equalisationReadapt n t v l bad) s = .next ((((s.stampCal n t v l).modPort n (fun p => { p with adapt := false })).putLanes n
      (fun p => { p with healthy := p.healthy.filter (fun x => !bad.contains x) })).fitWidth n)) ∧
  (∀ (s : State) (n : Nat), (n < 18 → s.portUp n = true → exec (.linkRetrain n) s = .next (s.goDown n 2) ∧ exec (.portDown n) s = .next (s.goDown n 1)) ∧
    (s.portUp n = false → exec (.linkRetrain n) s = .next s) ∧ (n < 18 → s.portUp n = false → s.linkState n = 2 → exec (.portDown n) s = .next (s.setLinkState n 1)) ∧
    (18 ≤ n ∨ (s.portUp n = false ∧ s.linkState n ≠ 2) → exec (.portDown n) s = .next s)) ∧
  (∀ (s : State) (n lo hi id : Nat) (lanes : List Nat) (t v l : Nat),
    (18 ≤ n ∨ s.portEn n = false ∨ s.linkState n = 3 ∨ s.linkState n = 0 ∨ widthFor (lanes.filter (fun l => l < 4)) (s.maxWidth n) = 0 →
      exec (.portTraining n lo hi id lanes t v l) s = .next s) ∧
    (n < 18 → s.portEn n = true → s.linkState n ≠ 3 → s.linkState n ≠ 0 → widthFor (lanes.filter (fun l => l < 4)) (s.maxWidth n) ≠ 0 →
      min (wfield (s.preg .route 0x108) 15 8) hi < max (wfield (s.preg .route 0x108) 7 0) lo → exec (.portTraining n lo hi id lanes t v l) s = .next ((s.setLinkState n 4).linkRecord n 6 0)) ∧
    (∀ (w lv : Nat) (ok : List Nat) (a b c : State), n < 18 → s.portEn n = true → s.linkState n ≠ 3 → s.linkState n ≠ 0 → ok = lanes.filter (fun l => l < 4) → w = widthFor ok (s.maxWidth n) → w ≠ 0 →
      lv = min (wfield (s.preg .route 0x108) 15 8) hi → max (wfield (s.preg .route 0x108) 7 0) lo ≤ lv →
      a = ((s.setPort n { queue := (s.port n).heldPackets ++ (s.port n).queue, credits := (4096, 4096), healthy := sortBy (fun a b => decide (a < b)) ok.eraseDups, testDue := s.nowN + 245760000, ackAt := s.nowN }).count
        (.link n) 0x138 (s.port n).heldPackets.length).stampCal n t v l →
      b = ((((a.putPreg (.link n) 0x100 19 12 lv).putPreg (.link n) 0x100 6 4 w).setPreg (.link n) 0x114 (BitVec.ofNat 32 id)).setLinkState n 3).showLanes n →
      c = (b.linkRecord n 4 0).emit (.linkMsg n 4 b.identity) → exec (.portTraining n lo hi id lanes t v l) s = .next (c.pumpPort n).retryHeld))

/-- With no pass holding the cores none of the five does anything. SCATTER does nothing for a RETURN descriptor and RETURN nothing for another. A descriptor handed to a bay with fewer than 16 queued joins the port's queue with its job and the port goes on: a SCATTER at the port fixed for its layer, once in a pass, and a RETURN at a present bay; with 16 queued, at another port, or a second time in its layer it is not taken. Before its arrival target a slot's work is not built; an absent bay builds none, nor one for a slot the module does not serve; at the target, a layer with no rows is handed the empty RETURN once, one with rows is gathered one chunk at a time until all are, the first waiting on the slot's done peg once it has served a layer, and one with more chunks than MAX_TRIPS is an engine fault of code 9. Before the half-arrival target, or in a layer without exchange, no grants leave; at it each source gets its grant line and, behind a fence, one increment. A port that does not wait on grants takes none; at the grant target it goes on with them. -/
def Obligations.ExpertRows : Prop :=
  (∀ (s : State) (b k sl la tag ix dst st : Nat) (d : List Byte), (∀ j, s.holder ≠ some (.pass j)) →
    exec (.scatter b d) s = .next s ∧ exec (.returnRows b d) s = .next s ∧ exec (.arrivalPegTarget b k sl la tag ix dst st) s = .next s ∧ exec (.exchangeGrant b sl la) s = .next s) ∧
  (∀ (s : State) (b : Nat) (d : List Byte), (cOp d = 2 → exec (.scatter b d) s = .next s) ∧ (cOp d ≠ 2 → exec (.returnRows b d) s = .next s)) ∧
  (∀ (s : State) (b n : Nat) (d : List Byte) (p : Pass) (t : State → State), s.holder = some (.pass n) → s.passNow n = some p →
    t = (fun (u : State) => (u.putDove b { s.dove b with q := (s.dove b).q ++ [slice d 0 64], job := n }).dvStep b) →
    (b < 16 → (s.dove b).q.length < 16 → ((mget p.scatterBays (dvLayer d)).getD b) = b → dvLayer d ∉ p.scattered →
      (cOp d = 1 → exec (.scatter b d) s = .next (t (s.modPass n (fun p => { p with scattered := sinsert p.scattered (dvLayer d) })))) ∧
      (cOp d ≠ 1 → cOp d ≠ 2 → exec (.scatter b d) s = .next (t s))) ∧
    (b < 16 → (s.dove b).q.length < 16 → s.absent b = false → cOp d = 2 → exec (.returnRows b d) s = .next (t s)) ∧
    (16 ≤ b ∨ 16 ≤ (s.dove b).q.length → exec (.scatter b d) s = .next s ∧ exec (.returnRows b d) s = .next s) ∧
    (((mget p.scatterBays (dvLayer d)).getD b) ≠ b ∨ dvLayer d ∈ p.scattered → exec (.scatter b d) s = .next s) ∧
    (s.absent b = true → exec (.returnRows b d) s = .next s)) ∧
  (∀ (s : State) (b k sl la tag ix dst st n tg : Nat) (p : Pass) (j : Job) (bk : Bank) (below : List (Bool × Nat × Bool)), s.holder = some (.pass n) → s.passNow n = some p → s.job n = some j →
    s.bank n p.placementBank la = .ok bk → s.layerInfo n p.placementBank s.endpoint sl la = .ok below → tg = p.baseOf (bk.arrivalPeg sl) + arrivalTarget bk.sources below (bk.exchange la) false →
    (reached (s.pegValue (bk.arrivalPeg sl)) tg = false ∨ 16 ≤ b ∨ s.absent b = true ∨ (bk.instances.any (fun w => repEndpoint w == s.endpoint && repSlot w == sl)) = false →
      exec (.arrivalPegTarget b k sl la tag ix dst st) s = .next s) ∧
    (∀ (cs : List Nat) (rows : List (Nat × Nat × Nat)) (step c : Nat) (w : Option (Nat × Nat)) (u : State), reached (s.pegValue (bk.arrivalPeg sl)) tg = true → b < 16 → s.absent b = false →
      (bk.instances.any (fun w => repEndpoint w == s.endpoint && repSlot w == sl)) = true → s.countsOf n bk sl la p.label (bk.exchange la) bk.sources = .ok (some cs) →
      rows = compacted (bk.exchange la) bk.exchCap cs → step = max 1 (manStep j.manifest la) → c = (mget p.chunks (sl * 256 + la)).getD 0 →
      u = s.modPass n (fun p => { p with chunks := mset p.chunks (sl * 256 + la) (c + 1) }) →
      w = (if servedBelow below = 0 then none else some (bk.donePeg sl, (p.baseOf (bk.donePeg sl) + servedBelow below) % 2 ^ 32)) →
      (manTrips j.manifest la < ceilDiv rows.length step → exec (.arrivalPegTarget b k sl la tag ix dst st) s = .next (s.dvFault b n 9 (emptyReturn tag 0 sl la))) ∧
      (ceilDiv rows.length step ≤ manTrips j.manifest la →
        (rows = [] → c = 0 → exec (.arrivalPegTarget b k sl la tag ix dst st) s = .next (u.dvPush b (emptyReturn tag dst sl la))) ∧
        (rows ≠ [] → c < ceilDiv rows.length step → exec (.arrivalPegTarget b k sl la tag ix dst st) s = .next (u.gatherChunk b k n bk sl (bk.exchange la) tag ix dst st step w rows c)) ∧
        (max 1 (ceilDiv rows.length step) ≤ c → exec (.arrivalPegTarget b k sl la tag ix dst st) s = .next s)))) ∧
  (∀ (s : State) (b sl la n : Nat) (p : Pass) (bk : Bank) (below : List (Bool × Nat × Bool)) (x : Nat × Nat), s.holder = some (.pass n) → s.passNow n = some p →
    s.bank n p.placementBank la = .ok bk → s.layerInfo n p.placementBank s.endpoint sl la = .ok below →
    (bk.instances.zipIdx).find? (fun x => repEndpoint x.1 == s.endpoint && repSlot x.1 == sl) = some x →
    (bk.exchange la = false ∨ reached (s.pegValue (bk.arrivalPeg sl)) (p.baseOf (bk.arrivalPeg sl) + arrivalTarget bk.sources below true true) = false → exec (.exchangeGrant b sl la) s = .next s) ∧
    (∀ cs, bk.exchange la = true → reached (s.pegValue (bk.arrivalPeg sl)) (p.baseOf (bk.arrivalPeg sl) + arrivalTarget bk.sources below true true) = true → b < 16 → s.absent b = false →
      s.countsOf n bk sl la p.label true bk.sources = .ok (some cs) → exec (.exchangeGrant b sl la) s = .next (((grantsOf bk.exchCap 0 cs).zipIdx).foldl (fun s g =>
        (s.sendReq dovetailEngine n (pktWrite (bk.source g.2) bk.grantWin (x.2 * 128) 0 (grantLine g.1.1 g.1.2 (bk.queueEpoch sl) la p.label))).fence dovetailEngine n (some (bk.source g.2))
          [pktInc (bk.source g.2) bk.grantWin bk.grantPeg 1 0]) s))) ∧
  (∀ (s : State) (b : Nat), (s.dove b).q = [] ∨ (s.dove b).phase ≠ 2 → exec (.grantPegTarget b) s = .next s) ∧
  (∀ (s : State) (b g : Nat) (d : List Byte) (q : List (List Byte)) (p : Pass) (bk : Bank) (below : List (Bool × Nat × Bool)), (s.dove b).q = d :: q → (s.dove b).phase = 2 →
    s.passNow (s.dove b).job = some p → s.bank (s.dove b).job p.placementBank (dvLayer d) = .ok bk → s.layerInfo (s.dove b).job p.placementBank s.endpoint 0 (dvLayer d) = .ok below →
    g = p.baseOf bk.grantPeg + (((below.filter (·.1)).map (·.2.1)).foldl (· + ·) 0 + bk.instances.length) →
    (reached (s.pegValue bk.grantPeg) g = true → exec (.grantPegTarget b) s = .next ((s.dvEnd b (s.dove b).job d (s.grantRun b (s.dove b).job p bk d)).dvStep b)) ∧
    (reached (s.pegValue bk.grantPeg) g = false → exec (.grantPegTarget b) s = .next s))

/-- For every 32-bit peg value and every 32-bit target, the condition the model tests is the sign of the 32-bit difference read as two's complement; and a core's legal head with WAIT_EN that is not begun shows waiting, and does not start, exactly while that difference of its peg's VALUE and its WAIT_TARGET is negative. -/
def Obligations.WaitIsSignedDifference : Prop :=
  (∀ v t : Word, reached v.toNat t.toNat = true ↔ 0 ≤ (v - t).toInt) ∧
  (∀ (s : State) (b l job : Nat) (d : List Byte) (q : List (List Byte)) (c : CoreQ) (t : Word), s.core b l = c → c.q = d :: q → c.job = some job → c.halted = false → c.executed = false →
    s.withdrawn b = false → c.started = false → s.preempting = none → s.legal1 b job d = none → cWaitEn d = true → cWaitTarget d = t.toNat →
    ((BitVec.ofNat 32 (s.pegValue (cWaitPeg d)) - t).toInt < 0 → s.headStep b l = s.putCore b l { c with st := 3 }) ∧
    (0 ≤ (BitVec.ofNat 32 (s.pegValue (cWaitPeg d)) - t).toInt → s.headStep b l =
      (((if c.prevJob = some job then s else s.zeroScratch b (s.slotOf b l)).fillScratch b (s.slotOf b l) job).putCore b l
        { c with started := true, st := 2, prevJob := some job, waitFrom := c.waitFrom.map (fun _ => s.nowN) }).runHead b l job d))

/-- UE5M3 values rise with their codes from 0x01 to 0xFE. For both BB16 formats and every block of finite elements that are not all zero, the scale code lies from 0x01 to 0xFE, no smaller code's value times EMAX (6 for BB16-FP4, 7 for BB16-INT4) reaches amax, the exact comparison, and the value of the code itself does, or no code's does and the code is 0xFE. -/
def Obligations.Bb16ScaleIsSmallest : Prop :=
  (∀ c : Nat, 1 ≤ c → c < 0xFE → Machine.Num.lt (ue5m3 c) (ue5m3 (c + 1)) = true) ∧ qEmax 6 = Machine.Num.ofNat 6 ∧ qEmax 7 = Machine.Num.ofNat 7 ∧
  (∀ (fmt c : Nat) (xs : List Machine.Num) (amax : Machine.Num), fmt = 6 ∨ fmt = 7 → xs.any Machine.Num.nonFinite = false → amax = (xs.map Machine.Num.abs).foldl Machine.Num.max .zero → amax.isZero = false →
    c = (quantBlock fmt xs).1 → 1 ≤ c ∧ c ≤ 0xFE ∧ (∀ k, 1 ≤ k → k < c → Machine.Num.le amax ((qEmax fmt).mul (ue5m3 k)) = false) ∧
      (Machine.Num.le amax ((qEmax fmt).mul (ue5m3 c)) = true ∨ (c = 0xFE ∧ ∀ k, 1 ≤ k → k ≤ 0xFE → Machine.Num.le amax ((qEmax fmt).mul (ue5m3 k)) = false)))
end

