-- ==== Sys2Proof/Laws/Bits.lean ====
section
/-!
SUPPORT. The bits of a register word after one of them is set, cleared or given a value.
-/

namespace Sys2Proof.Machine

open Sys2Proof

theorem wbit_high {w : Word} {i : Nat} (h : 32 ≤ i) : wbit w i = false := BitVec.getLsbD_of_ge w i h

theorem wbit_wset (w : Word) {i k : Nat} (h : i < 32) : wbit (wset w k) i = (wbit w i || decide (i = k)) := by
  unfold wbit wset
  rw [BitVec.getLsbD_or, BitVec.getLsbD_ofNat, Nat.testBit_two_pow]
  simp [h, eq_comm]

theorem wbit_wclear (w : Word) {i k : Nat} (h : i < 32) : wbit (wclear w k) i = (wbit w i && !decide (i = k)) := by
  unfold wbit wclear
  rw [BitVec.getLsbD_and, BitVec.getLsbD_not, BitVec.getLsbD_ofNat, Nat.testBit_two_pow]
  simp [h, eq_comm]

theorem wbit_wassign (w : Word) {i k : Nat} (b : Bool) (h : i < 32) : wbit (wassign w k b) i = if i = k then b else wbit w i := by
  unfold wassign
  split
  · rw [wbit_wset w h]
    by_cases e : i = k <;> simp [e, *]
  · rw [wbit_wclear w h]
    by_cases e : i = k <;> simp [e, *]

end Sys2Proof.Machine
end

