-- ==== Sys2Proof/Laws/Maps.lean ====
section
/-!
SUPPORT. The sparse maps: reading after a write, and the canonical form that every update keeps.
-/

namespace Sys2Proof.Machine

/-- Every key of a map lies above `k`. -/
def above {α : Type} (k : Nat) (m : List (Nat × α)) : Bool := m.all (fun e => decide (k < e.1))

theorem keysRise_cons {α : Type} (j : Nat) (w : α) (m : List (Nat × α)) :
    keysRise ((j, w) :: m) = (above j m && keysRise m) := by
  induction m generalizing j w with
  | nil => rfl
  | cons e m ih =>
    obtain ⟨k, v⟩ := e
    rw [keysRise, ih k v]
    rw [Bool.eq_iff_iff]
    simp only [above, List.all_cons, Bool.and_eq_true, decide_eq_true_eq, List.all_eq_true]
    constructor
    · rintro ⟨h1, h2, h3⟩
      exact ⟨⟨h1, fun e he => Nat.lt_trans h1 (h2 e he)⟩, h2, h3⟩
    · rintro ⟨⟨h1, _⟩, h2, h3⟩
      exact ⟨h1, h2, h3⟩

@[simp] theorem keysRise_nil {α : Type} : keysRise ([] : List (Nat × α)) = true := rfl

theorem above_mset {α : Type} (j k : Nat) (v : α) (m : List (Nat × α)) (h : above j m) (hk : j < k) : above j (mset m k v) := by
  induction m with
  | nil => simpa [above, mset] using hk
  | cons e m ih =>
    obtain ⟨i, w⟩ := e
    simp only [above, List.all_cons, Bool.and_eq_true, decide_eq_true_eq] at h
    simp only [mset]
    split
    · simp only [above, List.all_cons, Bool.and_eq_true, decide_eq_true_eq]; exact ⟨hk, h⟩
    · split
      · simp only [above, List.all_cons, Bool.and_eq_true, decide_eq_true_eq]; exact ⟨hk, h.2⟩
      · have := ih h.2
        simp only [above, List.all_cons, Bool.and_eq_true, decide_eq_true_eq] at this ⊢
        exact ⟨h.1, this⟩

theorem above_mono {α : Type} {j k : Nat} {m : List (Nat × α)} (h : above k m) (hjk : j ≤ k) : above j m := by
  simp only [above, List.all_eq_true, decide_eq_true_eq] at h ⊢
  intro e he; exact Nat.lt_of_le_of_lt hjk (h e he)

theorem above_mdel {α : Type} (j k : Nat) (m : List (Nat × α)) (h : above j m) : above j (mdel m k) := by
  induction m with
  | nil => exact h
  | cons e m ih =>
    obtain ⟨i, w⟩ := e
    simp only [above, List.all_cons, Bool.and_eq_true, decide_eq_true_eq] at h
    simp only [mdel]
    split
    · exact h.2
    · have := ih h.2
      simp only [above, List.all_cons, Bool.and_eq_true, decide_eq_true_eq] at this ⊢
      exact ⟨h.1, this⟩

theorem keysRise_mset {α : Type} (m : List (Nat × α)) (k : Nat) (v : α) (h : keysRise m) : keysRise (mset m k v) := by
  induction m with
  | nil => rfl
  | cons e m ih =>
    obtain ⟨i, w⟩ := e
    rw [keysRise_cons, Bool.and_eq_true] at h
    simp only [mset]
    split
    · rename_i hlt
      rw [keysRise_cons, Bool.and_eq_true, keysRise_cons, Bool.and_eq_true]
      refine ⟨?_, h⟩
      simp only [above, List.all_cons, Bool.and_eq_true, decide_eq_true_eq]
      exact ⟨hlt, by simpa [above] using above_mono h.1 (Nat.le_of_lt hlt)⟩
    · split
      · rename_i he
        have he' : i = k := by simpa using he
        subst he'
        rw [keysRise_cons, Bool.and_eq_true]; exact h
      · rename_i hlt hne
        rw [keysRise_cons, Bool.and_eq_true]
        have hne' : i ≠ k := by simpa using hne
        exact ⟨above_mset i k v m h.1 (by omega), ih h.2⟩

theorem keysRise_mdel {α : Type} (m : List (Nat × α)) (k : Nat) (h : keysRise m) : keysRise (mdel m k) := by
  induction m with
  | nil => rfl
  | cons e m ih =>
    obtain ⟨i, w⟩ := e
    rw [keysRise_cons, Bool.and_eq_true] at h
    simp only [mdel]
    split
    · exact h.2
    · rw [keysRise_cons, Bool.and_eq_true]
      exact ⟨above_mdel i k m h.1, ih h.2⟩

theorem above_filter {α : Type} (j : Nat) (p : Nat × α → Bool) (m : List (Nat × α)) (h : above j m) : above j (m.filter p) := by
  simp only [above, List.all_eq_true, decide_eq_true_eq, List.mem_filter] at h ⊢
  intro e he; exact h e he.1

theorem keysRise_filter {α : Type} (m : List (Nat × α)) (p : Nat × α → Bool) (h : keysRise m) : keysRise (m.filter p) := by
  induction m with
  | nil => rfl
  | cons e m ih =>
    obtain ⟨i, w⟩ := e
    rw [keysRise_cons, Bool.and_eq_true] at h
    simp only [List.filter_cons]
    split
    · rw [keysRise_cons, Bool.and_eq_true]
      exact ⟨above_filter i p m h.1, ih h.2⟩
    · exact ih h.2

/-- A write is read back. -/
@[simp] theorem mget_mset_same {α : Type} (m : List (Nat × α)) (k : Nat) (v : α) : mget (mset m k v) k = some v := by
  induction m with
  | nil => simp [mset, mget]
  | cons e m ih =>
    obtain ⟨i, w⟩ := e
    simp only [mset]
    split
    · simp [mget]
    · split
      · simp [mget]
      · rename_i h
        simp only [mget, h]; exact ih

/-- A write leaves every other key alone. -/
theorem mget_mset_ne {α : Type} (m : List (Nat × α)) (k j : Nat) (v : α) (h : j ≠ k) : mget (mset m k v) j = mget m j := by
  induction m with
  | nil => simp [mset, mget, Ne.symm h]
  | cons e m ih =>
    obtain ⟨i, w⟩ := e
    simp only [mset]
    split
    · simp [mget, Ne.symm h]
    · split
      · rename_i hik
        have : i = k := by simpa using hik
        subst this
        simp [mget, Ne.symm h]
      · simp only [mget]
        split
        · rfl
        · exact ih

theorem mget_above {α : Type} (m : List (Nat × α)) (k : Nat) (h : above k m) : mget m k = none := by
  induction m with
  | nil => rfl
  | cons e m ih =>
    obtain ⟨i, w⟩ := e
    simp only [above, List.all_cons, Bool.and_eq_true, decide_eq_true_eq] at h
    simp only [mget]
    have : ¬ (i == k) = true := by simp; omega
    rw [if_neg this]; exact ih (by simpa [above] using h.2)

/-- A deleted key is gone from a map in canonical form. -/
theorem mget_mdel_same {α : Type} (m : List (Nat × α)) (k : Nat) (h : keysRise m) : mget (mdel m k) k = none := by
  induction m with
  | nil => rfl
  | cons e m ih =>
    obtain ⟨i, w⟩ := e
    rw [keysRise_cons, Bool.and_eq_true] at h
    simp only [mdel]
    split
    · rename_i hik
      have : i = k := by simpa using hik
      subst this
      exact mget_above m i h.1
    · rename_i hik
      simp only [mget, hik]; exact ih h.2

theorem mget_mdel_ne {α : Type} (m : List (Nat × α)) (k j : Nat) (h : j ≠ k) : mget (mdel m k) j = mget m j := by
  induction m with
  | nil => rfl
  | cons e m ih =>
    obtain ⟨i, w⟩ := e
    simp only [mdel]
    split
    · rename_i hik
      have : i = k := by simpa using hik
      subst this
      simp [mget, Ne.symm h]
    · simp only [mget]
      split
      · rfl
      · exact ih

theorem all_mset {α : Type} (p : Nat × α → Bool) (m : List (Nat × α)) (k : Nat) (v : α) (h : m.all p) (hv : p (k, v)) :
    (mset m k v).all p := by
  induction m with
  | nil => simpa [mset] using hv
  | cons e m ih =>
    obtain ⟨i, w⟩ := e
    simp only [List.all_cons, Bool.and_eq_true] at h
    simp only [mset]
    split
    · simp only [List.all_cons, Bool.and_eq_true]; exact ⟨hv, h⟩
    · split
      · simp only [List.all_cons, Bool.and_eq_true]; exact ⟨hv, h.2⟩
      · simp only [List.all_cons, Bool.and_eq_true]; exact ⟨h.1, ih h.2⟩

theorem all_mdel {α : Type} (p : Nat × α → Bool) (m : List (Nat × α)) (k : Nat) (h : m.all p) : (mdel m k).all p := by
  induction m with
  | nil => rfl
  | cons e m ih =>
    obtain ⟨i, w⟩ := e
    simp only [List.all_cons, Bool.and_eq_true] at h
    simp only [mdel]
    split
    · exact h.2
    · simp only [List.all_cons, Bool.and_eq_true]; exact ⟨h.1, ih h.2⟩

theorem all_filter {α : Type} (p q : Nat × α → Bool) (m : List (Nat × α)) (h : m.all p) : (m.filter q).all p := by
  simp only [List.all_eq_true, List.mem_filter] at h ⊢
  intro e he; exact h e he.1

end Sys2Proof.Machine
end

