-- ==== Sys2Proof/Laws/State.lean ====
section
/-!
SUPPORT. The primitive updates of State, field by field, and what a register reads after one is stored.
-/

namespace Sys2Proof.Machine

open Sys2Proof

/-! ### setReg -/

@[simp] theorem State.setReg_pending (s : State) (o : Nat) (v : Word) : (s.setReg o v).pending = s.pending := rfl
@[simp] theorem State.setReg_now (s : State) (o : Nat) (v : Word) : (s.setReg o v).now = s.now := rfl
@[simp] theorem State.setReg_cad (s : State) (o : Nat) (v : Word) : (s.setReg o v).cad = s.cad := rfl
@[simp] theorem State.setReg_freeCtr (s : State) (o : Nat) (v : Word) : (s.setReg o v).freeCtr = s.freeCtr := rfl
@[simp] theorem State.setReg_variant (s : State) (o : Nat) (v : Word) : (s.setReg o v).variant = s.variant := rfl
@[simp] theorem State.setReg_out (s : State) (o : Nat) (v : Word) : (s.setReg o v).out = s.out := rfl
@[simp] theorem State.setReg_hiLatch (s : State) (o : Nat) (v : Word) : (s.setReg o v).hiLatch = s.hiLatch := rfl
@[simp] theorem State.setReg_pcie (s : State) (o : Nat) (v : Word) : (s.setReg o v).pcie = s.pcie := rfl
@[simp] theorem State.setReg_admin (s : State) (o : Nat) (v : Word) : (s.setReg o v).admin = s.admin := rfl
@[simp] theorem State.setReg_mem (s : State) (o : Nat) (v : Word) : (s.setReg o v).mem = s.mem := rfl
@[simp] theorem State.setReg_bayMem (s : State) (o : Nat) (v : Word) : (s.setReg o v).bayMem = s.bayMem := rfl
@[simp] theorem State.setReg_hostMem (s : State) (o : Nat) (v : Word) : (s.setReg o v).hostMem = s.hostMem := rfl
@[simp] theorem State.setReg_poison (s : State) (o : Nat) (v : Word) : (s.setReg o v).poison = s.poison := rfl
@[simp] theorem State.setReg_scrubbed (s : State) (o : Nat) (v : Word) : (s.setReg o v).scrubbed = s.scrubbed := rfl
@[simp] theorem State.setReg_jobs (s : State) (o : Nat) (v : Word) : (s.setReg o v).jobs = s.jobs := rfl
@[simp] theorem State.setReg_clients (s : State) (o : Nat) (v : Word) : (s.setReg o v).clients = s.clients := rfl
@[simp] theorem State.setReg_lastServed (s : State) (o : Nat) (v : Word) : (s.setReg o v).lastServed = s.lastServed := rfl
@[simp] theorem State.setReg_runs (s : State) (o : Nat) (v : Word) : (s.setReg o v).runs = s.runs := rfl
@[simp] theorem State.setReg_runUid (s : State) (o : Nat) (v : Word) : (s.setReg o v).runUid = s.runUid := rfl
@[simp] theorem State.setReg_holder (s : State) (o : Nat) (v : Word) : (s.setReg o v).holder = s.holder := rfl
@[simp] theorem State.setReg_saved (s : State) (o : Nat) (v : Word) : (s.setReg o v).saved = s.saved := rfl
@[simp] theorem State.setReg_preempting (s : State) (o : Nat) (v : Word) : (s.setReg o v).preempting = s.preempting := rfl
@[simp] theorem State.setReg_doves (s : State) (o : Nat) (v : Word) : (s.setReg o v).doves = s.doves := rfl
@[simp] theorem State.setReg_chans (s : State) (o : Nat) (v : Word) : (s.setReg o v).chans = s.chans := rfl
@[simp] theorem State.setReg_lab (s : State) (o : Nat) (v : Word) : (s.setReg o v).lab = s.lab := rfl
@[simp] theorem State.setReg_streams (s : State) (o : Nat) (v : Word) : (s.setReg o v).streams = s.streams := rfl
@[simp] theorem State.setReg_stages (s : State) (o : Nat) (v : Word) : (s.setReg o v).stages = s.stages := rfl
@[simp] theorem State.setReg_stageSeq (s : State) (o : Nat) (v : Word) : (s.setReg o v).stageSeq = s.stageSeq := rfl
@[simp] theorem State.setReg_notes (s : State) (o : Nat) (v : Word) : (s.setReg o v).notes = s.notes := rfl
@[simp] theorem State.setReg_ccHeld (s : State) (o : Nat) (v : Word) : (s.setReg o v).ccHeld = s.ccHeld := rfl
@[simp] theorem State.setReg_unitHeld (s : State) (o : Nat) (v : Word) : (s.setReg o v).unitHeld = s.unitHeld := rfl
@[simp] theorem State.setReg_cores (s : State) (o : Nat) (v : Word) : (s.setReg o v).cores = s.cores := rfl
@[simp] theorem State.setReg_failedSlots (s : State) (o : Nat) (v : Word) : (s.setReg o v).failedSlots = s.failedSlots := rfl
@[simp] theorem State.setReg_absentSlots (s : State) (o : Nat) (v : Word) : (s.setReg o v).absentSlots = s.absentSlots := rfl
@[simp] theorem State.setReg_scratch (s : State) (o : Nat) (v : Word) : (s.setReg o v).scratch = s.scratch := rfl
@[simp] theorem State.setReg_clocks (s : State) (o : Nat) (v : Word) : (s.setReg o v).clocks = s.clocks := rfl
@[simp] theorem State.setReg_clockBase (s : State) (o : Nat) (v : Word) : (s.setReg o v).clockBase = s.clockBase := rfl
@[simp] theorem State.setReg_bayZero (s : State) (o : Nat) (v : Word) : (s.setReg o v).bayZero = s.bayZero := rfl
@[simp] theorem State.setReg_rrc (s : State) (o : Nat) (v : Word) : (s.setReg o v).rrc = s.rrc := rfl
@[simp] theorem State.setReg_rrcInv (s : State) (o : Nat) (v : Word) : (s.setReg o v).rrcInv = s.rrcInv := rfl
@[simp] theorem State.setReg_tables (s : State) (o : Nat) (v : Word) : (s.setReg o v).tables = s.tables := rfl
@[simp] theorem State.setReg_leaves (s : State) (o : Nat) (v : Word) : (s.setReg o v).leaves = s.leaves := rfl
@[simp] theorem State.setReg_usedPages (s : State) (o : Nat) (v : Word) : (s.setReg o v).usedPages = s.usedPages := rfl
@[simp] theorem State.setReg_counters (s : State) (o : Nat) (v : Word) : (s.setReg o v).counters = s.counters := rfl
@[simp] theorem State.setReg_ages (s : State) (o : Nat) (v : Word) : (s.setReg o v).ages = s.ages := rfl
@[simp] theorem State.setReg_copies (s : State) (o : Nat) (v : Word) : (s.setReg o v).copies = s.copies := rfl
@[simp] theorem State.setReg_moves (s : State) (o : Nat) (v : Word) : (s.setReg o v).moves = s.moves := rfl
@[simp] theorem State.setReg_parked (s : State) (o : Nat) (v : Word) : (s.setReg o v).parked = s.parked := rfl
@[simp] theorem State.setReg_homes (s : State) (o : Nat) (v : Word) : (s.setReg o v).homes = s.homes := rfl
@[simp] theorem State.setReg_maps (s : State) (o : Nat) (v : Word) : (s.setReg o v).maps = s.maps := rfl
@[simp] theorem State.setReg_trainQueue (s : State) (o : Nat) (v : Word) : (s.setReg o v).trainQueue = s.trainQueue := rfl
@[simp] theorem State.setReg_goneTiers (s : State) (o : Nat) (v : Word) : (s.setReg o v).goneTiers = s.goneTiers := rfl
@[simp] theorem State.setReg_calStored (s : State) (o : Nat) (v : Word) : (s.setReg o v).calStored = s.calStored := rfl
@[simp] theorem State.setReg_sets (s : State) (o : Nat) (v : Word) : (s.setReg o v).sets = s.sets := rfl
@[simp] theorem State.setReg_unitKeys (s : State) (o : Nat) (v : Word) : (s.setReg o v).unitKeys = s.unitKeys := rfl
@[simp] theorem State.setReg_writeSeq (s : State) (o : Nat) (v : Word) : (s.setReg o v).writeSeq = s.writeSeq := rfl
@[simp] theorem State.setReg_blocks (s : State) (o : Nat) (v : Word) : (s.setReg o v).blocks = s.blocks := rfl
@[simp] theorem State.setReg_flashTemp (s : State) (o : Nat) (v : Word) : (s.setReg o v).flashTemp = s.flashTemp := rfl
@[simp] theorem State.setReg_sparesLow (s : State) (o : Nat) (v : Word) : (s.setReg o v).sparesLow = s.sparesLow := rfl
@[simp] theorem State.setReg_genSlots (s : State) (o : Nat) (v : Word) : (s.setReg o v).genSlots = s.genSlots := rfl
@[simp] theorem State.setReg_fetch (s : State) (o : Nat) (v : Word) : (s.setReg o v).fetch = s.fetch := rfl
@[simp] theorem State.setReg_loads (s : State) (o : Nat) (v : Word) : (s.setReg o v).loads = s.loads := rfl
@[simp] theorem State.setReg_swaps (s : State) (o : Nat) (v : Word) : (s.setReg o v).swaps = s.swaps := rfl
@[simp] theorem State.setReg_loaded (s : State) (o : Nat) (v : Word) : (s.setReg o v).loaded = s.loaded := rfl
@[simp] theorem State.setReg_reload (s : State) (o : Nat) (v : Word) : (s.setReg o v).reload = s.reload := rfl
@[simp] theorem State.setReg_commits (s : State) (o : Nat) (v : Word) : (s.setReg o v).commits = s.commits := rfl
@[simp] theorem State.setReg_cleanAt (s : State) (o : Nat) (v : Word) : (s.setReg o v).cleanAt = s.cleanAt := rfl
@[simp] theorem State.setReg_lostPages (s : State) (o : Nat) (v : Word) : (s.setReg o v).lostPages = s.lostPages := rfl
@[simp] theorem State.setReg_checkpoint (s : State) (o : Nat) (v : Word) : (s.setReg o v).checkpoint = s.checkpoint := rfl
@[simp] theorem State.setReg_settings (s : State) (o : Nat) (v : Word) : (s.setReg o v).settings = s.settings := rfl
@[simp] theorem State.setReg_txSeq (s : State) (o : Nat) (v : Word) : (s.setReg o v).txSeq = s.txSeq := rfl
@[simp] theorem State.setReg_reqs (s : State) (o : Nat) (v : Word) : (s.setReg o v).reqs = s.reqs := rfl
@[simp] theorem State.setReg_fences (s : State) (o : Nat) (v : Word) : (s.setReg o v).fences = s.fences := rfl
@[simp] theorem State.setReg_txHeld (s : State) (o : Nat) (v : Word) : (s.setReg o v).txHeld = s.txHeld := rfl
@[simp] theorem State.setReg_ports (s : State) (o : Nat) (v : Word) : (s.setReg o v).ports = s.ports := rfl
@[simp] theorem State.setReg_dedup (s : State) (o : Nat) (v : Word) : (s.setReg o v).dedup = s.dedup := rfl
@[simp] theorem State.setReg_accums (s : State) (o : Nat) (v : Word) : (s.setReg o v).accums = s.accums := rfl
@[simp] theorem State.setReg_draining (s : State) (o : Nat) (v : Word) : (s.setReg o v).draining = s.draining := rfl
@[simp] theorem State.setReg_heard (s : State) (o : Nat) (v : Word) : (s.setReg o v).heard = s.heard := rfl
@[simp] theorem State.setReg_quietUntil (s : State) (o : Nat) (v : Word) : (s.setReg o v).quietUntil = s.quietUntil := rfl
@[simp] theorem State.setReg_lineGrant (s : State) (o : Nat) (v : Word) : (s.setReg o v).lineGrant = s.lineGrant := rfl
@[simp] theorem State.setReg_neigh (s : State) (o : Nat) (v : Word) : (s.setReg o v).neigh = s.neigh := rfl
@[simp] theorem State.setReg_echoes (s : State) (o : Nat) (v : Word) : (s.setReg o v).echoes = s.echoes := rfl
@[simp] theorem State.setReg_life (s : State) (o : Nat) (v : Word) : (s.setReg o v).life = s.life := rfl
@[simp] theorem State.setReg_power (s : State) (o : Nat) (v : Word) : (s.setReg o v).power = s.power := rfl
@[simp] theorem State.setReg_boot (s : State) (o : Nat) (v : Word) : (s.setReg o v).boot = s.boot := rfl
@[simp] theorem State.setReg_txn (s : State) (o : Nat) (v : Word) : (s.setReg o v).txn = s.txn := rfl
@[simp] theorem State.setReg_tap (s : State) (o : Nat) (v : Word) : (s.setReg o v).tap = s.tap := rfl
@[simp] theorem State.setReg_alert (s : State) (o : Nat) (v : Word) : (s.setReg o v).alert = s.alert := rfl
@[simp] theorem State.setReg_input (s : State) (o : Nat) (v : Word) : (s.setReg o v).input = s.input := rfl
@[simp] theorem State.setReg_resetN (s : State) (o : Nat) (v : Word) : (s.setReg o v).resetN = s.resetN := rfl
@[simp] theorem State.setReg_tripped (s : State) (o : Nat) (v : Word) : (s.setReg o v).tripped = s.tripped := rfl
@[simp] theorem State.setReg_slotId (s : State) (o : Nat) (v : Word) : (s.setReg o v).slotId = s.slotId := rfl
@[simp] theorem State.setReg_errSeq (s : State) (o : Nat) (v : Word) : (s.setReg o v).errSeq = s.errSeq := rfl
@[simp] theorem State.setReg_openRecs (s : State) (o : Nat) (v : Word) : (s.setReg o v).openRecs = s.openRecs := rfl
@[simp] theorem State.setReg_fatalSlots (s : State) (o : Nat) (v : Word) : (s.setReg o v).fatalSlots = s.fatalSlots := rfl
@[simp] theorem State.setReg_faultCt (s : State) (o : Nat) (v : Word) : (s.setReg o v).faultCt = s.faultCt := rfl
@[simp] theorem State.setReg_scratchErrs (s : State) (o : Nat) (v : Word) : (s.setReg o v).scratchErrs = s.scratchErrs := rfl

/-! ### setPreg -/

@[simp] theorem State.setPreg_pending (s : State) (p : Page) (r : Nat) (v : Word) : (s.setPreg p r v).pending = s.pending := rfl
@[simp] theorem State.setPreg_now (s : State) (p : Page) (r : Nat) (v : Word) : (s.setPreg p r v).now = s.now := rfl
@[simp] theorem State.setPreg_cad (s : State) (p : Page) (r : Nat) (v : Word) : (s.setPreg p r v).cad = s.cad := rfl
@[simp] theorem State.setPreg_freeCtr (s : State) (p : Page) (r : Nat) (v : Word) : (s.setPreg p r v).freeCtr = s.freeCtr := rfl
@[simp] theorem State.setPreg_variant (s : State) (p : Page) (r : Nat) (v : Word) : (s.setPreg p r v).variant = s.variant := rfl
@[simp] theorem State.setPreg_out (s : State) (p : Page) (r : Nat) (v : Word) : (s.setPreg p r v).out = s.out := rfl
@[simp] theorem State.setPreg_hiLatch (s : State) (p : Page) (r : Nat) (v : Word) : (s.setPreg p r v).hiLatch = s.hiLatch := rfl
@[simp] theorem State.setPreg_pcie (s : State) (p : Page) (r : Nat) (v : Word) : (s.setPreg p r v).pcie = s.pcie := rfl
@[simp] theorem State.setPreg_admin (s : State) (p : Page) (r : Nat) (v : Word) : (s.setPreg p r v).admin = s.admin := rfl
@[simp] theorem State.setPreg_mem (s : State) (p : Page) (r : Nat) (v : Word) : (s.setPreg p r v).mem = s.mem := rfl
@[simp] theorem State.setPreg_bayMem (s : State) (p : Page) (r : Nat) (v : Word) : (s.setPreg p r v).bayMem = s.bayMem := rfl
@[simp] theorem State.setPreg_hostMem (s : State) (p : Page) (r : Nat) (v : Word) : (s.setPreg p r v).hostMem = s.hostMem := rfl
@[simp] theorem State.setPreg_poison (s : State) (p : Page) (r : Nat) (v : Word) : (s.setPreg p r v).poison = s.poison := rfl
@[simp] theorem State.setPreg_scrubbed (s : State) (p : Page) (r : Nat) (v : Word) : (s.setPreg p r v).scrubbed = s.scrubbed := rfl
@[simp] theorem State.setPreg_jobs (s : State) (p : Page) (r : Nat) (v : Word) : (s.setPreg p r v).jobs = s.jobs := rfl
@[simp] theorem State.setPreg_clients (s : State) (p : Page) (r : Nat) (v : Word) : (s.setPreg p r v).clients = s.clients := rfl
@[simp] theorem State.setPreg_lastServed (s : State) (p : Page) (r : Nat) (v : Word) : (s.setPreg p r v).lastServed = s.lastServed := rfl
@[simp] theorem State.setPreg_runs (s : State) (p : Page) (r : Nat) (v : Word) : (s.setPreg p r v).runs = s.runs := rfl
@[simp] theorem State.setPreg_runUid (s : State) (p : Page) (r : Nat) (v : Word) : (s.setPreg p r v).runUid = s.runUid := rfl
@[simp] theorem State.setPreg_holder (s : State) (p : Page) (r : Nat) (v : Word) : (s.setPreg p r v).holder = s.holder := rfl
@[simp] theorem State.setPreg_saved (s : State) (p : Page) (r : Nat) (v : Word) : (s.setPreg p r v).saved = s.saved := rfl
@[simp] theorem State.setPreg_preempting (s : State) (p : Page) (r : Nat) (v : Word) : (s.setPreg p r v).preempting = s.preempting := rfl
@[simp] theorem State.setPreg_doves (s : State) (p : Page) (r : Nat) (v : Word) : (s.setPreg p r v).doves = s.doves := rfl
@[simp] theorem State.setPreg_chans (s : State) (p : Page) (r : Nat) (v : Word) : (s.setPreg p r v).chans = s.chans := rfl
@[simp] theorem State.setPreg_lab (s : State) (p : Page) (r : Nat) (v : Word) : (s.setPreg p r v).lab = s.lab := rfl
@[simp] theorem State.setPreg_streams (s : State) (p : Page) (r : Nat) (v : Word) : (s.setPreg p r v).streams = s.streams := rfl
@[simp] theorem State.setPreg_stages (s : State) (p : Page) (r : Nat) (v : Word) : (s.setPreg p r v).stages = s.stages := rfl
@[simp] theorem State.setPreg_stageSeq (s : State) (p : Page) (r : Nat) (v : Word) : (s.setPreg p r v).stageSeq = s.stageSeq := rfl
@[simp] theorem State.setPreg_notes (s : State) (p : Page) (r : Nat) (v : Word) : (s.setPreg p r v).notes = s.notes := rfl
@[simp] theorem State.setPreg_ccHeld (s : State) (p : Page) (r : Nat) (v : Word) : (s.setPreg p r v).ccHeld = s.ccHeld := rfl
@[simp] theorem State.setPreg_unitHeld (s : State) (p : Page) (r : Nat) (v : Word) : (s.setPreg p r v).unitHeld = s.unitHeld := rfl
@[simp] theorem State.setPreg_cores (s : State) (p : Page) (r : Nat) (v : Word) : (s.setPreg p r v).cores = s.cores := rfl
@[simp] theorem State.setPreg_failedSlots (s : State) (p : Page) (r : Nat) (v : Word) : (s.setPreg p r v).failedSlots = s.failedSlots := rfl
@[simp] theorem State.setPreg_absentSlots (s : State) (p : Page) (r : Nat) (v : Word) : (s.setPreg p r v).absentSlots = s.absentSlots := rfl
@[simp] theorem State.setPreg_scratch (s : State) (p : Page) (r : Nat) (v : Word) : (s.setPreg p r v).scratch = s.scratch := rfl
@[simp] theorem State.setPreg_clocks (s : State) (p : Page) (r : Nat) (v : Word) : (s.setPreg p r v).clocks = s.clocks := rfl
@[simp] theorem State.setPreg_clockBase (s : State) (p : Page) (r : Nat) (v : Word) : (s.setPreg p r v).clockBase = s.clockBase := rfl
@[simp] theorem State.setPreg_bayZero (s : State) (p : Page) (r : Nat) (v : Word) : (s.setPreg p r v).bayZero = s.bayZero := rfl
@[simp] theorem State.setPreg_rrc (s : State) (p : Page) (r : Nat) (v : Word) : (s.setPreg p r v).rrc = s.rrc := rfl
@[simp] theorem State.setPreg_rrcInv (s : State) (p : Page) (r : Nat) (v : Word) : (s.setPreg p r v).rrcInv = s.rrcInv := rfl
@[simp] theorem State.setPreg_tables (s : State) (p : Page) (r : Nat) (v : Word) : (s.setPreg p r v).tables = s.tables := rfl
@[simp] theorem State.setPreg_leaves (s : State) (p : Page) (r : Nat) (v : Word) : (s.setPreg p r v).leaves = s.leaves := rfl
@[simp] theorem State.setPreg_usedPages (s : State) (p : Page) (r : Nat) (v : Word) : (s.setPreg p r v).usedPages = s.usedPages := rfl
@[simp] theorem State.setPreg_counters (s : State) (p : Page) (r : Nat) (v : Word) : (s.setPreg p r v).counters = s.counters := rfl
@[simp] theorem State.setPreg_ages (s : State) (p : Page) (r : Nat) (v : Word) : (s.setPreg p r v).ages = s.ages := rfl
@[simp] theorem State.setPreg_copies (s : State) (p : Page) (r : Nat) (v : Word) : (s.setPreg p r v).copies = s.copies := rfl
@[simp] theorem State.setPreg_moves (s : State) (p : Page) (r : Nat) (v : Word) : (s.setPreg p r v).moves = s.moves := rfl
@[simp] theorem State.setPreg_parked (s : State) (p : Page) (r : Nat) (v : Word) : (s.setPreg p r v).parked = s.parked := rfl
@[simp] theorem State.setPreg_homes (s : State) (p : Page) (r : Nat) (v : Word) : (s.setPreg p r v).homes = s.homes := rfl
@[simp] theorem State.setPreg_maps (s : State) (p : Page) (r : Nat) (v : Word) : (s.setPreg p r v).maps = s.maps := rfl
@[simp] theorem State.setPreg_trainQueue (s : State) (p : Page) (r : Nat) (v : Word) : (s.setPreg p r v).trainQueue = s.trainQueue := rfl
@[simp] theorem State.setPreg_goneTiers (s : State) (p : Page) (r : Nat) (v : Word) : (s.setPreg p r v).goneTiers = s.goneTiers := rfl
@[simp] theorem State.setPreg_calStored (s : State) (p : Page) (r : Nat) (v : Word) : (s.setPreg p r v).calStored = s.calStored := rfl
@[simp] theorem State.setPreg_sets (s : State) (p : Page) (r : Nat) (v : Word) : (s.setPreg p r v).sets = s.sets := rfl
@[simp] theorem State.setPreg_unitKeys (s : State) (p : Page) (r : Nat) (v : Word) : (s.setPreg p r v).unitKeys = s.unitKeys := rfl
@[simp] theorem State.setPreg_writeSeq (s : State) (p : Page) (r : Nat) (v : Word) : (s.setPreg p r v).writeSeq = s.writeSeq := rfl
@[simp] theorem State.setPreg_blocks (s : State) (p : Page) (r : Nat) (v : Word) : (s.setPreg p r v).blocks = s.blocks := rfl
@[simp] theorem State.setPreg_flashTemp (s : State) (p : Page) (r : Nat) (v : Word) : (s.setPreg p r v).flashTemp = s.flashTemp := rfl
@[simp] theorem State.setPreg_sparesLow (s : State) (p : Page) (r : Nat) (v : Word) : (s.setPreg p r v).sparesLow = s.sparesLow := rfl
@[simp] theorem State.setPreg_genSlots (s : State) (p : Page) (r : Nat) (v : Word) : (s.setPreg p r v).genSlots = s.genSlots := rfl
@[simp] theorem State.setPreg_fetch (s : State) (p : Page) (r : Nat) (v : Word) : (s.setPreg p r v).fetch = s.fetch := rfl
@[simp] theorem State.setPreg_loads (s : State) (p : Page) (r : Nat) (v : Word) : (s.setPreg p r v).loads = s.loads := rfl
@[simp] theorem State.setPreg_swaps (s : State) (p : Page) (r : Nat) (v : Word) : (s.setPreg p r v).swaps = s.swaps := rfl
@[simp] theorem State.setPreg_loaded (s : State) (p : Page) (r : Nat) (v : Word) : (s.setPreg p r v).loaded = s.loaded := rfl
@[simp] theorem State.setPreg_reload (s : State) (p : Page) (r : Nat) (v : Word) : (s.setPreg p r v).reload = s.reload := rfl
@[simp] theorem State.setPreg_commits (s : State) (p : Page) (r : Nat) (v : Word) : (s.setPreg p r v).commits = s.commits := rfl
@[simp] theorem State.setPreg_cleanAt (s : State) (p : Page) (r : Nat) (v : Word) : (s.setPreg p r v).cleanAt = s.cleanAt := rfl
@[simp] theorem State.setPreg_lostPages (s : State) (p : Page) (r : Nat) (v : Word) : (s.setPreg p r v).lostPages = s.lostPages := rfl
@[simp] theorem State.setPreg_checkpoint (s : State) (p : Page) (r : Nat) (v : Word) : (s.setPreg p r v).checkpoint = s.checkpoint := rfl
@[simp] theorem State.setPreg_settings (s : State) (p : Page) (r : Nat) (v : Word) : (s.setPreg p r v).settings = s.settings := rfl
@[simp] theorem State.setPreg_txSeq (s : State) (p : Page) (r : Nat) (v : Word) : (s.setPreg p r v).txSeq = s.txSeq := rfl
@[simp] theorem State.setPreg_reqs (s : State) (p : Page) (r : Nat) (v : Word) : (s.setPreg p r v).reqs = s.reqs := rfl
@[simp] theorem State.setPreg_fences (s : State) (p : Page) (r : Nat) (v : Word) : (s.setPreg p r v).fences = s.fences := rfl
@[simp] theorem State.setPreg_txHeld (s : State) (p : Page) (r : Nat) (v : Word) : (s.setPreg p r v).txHeld = s.txHeld := rfl
@[simp] theorem State.setPreg_ports (s : State) (p : Page) (r : Nat) (v : Word) : (s.setPreg p r v).ports = s.ports := rfl
@[simp] theorem State.setPreg_dedup (s : State) (p : Page) (r : Nat) (v : Word) : (s.setPreg p r v).dedup = s.dedup := rfl
@[simp] theorem State.setPreg_accums (s : State) (p : Page) (r : Nat) (v : Word) : (s.setPreg p r v).accums = s.accums := rfl
@[simp] theorem State.setPreg_draining (s : State) (p : Page) (r : Nat) (v : Word) : (s.setPreg p r v).draining = s.draining := rfl
@[simp] theorem State.setPreg_heard (s : State) (p : Page) (r : Nat) (v : Word) : (s.setPreg p r v).heard = s.heard := rfl
@[simp] theorem State.setPreg_quietUntil (s : State) (p : Page) (r : Nat) (v : Word) : (s.setPreg p r v).quietUntil = s.quietUntil := rfl
@[simp] theorem State.setPreg_lineGrant (s : State) (p : Page) (r : Nat) (v : Word) : (s.setPreg p r v).lineGrant = s.lineGrant := rfl
@[simp] theorem State.setPreg_neigh (s : State) (p : Page) (r : Nat) (v : Word) : (s.setPreg p r v).neigh = s.neigh := rfl
@[simp] theorem State.setPreg_echoes (s : State) (p : Page) (r : Nat) (v : Word) : (s.setPreg p r v).echoes = s.echoes := rfl
@[simp] theorem State.setPreg_life (s : State) (p : Page) (r : Nat) (v : Word) : (s.setPreg p r v).life = s.life := rfl
@[simp] theorem State.setPreg_power (s : State) (p : Page) (r : Nat) (v : Word) : (s.setPreg p r v).power = s.power := rfl
@[simp] theorem State.setPreg_boot (s : State) (p : Page) (r : Nat) (v : Word) : (s.setPreg p r v).boot = s.boot := rfl
@[simp] theorem State.setPreg_txn (s : State) (p : Page) (r : Nat) (v : Word) : (s.setPreg p r v).txn = s.txn := rfl
@[simp] theorem State.setPreg_tap (s : State) (p : Page) (r : Nat) (v : Word) : (s.setPreg p r v).tap = s.tap := rfl
@[simp] theorem State.setPreg_alert (s : State) (p : Page) (r : Nat) (v : Word) : (s.setPreg p r v).alert = s.alert := rfl
@[simp] theorem State.setPreg_input (s : State) (p : Page) (r : Nat) (v : Word) : (s.setPreg p r v).input = s.input := rfl
@[simp] theorem State.setPreg_resetN (s : State) (p : Page) (r : Nat) (v : Word) : (s.setPreg p r v).resetN = s.resetN := rfl
@[simp] theorem State.setPreg_tripped (s : State) (p : Page) (r : Nat) (v : Word) : (s.setPreg p r v).tripped = s.tripped := rfl
@[simp] theorem State.setPreg_slotId (s : State) (p : Page) (r : Nat) (v : Word) : (s.setPreg p r v).slotId = s.slotId := rfl
@[simp] theorem State.setPreg_errSeq (s : State) (p : Page) (r : Nat) (v : Word) : (s.setPreg p r v).errSeq = s.errSeq := rfl
@[simp] theorem State.setPreg_openRecs (s : State) (p : Page) (r : Nat) (v : Word) : (s.setPreg p r v).openRecs = s.openRecs := rfl
@[simp] theorem State.setPreg_fatalSlots (s : State) (p : Page) (r : Nat) (v : Word) : (s.setPreg p r v).fatalSlots = s.fatalSlots := rfl
@[simp] theorem State.setPreg_faultCt (s : State) (p : Page) (r : Nat) (v : Word) : (s.setPreg p r v).faultCt = s.faultCt := rfl
@[simp] theorem State.setPreg_scratchErrs (s : State) (p : Page) (r : Nat) (v : Word) : (s.setPreg p r v).scratchErrs = s.scratchErrs := rfl

/-! ### emit -/

@[simp] theorem State.emit_pending (s : State) (x : Output) : (s.emit x).pending = s.pending := rfl
@[simp] theorem State.emit_now (s : State) (x : Output) : (s.emit x).now = s.now := rfl
@[simp] theorem State.emit_cad (s : State) (x : Output) : (s.emit x).cad = s.cad := rfl
@[simp] theorem State.emit_freeCtr (s : State) (x : Output) : (s.emit x).freeCtr = s.freeCtr := rfl
@[simp] theorem State.emit_variant (s : State) (x : Output) : (s.emit x).variant = s.variant := rfl
@[simp] theorem State.emit_regs (s : State) (x : Output) : (s.emit x).regs = s.regs := rfl
@[simp] theorem State.emit_hiLatch (s : State) (x : Output) : (s.emit x).hiLatch = s.hiLatch := rfl
@[simp] theorem State.emit_pcie (s : State) (x : Output) : (s.emit x).pcie = s.pcie := rfl
@[simp] theorem State.emit_admin (s : State) (x : Output) : (s.emit x).admin = s.admin := rfl
@[simp] theorem State.emit_mem (s : State) (x : Output) : (s.emit x).mem = s.mem := rfl
@[simp] theorem State.emit_bayMem (s : State) (x : Output) : (s.emit x).bayMem = s.bayMem := rfl
@[simp] theorem State.emit_hostMem (s : State) (x : Output) : (s.emit x).hostMem = s.hostMem := rfl
@[simp] theorem State.emit_poison (s : State) (x : Output) : (s.emit x).poison = s.poison := rfl
@[simp] theorem State.emit_scrubbed (s : State) (x : Output) : (s.emit x).scrubbed = s.scrubbed := rfl
@[simp] theorem State.emit_jobs (s : State) (x : Output) : (s.emit x).jobs = s.jobs := rfl
@[simp] theorem State.emit_clients (s : State) (x : Output) : (s.emit x).clients = s.clients := rfl
@[simp] theorem State.emit_lastServed (s : State) (x : Output) : (s.emit x).lastServed = s.lastServed := rfl
@[simp] theorem State.emit_runs (s : State) (x : Output) : (s.emit x).runs = s.runs := rfl
@[simp] theorem State.emit_runUid (s : State) (x : Output) : (s.emit x).runUid = s.runUid := rfl
@[simp] theorem State.emit_holder (s : State) (x : Output) : (s.emit x).holder = s.holder := rfl
@[simp] theorem State.emit_saved (s : State) (x : Output) : (s.emit x).saved = s.saved := rfl
@[simp] theorem State.emit_preempting (s : State) (x : Output) : (s.emit x).preempting = s.preempting := rfl
@[simp] theorem State.emit_doves (s : State) (x : Output) : (s.emit x).doves = s.doves := rfl
@[simp] theorem State.emit_chans (s : State) (x : Output) : (s.emit x).chans = s.chans := rfl
@[simp] theorem State.emit_lab (s : State) (x : Output) : (s.emit x).lab = s.lab := rfl
@[simp] theorem State.emit_streams (s : State) (x : Output) : (s.emit x).streams = s.streams := rfl
@[simp] theorem State.emit_stages (s : State) (x : Output) : (s.emit x).stages = s.stages := rfl
@[simp] theorem State.emit_stageSeq (s : State) (x : Output) : (s.emit x).stageSeq = s.stageSeq := rfl
@[simp] theorem State.emit_notes (s : State) (x : Output) : (s.emit x).notes = s.notes := rfl
@[simp] theorem State.emit_ccHeld (s : State) (x : Output) : (s.emit x).ccHeld = s.ccHeld := rfl
@[simp] theorem State.emit_unitHeld (s : State) (x : Output) : (s.emit x).unitHeld = s.unitHeld := rfl
@[simp] theorem State.emit_cores (s : State) (x : Output) : (s.emit x).cores = s.cores := rfl
@[simp] theorem State.emit_failedSlots (s : State) (x : Output) : (s.emit x).failedSlots = s.failedSlots := rfl
@[simp] theorem State.emit_absentSlots (s : State) (x : Output) : (s.emit x).absentSlots = s.absentSlots := rfl
@[simp] theorem State.emit_scratch (s : State) (x : Output) : (s.emit x).scratch = s.scratch := rfl
@[simp] theorem State.emit_clocks (s : State) (x : Output) : (s.emit x).clocks = s.clocks := rfl
@[simp] theorem State.emit_clockBase (s : State) (x : Output) : (s.emit x).clockBase = s.clockBase := rfl
@[simp] theorem State.emit_bayZero (s : State) (x : Output) : (s.emit x).bayZero = s.bayZero := rfl
@[simp] theorem State.emit_rrc (s : State) (x : Output) : (s.emit x).rrc = s.rrc := rfl
@[simp] theorem State.emit_rrcInv (s : State) (x : Output) : (s.emit x).rrcInv = s.rrcInv := rfl
@[simp] theorem State.emit_tables (s : State) (x : Output) : (s.emit x).tables = s.tables := rfl
@[simp] theorem State.emit_leaves (s : State) (x : Output) : (s.emit x).leaves = s.leaves := rfl
@[simp] theorem State.emit_usedPages (s : State) (x : Output) : (s.emit x).usedPages = s.usedPages := rfl
@[simp] theorem State.emit_counters (s : State) (x : Output) : (s.emit x).counters = s.counters := rfl
@[simp] theorem State.emit_ages (s : State) (x : Output) : (s.emit x).ages = s.ages := rfl
@[simp] theorem State.emit_copies (s : State) (x : Output) : (s.emit x).copies = s.copies := rfl
@[simp] theorem State.emit_moves (s : State) (x : Output) : (s.emit x).moves = s.moves := rfl
@[simp] theorem State.emit_parked (s : State) (x : Output) : (s.emit x).parked = s.parked := rfl
@[simp] theorem State.emit_homes (s : State) (x : Output) : (s.emit x).homes = s.homes := rfl
@[simp] theorem State.emit_maps (s : State) (x : Output) : (s.emit x).maps = s.maps := rfl
@[simp] theorem State.emit_trainQueue (s : State) (x : Output) : (s.emit x).trainQueue = s.trainQueue := rfl
@[simp] theorem State.emit_goneTiers (s : State) (x : Output) : (s.emit x).goneTiers = s.goneTiers := rfl
@[simp] theorem State.emit_calStored (s : State) (x : Output) : (s.emit x).calStored = s.calStored := rfl
@[simp] theorem State.emit_sets (s : State) (x : Output) : (s.emit x).sets = s.sets := rfl
@[simp] theorem State.emit_unitKeys (s : State) (x : Output) : (s.emit x).unitKeys = s.unitKeys := rfl
@[simp] theorem State.emit_writeSeq (s : State) (x : Output) : (s.emit x).writeSeq = s.writeSeq := rfl
@[simp] theorem State.emit_blocks (s : State) (x : Output) : (s.emit x).blocks = s.blocks := rfl
@[simp] theorem State.emit_flashTemp (s : State) (x : Output) : (s.emit x).flashTemp = s.flashTemp := rfl
@[simp] theorem State.emit_sparesLow (s : State) (x : Output) : (s.emit x).sparesLow = s.sparesLow := rfl
@[simp] theorem State.emit_genSlots (s : State) (x : Output) : (s.emit x).genSlots = s.genSlots := rfl
@[simp] theorem State.emit_fetch (s : State) (x : Output) : (s.emit x).fetch = s.fetch := rfl
@[simp] theorem State.emit_loads (s : State) (x : Output) : (s.emit x).loads = s.loads := rfl
@[simp] theorem State.emit_swaps (s : State) (x : Output) : (s.emit x).swaps = s.swaps := rfl
@[simp] theorem State.emit_loaded (s : State) (x : Output) : (s.emit x).loaded = s.loaded := rfl
@[simp] theorem State.emit_reload (s : State) (x : Output) : (s.emit x).reload = s.reload := rfl
@[simp] theorem State.emit_commits (s : State) (x : Output) : (s.emit x).commits = s.commits := rfl
@[simp] theorem State.emit_cleanAt (s : State) (x : Output) : (s.emit x).cleanAt = s.cleanAt := rfl
@[simp] theorem State.emit_lostPages (s : State) (x : Output) : (s.emit x).lostPages = s.lostPages := rfl
@[simp] theorem State.emit_checkpoint (s : State) (x : Output) : (s.emit x).checkpoint = s.checkpoint := rfl
@[simp] theorem State.emit_settings (s : State) (x : Output) : (s.emit x).settings = s.settings := rfl
@[simp] theorem State.emit_txSeq (s : State) (x : Output) : (s.emit x).txSeq = s.txSeq := rfl
@[simp] theorem State.emit_reqs (s : State) (x : Output) : (s.emit x).reqs = s.reqs := rfl
@[simp] theorem State.emit_fences (s : State) (x : Output) : (s.emit x).fences = s.fences := rfl
@[simp] theorem State.emit_txHeld (s : State) (x : Output) : (s.emit x).txHeld = s.txHeld := rfl
@[simp] theorem State.emit_ports (s : State) (x : Output) : (s.emit x).ports = s.ports := rfl
@[simp] theorem State.emit_dedup (s : State) (x : Output) : (s.emit x).dedup = s.dedup := rfl
@[simp] theorem State.emit_accums (s : State) (x : Output) : (s.emit x).accums = s.accums := rfl
@[simp] theorem State.emit_draining (s : State) (x : Output) : (s.emit x).draining = s.draining := rfl
@[simp] theorem State.emit_heard (s : State) (x : Output) : (s.emit x).heard = s.heard := rfl
@[simp] theorem State.emit_quietUntil (s : State) (x : Output) : (s.emit x).quietUntil = s.quietUntil := rfl
@[simp] theorem State.emit_lineGrant (s : State) (x : Output) : (s.emit x).lineGrant = s.lineGrant := rfl
@[simp] theorem State.emit_neigh (s : State) (x : Output) : (s.emit x).neigh = s.neigh := rfl
@[simp] theorem State.emit_echoes (s : State) (x : Output) : (s.emit x).echoes = s.echoes := rfl
@[simp] theorem State.emit_life (s : State) (x : Output) : (s.emit x).life = s.life := rfl
@[simp] theorem State.emit_power (s : State) (x : Output) : (s.emit x).power = s.power := rfl
@[simp] theorem State.emit_boot (s : State) (x : Output) : (s.emit x).boot = s.boot := rfl
@[simp] theorem State.emit_txn (s : State) (x : Output) : (s.emit x).txn = s.txn := rfl
@[simp] theorem State.emit_tap (s : State) (x : Output) : (s.emit x).tap = s.tap := rfl
@[simp] theorem State.emit_alert (s : State) (x : Output) : (s.emit x).alert = s.alert := rfl
@[simp] theorem State.emit_input (s : State) (x : Output) : (s.emit x).input = s.input := rfl
@[simp] theorem State.emit_resetN (s : State) (x : Output) : (s.emit x).resetN = s.resetN := rfl
@[simp] theorem State.emit_tripped (s : State) (x : Output) : (s.emit x).tripped = s.tripped := rfl
@[simp] theorem State.emit_slotId (s : State) (x : Output) : (s.emit x).slotId = s.slotId := rfl
@[simp] theorem State.emit_errSeq (s : State) (x : Output) : (s.emit x).errSeq = s.errSeq := rfl
@[simp] theorem State.emit_openRecs (s : State) (x : Output) : (s.emit x).openRecs = s.openRecs := rfl
@[simp] theorem State.emit_fatalSlots (s : State) (x : Output) : (s.emit x).fatalSlots = s.fatalSlots := rfl
@[simp] theorem State.emit_faultCt (s : State) (x : Output) : (s.emit x).faultCt = s.faultCt := rfl
@[simp] theorem State.emit_scratchErrs (s : State) (x : Output) : (s.emit x).scratchErrs = s.scratchErrs := rfl

@[simp] theorem State.emit_out (s : State) (x : Output) : (s.emit x).out = x :: s.out := rfl

/-! ### rawWrite -/

@[simp] theorem State.rawWrite_pending (s : State) (a : Nat) (bs : List Byte) : (s.rawWrite a bs).pending = s.pending := rfl
@[simp] theorem State.rawWrite_now (s : State) (a : Nat) (bs : List Byte) : (s.rawWrite a bs).now = s.now := rfl
@[simp] theorem State.rawWrite_cad (s : State) (a : Nat) (bs : List Byte) : (s.rawWrite a bs).cad = s.cad := rfl
@[simp] theorem State.rawWrite_freeCtr (s : State) (a : Nat) (bs : List Byte) : (s.rawWrite a bs).freeCtr = s.freeCtr := rfl
@[simp] theorem State.rawWrite_variant (s : State) (a : Nat) (bs : List Byte) : (s.rawWrite a bs).variant = s.variant := rfl
@[simp] theorem State.rawWrite_out (s : State) (a : Nat) (bs : List Byte) : (s.rawWrite a bs).out = s.out := rfl
@[simp] theorem State.rawWrite_regs (s : State) (a : Nat) (bs : List Byte) : (s.rawWrite a bs).regs = s.regs := rfl
@[simp] theorem State.rawWrite_hiLatch (s : State) (a : Nat) (bs : List Byte) : (s.rawWrite a bs).hiLatch = s.hiLatch := rfl
@[simp] theorem State.rawWrite_pcie (s : State) (a : Nat) (bs : List Byte) : (s.rawWrite a bs).pcie = s.pcie := rfl
@[simp] theorem State.rawWrite_admin (s : State) (a : Nat) (bs : List Byte) : (s.rawWrite a bs).admin = s.admin := rfl
@[simp] theorem State.rawWrite_bayMem (s : State) (a : Nat) (bs : List Byte) : (s.rawWrite a bs).bayMem = s.bayMem := rfl
@[simp] theorem State.rawWrite_hostMem (s : State) (a : Nat) (bs : List Byte) : (s.rawWrite a bs).hostMem = s.hostMem := rfl
@[simp] theorem State.rawWrite_poison (s : State) (a : Nat) (bs : List Byte) : (s.rawWrite a bs).poison = s.poison := rfl
@[simp] theorem State.rawWrite_scrubbed (s : State) (a : Nat) (bs : List Byte) : (s.rawWrite a bs).scrubbed = s.scrubbed := rfl
@[simp] theorem State.rawWrite_jobs (s : State) (a : Nat) (bs : List Byte) : (s.rawWrite a bs).jobs = s.jobs := rfl
@[simp] theorem State.rawWrite_clients (s : State) (a : Nat) (bs : List Byte) : (s.rawWrite a bs).clients = s.clients := rfl
@[simp] theorem State.rawWrite_lastServed (s : State) (a : Nat) (bs : List Byte) : (s.rawWrite a bs).lastServed = s.lastServed := rfl
@[simp] theorem State.rawWrite_runs (s : State) (a : Nat) (bs : List Byte) : (s.rawWrite a bs).runs = s.runs := rfl
@[simp] theorem State.rawWrite_runUid (s : State) (a : Nat) (bs : List Byte) : (s.rawWrite a bs).runUid = s.runUid := rfl
@[simp] theorem State.rawWrite_holder (s : State) (a : Nat) (bs : List Byte) : (s.rawWrite a bs).holder = s.holder := rfl
@[simp] theorem State.rawWrite_saved (s : State) (a : Nat) (bs : List Byte) : (s.rawWrite a bs).saved = s.saved := rfl
@[simp] theorem State.rawWrite_preempting (s : State) (a : Nat) (bs : List Byte) : (s.rawWrite a bs).preempting = s.preempting := rfl
@[simp] theorem State.rawWrite_doves (s : State) (a : Nat) (bs : List Byte) : (s.rawWrite a bs).doves = s.doves := rfl
@[simp] theorem State.rawWrite_chans (s : State) (a : Nat) (bs : List Byte) : (s.rawWrite a bs).chans = s.chans := rfl
@[simp] theorem State.rawWrite_lab (s : State) (a : Nat) (bs : List Byte) : (s.rawWrite a bs).lab = s.lab := rfl
@[simp] theorem State.rawWrite_streams (s : State) (a : Nat) (bs : List Byte) : (s.rawWrite a bs).streams = s.streams := rfl
@[simp] theorem State.rawWrite_stages (s : State) (a : Nat) (bs : List Byte) : (s.rawWrite a bs).stages = s.stages := rfl
@[simp] theorem State.rawWrite_stageSeq (s : State) (a : Nat) (bs : List Byte) : (s.rawWrite a bs).stageSeq = s.stageSeq := rfl
@[simp] theorem State.rawWrite_notes (s : State) (a : Nat) (bs : List Byte) : (s.rawWrite a bs).notes = s.notes := rfl
@[simp] theorem State.rawWrite_ccHeld (s : State) (a : Nat) (bs : List Byte) : (s.rawWrite a bs).ccHeld = s.ccHeld := rfl
@[simp] theorem State.rawWrite_unitHeld (s : State) (a : Nat) (bs : List Byte) : (s.rawWrite a bs).unitHeld = s.unitHeld := rfl
@[simp] theorem State.rawWrite_cores (s : State) (a : Nat) (bs : List Byte) : (s.rawWrite a bs).cores = s.cores := rfl
@[simp] theorem State.rawWrite_failedSlots (s : State) (a : Nat) (bs : List Byte) : (s.rawWrite a bs).failedSlots = s.failedSlots := rfl
@[simp] theorem State.rawWrite_absentSlots (s : State) (a : Nat) (bs : List Byte) : (s.rawWrite a bs).absentSlots = s.absentSlots := rfl
@[simp] theorem State.rawWrite_scratch (s : State) (a : Nat) (bs : List Byte) : (s.rawWrite a bs).scratch = s.scratch := rfl
@[simp] theorem State.rawWrite_clocks (s : State) (a : Nat) (bs : List Byte) : (s.rawWrite a bs).clocks = s.clocks := rfl
@[simp] theorem State.rawWrite_clockBase (s : State) (a : Nat) (bs : List Byte) : (s.rawWrite a bs).clockBase = s.clockBase := rfl
@[simp] theorem State.rawWrite_bayZero (s : State) (a : Nat) (bs : List Byte) : (s.rawWrite a bs).bayZero = s.bayZero := rfl
@[simp] theorem State.rawWrite_rrc (s : State) (a : Nat) (bs : List Byte) : (s.rawWrite a bs).rrc = s.rrc := rfl
@[simp] theorem State.rawWrite_rrcInv (s : State) (a : Nat) (bs : List Byte) : (s.rawWrite a bs).rrcInv = s.rrcInv := rfl
@[simp] theorem State.rawWrite_tables (s : State) (a : Nat) (bs : List Byte) : (s.rawWrite a bs).tables = s.tables := rfl
@[simp] theorem State.rawWrite_leaves (s : State) (a : Nat) (bs : List Byte) : (s.rawWrite a bs).leaves = s.leaves := rfl
@[simp] theorem State.rawWrite_usedPages (s : State) (a : Nat) (bs : List Byte) : (s.rawWrite a bs).usedPages = s.usedPages := rfl
@[simp] theorem State.rawWrite_counters (s : State) (a : Nat) (bs : List Byte) : (s.rawWrite a bs).counters = s.counters := rfl
@[simp] theorem State.rawWrite_ages (s : State) (a : Nat) (bs : List Byte) : (s.rawWrite a bs).ages = s.ages := rfl
@[simp] theorem State.rawWrite_copies (s : State) (a : Nat) (bs : List Byte) : (s.rawWrite a bs).copies = s.copies := rfl
@[simp] theorem State.rawWrite_moves (s : State) (a : Nat) (bs : List Byte) : (s.rawWrite a bs).moves = s.moves := rfl
@[simp] theorem State.rawWrite_parked (s : State) (a : Nat) (bs : List Byte) : (s.rawWrite a bs).parked = s.parked := rfl
@[simp] theorem State.rawWrite_homes (s : State) (a : Nat) (bs : List Byte) : (s.rawWrite a bs).homes = s.homes := rfl
@[simp] theorem State.rawWrite_maps (s : State) (a : Nat) (bs : List Byte) : (s.rawWrite a bs).maps = s.maps := rfl
@[simp] theorem State.rawWrite_trainQueue (s : State) (a : Nat) (bs : List Byte) : (s.rawWrite a bs).trainQueue = s.trainQueue := rfl
@[simp] theorem State.rawWrite_goneTiers (s : State) (a : Nat) (bs : List Byte) : (s.rawWrite a bs).goneTiers = s.goneTiers := rfl
@[simp] theorem State.rawWrite_calStored (s : State) (a : Nat) (bs : List Byte) : (s.rawWrite a bs).calStored = s.calStored := rfl
@[simp] theorem State.rawWrite_sets (s : State) (a : Nat) (bs : List Byte) : (s.rawWrite a bs).sets = s.sets := rfl
@[simp] theorem State.rawWrite_unitKeys (s : State) (a : Nat) (bs : List Byte) : (s.rawWrite a bs).unitKeys = s.unitKeys := rfl
@[simp] theorem State.rawWrite_writeSeq (s : State) (a : Nat) (bs : List Byte) : (s.rawWrite a bs).writeSeq = s.writeSeq := rfl
@[simp] theorem State.rawWrite_blocks (s : State) (a : Nat) (bs : List Byte) : (s.rawWrite a bs).blocks = s.blocks := rfl
@[simp] theorem State.rawWrite_flashTemp (s : State) (a : Nat) (bs : List Byte) : (s.rawWrite a bs).flashTemp = s.flashTemp := rfl
@[simp] theorem State.rawWrite_sparesLow (s : State) (a : Nat) (bs : List Byte) : (s.rawWrite a bs).sparesLow = s.sparesLow := rfl
@[simp] theorem State.rawWrite_genSlots (s : State) (a : Nat) (bs : List Byte) : (s.rawWrite a bs).genSlots = s.genSlots := rfl
@[simp] theorem State.rawWrite_fetch (s : State) (a : Nat) (bs : List Byte) : (s.rawWrite a bs).fetch = s.fetch := rfl
@[simp] theorem State.rawWrite_loads (s : State) (a : Nat) (bs : List Byte) : (s.rawWrite a bs).loads = s.loads := rfl
@[simp] theorem State.rawWrite_swaps (s : State) (a : Nat) (bs : List Byte) : (s.rawWrite a bs).swaps = s.swaps := rfl
@[simp] theorem State.rawWrite_loaded (s : State) (a : Nat) (bs : List Byte) : (s.rawWrite a bs).loaded = s.loaded := rfl
@[simp] theorem State.rawWrite_reload (s : State) (a : Nat) (bs : List Byte) : (s.rawWrite a bs).reload = s.reload := rfl
@[simp] theorem State.rawWrite_commits (s : State) (a : Nat) (bs : List Byte) : (s.rawWrite a bs).commits = s.commits := rfl
@[simp] theorem State.rawWrite_cleanAt (s : State) (a : Nat) (bs : List Byte) : (s.rawWrite a bs).cleanAt = s.cleanAt := rfl
@[simp] theorem State.rawWrite_lostPages (s : State) (a : Nat) (bs : List Byte) : (s.rawWrite a bs).lostPages = s.lostPages := rfl
@[simp] theorem State.rawWrite_checkpoint (s : State) (a : Nat) (bs : List Byte) : (s.rawWrite a bs).checkpoint = s.checkpoint := rfl
@[simp] theorem State.rawWrite_settings (s : State) (a : Nat) (bs : List Byte) : (s.rawWrite a bs).settings = s.settings := rfl
@[simp] theorem State.rawWrite_txSeq (s : State) (a : Nat) (bs : List Byte) : (s.rawWrite a bs).txSeq = s.txSeq := rfl
@[simp] theorem State.rawWrite_reqs (s : State) (a : Nat) (bs : List Byte) : (s.rawWrite a bs).reqs = s.reqs := rfl
@[simp] theorem State.rawWrite_fences (s : State) (a : Nat) (bs : List Byte) : (s.rawWrite a bs).fences = s.fences := rfl
@[simp] theorem State.rawWrite_txHeld (s : State) (a : Nat) (bs : List Byte) : (s.rawWrite a bs).txHeld = s.txHeld := rfl
@[simp] theorem State.rawWrite_ports (s : State) (a : Nat) (bs : List Byte) : (s.rawWrite a bs).ports = s.ports := rfl
@[simp] theorem State.rawWrite_dedup (s : State) (a : Nat) (bs : List Byte) : (s.rawWrite a bs).dedup = s.dedup := rfl
@[simp] theorem State.rawWrite_accums (s : State) (a : Nat) (bs : List Byte) : (s.rawWrite a bs).accums = s.accums := rfl
@[simp] theorem State.rawWrite_draining (s : State) (a : Nat) (bs : List Byte) : (s.rawWrite a bs).draining = s.draining := rfl
@[simp] theorem State.rawWrite_heard (s : State) (a : Nat) (bs : List Byte) : (s.rawWrite a bs).heard = s.heard := rfl
@[simp] theorem State.rawWrite_quietUntil (s : State) (a : Nat) (bs : List Byte) : (s.rawWrite a bs).quietUntil = s.quietUntil := rfl
@[simp] theorem State.rawWrite_lineGrant (s : State) (a : Nat) (bs : List Byte) : (s.rawWrite a bs).lineGrant = s.lineGrant := rfl
@[simp] theorem State.rawWrite_neigh (s : State) (a : Nat) (bs : List Byte) : (s.rawWrite a bs).neigh = s.neigh := rfl
@[simp] theorem State.rawWrite_echoes (s : State) (a : Nat) (bs : List Byte) : (s.rawWrite a bs).echoes = s.echoes := rfl
@[simp] theorem State.rawWrite_life (s : State) (a : Nat) (bs : List Byte) : (s.rawWrite a bs).life = s.life := rfl
@[simp] theorem State.rawWrite_power (s : State) (a : Nat) (bs : List Byte) : (s.rawWrite a bs).power = s.power := rfl
@[simp] theorem State.rawWrite_boot (s : State) (a : Nat) (bs : List Byte) : (s.rawWrite a bs).boot = s.boot := rfl
@[simp] theorem State.rawWrite_txn (s : State) (a : Nat) (bs : List Byte) : (s.rawWrite a bs).txn = s.txn := rfl
@[simp] theorem State.rawWrite_tap (s : State) (a : Nat) (bs : List Byte) : (s.rawWrite a bs).tap = s.tap := rfl
@[simp] theorem State.rawWrite_alert (s : State) (a : Nat) (bs : List Byte) : (s.rawWrite a bs).alert = s.alert := rfl
@[simp] theorem State.rawWrite_input (s : State) (a : Nat) (bs : List Byte) : (s.rawWrite a bs).input = s.input := rfl
@[simp] theorem State.rawWrite_resetN (s : State) (a : Nat) (bs : List Byte) : (s.rawWrite a bs).resetN = s.resetN := rfl
@[simp] theorem State.rawWrite_tripped (s : State) (a : Nat) (bs : List Byte) : (s.rawWrite a bs).tripped = s.tripped := rfl
@[simp] theorem State.rawWrite_slotId (s : State) (a : Nat) (bs : List Byte) : (s.rawWrite a bs).slotId = s.slotId := rfl
@[simp] theorem State.rawWrite_errSeq (s : State) (a : Nat) (bs : List Byte) : (s.rawWrite a bs).errSeq = s.errSeq := rfl
@[simp] theorem State.rawWrite_openRecs (s : State) (a : Nat) (bs : List Byte) : (s.rawWrite a bs).openRecs = s.openRecs := rfl
@[simp] theorem State.rawWrite_fatalSlots (s : State) (a : Nat) (bs : List Byte) : (s.rawWrite a bs).fatalSlots = s.fatalSlots := rfl
@[simp] theorem State.rawWrite_faultCt (s : State) (a : Nat) (bs : List Byte) : (s.rawWrite a bs).faultCt = s.faultCt := rfl
@[simp] theorem State.rawWrite_scratchErrs (s : State) (a : Nat) (bs : List Byte) : (s.rawWrite a bs).scratchErrs = s.scratchErrs := rfl

/-! ### Registers -/

@[simp] theorem State.emit_reg (s : State) (x : Output) (o : Nat) : (s.emit x).reg o = s.reg o := rfl
@[simp] theorem State.rawWrite_reg (s : State) (a : Nat) (bs : List Byte) (o : Nat) : (s.rawWrite a bs).reg o = s.reg o := rfl
@[simp] theorem State.setReg_isH (s : State) (o : Nat) (v : Word) : (s.setReg o v).isH = s.isH := rfl

/-- A register reads what was stored in it. -/
theorem State.reg_setReg_same {s : State} (o : Nat) (v : Word) (h : keysRise s.regs) : (s.setReg o v).reg o = v := by
  unfold State.reg State.setReg
  dsimp only
  split
  · rename_i hv
    rw [mget_mdel_same _ _ h]
    exact (eq_of_beq hv).symm
  · rw [mget_mset_same]
    rfl

/-- Every other register reads as before. -/
theorem State.reg_setReg_ne {s : State} {o o' : Nat} (v : Word) (h : o' ≠ o) : (s.setReg o v).reg o' = s.reg o' := by
  unfold State.reg State.setReg
  dsimp only
  split
  · rw [mget_mdel_ne _ _ _ h]
    rfl
  · rw [mget_mset_ne _ _ _ _ h]
    rfl

end Sys2Proof.Machine
end

