-- ==== Sys2Proof/Laws/Wf.lean ====
section
/-!
SUPPORT. The canonical form of memory and registers: what the primitives keep, and the rules that carry it through a definition.
-/

namespace Sys2Proof.Machine

/-- An update of other fields keeps the form. -/
theorem wf_mk (s : State) {x0 x1 x2 x3 x5 x7 x8 x9 x11 x12 x13 x14 x15 x16 x17 x18 x19 x20 x21 x22 x23 x24 x25 x26 x27 x28 x29 x30 x31 x32 x33 x34 x35 x36 x37 x38 x39 x40 x41 x42 x43 x44 x45 x46 x47 x48 x49 x50 x51 x52 x53 x54 x55 x56 x57 x58 x59 x60 x61 x62 x63 x64 x65 x66 x67 x68 x69 x70 x71 x72 x73 x74 x75 x76 x77 x78 x79 x80 x81 x82 x83 x84 x85 x86 x87 x88 x89 x90 x91 x92 x93 x94 x95 x96 x97 x98} (h : s.wf) : State.wf (State.mk x0 x1 x2 x3 (s.variant) x5 (s.regs) x7 x8 x9 (s.mem) x11 x12 x13 x14 x15 x16 x17 x18 x19 x20 x21 x22 x23 x24 x25 x26 x27 x28 x29 x30 x31 x32 x33 x34 x35 x36 x37 x38 x39 x40 x41 x42 x43 x44 x45 x46 x47 x48 x49 x50 x51 x52 x53 x54 x55 x56 x57 x58 x59 x60 x61 x62 x63 x64 x65 x66 x67 x68 x69 x70 x71 x72 x73 x74 x75 x76 x77 x78 x79 x80 x81 x82 x83 x84 x85 x86 x87 x88 x89 x90 x91 x92 x93 x94 x95 x96 x97 x98) := h

theorem wf_regs {s : State} (h : s.wf) : RegFile.wf s.isH s.regs := (Bool.and_eq_true _ _ ▸ h : _ ∧ _).2
theorem wf_memory {s : State} (h : s.wf) : Memory.wf s.mem := (Bool.and_eq_true _ _ ▸ h : _ ∧ _).1
theorem wf_intro {s : State} (hm : Memory.wf s.mem) (hr : RegFile.wf s.isH s.regs) : s.wf := by
  simp [State.wf, hm, hr]

theorem regFile_mset {h : Bool} {r : List (Nat × Word)} (o : Nat) (v : Word) (hr : RegFile.wf h r) (hv : v ≠ resetWord h o) :
    RegFile.wf h (mset r o v) := by
  simp only [RegFile.wf, Bool.and_eq_true] at hr ⊢
  exact ⟨keysRise_mset r o v hr.1, all_mset _ r o v hr.2 (by simpa using hv)⟩

theorem regFile_mdel {h : Bool} {r : List (Nat × Word)} (o : Nat) (hr : RegFile.wf h r) : RegFile.wf h (mdel r o) := by
  simp only [RegFile.wf, Bool.and_eq_true] at hr ⊢
  exact ⟨keysRise_mdel r o hr.1, all_mdel _ r o hr.2⟩

theorem regFile_filter {h : Bool} {r : List (Nat × Word)} (p : Nat × Word → Bool) (hr : RegFile.wf h r) : RegFile.wf h (r.filter p) := by
  simp only [RegFile.wf, Bool.and_eq_true] at hr ⊢
  exact ⟨keysRise_filter r p hr.1, all_filter _ p r hr.2⟩

theorem memory_putByte {m : List Host.Cell} (a : Nat) (b : Byte) (h : Memory.wf m) : Memory.wf (putByte m a b) := by
  simp only [Memory.wf, Bool.and_eq_true] at h ⊢
  unfold putByte
  split
  · exact ⟨keysRise_mdel m a h.1, all_mdel _ m a h.2⟩
  · rename_i hb
    exact ⟨keysRise_mset m a b h.1, all_mset _ m a b h.2 (by simpa using hb)⟩

theorem memory_putBytesAt {m : List Host.Cell} (a : Nat) (bs : List Byte) (h : Memory.wf m) : Memory.wf (putBytesAt m a bs) := by
  induction bs generalizing m a with
  | nil => exact h
  | cons b bs ih => exact ih (a + 1) (memory_putByte a b h)

theorem memory_filter {m : List Host.Cell} (p : Host.Cell → Bool) (h : Memory.wf m) : Memory.wf (m.filter p) := by
  simp only [Memory.wf, Bool.and_eq_true] at h ⊢
  exact ⟨keysRise_filter m p h.1, all_filter _ p m h.2⟩

theorem State.setReg_wf {s : State} {o : Nat} {v : Word} (h : s.wf) : (s.setReg o v).wf := by
  refine wf_intro (show Memory.wf s.mem from wf_memory h) ?_
  show RegFile.wf s.isH (if v == resetWord s.isH o then mdel s.regs o else mset s.regs o v)
  split
  · exact regFile_mdel o (wf_regs h)
  · rename_i hv
    exact regFile_mset o v (wf_regs h) (by simpa using hv)

theorem State.rawWrite_wf {s : State} {a : Nat} {bs : List Byte} (h : s.wf) : (s.rawWrite a bs).wf :=
  wf_intro (memory_putBytesAt a bs (wf_memory h)) (show RegFile.wf s.isH s.regs from wf_regs h)

/-! ### Carrying the form through control structure -/

/-- The canonical form as a proposition. -/
abbrev State.canon (s : State) : Prop := s.wf = true

theorem carry {p q : Prop} (hp : p) (hq : p → q) : q := hq hp

theorem wf_ite {c : Prop} [Decidable c] {a b : State} (ha : a.wf) (hb : b.wf) : (if c then a else b).wf := by split <;> assumption

theorem foldl_wf {α : Type} {f : State → α → State} {l : List α} {s : State} (h : s.wf) (hf : ∀ (s : State) (a : α), s.wf → (f s a).wf) :
    (l.foldl f s).wf := by
  induction l generalizing s with
  | nil => exact h
  | cons a l ih => exact ih (hf s a h)

/-- The next state of an outcome is in canonical form. -/
def OutWf (o : Host.Outcome State Fault Refusal) : Prop := ∀ t : State, o = .next t → t.wf

theorem outWf_next {s : State} (h : s.wf) : OutWf (.next s) := fun _ e => Host.Outcome.next.inj e ▸ h
theorem outWf_fault {f : Fault} : OutWf (.fault f) := fun _ e => nomatch e
theorem outWf_ite {c : Prop} [Decidable c] {a b : Host.Outcome State Fault Refusal} (ha : OutWf a) (hb : OutWf b) : OutWf (if c then a else b) := by
  split <;> assumption

/-- An optional state is in canonical form where there is one. -/
def OptWf (o : Option State) : Prop := ∀ t : State, o = some t → t.wf

theorem optWf_of {o : Option State} {t : State} (e : o = some t) (h : OptWf o) : t.wf := h t e
theorem optWf_some {s : State} (h : s.wf) : OptWf (some s) := fun _ e => Option.some.inj e ▸ h
theorem optWf_none : OptWf none := fun _ e => nomatch e
theorem optWf_ite {c : Prop} [Decidable c] {a b : Option State} (ha : OptWf a) (hb : OptWf b) : OptWf (if c then a else b) := by split <;> assumption
theorem getD_wf {o : Option State} {s : State} (ho : OptWf o) (h : s.wf) : (o.getD s).wf := by
  cases o with
  | none => exact h
  | some t => exact ho t rfl
theorem findSome_wf {α : Type} {f : α → Option State} {l : List α} (hf : ∀ a, OptWf (f a)) : OptWf (l.findSome? f) := by
  intro t ht
  obtain ⟨a, _, ha⟩ := List.exists_of_findSome?_eq_some ht
  exact hf a t ha
theorem optAny_bind {α : Type} {o : Option α} {f : α → Option State} (hf : ∀ a, OptWf (f a)) : OptWf (o.bind f) := by
  cases o with
  | none => exact optWf_none
  | some a => exact hf a
theorem optWf_bind {o : Option State} {f : State → Option State} (ho : OptWf o) (hf : ∀ a : State, a.wf → OptWf (f a)) : OptWf (o.bind f) := by
  cases o with
  | none => exact optWf_none
  | some a => exact hf a (ho a rfl)
theorem optAny_map {α : Type} {o : Option α} {f : α → State} (hf : ∀ a, (f a).wf) : OptWf (o.map f) := by
  cases o with
  | none => exact optWf_none
  | some a => exact optWf_some (hf a)
theorem optWf_map {o : Option State} {f : State → State} (ho : OptWf o) (hf : ∀ a : State, a.wf → (f a).wf) : OptWf (o.map f) := by
  cases o with
  | none => exact optWf_none
  | some a => exact optWf_some (hf a (ho a rfl))

/-- The state of a completed access is in canonical form. -/
def AccWf (a : Acc State) : Prop := ∀ t : State, a = .ok t → t.wf

theorem accWf_of {o : Acc State} {t : State} (e : o = .ok t) (h : AccWf o) : t.wf := h t e
theorem accWf_ok {s : State} (h : s.wf) : AccWf (.ok s) := fun _ e => Acc.ok.inj e ▸ h
theorem accWf_ite {c : Prop} [Decidable c] {a b : Acc State} (ha : AccWf a) (hb : AccWf b) : AccWf (if c then a else b) := by split <;> assumption
theorem accAny_bind {α : Type} {o : Acc α} {f : α → Acc State} (hf : ∀ a, AccWf (f a)) : AccWf (o.bind f) := by
  cases o with
  | ok a => exact hf a
  | _ => exact fun _ e => nomatch e
theorem accWf_bind {o : Acc State} {f : State → Acc State} (ho : AccWf o) (hf : ∀ a : State, a.wf → AccWf (f a)) : AccWf (o.bind f) := by
  cases o with
  | ok a => exact hf a (ho a rfl)
  | _ => exact fun _ e => nomatch e

/-- The state of a pair is in canonical form. -/
def FstWf {α : Type} (x : State × α) : Prop := x.1.wf
theorem fst_wf {α : Type} {x : State × α} (h : FstWf x) : x.1.wf := h
theorem fstWf_mk {α : Type} {s : State} {a : α} (h : s.wf) : FstWf (s, a) := h
theorem fstWf_of {α : Type} {x : State × α} {t : State} {a : α} (e : x = (t, a)) (h : x.1.wf) : t.wf := by subst e; exact h
theorem fstWf_ite {α : Type} {c : Prop} [Decidable c] {a b : State × α} (ha : FstWf a) (hb : FstWf b) : FstWf (if c then a else b) := by
  split <;> assumption

def SndWf {α : Type} (x : α × State) : Prop := x.2.wf
theorem snd_wf {α : Type} {x : α × State} (h : SndWf x) : x.2.wf := h
theorem sndWf_mk {α : Type} {s : State} {a : α} (h : s.wf) : SndWf (a, s) := h
theorem sndWf_of {α : Type} {x : α × State} {t : State} {a : α} (e : x = (a, t)) (h : x.2.wf) : t.wf := by subst e; exact h
theorem sndWf_ite {α : Type} {c : Prop} [Decidable c] {a b : α × State} (ha : SndWf a) (hb : SndWf b) : SndWf (if c then a else b) := by
  split <;> assumption

/-- The state of an optional pair is in canonical form. -/
def OptFst {α : Type} (o : Option (State × α)) : Prop := ∀ x : State × α, o = some x → x.1.wf
theorem optFst_of {α : Type} {o : Option (State × α)} {t : State} {a : α} (e : o = some (t, a)) (h : OptFst o) : t.wf := h (t, a) e
theorem optFst_of2 {α : Type} {o : Option (State × α)} {x : State × α} (e : o = some x) (h : OptFst o) : x.1.wf := h x e
theorem optFst_some {α : Type} {s : State} {a : α} (h : s.wf) : OptFst (some (s, a)) := fun x e => by cases e; exact h
theorem optFst_none {α : Type} : OptFst (none : Option (State × α)) := fun _ e => nomatch e
theorem optFst_ite {α : Type} {c : Prop} [Decidable c] {a b : Option (State × α)} (ha : OptFst a) (hb : OptFst b) : OptFst (if c then a else b) := by
  split <;> assumption
theorem optFstAny_bind {α β : Type} {o : Option β} {f : β → Option (State × α)} (hf : ∀ a, OptFst (f a)) : OptFst (o.bind f) := by
  cases o with
  | none => exact optFst_none
  | some a => exact hf a
theorem optFstAny_map {α β : Type} {o : Option β} {f : β → State × α} (hf : ∀ a, FstWf (f a)) : OptFst (o.map f) := by
  cases o with
  | none => exact optFst_none
  | some a => exact fun x e => by cases e; exact hf a
theorem optFst_bind {α : Type} {o : Option State} {f : State → Option (State × α)} (ho : OptWf o) (hf : ∀ a : State, a.wf → OptFst (f a)) :
    OptFst (o.bind f) := by
  cases o with
  | none => exact optFst_none
  | some a => exact hf a (ho a rfl)
theorem optPair_bind {α : Type} {o : Option (State × α)} {f : State × α → Option State} (ho : OptFst o)
    (hf : ∀ x : State × α, x.1.wf → OptWf (f x)) : OptWf (o.bind f) := by
  cases o with
  | none => exact optWf_none
  | some a => exact hf a (ho a rfl)

/-- The state of a completed access's pair is in canonical form. -/
def AccFst {α : Type} (o : Acc (State × α)) : Prop := ∀ x : State × α, o = .ok x → x.1.wf
theorem accFst_of {α : Type} {o : Acc (State × α)} {t : State} {a : α} (e : o = .ok (t, a)) (h : AccFst o) : t.wf := h (t, a) e
theorem accFst_ok {α : Type} {s : State} {a : α} (h : s.wf) : AccFst (.ok (s, a)) := fun x e => by cases e; exact h
theorem accFst_ite {α : Type} {c : Prop} [Decidable c] {a b : Acc (State × α)} (ha : AccFst a) (hb : AccFst b) : AccFst (if c then a else b) := by
  split <;> assumption
theorem accFst_bind {α β : Type} {o : Acc β} {f : β → Acc (State × α)} (hf : ∀ a, AccFst (f a)) : AccFst (o.bind f) := by
  cases o with
  | ok a => exact hf a
  | _ => exact fun _ e => nomatch e

/-- The state a run of a core command leaves is in canonical form. -/
def RanWf : Ran → Prop
  | .done s _ => s.wf
  | .wait s => s.wf
  | _ => True
theorem ranWf_done {s : State} {t : Trouble} (h : s.wf) : RanWf (.done s t) := h
theorem ranWf_wait {s : State} (h : s.wf) : RanWf (.wait s) := h
theorem ranWf_bad {u : UnitId} {c j v : Nat} : RanWf (.bad u c j v) := trivial
theorem ranWf_deep {u : UnitId} {j v : Nat} : RanWf (.deep u j v) := trivial
theorem ranWf_poison {j p v : Nat} : RanWf (.poison j p v) := trivial
theorem ranWf_illegal {c : Nat} : RanWf (.illegal c) := trivial
theorem ranWf_scribe {c p : Nat} {k : ListKey} : RanWf (.scribe c k p) := trivial
theorem ranWf_ite {c : Prop} [Decidable c] {a b : Ran} (ha : RanWf a) (hb : RanWf b) : RanWf (if c then a else b) := by split <;> assumption
theorem ran_any {α : Type} {x : Acc α} {u : UnitId} {j : Nat} {k : α → Ran} (h : ∀ a, RanWf (k a)) : RanWf (x.ran u j k) := by
  cases x with
  | ok a => exact h a
  | _ => exact trivial
theorem ran_acc {x : Acc State} {u : UnitId} {j : Nat} {k : State → Ran} (hx : AccWf x) (h : ∀ a : State, a.wf → RanWf (k a)) :
    RanWf (x.ran u j k) := by
  cases x with
  | ok a => exact h a (hx a rfl)
  | _ => exact trivial
theorem ran_accFst {α : Type} {x : Acc (State × α)} {u : UnitId} {j : Nat} {k : State × α → Ran} (hx : AccFst x)
    (h : ∀ a : State × α, a.1.wf → RanWf (k a)) : RanWf (x.ran u j k) := by
  cases x with
  | ok a => exact h a (hx a rfl)
  | _ => exact trivial
theorem ranDone_of {r : Ran} {s : State} {t : Trouble} (e : r = .done s t) (h : RanWf r) : s.wf := by subst e; exact h
theorem ranWait_of {r : Ran} {s : State} (e : r = .wait s) (h : RanWf r) : s.wf := by subst e; exact h

/-- The state a port's phase leaves is in canonical form. -/
def DvRanWf : DvRan → Prop
  | .to s _ => s.wf
  | _ => True
theorem dvWf_to {s : State} {n : Nat} (h : s.wf) : DvRanWf (.to s n) := h
theorem dvWf_err {n : Nat} : DvRanWf (.err n) := trivial
theorem dvWf_acc {x : Acc Unit} : DvRanWf (.acc x) := trivial
theorem dvWf_ite {c : Prop} [Decidable c] {a b : DvRan} (ha : DvRanWf a) (hb : DvRanWf b) : DvRanWf (if c then a else b) := by split <;> assumption
theorem dv_any {α : Type} {x : Acc α} {k : α → DvRan} (h : ∀ a, DvRanWf (k a)) : DvRanWf (x.dv k) := by
  cases x with
  | ok a => exact h a
  | _ => exact trivial
theorem dv_acc {x : Acc State} {k : State → DvRan} (hx : AccWf x) (h : ∀ a : State, a.wf → DvRanWf (k a)) : DvRanWf (x.dv k) := by
  cases x with
  | ok a => exact h a (hx a rfl)
  | _ => exact trivial
theorem dvTo_of {r : DvRan} {s : State} {n : Nat} (e : r = .to s n) (h : DvRanWf r) : s.wf := by subst e; exact h

/-- The state the lines of a unit are brought in is in canonical form. -/
def LinesWf : Lines → Prop
  | .here s _ => s.wf
  | .waiting s _ => s.wf
  | .refused s => s.wf
theorem linesHere_of {r : Lines} {s : State} {l : List (Nat × List Byte)} (e : r = .here s l) (h : LinesWf r) : s.wf := by subst e; exact h
theorem linesWaiting_of {r : Lines} {s : State} {l : List (Nat × List Byte)} (e : r = .waiting s l) (h : LinesWf r) : s.wf := by subst e; exact h
theorem linesRefused_of {r : Lines} {s : State} (e : r = .refused s) (h : LinesWf r) : s.wf := by subst e; exact h
theorem linesWf_ite {c : Prop} [Decidable c] {a b : Lines} (ha : LinesWf a) (hb : LinesWf b) : LinesWf (if c then a else b) := by split <;> assumption
theorem linesWf_here {s : State} {l : List (Nat × List Byte)} (h : s.wf) : LinesWf (.here s l) := h
theorem linesWf_waiting {s : State} {l : List (Nat × List Byte)} (h : s.wf) : LinesWf (.waiting s l) := h
theorem linesWf_refused {s : State} (h : s.wf) : LinesWf (.refused s) := h

/-- The state of a park in the making is in canonical form. -/
def ParkWf (a : Parker) : Prop := a.s.wf
theorem parkWf_of {a : Parker} (h : ParkWf a) : a.s.wf := h
theorem parkWf_mk {s : State} {p : List (Nat × Nat × Nat × Nat)} {r : List (Nat × Nat × List Byte)} {b : Bool} (h : s.wf) : ParkWf ⟨s, p, r, b⟩ := h
theorem foldl_park {α : Type} {f : Parker → α → Parker} {l : List α} {a : Parker} (h : ParkWf a) (hf : ∀ (a : Parker) (x : α), ParkWf a → ParkWf (f a x)) :
    ParkWf (l.foldl f a) := by
  induction l generalizing a with
  | nil => exact h
  | cons x l ih => exact ih (hf a x h)

end Sys2Proof.Machine
end

