-- ==== Sys2Proof/Laws/Memory.lean ====
section
/-!
SUPPORT. The bytes of module memory after a store, and the part of a state that registers and outputs do not touch.
-/

namespace Sys2Proof.Machine

open Sys2Proof

theorem keysRise_of_memory {m : List Host.Cell} (h : Memory.wf m) : keysRise m := by
  simp only [Memory.wf, Bool.and_eq_true] at h
  exact h.1

@[simp] theorem State.setReg_rest (s : State) (o : Nat) (v : Word) : (s.setReg o v).rest = s.rest := rfl
@[simp] theorem State.setPreg_rest (s : State) (p : Page) (r : Nat) (v : Word) : (s.setPreg p r v).rest = s.rest := rfl
@[simp] theorem State.emit_rest (s : State) (x : Output) : (s.emit x).rest = s.rest := rfl

/-- A byte reads what was stored in it. -/
theorem putByte_same {m : List Host.Cell} (a : Nat) (b : Byte) (h : Memory.wf m) : (mget (putByte m a b) a).getD 0 = b := by
  unfold putByte
  split
  · rename_i hb
    rw [mget_mdel_same _ _ (keysRise_of_memory h)]
    exact (eq_of_beq hb).symm
  · rw [mget_mset_same]
    rfl

/-- Every other byte reads as before. -/
theorem putByte_ne {m : List Host.Cell} {a x : Nat} (b : Byte) (h : x ≠ a) : mget (putByte m a b) x = mget m x := by
  unfold putByte
  split
  · exact mget_mdel_ne _ _ _ h
  · exact mget_mset_ne _ _ _ _ h

/-- Bytes outside the range stored read as before. -/
theorem putBytesAt_outside {m : List Host.Cell} {a x : Nat} {bs : List Byte} (h : ¬(a ≤ x ∧ x < a + bs.length)) : mget (putBytesAt m a bs) x = mget m x := by
  induction bs generalizing m a with
  | nil => rfl
  | cons b bs ih =>
    simp only [List.length_cons] at h
    show mget (putBytesAt (putByte m a b) (a + 1) bs) x = mget m x
    rw [ih (by omega), putByte_ne _ (by omega)]

/-- Bytes of the range read what was stored. -/
theorem putBytesAt_inside {m : List Host.Cell} {a i : Nat} {bs : List Byte} (h : Memory.wf m) (hi : i < bs.length) :
    (mget (putBytesAt m a bs) (a + i)).getD 0 = bs.getD i 0 := by
  induction bs generalizing m a i with
  | nil => simp at hi
  | cons b bs ih =>
    show (mget (putBytesAt (putByte m a b) (a + 1) bs) (a + i)).getD 0 = _
    cases i with
    | zero =>
      rw [putBytesAt_outside (by omega)]
      exact putByte_same a b h
    | succ i =>
      have := ih (a := a + 1) (memory_putByte a b h) (by simpa using hi)
      rw [show a + (i + 1) = a + 1 + i by omega, this]
      rfl

end Sys2Proof.Machine
end

