-- ==== Sys2Proof/Laws/WfFlags.lean ====
section
/-!
SUPPORT. Every operation of Machine/Flags.lean keeps the canonical form of memory and registers.
-/

namespace Sys2Proof.Machine

open Sys2Proof

theorem State.setPreg_wf {s : State} {p : Page} {r : Nat} {v : Word} (h_s : State.wf s = true) : State.wf (State.setPreg s p r v) = true := by
  unfold State.setPreg
  repeat' (first
    | with_reducible assumption
    | with_reducible apply State.setReg_wf)

theorem State.putPreg_wf {s : State} {p : Page} {r hi lo v : Nat} (h_s : State.wf s = true) : State.wf (State.putPreg s p r hi lo v) = true := by
  unfold State.putPreg
  repeat' (first
    | with_reducible assumption
    | with_reducible apply State.setPreg_wf)

theorem State.setPreg64_wf {s : State} {p : Page} {lo hi v : Nat} (h_s : State.wf s = true) : State.wf (State.setPreg64 s p lo hi v) = true := by
  unfold State.setPreg64
  repeat' (first
    | with_reducible assumption
    | with_reducible apply State.setPreg_wf)

theorem State.count64_wf {s : State} {p : Page} {lo hi n : Nat} (h_s : State.wf s = true) : State.wf (State.count64 s p lo hi n) = true := by
  unfold State.count64
  repeat' (first
    | with_reducible assumption
    | with_reducible apply State.setPreg64_wf)

theorem State.count_wf {s : State} {p : Page} {r n : Nat} (h_s : State.wf s = true) : State.wf (State.count s p r n) = true := by
  unfold State.count
  repeat' (first
    | with_reducible assumption
    | with_reducible apply State.setPreg_wf)

theorem State.countWrap_wf {s : State} {p : Page} {r n : Nat} (h_s : State.wf s = true) : State.wf (State.countWrap s p r n) = true := by
  unfold State.countWrap
  repeat' (first
    | with_reducible assumption
    | with_reducible apply State.setPreg_wf)

theorem State.emit_wf {s : State} {o : Output} (h_s : State.wf s = true) : State.wf (State.emit s o) = true := by
  unfold State.emit
  repeat' (first
    | with_reducible assumption
    | with_reducible apply wf_mk)

theorem State.useFree_wf {s : State} (h_s : State.wf s = true) : State.wf (State.useFree s) = true := by
  unfold State.useFree
  repeat' (first
    | with_reducible assumption
    | with_reducible apply wf_mk)

theorem State.raise_wf {s : State} {v : Nat} (h_s : State.wf s = true) : State.wf (State.raise s v) = true := by
  unfold State.raise
  repeat' (first
    | with_reducible assumption
    | with_reducible apply wf_ite
    | with_reducible apply State.emit_wf
    | with_reducible apply State.setReg_wf)

theorem State.raiseBits_wf {s : State} {p : Page} {old new : Word} {k : Nat} (h_s : s.wf) : (s.raiseBits p old new k).wf := by
  induction k with
  | zero => exact h_s
  | succ k ih =>
    unfold State.raiseBits
    dsimp only
    split
    · exact State.raise_wf ih
    · exact ih

theorem State.setIrq_wf {s : State} {p : Page} {raw en : Word} (h_s : State.wf s = true) : State.wf (State.setIrq s p raw en) = true := by
  unfold State.setIrq
  repeat' (first
    | with_reducible assumption
    | with_reducible apply State.raiseBits_wf
    | with_reducible apply State.setPreg_wf)

theorem State.irq_wf {s : State} {p : Page} {i : Nat} (h_s : State.wf s = true) : State.wf (State.irq s p i) = true := by
  unfold State.irq
  repeat' (first
    | with_reducible assumption
    | with_reducible apply State.setIrq_wf)

theorem State.unmapped_wf {s : State} (h_s : State.wf s = true) : State.wf (State.unmapped s) = true := by
  unfold State.unmapped
  repeat' (first
    | with_reducible assumption
    | with_reducible apply State.irq_wf
    | with_reducible apply State.setPreg_wf)

theorem State.alertN_wf {s : State} (h_s : State.wf s = true) : State.wf (State.alertN s) = true := by
  unfold State.alertN
  repeat' (first
    | with_reducible assumption
    | with_reducible apply wf_ite
    | with_reducible apply State.emit_wf
    | with_reducible apply wf_mk)

theorem State.pageError_wf {s : State} {p : Page} {code : Nat} (h_s : State.wf s = true) : State.wf (State.pageError s p code) = true := by
  unfold State.pageError
  repeat' (first
    | with_reducible assumption
    | with_reducible apply wf_ite
    | with_reducible apply State.irq_wf
    | with_reducible apply State.setPreg_wf)

theorem State.rearm_wf {s : State} {p : Page} (h_s : State.wf s = true) : State.wf (State.rearm s p) = true := by
  unfold State.rearm
  repeat' (first
    | with_reducible assumption
    | with_reducible apply State.setPreg_wf)

theorem State.logOverflow_wf {s : State} {k : Nat} (h_s : State.wf s = true) : State.wf (State.logOverflow s k) = true := by
  unfold State.logOverflow
  repeat' (first
    | with_reducible assumption
    | with_reducible apply State.count_wf
    | with_reducible apply State.irq_wf)

theorem State.newRecord_wf {s : State} {r : ErrRec} (h_s : State.wf s = true) : State.wf (State.newRecord s r) = true := by
  unfold State.newRecord
  repeat' (first
    | with_reducible assumption
    | with_reducible apply wf_ite
    | with_reducible apply State.alertN_wf
    | with_reducible apply State.irq_wf
    | with_reducible apply State.logOverflow_wf
    | with_reducible apply State.putPreg_wf
    | with_reducible apply State.raise_wf
    | with_reducible apply State.rawWrite_wf
    | with_reducible apply State.setPreg_wf
    | (extract_lets +onlyGivenNames x; refine carry (p := x.canon) ?_ ?_; (on_goal 1 => subst x); (on_goal 2 => clear_value x; intro hx))
    | (extract_lets +onlyGivenNames x; clear_value x)
    | split
    | with_reducible apply wf_mk)

theorem State.repeatRecord_wf {s : State} {o : OpenRec} (h_s : State.wf s = true) : State.wf (State.repeatRecord s o) = true := by
  unfold State.repeatRecord
  repeat' (first
    | with_reducible assumption
    | with_reducible apply State.rawWrite_wf)

theorem State.record_wf {s : State} {r : ErrRec} (h_s : State.wf s = true) : State.wf (State.record s r) = true := by
  unfold State.record
  repeat' (first
    | with_reducible assumption
    | with_reducible apply State.newRecord_wf
    | with_reducible apply State.repeatRecord_wf
    | split)

theorem State.report_wf {s : State} {p : Page} {r : ErrRec} (h_s : State.wf s = true) : State.wf (State.report s p r) = true := by
  unfold State.report
  repeat' (first
    | with_reducible assumption
    | with_reducible apply State.pageError_wf
    | with_reducible apply State.record_wf)

theorem State.refuseReg_wf {s : State} {p : Page} {off : Nat} {v : Word} (h_s : State.wf s = true) : State.wf (State.refuseReg s p off v) = true := by
  unfold State.refuseReg
  repeat' (first
    | with_reducible assumption
    | with_reducible apply State.report_wf)

end Sys2Proof.Machine
end

