-- ==== Sys2Proof/Laws/Irq.lean ====
section
/-!
SUPPORT. What raising a vector and storing an interrupt word can do.
-/

namespace Sys2Proof.Machine

open Sys2Proof

/-- `t` differs from `s` in pending bits of the PBA and in messages sent, and in nothing else. -/
def Messages (s t : State) : Prop :=
  (∀ o : Nat, ¬inPba o → t.reg o = s.reg o) ∧ t.rest = s.rest ∧ ∃ xs : List Output, t.out = xs ++ s.out ∧ ∀ x ∈ xs, ∃ v, x = Output.msix v

theorem Messages.refl (s : State) : Messages s s := ⟨fun _ _ => rfl, rfl, [], rfl, by simp⟩

theorem Messages.trans {s t u : State} (h : Messages s t) (k : Messages t u) : Messages s u := by
  obtain ⟨a, b, xs, c, d⟩ := h
  obtain ⟨a', b', ys, c', d'⟩ := k
  refine ⟨fun o n => (a' o n).trans (a o n), b'.trans b, ys ++ xs, by rw [c', c, List.append_assoc], fun x hx => ?_⟩
  rcases List.mem_append.1 hx with hx | hx
  · exact d' x hx
  · exact d x hx

/-- Raising a vector sends its message or sets its pending bit. -/
theorem State.raise_messages (s : State) (v : Nat) : Messages s (s.raise v) := by
  unfold State.raise
  split
  · exact .refl s
  · rename_i hv
    split
    · exact ⟨fun o _ => State.emit_reg s _ o, rfl, [.msix v], rfl, fun x hx => ⟨v, by simpa using hx⟩⟩
    · refine ⟨fun o ho => State.reg_setReg_ne _ ?_, rfl, [], rfl, by simp⟩
      intro e
      apply ho
      unfold inPba
      omega

theorem State.raiseBits_messages (s : State) (p : Page) (old new : Word) (k : Nat) : Messages s (s.raiseBits p old new k) := by
  induction k with
  | zero => exact .refl s
  | succ k ih =>
    unfold State.raiseBits
    dsimp only
    split
    · exact ih.trans (State.raise_messages _ _)
    · exact ih

/-- A page begins at a multiple of 4 KiB. -/
theorem Page.base_aligned (p : Page) : p.base % 0x1000 = 0 := by
  cases p <;> simp only [Page.base] <;> omega

theorem Page.header_not_pba (p : Page) {r : Nat} (h : r < 0x800) : ¬inPba (p.base + r) := by
  have := p.base_aligned
  unfold inPba
  omega

theorem keysRise_regs {s : State} (h : s.wf = true) : keysRise s.regs = true :=
  (by simpa only [RegFile.wf, Bool.and_eq_true] using wf_regs h : keysRise s.regs = true ∧ _).1

/-- Storing RAW with the page's own EN leaves everything but RAW, pending bits and messages as it was. -/
theorem State.setIrq_raises {s : State} (h : s.wf = true) (p : Page) (raw : Word) : RaisesIrq s (s.setIrq p raw (s.preg p 0x014)) p raw := by
  unfold State.setIrq
  dsimp only
  obtain ⟨a, b, xs, c, d⟩ := State.raiseBits_messages ((s.setPreg p 0x010 raw).setPreg p 0x014 (s.preg p 0x014)) p
    (s.preg p 0x010 &&& s.preg p 0x014) (raw &&& s.preg p 0x014) 32
  have e : ∀ o : Nat, o ≠ p.base + 0x010 → ((s.setPreg p 0x010 raw).setPreg p 0x014 (s.preg p 0x014)).reg o = s.reg o := by
    intro o ho
    by_cases h4 : o = p.base + 0x014
    · subst h4
      exact State.reg_setReg_same _ _ (keysRise_regs (State.setPreg_wf h))
    · rw [State.setPreg, State.reg_setReg_ne _ h4, State.setPreg, State.reg_setReg_ne _ ho]
  refine ⟨?_, fun o ho hp => (a o hp).trans (e o ho), b, xs, c, d⟩
  unfold State.preg at *
  rw [a _ (p.header_not_pba (by decide)), State.setPreg, State.reg_setReg_ne _ (by omega)]
  exact State.reg_setReg_same _ _ (keysRise_regs h)

/-- A register beside the page's interrupt words and the PBA stands when an interrupt bit is set. -/
theorem State.irq_reg_other (s : State) (p : Page) (i : Nat) {o : Nat} (h : o ≠ p.base + 0x010) (h4 : o ≠ p.base + 0x014) (hp : ¬inPba o) :
    (s.irq p i).reg o = s.reg o := by
  unfold State.irq State.setIrq
  dsimp only
  rw [(State.raiseBits_messages _ _ _ _ _).1 o hp, State.setPreg, State.reg_setReg_ne _ h4, State.setPreg, State.reg_setReg_ne _ h]

end Sys2Proof.Machine
end

