-- ==== Sys2Proof/Laws/WfNet.lean ====
section
/-!
SUPPORT. The canonical form under what the Ethernet ports send.
-/

namespace Sys2Proof.Machine

open Sys2Proof

theorem State.ethDrop_wf {s : State} {port : Nat} (h_s : State.wf s = true) : State.wf (State.ethDrop s port) = true := by
  unfold State.ethDrop
  repeat' (first
    | with_reducible assumption
    | with_reducible apply State.count_wf)

theorem State.sendTagged_wf {s : State} {port pcp : Nat} {dest : List Byte} {typ : Nat} {body : List Byte} (h_s : State.wf s = true) : State.wf (State.sendTagged s port pcp dest typ body) = true := by
  unfold State.sendTagged
  repeat' (first
    | with_reducible assumption
    | with_reducible apply wf_ite
    | with_reducible apply State.count64_wf
    | with_reducible apply State.emit_wf
    | (extract_lets +onlyGivenNames x; refine carry (p := x.canon) ?_ ?_; (on_goal 1 => subst x); (on_goal 2 => clear_value x; intro hx))
    | (extract_lets +onlyGivenNames x; clear_value x)
    | split)

theorem State.sendEth_wf {s : State} {port : Nat} {dest : List Byte} {typ : Nat} {body : List Byte} (h_s : State.wf s = true) : State.wf (State.sendEth s port dest typ body) = true := by
  unfold State.sendEth
  repeat' (first
    | with_reducible assumption
    | with_reducible apply State.sendTagged_wf
    | with_reducible apply parkWf_of)

theorem State.learn_wf {s : State} {port : Nat} {addr mac : List Byte} (h_s : State.wf s = true) : State.wf (State.learn s port addr mac) = true := by
  unfold State.learn
  repeat' (first
    | with_reducible assumption
    | (with_reducible intro _; try beta_reduce)
    | with_reducible apply fst_wf
    | with_reducible apply snd_wf
    | (extract_lets +onlyGivenNames x; refine carry (p := x.canon) ?_ ?_; (on_goal 1 => subst x); (on_goal 2 => clear_value x; intro hx))
    | (extract_lets +onlyGivenNames x; refine carry (p := x.1.canon) ?_ ?_; (on_goal 1 => subst x); (on_goal 2 => clear_value x; intro hx))
    | (extract_lets +onlyGivenNames x; clear_value x)
    | with_reducible apply wf_mk)

theorem State.sendUdp_wf {s : State} {port pcp dscp : Nat} {addr : List Byte} {sport dport : Nat} {data : List Byte} (h_s : State.wf s = true) : State.wf (State.sendUdp s port pcp dscp addr sport dport data) = true := by
  unfold State.sendUdp
  repeat' (first
    | with_reducible assumption
    | with_reducible apply wf_ite
    | with_reducible apply State.ethDrop_wf
    | with_reducible apply State.sendTagged_wf
    | with_reducible apply parkWf_of
    | (extract_lets +onlyGivenNames x; refine carry (p := x.canon) ?_ ?_; (on_goal 1 => subst x); (on_goal 2 => clear_value x; intro hx))
    | (extract_lets +onlyGivenNames x; clear_value x)
    | split)

theorem State.sendMgmt_wf {s : State} {port : Nat} {addr : List Byte} {dport : Nat} {data : List Byte} (h_s : State.wf s = true) : State.wf (State.sendMgmt s port addr dport data) = true := by
  unfold State.sendMgmt
  repeat' (first
    | with_reducible assumption
    | with_reducible apply State.sendUdp_wf
    | with_reducible apply parkWf_of)

end Sys2Proof.Machine
end

