-- ==== Sys2Proof/Laws/WfStore.lean ====
section
/-!
SUPPORT. The canonical form under the settings store.
-/

namespace Sys2Proof.Machine

open Sys2Proof

theorem State.setSettings_wf {s : State} {f : Settings → Settings} (h_s : State.wf s = true) : State.wf (State.setSettings s f) = true := by
  unfold State.setSettings
  repeat' (first
    | with_reducible assumption
    | with_reducible apply parkWf_of
    | with_reducible apply wf_mk)

theorem State.putStat_wf {s : State} {i : Nat} {b : Bool} (h_s : State.wf s = true) : State.wf (State.putStat s i b) = true := by
  unfold State.putStat
  repeat' (first
    | with_reducible assumption
    | with_reducible apply State.setPreg_wf
    | with_reducible apply parkWf_of)

theorem State.showSettings_wf {s : State} (h_s : State.wf s = true) : State.wf (State.showSettings s) = true := by
  unfold State.showSettings
  repeat' (first
    | with_reducible assumption
    | with_reducible apply State.putStat_wf
    | with_reducible apply State.setPreg_wf
    | with_reducible apply parkWf_of
    | (extract_lets +onlyGivenNames x; refine carry (p := x.canon) ?_ ?_; (on_goal 1 => subst x); (on_goal 2 => clear_value x; intro hx))
    | (extract_lets +onlyGivenNames x; clear_value x))

theorem State.showWait_wf {s : State} (h_s : State.wf s = true) : State.wf (State.showWait s) = true := by
  unfold State.showWait
  repeat' (first
    | with_reducible assumption
    | with_reducible apply State.putStat_wf
    | with_reducible apply parkWf_of)

theorem State.takeCredit_wf {s : State} (h_s : State.wf s = true) : State.wf (State.takeCredit s) = true := by
  unfold State.takeCredit
  repeat' (first
    | with_reducible assumption
    | with_reducible apply wf_ite
    | with_reducible apply State.putPreg_wf
    | with_reducible apply parkWf_of
    | (extract_lets +onlyGivenNames x; refine carry (p := x.canon) ?_ ?_; (on_goal 1 => subst x); (on_goal 2 => clear_value x; intro hx))
    | (extract_lets +onlyGivenNames x; clear_value x)
    | split)

theorem State.beginPrepare_wf {s : State} {st : List (Nat × Option (List Byte))} {tag : Nat} {inTxn : Bool} (h_s : State.wf s = true) : State.wf (State.beginPrepare s st tag inTxn) = true := by
  unfold State.beginPrepare
  repeat' (first
    | with_reducible assumption
    | (with_reducible intro _; try beta_reduce)
    | with_reducible apply State.setSettings_wf
    | with_reducible apply parkWf_of
    | with_reducible apply wf_mk)

theorem State.putPrepared_wf {s : State} (h_s : State.wf s = true) : State.wf (State.putPrepared s) = true := by
  unfold State.putPrepared
  repeat' (first
    | with_reducible assumption
    | (with_reducible intro _; try beta_reduce)
    | with_reducible apply State.setSettings_wf
    | with_reducible apply parkWf_of
    | with_reducible refine optWf_of (by assumption) ?_
    | with_reducible refine optFst_of (by assumption) ?_
    | with_reducible refine optFst_of2 (by assumption) ?_
    | with_reducible refine fstWf_of (by assumption) ?_
    | with_reducible refine sndWf_of (by assumption) ?_
    | split
    | with_reducible apply wf_mk)

theorem State.markCopy_wf {s : State} (h_s : State.wf s = true) : State.wf (State.markCopy s) = true := by
  unfold State.markCopy
  repeat' (first
    | with_reducible assumption
    | (with_reducible intro _; try beta_reduce)
    | with_reducible apply State.putStat_wf
    | with_reducible apply State.setSettings_wf
    | with_reducible apply parkWf_of
    | with_reducible refine optWf_of (by assumption) ?_
    | with_reducible refine optFst_of (by assumption) ?_
    | with_reducible refine optFst_of2 (by assumption) ?_
    | with_reducible refine fstWf_of (by assumption) ?_
    | with_reducible refine sndWf_of (by assumption) ?_
    | split
    | with_reducible apply wf_mk)

theorem State.dropPrepare_wf {s : State} (h_s : State.wf s = true) : State.wf (State.dropPrepare s) = true := by
  unfold State.dropPrepare
  repeat' (first
    | with_reducible assumption
    | (with_reducible intro _; try beta_reduce)
    | with_reducible apply State.putStat_wf
    | with_reducible apply State.setSettings_wf
    | with_reducible apply parkWf_of
    | with_reducible apply wf_mk)

theorem State.fwNow_wf {s : State} {edits : List (Nat × Option (List Byte))} (h_s : State.wf s = true) : State.wf (State.fwNow s edits) = true := by
  unfold State.fwNow
  repeat' (first
    | with_reducible assumption
    | (with_reducible intro _; try beta_reduce)
    | with_reducible apply State.beginPrepare_wf
    | with_reducible apply State.markCopy_wf
    | with_reducible apply State.setSettings_wf
    | with_reducible apply State.showSettings_wf
    | with_reducible apply parkWf_of
    | with_reducible apply wf_mk)

theorem State.fwCommit_wf {s : State} {edits : List (Nat × Option (List Byte))} (h_s : State.wf s = true) : State.wf (State.fwCommit s edits) = true := by
  unfold State.fwCommit
  repeat' (first
    | with_reducible assumption
    | (with_reducible intro _; try beta_reduce)
    | with_reducible apply wf_ite
    | with_reducible apply State.fwNow_wf
    | with_reducible apply State.setSettings_wf
    | with_reducible apply fst_wf
    | with_reducible apply parkWf_of
    | (extract_lets +onlyGivenNames x; refine carry (p := x.canon) ?_ ?_; (on_goal 1 => subst x); (on_goal 2 => clear_value x; intro hx))
    | (extract_lets +onlyGivenNames x; refine carry (p := x.1.canon) ?_ ?_; (on_goal 1 => subst x); (on_goal 2 => clear_value x; intro hx))
    | (extract_lets +onlyGivenNames x; clear_value x)
    | split
    | with_reducible apply wf_mk)

theorem State.spendCredit_wf {s : State} (h_s : State.wf s = true) : State.wf (State.spendCredit s) = true := by
  unfold State.spendCredit
  repeat' (first
    | with_reducible assumption
    | (with_reducible intro _; try beta_reduce)
    | with_reducible apply State.beginPrepare_wf
    | with_reducible apply State.setSettings_wf
    | with_reducible apply State.takeCredit_wf
    | with_reducible apply parkWf_of
    | (extract_lets +onlyGivenNames x; refine carry (p := x.canon) ?_ ?_; (on_goal 1 => subst x); (on_goal 2 => clear_value x; intro hx))
    | (extract_lets +onlyGivenNames x; clear_value x)
    | with_reducible apply wf_mk)

theorem State.spendTxnCredit_wf {s : State} (h_s : State.wf s = true) : State.wf (State.spendTxnCredit s) = true := by
  unfold State.spendTxnCredit
  repeat' (first
    | with_reducible assumption
    | (with_reducible intro _; try beta_reduce)
    | with_reducible apply State.beginPrepare_wf
    | with_reducible apply State.setSettings_wf
    | with_reducible apply State.takeCredit_wf
    | with_reducible apply parkWf_of
    | (extract_lets +onlyGivenNames x; refine carry (p := x.canon) ?_ ?_; (on_goal 1 => subst x); (on_goal 2 => clear_value x; intro hx))
    | (extract_lets +onlyGivenNames x; clear_value x)
    | with_reducible apply wf_mk)

theorem State.serveStore_wf {s : State} (h_s : State.wf s = true) : State.wf (State.serveStore s) = true := by
  unfold State.serveStore
  repeat' (first
    | with_reducible assumption
    | with_reducible apply wf_ite
    | with_reducible apply State.fwNow_wf
    | with_reducible apply State.showWait_wf
    | with_reducible apply State.spendCredit_wf
    | with_reducible apply State.spendTxnCredit_wf
    | with_reducible apply parkWf_of
    | (extract_lets +onlyGivenNames x; refine carry (p := x.canon) ?_ ?_; (on_goal 1 => subst x); (on_goal 2 => clear_value x; intro hx))
    | (extract_lets +onlyGivenNames x; clear_value x)
    | split)

end Sys2Proof.Machine
end

