-- ==== Sys2Proof/Laws/WfOps.lean ====
section
/-!
SUPPORT. Every operation of Machine/Ops.lean keeps the canonical form of memory and registers.
-/

namespace Sys2Proof.Machine

open Sys2Proof

theorem State.setPoison_wf {s : State} {line : Nat} (h_s : State.wf s = true) : State.wf (State.setPoison s line) = true := by
  unfold State.setPoison
  repeat' (first
    | with_reducible assumption
    | with_reducible apply wf_mk)

theorem State.writePa_wf {s : State} {a : Nat} {bs : List Byte} (h_s : State.wf s = true) : State.wf (State.writePa s a bs) = true := by
  unfold State.writePa
  repeat' (first
    | with_reducible assumption
    | with_reducible apply State.rawWrite_wf
    | (extract_lets +onlyGivenNames x; refine carry (p := x.canon) ?_ ?_; (on_goal 1 => subst x); (on_goal 2 => clear_value x; intro hx))
    | (extract_lets +onlyGivenNames x; clear_value x)
    | with_reducible apply wf_mk)

theorem State.setJob_wf {s : State} {j : Nat} {x : Job} (h_s : State.wf s = true) : State.wf (State.setJob s j x) = true := by
  unfold State.setJob
  repeat' (first
    | with_reducible assumption
    | with_reducible apply wf_mk)

theorem State.modJob_wf {s : State} {j : Nat} {f : Job → Job} (h_s : State.wf s = true) : State.wf (State.modJob s j f) = true := by
  unfold State.modJob
  repeat' (first
    | with_reducible assumption
    | with_reducible apply wf_mk)

theorem State.writePieces_wf {s : State} {l : List (Nat × Nat)} {bs : List Byte} (h_s : s.wf) : (s.writePieces l bs).wf := by
  induction l generalizing s bs with
  | nil => exact h_s
  | cons x l ih => exact ih (State.writePa_wf h_s)

theorem State.writeVa_wf {s : State} {job va : Nat} {bs : List Byte} (h_s : State.wf s = true) : AccWf (State.writeVa s job va bs) := by
  unfold State.writeVa
  repeat' (first
    | with_reducible assumption
    | (with_reducible intro _; try beta_reduce)
    | with_reducible apply State.writePieces_wf
    | with_reducible apply accWf_ok
    | with_reducible apply accAny_bind)

theorem State.served_wf {s : State} {pa n : Nat} (h_s : State.wf s = true) : State.wf (State.served s pa n) = true := by
  unfold State.served
  repeat' (first
    | with_reducible assumption
    | with_reducible apply State.count64_wf
    | split)

theorem State.showMigrate_wf {s : State} (h_s : State.wf s = true) : State.wf (State.showMigrate s) = true := by
  unfold State.showMigrate
  repeat' (first
    | with_reducible assumption
    | (with_reducible intro _; try beta_reduce)
    | with_reducible apply Parker.page_wf
    | with_reducible apply State.setPreg_wf
    | with_reducible apply parkWf_of
    | (extract_lets +onlyGivenNames x; refine carry (p := x.canon) ?_ ?_; (on_goal 1 => subst x); (on_goal 2 => clear_value x; intro hx))
    | (extract_lets +onlyGivenNames x; clear_value x))

theorem State.dropPage_wf {s : State} {page : Nat} (h_s : State.wf s = true) : State.wf (State.dropPage s page) = true := by
  unfold State.dropPage
  repeat' (first
    | with_reducible assumption
    | with_reducible apply Parker.page_wf
    | with_reducible apply wf_mk)

theorem State.setLeaf_wf {s : State} {job vp : Nat} {l : Leaf} (h_s : State.wf s = true) : State.wf (State.setLeaf s job vp l) = true := by
  unfold State.setLeaf
  repeat' (first
    | with_reducible assumption
    | with_reducible apply wf_mk)

theorem State.eachLeaf_wf {s : State} {page : Nat} {f : Leaf → Leaf} (h_s : State.wf s = true) : State.wf (State.eachLeaf s page f) = true := by
  unfold State.eachLeaf
  repeat' (first
    | with_reducible assumption
    | (with_reducible intro _; try beta_reduce)
    | with_reducible apply wf_ite
    | with_reducible apply Parker.page_wf
    | with_reducible apply fst_wf
    | with_reducible apply snd_wf
    | split
    | with_reducible apply wf_mk)

theorem State.queueMove_wf {s : State} {job vp : Nat} {kind : MoveKind} {dest deadline : Nat} (h_s : State.wf s = true) : State.wf (State.queueMove s job vp kind dest deadline) = true := by
  unfold State.queueMove
  repeat' (first
    | with_reducible assumption
    | with_reducible apply wf_ite
    | with_reducible apply Parker.page_wf
    | with_reducible apply State.evacuate_wf
    | with_reducible apply State.showMigrate_wf
    | with_reducible apply parkWf_of
    | with_reducible refine optWf_of (by assumption) ?_
    | with_reducible refine optFst_of (by assumption) ?_
    | with_reducible refine optFst_of2 (by assumption) ?_
    | with_reducible refine fstWf_of (by assumption) ?_
    | with_reducible refine sndWf_of (by assumption) ?_
    | (extract_lets +onlyGivenNames x; refine carry (p := x.canon) ?_ ?_; (on_goal 1 => subst x); (on_goal 2 => clear_value x; intro hx))
    | (extract_lets +onlyGivenNames x; clear_value x)
    | split
    | with_reducible apply wf_mk)

theorem State.abandonMove_wf {s : State} {m : Move} (h_s : State.wf s = true) : State.wf (State.abandonMove s m) = true := by
  unfold State.abandonMove
  repeat' (first
    | with_reducible assumption
    | (with_reducible intro _; try beta_reduce)
    | with_reducible apply wf_ite
    | with_reducible apply Parker.page_wf
    | with_reducible apply State.dropPage_wf
    | with_reducible apply State.eachLeaf_wf
    | with_reducible apply State.showMigrate_wf
    | with_reducible apply parkWf_of
    | with_reducible refine optWf_of (by assumption) ?_
    | with_reducible refine optFst_of (by assumption) ?_
    | with_reducible refine optFst_of2 (by assumption) ?_
    | with_reducible refine fstWf_of (by assumption) ?_
    | with_reducible refine sndWf_of (by assumption) ?_
    | (extract_lets +onlyGivenNames x; refine carry (p := x.canon) ?_ ?_; (on_goal 1 => subst x); (on_goal 2 => clear_value x; intro hx))
    | (extract_lets +onlyGivenNames x; clear_value x)
    | split
    | with_reducible apply wf_mk)

theorem State.touchPage_wf {s : State} {job vp n : Nat} (h_s : State.wf s = true) : State.wf (State.touchPage s job vp n) = true := by
  unfold State.touchPage
  repeat' (first
    | with_reducible assumption
    | (with_reducible intro _; try beta_reduce)
    | with_reducible apply wf_ite
    | with_reducible apply Parker.page_wf
    | with_reducible apply State.abandonMove_wf
    | with_reducible apply State.count_wf
    | with_reducible apply State.queueMove_wf
    | with_reducible apply State.served_wf
    | with_reducible apply getD_wf
    | with_reducible apply getD_wf
    | with_reducible apply parkWf_of
    | with_reducible refine optWf_of (by assumption) ?_
    | with_reducible refine optFst_of (by assumption) ?_
    | with_reducible refine optFst_of2 (by assumption) ?_
    | with_reducible refine fstWf_of (by assumption) ?_
    | with_reducible refine sndWf_of (by assumption) ?_
    | (extract_lets +onlyGivenNames x; refine carry (p := x.canon) ?_ ?_; (on_goal 1 => subst x); (on_goal 2 => clear_value x; intro hx))
    | (extract_lets +onlyGivenNames x; clear_value x)
    | split
    | with_reducible apply wf_mk)

theorem State.touch_wf {s : State} {job va n : Nat} (h_s : State.wf s = true) : State.wf (State.touch s job va n) = true := by
  unfold State.touch
  repeat' (first
    | with_reducible assumption
    | (with_reducible intro _; try beta_reduce)
    | with_reducible apply State.touchPage_wf
    | with_reducible apply foldl_wf)

theorem State.writeBay_wf {s : State} {b off : Nat} {bs : List Byte} (h_s : State.wf s = true) : State.wf (State.writeBay s b off bs) = true := by
  unfold State.writeBay
  repeat' (first
    | with_reducible assumption
    | (extract_lets +onlyGivenNames x; clear_value x)
    | with_reducible apply wf_mk)

theorem State.writeHost_wf {s : State} {a : Nat} {bs : List Byte} (h_s : State.wf s = true) : State.wf (State.writeHost s a bs) = true := by
  unfold State.writeHost
  repeat' (first
    | with_reducible assumption
    | with_reducible apply State.emit_wf
    | with_reducible apply wf_mk)

theorem State.pegIrq_wf {s : State} {p : Nat} (h_s : State.wf s = true) : State.wf (State.pegIrq s p) = true := by
  unfold State.pegIrq
  repeat' (first
    | with_reducible assumption
    | with_reducible apply wf_ite
    | with_reducible apply State.raise_wf
    | with_reducible apply State.setReg_wf)

theorem State.setPeg_wf {s : State} {p v : Nat} (h_s : State.wf s = true) : State.wf (State.setPeg s p v) = true := by
  unfold State.setPeg
  repeat' (first
    | with_reducible assumption
    | with_reducible apply State.pegIrq_wf
    | with_reducible apply State.setReg_wf)

theorem State.pegAdd_wf {s : State} {p n : Nat} (h_s : State.wf s = true) : State.wf (State.pegAdd s p n) = true := by
  unfold State.pegAdd
  repeat' (first
    | with_reducible assumption
    | with_reducible apply State.setPeg_wf)

theorem State.pegLocal_wf {s : State} {p n : Nat} (h_s : State.wf s = true) : State.wf (State.pegLocal s p n) = true := by
  unfold State.pegLocal
  repeat' (first
    | with_reducible assumption
    | with_reducible apply State.count64_wf
    | with_reducible apply State.pegAdd_wf)

theorem State.lastFault_wf {s : State} {code job va unit bay : Nat} (h_s : State.wf s = true) : State.wf (State.lastFault s code job va unit bay) = true := by
  unfold State.lastFault
  repeat' (first
    | with_reducible assumption
    | with_reducible apply State.irq_wf
    | with_reducible apply State.setPreg_wf
    | with_reducible apply State.setPreg64_wf)

end Sys2Proof.Machine
end

