-- ==== Sys2Proof/Laws/WfSend.lean ====
section
/-!
SUPPORT. Every operation of Machine/Send.lean keeps the canonical form of memory and registers.
-/

namespace Sys2Proof.Machine

open Sys2Proof

theorem State.setPort_wf {s : State} {n : Nat} {p : Port} (h_s : State.wf s = true) : State.wf (State.setPort s n p) = true := by
  unfold State.setPort
  repeat' (first
    | with_reducible assumption
    | with_reducible apply wf_mk)

theorem State.modPort_wf {s : State} {n : Nat} {f : Port → Port} (h_s : State.wf s = true) : State.wf (State.modPort s n f) = true := by
  unfold State.modPort
  repeat' (first
    | with_reducible assumption
    | with_reducible apply State.setPort_wf)

theorem State.pumpPort_wf {s : State} {n : Nat} (h_s : State.wf s = true) : State.wf (State.pumpPort s n) = true := by
  unfold State.pumpPort
  repeat' (first
    | with_reducible assumption
    | (with_reducible intro _; try beta_reduce)
    | with_reducible apply wf_ite
    | with_reducible apply State.count64_wf
    | with_reducible apply State.emit_wf
    | with_reducible apply State.setPort_wf
    | with_reducible apply foldl_wf)

theorem State.transmit_wf {s : State} {k : Packet} (h_s : State.wf s = true) : State.wf (State.transmit s k) = true := by
  unfold State.transmit
  repeat' (first
    | with_reducible assumption
    | with_reducible apply wf_ite
    | with_reducible apply State.emit_wf
    | with_reducible apply State.modPort_wf
    | with_reducible apply State.pumpPort_wf
    | split
    | with_reducible apply wf_mk)

theorem State.retryHeld_wf {s : State} (h_s : State.wf s = true) : State.wf (State.retryHeld s) = true := by
  unfold State.retryHeld
  repeat' (first
    | with_reducible assumption
    | (with_reducible intro _; try beta_reduce)
    | with_reducible apply State.transmit_wf
    | with_reducible apply foldl_wf
    | with_reducible apply wf_mk)

theorem State.setFailed_wf {s : State} {j dst code : Nat} (h_s : State.wf s = true) : State.wf (State.setFailed s j dst code) = true := by
  unfold State.setFailed
  repeat' (first
    | with_reducible assumption
    | with_reducible apply State.modJob_wf
    | with_reducible apply State.putPreg_wf)

theorem State.refusalRecord_wf {s : State} {k : Packet} {code : Nat} (h_s : State.wf s = true) : State.wf (State.refusalRecord s k code) = true := by
  unfold State.refusalRecord
  repeat' (first
    | with_reducible assumption
    | with_reducible apply State.report_wf)

theorem State.localRefusal_wf {s : State} {k : Packet} (h_s : State.wf s = true) : State.wf (State.localRefusal s k) = true := by
  unfold State.localRefusal
  repeat' (first
    | with_reducible assumption
    | with_reducible apply State.count_wf
    | with_reducible apply State.irq_wf
    | with_reducible apply State.refusalRecord_wf
    | with_reducible apply State.setFailed_wf)

theorem State.countSent_wf {s : State} {u : UnitId} {k : Packet} (h_s : State.wf s = true) : State.wf (State.countSent s u k) = true := by
  unfold State.countSent
  repeat' (first
    | with_reducible assumption
    | with_reducible apply wf_ite
    | with_reducible apply State.count64_wf
    | split)

theorem State.sendReq_wf {s : State} {u : UnitId} {job : Nat} {k : Packet} (h_s : State.wf s = true) : State.wf (State.sendReq s u job k) = true := by
  unfold State.sendReq
  repeat' (first
    | with_reducible assumption
    | with_reducible apply wf_ite
    | with_reducible apply State.countSent_wf
    | with_reducible apply State.localRefusal_wf
    | with_reducible apply State.transmit_wf
    | with_reducible apply wf_mk)

theorem State.pumpReqs_wf {n : Nat} {s : State} (h_s : s.wf) : (State.pumpReqs n s).wf := by
  induction n generalizing s with
  | zero => exact h_s
  | succ n ih =>
    unfold State.pumpReqs
    split
    · exact h_s
    · split
      · exact ih (State.transmit_wf (State.countSent_wf (wf_mk _ h_s)))
      · exact ih (State.localRefusal_wf (wf_mk _ h_s))

theorem State.pump_wf {s : State} (h_s : State.wf s = true) : State.wf (State.pump s) = true := by
  unfold State.pump
  repeat' (first
    | with_reducible assumption
    | with_reducible apply State.pumpReqs_wf)

theorem State.sendAll_wf {s : State} {u : UnitId} {job : Nat} {ks : List Packet} (h_s : State.wf s = true) : State.wf (State.sendAll s u job ks) = true := by
  unfold State.sendAll
  repeat' (first
    | with_reducible assumption
    | (with_reducible intro _; try beta_reduce)
    | with_reducible apply State.sendReq_wf
    | with_reducible apply foldl_wf)

theorem State.fence_wf {s : State} {u : UnitId} {job : Nat} {dst : FenceDst} {next : List Packet} (h_s : State.wf s = true) : State.wf (State.fence s u job dst next) = true := by
  unfold State.fence
  repeat' (first
    | with_reducible assumption
    | with_reducible apply wf_ite
    | with_reducible apply State.sendAll_wf
    | with_reducible apply wf_mk)

end Sys2Proof.Machine
end

