-- ==== Sys2Proof/Laws/WfRings.lean ====
section
/-!
SUPPORT. Every operation of Machine/Rings.lean keeps the canonical form of memory and registers.
-/

namespace Sys2Proof.Machine

open Sys2Proof

theorem State.adminPut_wf {s : State} {r : List Byte} (h_s : State.wf s = true) : State.wf (State.adminPut s r) = true := by
  unfold State.adminPut
  repeat' (first
    | with_reducible assumption
    | with_reducible apply State.rawWrite_wf
    | (extract_lets +onlyGivenNames x; refine carry (p := x.canon) ?_ ?_; (on_goal 1 => subst x); (on_goal 2 => clear_value x; intro hx))
    | (extract_lets +onlyGivenNames x; clear_value x)
    | split
    | with_reducible apply wf_mk)

theorem State.adminArm_wf {s : State} (h_s : State.wf s = true) : State.wf (State.adminArm s) = true := by
  unfold State.adminArm
  repeat' (first
    | with_reducible assumption
    | with_reducible apply wf_ite
    | with_reducible apply State.raise_wf
    | with_reducible apply wf_mk)

theorem State.cqLost_wf {s : State} {n : Nat} (h_s : State.wf s = true) : State.wf (State.cqLost s n) = true := by
  unfold State.cqLost
  repeat' (first
    | with_reducible assumption
    | with_reducible apply State.count_wf
    | with_reducible apply State.irq_wf
    | with_reducible apply State.report_wf)

theorem State.adminPost_wf {s : State} {rs : List (List Byte)} (h_s : State.wf s = true) : State.wf (State.adminPost s rs) = true := by
  unfold State.adminPost
  repeat' (first
    | with_reducible assumption
    | (with_reducible intro _; try beta_reduce)
    | with_reducible apply wf_ite
    | with_reducible apply State.adminArm_wf
    | with_reducible apply State.adminPut_wf
    | with_reducible apply State.cqLost_wf
    | with_reducible apply foldl_wf
    | with_reducible apply wf_mk)

theorem State.clientPut_wf {s : State} {k : Nat} {r : List Byte} (h_s : State.wf s = true) : OptWf (State.clientPut s k r) := by
  unfold State.clientPut
  repeat' (first
    | with_reducible assumption
    | with_reducible apply State.writeVa_wf
    | with_reducible apply optWf_some
    | with_reducible apply optWf_none
    | with_reducible refine accWf_of (by assumption) ?_
    | (extract_lets +onlyGivenNames x; clear_value x)
    | split
    | with_reducible apply wf_mk)

theorem State.clientArm_wf {s : State} {k : Nat} (h_s : State.wf s = true) : State.wf (State.clientArm s k) = true := by
  unfold State.clientArm
  repeat' (first
    | with_reducible assumption
    | with_reducible apply wf_ite
    | with_reducible apply State.raise_wf
    | split
    | with_reducible apply wf_mk)

theorem State.clientPuts_wf {s : State} {k : Nat} {l : List (List Byte)} (h_s : s.wf) : OptWf (s.clientPuts k l) := by
  induction l generalizing s with
  | nil => exact optWf_some h_s
  | cons x l ih => exact optWf_bind (State.clientPut_wf h_s) (fun _ h => ih h)

theorem State.clientPost_wf {s : State} {k : Nat} {rs : List (List Byte)} (h_s : State.wf s = true) : State.wf (State.clientPost s k rs) = true := by
  unfold State.clientPost
  repeat' (first
    | with_reducible assumption
    | with_reducible apply wf_ite
    | with_reducible apply State.clientArm_wf
    | with_reducible apply State.clientPuts_wf
    | with_reducible apply State.cqLost_wf
    | with_reducible refine optWf_of (by assumption) ?_
    | split
    | with_reducible apply wf_mk)

theorem State.post_wf {s : State} {r : Ring} {rs : List (List Byte)} (h_s : State.wf s = true) : State.wf (State.post s r rs) = true := by
  unfold State.post
  repeat' (first
    | with_reducible assumption
    | with_reducible apply State.adminPost_wf
    | with_reducible apply State.clientPost_wf
    | split)

theorem State.adminDone_wf {s : State} (h_s : State.wf s = true) : State.wf (State.adminDone s) = true := by
  unfold State.adminDone
  repeat' (first
    | with_reducible assumption
    | with_reducible apply wf_mk)

theorem State.endClient_wf {s : State} {c cookie : Nat} (h_s : State.wf s = true) : State.wf (State.endClient s c cookie) = true := by
  unfold State.endClient
  repeat' (first
    | with_reducible assumption
    | with_reducible apply State.adminDone_wf
    | with_reducible apply State.adminPost_wf
    | with_reducible apply wf_mk)

theorem State.reapClient_wf {s : State} {c : Nat} (h_s : State.wf s = true) : State.wf (State.reapClient s c) = true := by
  unfold State.reapClient
  repeat' (first
    | with_reducible assumption
    | (with_reducible intro _; try beta_reduce)
    | with_reducible apply wf_ite
    | with_reducible apply State.endClient_wf
    | with_reducible apply snd_wf
    | with_reducible refine optWf_of (by assumption) ?_
    | with_reducible refine optFst_of (by assumption) ?_
    | with_reducible refine optFst_of2 (by assumption) ?_
    | with_reducible refine fstWf_of (by assumption) ?_
    | with_reducible refine sndWf_of (by assumption) ?_
    | with_reducible refine linesHere_of (by assumption) ?_
    | with_reducible refine linesWaiting_of (by assumption) ?_
    | with_reducible refine linesRefused_of (by assumption) ?_
    | with_reducible refine ranDone_of (by assumption) ?_
    | with_reducible refine ranWait_of (by assumption) ?_
    | split
    | with_reducible apply wf_mk)

theorem State.firstDone_wf {s : State} {r : Ring} (h_s : State.wf s = true) : State.wf (State.firstDone s r) = true := by
  unfold State.firstDone
  repeat' (first
    | with_reducible assumption
    | (with_reducible intro _; try beta_reduce)
    | with_reducible apply State.adminDone_wf
    | with_reducible apply State.reapClient_wf
    | with_reducible apply getD_wf
    | with_reducible apply getD_wf
    | with_reducible refine fstWf_of (by assumption) ?_
    | with_reducible refine sndWf_of (by assumption) ?_
    | with_reducible refine linesHere_of (by assumption) ?_
    | with_reducible refine linesWaiting_of (by assumption) ?_
    | with_reducible refine linesRefused_of (by assumption) ?_
    | with_reducible refine ranDone_of (by assumption) ?_
    | with_reducible refine ranWait_of (by assumption) ?_
    | split
    | with_reducible apply wf_mk)

theorem State.complete_wf {s : State} {e : Entry} {status : Nat} {detail : Nat} {result : List Byte} (h_s : State.wf s = true) : State.wf (State.complete s e status detail result) = true := by
  unfold State.complete
  repeat' (first
    | with_reducible assumption
    | with_reducible apply State.firstDone_wf
    | with_reducible apply State.post_wf)

theorem State.completeLater_wf {s : State} {r : Ring} {opcode cookie status : Nat} {result : List Byte} {first : Bool} {detail : Nat} (h_s : State.wf s = true) : State.wf (State.completeLater s r opcode cookie status result first detail) = true := by
  unfold State.completeLater
  repeat' (first
    | with_reducible assumption
    | with_reducible apply wf_ite
    | with_reducible apply State.firstDone_wf
    | with_reducible apply State.post_wf)

theorem State.advanceHead_wf {s : State} {r : Ring} (h_s : State.wf s = true) : State.wf (State.advanceHead s r) = true := by
  unfold State.advanceHead
  repeat' (first
    | with_reducible assumption
    | with_reducible apply State.putPreg_wf
    | (extract_lets +onlyGivenNames x; refine carry (p := x.canon) ?_ ?_; (on_goal 1 => subst x); (on_goal 2 => clear_value x; intro hx))
    | (extract_lets +onlyGivenNames x; clear_value x)
    | split
    | with_reducible apply wf_mk)

theorem State.takeEntry_wf {s : State} {r : Ring} {op : Nat} (h_s : State.wf s = true) : OptFst (State.takeEntry s r op) := by
  unfold State.takeEntry
  repeat' (first
    | with_reducible assumption
    | with_reducible apply State.advanceHead_wf
    | with_reducible apply State.complete_wf
    | with_reducible apply State.count64_wf
    | with_reducible apply optFst_some
    | with_reducible apply optFst_none
    | with_reducible apply optFst_ite
    | (extract_lets +onlyGivenNames x; refine carry (p := x.canon) ?_ ?_; (on_goal 1 => subst x); (on_goal 2 => clear_value x; intro hx))
    | split)

theorem State.onEntry_wf {s : State} {r : Ring} {op : Nat} {f : State → Entry → State} (h_s : State.wf s = true) (h_f : ∀ (a : State) (b : Entry), State.wf a = true → State.wf (f a b) = true) : State.wf (State.onEntry s r op f) = true := by
  unfold State.onEntry
  repeat' (first
    | with_reducible assumption
    | with_reducible apply h_f
    | with_reducible apply State.takeEntry_wf
    | with_reducible refine optFst_of (by assumption) ?_
    | split)

end Sys2Proof.Machine
end

