-- ==== Sys2Proof/Laws/WfContain.lean ====
section
/-!
SUPPORT. Every operation of Machine/Contain.lean keeps the canonical form of memory and registers.
-/

namespace Sys2Proof.Machine

open Sys2Proof

theorem State.zeroScratch_wf {s : State} {b slot : Nat} (h_s : State.wf s = true) : State.wf (State.zeroScratch s b slot) = true := by
  unfold State.zeroScratch
  repeat' (first
    | with_reducible assumption
    | with_reducible apply parkWf_of
    | with_reducible apply wf_mk)

theorem State.fillScratch_wf {s : State} {b slot job : Nat} (h_s : State.wf s = true) : State.wf (State.fillScratch s b slot job) = true := by
  unfold State.fillScratch
  repeat' (first
    | with_reducible assumption
    | with_reducible apply parkWf_of
    | with_reducible apply wf_mk)

theorem State.showCore_wf {s : State} {b l : Nat} {c : CoreQ} (h_s : State.wf s = true) : State.wf (State.showCore s b l c) = true := by
  unfold State.showCore
  repeat' (first
    | with_reducible assumption
    | with_reducible apply wf_ite
    | with_reducible apply State.setPreg_wf)

theorem State.putCore_wf {s : State} {b l : Nat} {c : CoreQ} (h_s : State.wf s = true) : State.wf (State.putCore s b l c) = true := by
  unfold State.putCore
  repeat' (first
    | with_reducible assumption
    | with_reducible apply State.showCore_wf
    | with_reducible apply wf_mk)

theorem State.setHReg_wf {s : State} {n o : Nat} {v : Word} (h_s : State.wf s = true) : State.wf (State.setHReg s n o v) = true := by
  unfold State.setHReg
  repeat' (first
    | with_reducible assumption
    | with_reducible apply State.setPreg_wf)

theorem State.hIrq_wf {s : State} {n i : Nat} (h_s : State.wf s = true) : State.wf (State.hIrq s n i) = true := by
  unfold State.hIrq
  repeat' (first
    | with_reducible assumption
    | with_reducible apply wf_ite
    | with_reducible apply State.raise_wf
    | with_reducible apply State.setHReg_wf)

theorem State.showHdma_wf {s : State} (h_s : State.wf s = true) : State.wf (State.showHdma s) = true := by
  unfold State.showHdma
  repeat' (first
    | with_reducible assumption
    | with_reducible apply State.setPreg_wf)

theorem State.setHState_wf {s : State} {n st : Nat} (h_s : State.wf s = true) : State.wf (State.setHState s n st) = true := by
  unfold State.setHState
  repeat' (first
    | with_reducible assumption
    | with_reducible apply State.setHReg_wf
    | with_reducible apply State.showHdma_wf)

theorem State.showBayChan_wf {s : State} {b n : Nat} {c : Chan} {st residue : Nat} (h_s : State.wf s = true) : State.wf (State.showBayChan s b n c st residue) = true := by
  unfold State.showBayChan
  repeat' (first
    | with_reducible assumption
    | with_reducible apply State.setPreg_wf)

theorem State.putDove_wf {s : State} {b : Nat} {d : Dove} (h_s : State.wf s = true) : State.wf (State.putDove s b d) = true := by
  unfold State.putDove
  repeat' (first
    | with_reducible assumption
    | with_reducible apply State.setPreg_wf
    | with_reducible apply wf_mk)

theorem State.holdUnit_wf {s : State} {u : UnitId} {job : Nat} {d : List Byte} (h_s : State.wf s = true) : State.wf (State.holdUnit s u job d) = true := by
  unfold State.holdUnit
  repeat' (first
    | with_reducible assumption
    | with_reducible apply wf_mk)

theorem State.dropHeld_wf {s : State} {u : UnitId} (h_s : State.wf s = true) : State.wf (State.dropHeld s u) = true := by
  unfold State.dropHeld
  repeat' (first
    | with_reducible assumption
    | (with_reducible intro _; try beta_reduce)
    | with_reducible apply wf_ite
    | with_reducible apply fst_wf
    | with_reducible apply snd_wf
    | split
    | with_reducible apply wf_mk)

theorem State.account_wf {s : State} {c : Nat} {f : List Byte → List Byte} (h_s : State.wf s = true) : OptWf (State.account s c f) := by
  unfold State.account
  repeat' (first
    | with_reducible assumption
    | with_reducible apply State.writeVa_wf
    | with_reducible apply optWf_some
    | with_reducible apply optWf_none
    | with_reducible refine accWf_of (by assumption) ?_
    | (extract_lets +onlyGivenNames x; clear_value x)
    | split)

theorem State.endRun_wf {s : State} {r : Run} {status : Nat} (h_s : State.wf s = true) : State.wf (State.endRun s r status) = true := by
  unfold State.endRun
  repeat' (first
    | with_reducible assumption
    | with_reducible apply State.completeLater_wf)

theorem State.abandonRuns_wf {s : State} {p : Nat → Bool} {all : Bool} (h_s : State.wf s = true) : State.wf (State.abandonRuns s p all) = true := by
  unfold State.abandonRuns
  repeat' (first
    | with_reducible assumption
    | (with_reducible intro _; try beta_reduce)
    | with_reducible apply State.account_wf
    | with_reducible apply State.endRun_wf
    | with_reducible apply foldl_wf
    | with_reducible apply getD_wf
    | with_reducible apply wf_mk)

theorem State.abandonCores_wf {s : State} {p : Nat → Bool} (h_s : State.wf s = true) : State.wf (State.abandonCores s p) = true := by
  unfold State.abandonCores
  repeat' (first
    | with_reducible assumption
    | (with_reducible intro _; try beta_reduce)
    | with_reducible apply wf_ite
    | with_reducible apply State.putCore_wf
    | with_reducible apply foldl_wf
    | split)

theorem State.abandonDoves_wf {s : State} {p : Nat → Bool} (h_s : State.wf s = true) : State.wf (State.abandonDoves s p) = true := by
  unfold State.abandonDoves
  repeat' (first
    | with_reducible assumption
    | (with_reducible intro _; try beta_reduce)
    | with_reducible apply wf_ite
    | with_reducible apply State.putDove_wf
    | with_reducible apply foldl_wf)

theorem State.abandonChans_wf {s : State} {p : Nat → Bool} (h_s : State.wf s = true) : State.wf (State.abandonChans s p) = true := by
  unfold State.abandonChans
  repeat' (first
    | with_reducible assumption
    | (with_reducible intro _; try beta_reduce)
    | with_reducible apply wf_ite
    | with_reducible apply State.hIrq_wf
    | with_reducible apply State.setHState_wf
    | with_reducible apply State.showBayChan_wf
    | with_reducible apply foldl_wf
    | (extract_lets +onlyGivenNames x; clear_value x)
    | with_reducible apply wf_mk)

theorem State.abandonUnits_wf {s : State} {p : Nat → Bool} (h_s : State.wf s = true) : State.wf (State.abandonUnits s p) = true := by
  unfold State.abandonUnits
  repeat' (first
    | with_reducible assumption
    | with_reducible apply State.abandonChans_wf
    | with_reducible apply State.abandonCores_wf
    | with_reducible apply State.abandonDoves_wf
    | (extract_lets +onlyGivenNames x; refine carry (p := x.canon) ?_ ?_; (on_goal 1 => subst x); (on_goal 2 => clear_value x; intro hx))
    | (extract_lets +onlyGivenNames x; clear_value x)
    | split
    | with_reducible apply wf_mk)

theorem State.sendUrgent_wf {s : State} {job : Nat} {k : Packet} (h_s : State.wf s = true) : State.wf (State.sendUrgent s job k) = true := by
  unfold State.sendUrgent
  repeat' (first
    | with_reducible assumption
    | with_reducible apply wf_ite
    | with_reducible apply State.localRefusal_wf
    | with_reducible apply State.modPort_wf
    | with_reducible apply State.pumpPort_wf
    | (extract_lets +onlyGivenNames x; refine carry (p := x.canon) ?_ ?_; (on_goal 1 => subst x); (on_goal 2 => clear_value x; intro hx))
    | split
    | with_reducible apply wf_mk)

theorem State.sendContain_wf {s : State} {n : Nat} {line : Job → List Byte} (h_s : State.wf s = true) : State.wf (State.sendContain s n line) = true := by
  unfold State.sendContain
  repeat' (first
    | with_reducible assumption
    | (with_reducible intro _; try beta_reduce)
    | with_reducible apply wf_ite
    | with_reducible apply State.sendUrgent_wf
    | with_reducible apply foldl_wf
    | split)

theorem State.showContaining_wf {s : State} (h_s : State.wf s = true) : State.wf (State.showContaining s) = true := by
  unfold State.showContaining
  repeat' (first
    | with_reducible assumption
    | with_reducible apply State.setPreg_wf)

theorem State.suspend_wf {s : State} {n : Nat} (h_s : State.wf s = true) : State.wf (State.suspend s n) = true := by
  unfold State.suspend
  repeat' (first
    | with_reducible assumption
    | with_reducible apply State.abandonRuns_wf
    | with_reducible apply State.modJob_wf
    | with_reducible apply State.putPreg_wf
    | with_reducible apply State.record_wf
    | with_reducible apply State.showContaining_wf)

theorem State.showEpisode_wf {s : State} (h_s : State.wf s = true) : State.wf (State.showEpisode s) = true := by
  unfold State.showEpisode
  repeat' (first
    | with_reducible assumption
    | with_reducible apply State.count_wf
    | with_reducible apply State.irq_wf
    | with_reducible apply State.setPreg_wf)

theorem State.episodeLine_wf {s : State} {n seq ev : Nat} {culprit : Bool} (h_s : State.wf s = true) : State.wf (State.episodeLine s n seq ev culprit) = true := by
  unfold State.episodeLine
  repeat' (first
    | with_reducible assumption
    | with_reducible apply wf_ite
    | with_reducible apply State.setJob_wf
    | with_reducible apply State.showEpisode_wf
    | with_reducible apply State.suspend_wf
    | (extract_lets +onlyGivenNames x; clear_value x)
    | split)

theorem State.containAll_wf {s : State} {code : Nat} {culprit : Option Nat} (h_s : State.wf s = true) : State.wf (State.containAll s code culprit) = true := by
  unfold State.containAll
  repeat' (first
    | with_reducible assumption
    | (with_reducible intro _; try beta_reduce)
    | with_reducible apply wf_ite
    | with_reducible apply State.abandonRuns_wf
    | with_reducible apply State.abandonUnits_wf
    | with_reducible apply State.episodeLine_wf
    | with_reducible apply State.sendContain_wf
    | with_reducible apply State.setJob_wf
    | with_reducible apply foldl_wf
    | (extract_lets +onlyGivenNames x; clear_value x)
    | split
    | with_reducible apply wf_mk)

theorem State.contained_wf {s : State} {p : Page} {r : ErrRec} {culprit : Bool} (h_s : State.wf s = true) : State.wf (State.contained s p r culprit) = true := by
  unfold State.contained
  repeat' (first
    | with_reducible assumption
    | with_reducible apply State.containAll_wf
    | with_reducible apply State.report_wf)

theorem State.containedQuiet_wf {s : State} {code : Nat} {job : Nat} (h_s : State.wf s = true) : State.wf (State.containedQuiet s code job) = true := by
  unfold State.containedQuiet
  repeat' (first
    | with_reducible assumption
    | with_reducible apply State.containAll_wf)

theorem State.transFault_wf {s : State} {code job va unit bay : Nat} (h_s : State.wf s = true) : State.wf (State.transFault s code job va unit bay) = true := by
  unfold State.transFault
  repeat' (first
    | with_reducible assumption
    | with_reducible apply State.contained_wf
    | with_reducible apply State.lastFault_wf)

theorem State.poisonFault_wf {s : State} {job pa va : Nat} (h_s : State.wf s = true) : State.wf (State.poisonFault s job pa va) = true := by
  unfold State.poisonFault
  repeat' (first
    | with_reducible assumption
    | with_reducible apply State.contained_wf)

end Sys2Proof.Machine
end

