-- ==== Sys2Proof/Laws/WfWaits.lean ====
section
/-!
SUPPORT. Every operation of Machine/Waits.lean keeps the canonical form of memory and registers.
-/

namespace Sys2Proof.Machine

open Sys2Proof

theorem State.park_wf {s : State} {u : UnitId} {job vp : Nat} (h_s : State.wf s = true) : State.wf (State.park s u job vp) = true := by
  unfold State.park
  repeat' (first
    | with_reducible assumption
    | with_reducible apply wf_ite
    | with_reducible apply State.count_wf
    | with_reducible apply State.showMigrate_wf
    | split
    | with_reducible apply wf_mk)

theorem State.unpark_wf {s : State} {u : UnitId} (h_s : State.wf s = true) : State.wf (State.unpark s u) = true := by
  unfold State.unpark
  repeat' (first
    | with_reducible assumption
    | with_reducible apply wf_mk)

theorem State.unitFault_wf {s : State} {u : UnitId} {code job va : Nat} (h_s : State.wf s = true) : State.wf (State.unitFault s u code job va) = true := by
  unfold State.unitFault
  repeat' (first
    | with_reducible assumption
    | with_reducible apply State.transFault_wf)

theorem State.unitPoison_wf {s : State} {job pa va : Nat} (h_s : State.wf s = true) : State.wf (State.unitPoison s job pa va) = true := by
  unfold State.unitPoison
  repeat' (first
    | with_reducible assumption
    | with_reducible apply State.contained_wf
    | with_reducible apply State.poisonFault_wf
    | split)

theorem State.rrcFill_wf {s : State} {b k : Nat} {line : List Byte} (h_s : State.wf s = true) : State.wf (State.rrcFill s b k line) = true := by
  unfold State.rrcFill
  repeat' (first
    | with_reducible assumption
    | with_reducible apply wf_ite
    | with_reducible apply State.useFree_wf
    | (extract_lets +onlyGivenNames x; refine carry (p := x.canon) ?_ ?_; (on_goal 1 => subst x); (on_goal 2 => clear_value x; intro hx))
    | (extract_lets +onlyGivenNames x; clear_value x)
    | with_reducible apply wf_mk)

theorem State.staleReads_wf {s : State} {p : Nat → Nat → Bool} (h_s : State.wf s = true) : State.wf (State.staleReads s p) = true := by
  unfold State.staleReads
  repeat' (first
    | with_reducible assumption
    | (with_reducible intro _; try beta_reduce)
    | with_reducible apply wf_ite
    | with_reducible refine fstWf_of (by assumption) ?_
    | with_reducible refine sndWf_of (by assumption) ?_
    | split
    | with_reducible apply wf_mk)

theorem State.store_wf {s : State} {b job addr : Nat} {bs : List Byte} (h_s : State.wf s = true) : AccWf (State.store s b job addr bs) := by
  unfold State.store
  repeat' (first
    | with_reducible assumption
    | with_reducible apply State.writeBay_wf
    | with_reducible apply State.writeVa_wf
    | with_reducible apply accWf_ok
    | split)

theorem State.touchAddr_wf {s : State} {job addr n : Nat} (h_s : State.wf s = true) : State.wf (State.touchAddr s job addr n) = true := by
  unfold State.touchAddr
  repeat' (first
    | with_reducible assumption
    | with_reducible apply wf_ite
    | with_reducible apply State.touch_wf)

end Sys2Proof.Machine
end

