-- ==== Sys2Proof/Laws/WfArena.lean ====
section
/-!
SUPPORT. Every operation of Machine/Arena.lean keeps the canonical form of memory and registers.
-/

namespace Sys2Proof.Machine

open Sys2Proof

theorem State.setStream_wf {s : State} {n : Nat} {x : Stream} (h_s : State.wf s = true) : State.wf (State.setStream s n x) = true := by
  unfold State.setStream
  repeat' (first
    | with_reducible assumption
    | with_reducible apply wf_mk)

theorem State.modStream_wf {s : State} {n : Nat} {f : Stream → Stream} (h_s : State.wf s = true) : State.wf (State.modStream s n f) = true := by
  unfold State.modStream
  repeat' (first
    | with_reducible assumption
    | with_reducible apply wf_mk)

theorem State.degrade_wf {s : State} {n : Nat} (h_s : State.wf s = true) : State.wf (State.degrade s n) = true := by
  unfold State.degrade
  repeat' (first
    | with_reducible assumption
    | with_reducible apply State.modStream_wf)

theorem State.showArena_wf {s : State} {n : Nat} (h_s : State.wf s = true) : State.wf (State.showArena s n) = true := by
  unfold State.showArena
  repeat' (first
    | with_reducible assumption
    | (with_reducible intro _; try beta_reduce)
    | with_reducible apply State.setPreg_wf
    | with_reducible apply foldl_wf)

theorem State.modArena_wf {s : State} {n : Nat} {f : Arena → Arena} (h_s : State.wf s = true) : State.wf (State.modArena s n f) = true := by
  unfold State.modArena
  repeat' (first
    | with_reducible assumption
    | with_reducible apply State.modJob_wf
    | with_reducible apply State.showArena_wf)

theorem State.showLab_wf {s : State} {b : Nat} (h_s : State.wf s = true) : State.wf (State.showLab s b) = true := by
  unfold State.showLab
  repeat' (first
    | with_reducible assumption
    | with_reducible apply State.putPreg_wf)

theorem State.labDrop_wf {s : State} {gone : Nat → Bool} (h_s : State.wf s = true) : State.wf (State.labDrop s gone) = true := by
  unfold State.labDrop
  repeat' (first
    | with_reducible assumption
    | (with_reducible intro _; try beta_reduce)
    | with_reducible apply State.showLab_wf
    | with_reducible apply foldl_wf
    | with_reducible apply wf_mk)

theorem State.setPte_wf {s : State} {k : ListKey} {x : Stream} {hg p v : Nat} (h_s : State.wf s = true) : State.wf (State.setPte s k x hg p v) = true := by
  unfold State.setPte
  repeat' (first
    | with_reducible assumption
    | with_reducible apply State.labDrop_wf
    | with_reducible apply State.writeVa_wf
    | with_reducible refine accWf_of (by assumption) ?_
    | split)

theorem State.zeroPage_wf {s : State} {j : Job} {job : Nat} {f w : Nat} (h_s : State.wf s = true) : AccWf (State.zeroPage s j job f w) := by
  unfold State.zeroPage
  repeat' (first
    | with_reducible assumption
    | (with_reducible intro _; try beta_reduce)
    | with_reducible apply State.writeVa_wf
    | with_reducible apply accWf_ite
    | with_reducible apply accWf_ok
    | with_reducible apply accWf_bind
    | with_reducible apply accAny_bind
    | with_reducible apply accFst_ite
    | with_reducible apply accFst_ok
    | with_reducible apply accFst_bind
    | with_reducible apply parkWf_of)

theorem State.storedState_wf {s : State} {code : Nat} {k : ListKey} {detail : List Byte} {key : Nat} (h_s : State.wf s = true) : State.wf (State.storedState s code k detail key) = true := by
  unfold State.storedState
  repeat' (first
    | with_reducible assumption
    | with_reducible apply State.report_wf)

theorem State.sweepUnits_wf {s : State} (h_s : State.wf s = true) : State.wf (State.sweepUnits s) = true := by
  unfold State.sweepUnits
  repeat' (first
    | with_reducible assumption
    | (extract_lets +onlyGivenNames x; clear_value x)
    | with_reducible apply wf_mk)

theorem State.penOnlyPage_wf {s : State} {k : ListKey} {p : Nat} (h_s : State.wf s = true) : State.wf (State.penOnlyPage s k p) = true := by
  unfold State.penOnlyPage
  repeat' (first
    | with_reducible assumption
    | with_reducible apply State.modStream_wf
    | with_reducible apply State.sweepUnits_wf)

theorem State.losePen_wf {s : State} {k : ListKey} {x : Stream} {hg p pen : Nat} (h_s : State.wf s = true) : State.wf (State.losePen s k x hg p pen) = true := by
  unfold State.losePen
  repeat' (first
    | with_reducible assumption
    | with_reducible apply State.modArena_wf
    | with_reducible apply State.setPte_wf)

theorem State.showStages_wf {s : State} (h_s : State.wf s = true) : State.wf (State.showStages s) = true := by
  unfold State.showStages
  repeat' (first
    | with_reducible assumption
    | (with_reducible intro _; try beta_reduce)
    | with_reducible apply State.setPreg_wf
    | with_reducible apply foldl_wf)

theorem State.issueOne_wf {s : State} {held : List Nat} {g : Stage} (h_s : State.wf s = true) : OptFst (State.issueOne s held g) := by
  unfold State.issueOne
  repeat' (first
    | with_reducible assumption
    | with_reducible apply State.count64_wf
    | with_reducible apply State.modArena_wf
    | with_reducible apply State.useFree_wf
    | with_reducible apply optFst_some
    | with_reducible apply optFst_none
    | with_reducible apply optFst_ite
    | split
    | with_reducible apply wf_mk)

theorem State.issueLoop_wf {s : State} {held : List Nat} {l acc : List Stage} (h_s : s.wf) : (s.issueLoop held l acc).wf := by
  induction l generalizing s held acc with
  | nil => exact wf_mk _ h_s
  | cons g l ih =>
    unfold State.issueLoop
    split
    · exact ih h_s
    · split
      · exact ih (optFst_of (by assumption) (State.issueOne_wf (wf_mk _ h_s)))
      · exact ih h_s

theorem State.issueStages_wf {s : State} (h_s : State.wf s = true) : State.wf (State.issueStages s) = true := by
  unfold State.issueStages
  repeat' (first
    | with_reducible assumption
    | with_reducible apply State.issueLoop_wf
    | with_reducible apply State.showStages_wf)

theorem State.labDropStream_wf {s : State} {job n : Nat} (h_s : State.wf s = true) : State.wf (State.labDropStream s job n) = true := by
  unfold State.labDropStream
  repeat' (first
    | with_reducible assumption
    | (with_reducible intro _; try beta_reduce)
    | with_reducible apply State.labDrop_wf)

theorem State.labDropJob_wf {s : State} {job : Nat} (h_s : State.wf s = true) : State.wf (State.labDropJob s job) = true := by
  unfold State.labDropJob
  repeat' (first
    | with_reducible assumption
    | (with_reducible intro _; try beta_reduce)
    | with_reducible apply State.labDrop_wf
    | with_reducible apply fst_wf)

theorem State.zeroTail_wf {s : State} {k : ListKey} {x : Stream} {j : Job} {p pen f w : Nat} (h_s : State.wf s = true) : State.wf (State.zeroTail s k x j p pen f w) = true := by
  unfold State.zeroTail
  repeat' (first
    | with_reducible assumption
    | (with_reducible intro _; try beta_reduce)
    | with_reducible apply State.degrade_wf
    | with_reducible apply State.modArena_wf
    | with_reducible apply State.modStream_wf
    | with_reducible apply State.setPte_wf
    | with_reducible apply State.sweepUnits_wf
    | with_reducible apply State.zeroPage_wf
    | with_reducible apply fst_wf
    | with_reducible apply parkWf_of
    | with_reducible refine accWf_of (by assumption) ?_
    | with_reducible refine accFst_of (by assumption) ?_
    | with_reducible refine fstWf_of (by assumption) ?_
    | with_reducible refine sndWf_of (by assumption) ?_
    | (extract_lets +onlyGivenNames x; refine carry (p := x.canon) ?_ ?_; (on_goal 1 => subst x); (on_goal 2 => clear_value x; intro hx))
    | (extract_lets +onlyGivenNames x; refine carry (p := x.1.canon) ?_ ?_; (on_goal 1 => subst x); (on_goal 2 => clear_value x; intro hx))
    | (extract_lets +onlyGivenNames x; clear_value x)
    | split
    | with_reducible apply wf_mk)

theorem State.askStage_wf {s : State} {bay : Nat} {k : ListKey} {x : Stream} {j : Job} {p pen : Nat} {kv8 : Bool} {deadline origin : Nat} (h_s : State.wf s = true) : AccFst (State.askStage s bay k x j p pen kv8 deadline origin) := by
  unfold State.askStage
  repeat' (first
    | with_reducible assumption
    | (with_reducible intro _; try beta_reduce)
    | with_reducible apply wf_ite
    | with_reducible apply State.degrade_wf
    | with_reducible apply State.issueStages_wf
    | with_reducible apply State.losePen_wf
    | with_reducible apply State.modArena_wf
    | with_reducible apply State.penOnlyPage_wf
    | with_reducible apply State.storedState_wf
    | with_reducible apply State.useFree_wf
    | with_reducible apply State.zeroTail_wf
    | with_reducible apply accWf_ite
    | with_reducible apply accWf_ok
    | with_reducible apply accWf_bind
    | with_reducible apply accAny_bind
    | with_reducible apply accFst_ite
    | with_reducible apply accFst_ok
    | with_reducible apply accFst_bind
    | with_reducible apply fstWf_ite
    | with_reducible apply fstWf_mk
    | with_reducible apply sndWf_ite
    | with_reducible apply sndWf_mk
    | with_reducible apply parkWf_of
    | with_reducible refine optWf_of (by assumption) ?_
    | with_reducible refine accWf_of (by assumption) ?_
    | with_reducible refine accFst_of (by assumption) ?_
    | with_reducible refine optFst_of (by assumption) ?_
    | with_reducible refine optFst_of2 (by assumption) ?_
    | with_reducible refine fstWf_of (by assumption) ?_
    | with_reducible refine sndWf_of (by assumption) ?_
    | (extract_lets +onlyGivenNames x; refine carry (p := x.canon) ?_ ?_; (on_goal 1 => subst x); (on_goal 2 => clear_value x; intro hx))
    | (extract_lets +onlyGivenNames x; clear_value x)
    | split
    | with_reducible apply wf_mk)

end Sys2Proof.Machine
end

