-- ==== Sys2Proof/Laws/WfAttention.lean ====
section
/-!
SUPPORT. Every operation of Machine/Attention.lean keeps the canonical form of memory and registers.
-/

namespace Sys2Proof.Machine

open Sys2Proof

theorem State.modPass_wf {s : State} {job : Nat} {f : Pass → Pass} (h_s : State.wf s = true) : State.wf (State.modPass s job f) = true := by
  unfold State.modPass
  repeat' (first
    | with_reducible assumption
    | with_reducible apply State.modJob_wf)

theorem State.waitFor_wf {s : State} {b l : Nat} {key : Nat} (h_s : State.wf s = true) : State.wf (State.waitFor s b l key) = true := by
  unfold State.waitFor
  repeat' (first
    | with_reducible assumption
    | with_reducible apply State.putCore_wf)

theorem State.noteLog_wf {s : State} {k : ListKey} {p v : Nat} (h_s : State.wf s = true) : State.wf (State.noteLog s k p v) = true := by
  unfold State.noteLog
  repeat' (first
    | with_reducible assumption
    | (with_reducible intro _; try beta_reduce)
    | with_reducible apply State.modPass_wf
    | with_reducible apply wf_mk)

theorem State.penFails_wf {s : State} {k : ListKey} {p deadline : Nat} {kv8 : Bool} (h_s : State.wf s = true) : State.wf (State.penFails s k p deadline kv8) = true := by
  unfold State.penFails
  repeat' (first
    | with_reducible assumption
    | with_reducible apply State.storedState_wf
    | with_reducible apply parkWf_of)

theorem visitFull_wf {v : Visit} {u : UnitId} {j : Job} {k : ListKey} {x : Stream} {kv8 : Bool} {p e : Nat} {next : Visit → Ran} (h_v : v.s.wf)
    (h_next : ∀ v : Visit, v.s.wf → RanWf (next v)) : RanWf (visitFull v u j k x kv8 p e next) :=
  ran_any (fun _ => h_next _ h_v)

theorem visitPage_wf {v : Visit} {b l : Nat} {u : UnitId} {j : Job} {d : List Byte} {k : ListKey} {x : Stream} {kv8 : Bool} {p : Nat}
    {next : Visit → Ran} (h_v : v.s.wf) (h_next : ∀ v : Visit, v.s.wf → RanWf (next v)) :
    RanWf (visitPage v b l u j d k x kv8 p next) := by
  unfold visitPage
  refine ran_any (fun mva => ?_)
  split
  · exact ranWf_scribe
  · refine ran_any (fun e => ?_)
    split
    · exact ranWf_scribe
    · dsimp only
      split
      · split
        · refine ran_any (fun w => ?_)
          split
          · exact h_next _ h_v
          · exact visitFull_wf (State.noteLog_wf (State.penFails_wf h_v)) h_next
        · exact visitFull_wf h_v h_next
      · split
        · exact h_next _ (State.degrade_wf h_v)
        · refine ran_any (fun w => ?_)
          split
          · exact h_next _ (State.degrade_wf h_v)
          · exact h_next _ (State.penFails_wf (State.losePen_wf (State.degrade_wf h_v)))
      · refine ran_accFst (State.askStage_wf h_v) (fun r hr => ?_)
        split
        · exact h_next _ hr
        · split
          · refine ran_any (fun w => ?_)
            split
            · exact h_next _ hr
            · exact ranWf_wait (State.waitFor_wf (State.noteLog_wf (State.penFails_wf hr)))
          · exact ranWf_wait (State.waitFor_wf hr)
          · split
            · refine ran_any (fun w => ?_)
              split
              · exact h_next _ (State.irq_wf (State.noteLog_wf hr))
              · exact ranWf_wait (State.waitFor_wf (State.noteLog_wf (State.penFails_wf hr)))
            · exact ranWf_wait (State.waitFor_wf hr)

theorem visitPages_wf {b l : Nat} {u : UnitId} {j : Job} {d : List Byte} {k : ListKey} {x : Stream} {kv8 : Bool} {n p : Nat} {v : Visit}
    {next : Visit → Ran} (h_v : v.s.wf) (h_next : ∀ v : Visit, v.s.wf → RanWf (next v)) :
    RanWf (visitPages b l u j d k x kv8 n p v next) := by
  induction n generalizing p v with
  | zero => exact h_next v h_v
  | succ n ih => exact visitPage_wf h_v (fun v h => ih h)

theorem State.writeSlot_wf {s : State} {j : Job} {job : Nat} {ref kv8 : Bool} {f t : Nat} {kv : List Byte} (h_s : State.wf s = true) : AccWf (State.writeSlot s j job ref kv8 f t kv) := by
  unfold State.writeSlot
  repeat' (first
    | with_reducible assumption
    | (with_reducible intro _; try beta_reduce)
    | with_reducible apply wf_ite
    | with_reducible apply State.writeVa_wf
    | with_reducible apply accWf_ite
    | with_reducible apply accWf_ok
    | with_reducible apply accWf_bind
    | with_reducible apply accAny_bind
    | with_reducible apply accFst_ite
    | with_reducible apply accFst_ok
    | with_reducible apply accFst_bind
    | with_reducible apply fst_wf
    | with_reducible apply snd_wf
    | with_reducible apply parkWf_of
    | (extract_lets +onlyGivenNames x; refine carry (p := x.canon) ?_ ?_; (on_goal 1 => subst x); (on_goal 2 => clear_value x; intro hx))
    | (extract_lets +onlyGivenNames x; refine carry (p := x.1.canon) ?_ ?_; (on_goal 1 => subst x); (on_goal 2 => clear_value x; intro hx))
    | (extract_lets +onlyGivenNames x; clear_value x)
    | split)

theorem State.append_wf {s : State} {b : Nat} {k : ListKey} {x : Stream} {ref kv8 : Bool} {kv : List Byte} (h_s : State.wf s = true) : AccWf (State.append s b k x ref kv8 kv) := by
  unfold State.append
  repeat' (first
    | with_reducible assumption
    | (with_reducible intro _; try beta_reduce)
    | with_reducible apply wf_ite
    | with_reducible apply State.count64_wf
    | with_reducible apply State.modArena_wf
    | with_reducible apply State.modStream_wf
    | with_reducible apply State.setPte_wf
    | with_reducible apply State.writeSlot_wf
    | with_reducible apply State.zeroPage_wf
    | with_reducible apply accWf_ite
    | with_reducible apply accWf_ok
    | with_reducible apply accWf_bind
    | with_reducible apply accAny_bind
    | with_reducible apply accFst_ite
    | with_reducible apply accFst_ok
    | with_reducible apply accFst_bind
    | with_reducible apply parkWf_of
    | with_reducible refine optWf_of (by assumption) ?_
    | with_reducible refine accWf_of (by assumption) ?_
    | with_reducible refine accFst_of (by assumption) ?_
    | with_reducible refine optFst_of (by assumption) ?_
    | with_reducible refine optFst_of2 (by assumption) ?_
    | with_reducible refine fstWf_of (by assumption) ?_
    | with_reducible refine sndWf_of (by assumption) ?_
    | (extract_lets +onlyGivenNames x; refine carry (p := x.canon) ?_ ?_; (on_goal 1 => subst x); (on_goal 2 => clear_value x; intro hx))
    | (extract_lets +onlyGivenNames x; clear_value x)
    | split
    | with_reducible apply wf_mk)

theorem attnPairsRun_wf {b l : Nat} {u : UnitId} {j : Job} {d q kv : List Byte} {ps : List (Nat × Nat × ListKey)} {v : Visit} {out : List Byte}
    {t : Trouble} {next : Visit → List Byte → Trouble → Ran} (h_v : v.s.wf)
    (h_next : ∀ (v : Visit) (o : List Byte) (t : Trouble), v.s.wf → RanWf (next v o t)) :
    RanWf (attnPairsRun b l u j d q kv ps v out t next) := by
  induction ps generalizing v out t with
  | nil => exact h_next v out t h_v
  | cons g ps ih =>
    unfold attnPairsRun
    split
    · exact ranWf_scribe
    · refine visitPages_wf h_v (fun v h => ?_)
      refine ranWf_ite (ran_any (fun e => ?_)) (ih h)
      split
      · exact ranWf_scribe
      · exact ih (by split <;> exact h)

theorem State.appendAll_wf {s : State} {b : Nat} {d kv : List Byte} {l : List (Nat × Nat × ListKey)} (h_s : s.wf) :
    AccWf (s.appendAll b d kv l) := by
  induction l generalizing s with
  | nil => exact accWf_ok h_s
  | cons g l ih =>
    unfold State.appendAll
    split
    · exact ih h_s
    · exact accWf_bind (State.append_wf h_s) (fun _ h => ih h)

theorem State.labLooks_wf {s : State} {b : Nat} {keys : List Nat} (h_s : State.wf s = true) : State.wf (State.labLooks s b keys) = true := by
  unfold State.labLooks
  repeat' (first
    | with_reducible assumption
    | with_reducible apply State.count64_wf
    | with_reducible apply State.showLab_wf
    | with_reducible apply wf_mk)

theorem State.notePass_wf {s : State} {b job : Nat} {v : Visit} (h_s : State.wf s = true) (h_v : v.s.wf) : State.wf (State.notePass s b job v) = true := by
  unfold State.notePass
  repeat' (first
    | with_reducible assumption
    | with_reducible apply State.modPass_wf)

theorem State.attnRun_wf {s : State} {b l job : Nat} {d : List Byte} {streams : List Nat} {qs kv : List Byte} (h_s : State.wf s = true) : RanWf (State.attnRun s b l job d streams qs kv) := by
  unfold State.attnRun
  repeat' (first
    | with_reducible assumption
    | (with_reducible intro _; try beta_reduce)
    | with_reducible apply State.appendAll_wf
    | with_reducible apply State.labLooks_wf
    | with_reducible apply State.notePass_wf
    | with_reducible apply State.store_wf
    | with_reducible apply State.touch_wf
    | with_reducible apply State.touchAddr_wf
    | with_reducible apply attnPairsRun_wf
    | with_reducible apply foldl_wf
    | with_reducible apply ranWf_done
    | with_reducible apply ranWf_bad
    | with_reducible apply ranWf_scribe
    | with_reducible apply ranWf_ite
    | with_reducible apply ran_acc
    | with_reducible apply ran_any
    | (extract_lets +onlyGivenNames x; clear_value x)
    | split)

end Sys2Proof.Machine
end

