-- ==== Sys2Proof/Laws/WfSlots.lean ====
section
/-!
SUPPORT. Every operation of Machine/Slots.lean keeps the canonical form of memory and registers.
-/

namespace Sys2Proof.Machine

open Sys2Proof

theorem State.clockRead_wf {s : State} {p : Page} {lo : Nat} {clears : Bool} (h_s : State.wf s = true) : State.wf (State.clockRead s p lo clears) = true := by
  unfold State.clockRead
  repeat' (first
    | with_reducible assumption
    | with_reducible apply wf_ite
    | with_reducible apply State.useFree_wf
    | split
    | with_reducible apply wf_mk)

theorem State.setSlotState_wf {s : State} {b slot v : Nat} (h_s : State.wf s = true) : State.wf (State.setSlotState s b slot v) = true := by
  unfold State.setSlotState
  repeat' (first
    | with_reducible assumption
    | with_reducible apply wf_ite
    | with_reducible apply State.putPreg_wf)

theorem State.showCapacity_wf {s : State} (h_s : State.wf s = true) : State.wf (State.showCapacity s) = true := by
  unfold State.showCapacity
  repeat' (first
    | with_reducible assumption
    | with_reducible apply State.setPreg_wf)

theorem State.gateBays_wf {s : State} (h_s : State.wf s = true) : State.wf (State.gateBays s) = true := by
  unfold State.gateBays
  repeat' (first
    | with_reducible assumption
    | with_reducible apply wf_ite
    | with_reducible apply State.irq_wf
    | with_reducible apply State.putPreg_wf
    | with_reducible apply State.showCapacity_wf
    | with_reducible apply wf_mk)

theorem State.failSlot_wf {s : State} {b slot : Nat} (h_s : State.wf s = true) : State.wf (State.failSlot s b slot) = true := by
  unfold State.failSlot
  repeat' (first
    | with_reducible assumption
    | with_reducible apply wf_ite
    | with_reducible apply State.clockRead_wf
    | with_reducible apply State.fwCommit_wf
    | with_reducible apply State.irq_wf
    | with_reducible apply State.putPreg_wf
    | with_reducible apply State.setSlotState_wf
    | with_reducible apply State.showCapacity_wf
    | with_reducible apply State.zeroScratch_wf
    | with_reducible apply parkWf_of
    | (extract_lets +onlyGivenNames x; refine carry (p := x.canon) ?_ ?_; (on_goal 1 => subst x); (on_goal 2 => clear_value x; intro hx))
    | (extract_lets +onlyGivenNames x; clear_value x)
    | split
    | with_reducible apply wf_mk)

theorem State.mapSlot_wf {s : State} {b l slot : Nat} (h_s : State.wf s = true) : State.wf (State.mapSlot s b l slot) = true := by
  unfold State.mapSlot
  repeat' (first
    | with_reducible assumption
    | with_reducible apply wf_ite
    | with_reducible apply State.putCore_wf
    | with_reducible apply State.putPreg_wf
    | with_reducible apply State.setSlotState_wf)

theorem State.withdrawBay_wf {s : State} {b : Nat} (h_s : State.wf s = true) : State.wf (State.withdrawBay s b) = true := by
  unfold State.withdrawBay
  repeat' (first
    | with_reducible assumption
    | (with_reducible intro _; try beta_reduce)
    | with_reducible apply wf_ite
    | with_reducible apply State.irq_wf
    | with_reducible apply State.putPreg_wf
    | with_reducible apply State.setPreg_wf
    | with_reducible apply State.setSlotState_wf
    | with_reducible apply State.showCapacity_wf
    | with_reducible apply State.zeroScratch_wf
    | with_reducible apply foldl_wf
    | with_reducible apply foldl_wf
    | with_reducible apply fst_wf
    | with_reducible apply parkWf_of
    | with_reducible apply foldl_park
    | (extract_lets +onlyGivenNames x; refine carry (p := x.canon) ?_ ?_; (on_goal 1 => subst x); (on_goal 2 => clear_value x; intro hx))
    | (extract_lets +onlyGivenNames x; refine carry (p := x.1.canon) ?_ ?_; (on_goal 1 => subst x); (on_goal 2 => clear_value x; intro hx))
    | (extract_lets +onlyGivenNames x; clear_value x)
    | split
    | with_reducible apply wf_mk)

theorem State.remapBay_wf {s : State} {b : Nat} (h_s : State.wf s = true) : State.wf (State.remapBay s b) = true := by
  unfold State.remapBay
  repeat' (first
    | with_reducible assumption
    | (with_reducible intro _; try beta_reduce)
    | with_reducible apply wf_ite
    | with_reducible apply State.mapSlot_wf
    | with_reducible apply State.putPreg_wf
    | with_reducible apply State.withdrawBay_wf
    | with_reducible apply foldl_wf
    | split)

theorem State.remap_wf {s : State} (h_s : State.wf s = true) : State.wf (State.remap s) = true := by
  unfold State.remap
  repeat' (first
    | with_reducible assumption
    | (with_reducible intro _; try beta_reduce)
    | with_reducible apply State.remapBay_wf
    | with_reducible apply foldl_wf)

end Sys2Proof.Machine
end

