-- ==== Sys2Proof/Laws/WfCores.lean ====
section
/-!
SUPPORT. Every operation of Machine/Cores.lean keeps the canonical form of memory and registers.
-/

namespace Sys2Proof.Machine

open Sys2Proof

theorem State.bringLines_wf {s : State} {u : UnitId} {b job : Nat} {cached : Bool} {l : List (Nat × Nat)} {lines : List (Nat × List Byte)} {miss : Bool}
    (h_s : s.wf) : LinesWf (s.bringLines u b job cached l lines miss) := by
  induction l generalizing s lines miss with
  | nil => exact linesWf_ite (linesWf_waiting h_s) (linesWf_here h_s)
  | cons x l ih =>
    unfold State.bringLines
    refine linesWf_ite (ih h_s) ?_
    split
    · exact ih (State.count64_wf h_s)
    · exact linesWf_ite (ih h_s) (linesWf_ite (linesWf_refused (State.sendReq_wf h_s)) (ih (State.sendReq_wf h_s)))

theorem State.withLines_wf {s : State} {b l job : Nat} {xs : List (Nat × Nat)} {next : State → List (Nat × List Byte) → Ran} (h_s : State.wf s = true) (h_next : ∀ (a : State) (b : List (Nat × List Byte)), State.wf a = true → RanWf (next a b)) : RanWf (State.withLines s b l job xs next) := by
  unfold State.withLines
  repeat' (first
    | with_reducible assumption
    | with_reducible apply h_next
    | with_reducible apply State.bringLines_wf
    | with_reducible apply State.containedQuiet_wf
    | with_reducible apply State.putCore_wf
    | with_reducible apply ranWf_wait
    | with_reducible refine linesHere_of (by assumption) ?_
    | with_reducible refine linesWaiting_of (by assumption) ?_
    | with_reducible refine linesRefused_of (by assumption) ?_
    | (extract_lets +onlyGivenNames x; clear_value x)
    | split)

theorem State.plainRun_wf {s : State} {b l job : Nat} {d : List Byte} {e : Eff} {r : Option Recipe} (h_s : State.wf s = true) : RanWf (State.plainRun s b l job d e r) := by
  unfold State.plainRun
  repeat' (first
    | with_reducible assumption
    | (with_reducible intro _; try beta_reduce)
    | with_reducible apply State.store_wf
    | with_reducible apply State.touchAddr_wf
    | with_reducible apply State.withLines_wf
    | with_reducible apply foldl_wf
    | with_reducible apply ranWf_done
    | with_reducible apply ran_acc
    | with_reducible apply ran_any
    | (extract_lets +onlyGivenNames x; clear_value x)
    | split)

theorem State.gatherRun_wf {s : State} {b l job : Nat} {d : List Byte} (h_s : State.wf s = true) : RanWf (State.gatherRun s b l job d) := by
  unfold State.gatherRun
  repeat' (first
    | with_reducible assumption
    | (with_reducible intro _; try beta_reduce)
    | with_reducible apply State.count_wf
    | with_reducible apply State.store_wf
    | with_reducible apply State.touchAddr_wf
    | with_reducible apply State.withLines_wf
    | with_reducible apply foldl_wf
    | with_reducible apply ranWf_done
    | with_reducible apply ran_acc
    | with_reducible apply ran_any)

theorem State.runCmd_wf {s : State} {b l job : Nat} {d : List Byte} (h_s : State.wf s = true) : RanWf (State.runCmd s b l job d) := by
  unfold State.runCmd
  repeat' (first
    | with_reducible assumption
    | (with_reducible intro _; try beta_reduce)
    | with_reducible apply State.attnRun_wf
    | with_reducible apply State.gatherRun_wf
    | with_reducible apply State.plainRun_wf
    | with_reducible apply State.touchAddr_wf
    | with_reducible apply State.withLines_wf
    | with_reducible apply foldl_wf
    | with_reducible apply ranWf_done
    | with_reducible apply ranWf_illegal
    | with_reducible apply ranWf_ite
    | with_reducible apply ran_any
    | (extract_lets +onlyGivenNames x; clear_value x)
    | split)

theorem State.illegalCmd_wf {s : State} {b l job : Nat} {d : List Byte} {code : Nat} (h_s : State.wf s = true) : State.wf (State.illegalCmd s b l job d code) = true := by
  unfold State.illegalCmd
  repeat' (first
    | with_reducible assumption
    | with_reducible apply State.contained_wf
    | with_reducible apply State.putCore_wf
    | with_reducible apply State.setPreg_wf)

theorem State.scribeFault_wf {s : State} {b l : Nat} {d : List Byte} {code : Nat} {k : ListKey} {page : Nat} (h_s : State.wf s = true) : State.wf (State.scribeFault s b l d code k page) = true := by
  unfold State.scribeFault
  repeat' (first
    | with_reducible assumption
    | with_reducible apply State.contained_wf
    | with_reducible apply State.putCore_wf
    | with_reducible apply State.setPreg_wf)

theorem State.trouble_wf {s : State} {job idx : Nat} {t : Trouble} (h_s : State.wf s = true) : State.wf (State.trouble s job idx t) = true := by
  unfold State.trouble
  repeat' (first
    | with_reducible assumption
    | with_reducible apply wf_ite
    | with_reducible apply State.modPass_wf)

theorem State.runHead_wf {s : State} {b l job : Nat} {d : List Byte} (h_s : State.wf s = true) : State.wf (State.runHead s b l job d) = true := by
  unfold State.runHead
  repeat' (first
    | with_reducible assumption
    | with_reducible apply State.illegalCmd_wf
    | with_reducible apply State.park_wf
    | with_reducible apply State.putCore_wf
    | with_reducible apply State.runCmd_wf
    | with_reducible apply State.scribeFault_wf
    | with_reducible apply State.trouble_wf
    | with_reducible apply State.unitFault_wf
    | with_reducible apply State.unitPoison_wf
    | with_reducible refine ranDone_of (by assumption) ?_
    | with_reducible refine ranWait_of (by assumption) ?_
    | (extract_lets +onlyGivenNames x; clear_value x)
    | split)

theorem State.headStep_wf {s : State} {b l : Nat} (h_s : State.wf s = true) : State.wf (State.headStep s b l) = true := by
  unfold State.headStep
  repeat' (first
    | with_reducible assumption
    | (with_reducible intro _; try beta_reduce)
    | with_reducible apply wf_ite
    | with_reducible apply State.fillScratch_wf
    | with_reducible apply State.illegalCmd_wf
    | with_reducible apply State.putCore_wf
    | with_reducible apply State.runHead_wf
    | with_reducible apply State.zeroScratch_wf
    | with_reducible apply parkWf_of
    | with_reducible refine optWf_of (by assumption) ?_
    | with_reducible refine optFst_of (by assumption) ?_
    | with_reducible refine optFst_of2 (by assumption) ?_
    | with_reducible refine fstWf_of (by assumption) ?_
    | with_reducible refine sndWf_of (by assumption) ?_
    | with_reducible refine ranDone_of (by assumption) ?_
    | with_reducible refine ranWait_of (by assumption) ?_
    | (extract_lets +onlyGivenNames x; refine carry (p := x.canon) ?_ ?_; (on_goal 1 => subst x); (on_goal 2 => clear_value x; intro hx))
    | (extract_lets +onlyGivenNames x; clear_value x)
    | split
    | with_reducible apply wf_mk)

theorem State.enqueue_wf {s : State} {b l job : Nat} {d : List Byte} (h_s : State.wf s = true) : State.wf (State.enqueue s b l job d) = true := by
  unfold State.enqueue
  repeat' (first
    | with_reducible assumption
    | with_reducible apply wf_ite
    | with_reducible apply State.count64_wf
    | with_reducible apply State.headStep_wf
    | with_reducible apply State.putCore_wf)

theorem State.noteFirst_wf {s : State} (h_s : State.wf s = true) : State.wf (State.noteFirst s) = true := by
  unfold State.noteFirst
  repeat' (first
    | with_reducible assumption
    | split
    | with_reducible apply wf_mk)

theorem State.issueAt_wf {s : State} {b l job : Nat} {d : List Byte} (h_s : State.wf s = true) : State.wf (State.issueAt s b l job d) = true := by
  unfold State.issueAt
  repeat' (first
    | with_reducible assumption
    | (with_reducible intro _; try beta_reduce)
    | with_reducible apply wf_ite
    | with_reducible apply State.enqueue_wf
    | with_reducible apply State.noteFirst_wf
    | with_reducible apply getD_wf
    | with_reducible apply getD_wf
    | with_reducible apply fst_wf
    | (extract_lets +onlyGivenNames x; refine carry (p := x.canon) ?_ ?_; (on_goal 1 => subst x); (on_goal 2 => clear_value x; intro hx))
    | (extract_lets +onlyGivenNames x; refine carry (p := x.1.canon) ?_ ?_; (on_goal 1 => subst x); (on_goal 2 => clear_value x; intro hx))
    | (extract_lets +onlyGivenNames x; clear_value x)
    | split
    | with_reducible apply wf_mk)

theorem State.issue_wf {s : State} {b l : Nat} {d : List Byte} (h_s : State.wf s = true) : State.wf (State.issue s b l d) = true := by
  unfold State.issue
  repeat' (first
    | with_reducible assumption
    | (with_reducible intro _; try beta_reduce)
    | with_reducible apply wf_ite
    | with_reducible apply State.issueAt_wf
    | with_reducible refine optWf_of (by assumption) ?_
    | with_reducible refine optFst_of (by assumption) ?_
    | with_reducible refine optFst_of2 (by assumption) ?_
    | with_reducible refine fstWf_of (by assumption) ?_
    | with_reducible refine sndWf_of (by assumption) ?_
    | (extract_lets +onlyGivenNames x; refine carry (p := x.canon) ?_ ?_; (on_goal 1 => subst x); (on_goal 2 => clear_value x; intro hx))
    | (extract_lets +onlyGivenNames x; clear_value x)
    | split
    | with_reducible apply wf_mk)

theorem State.release_wf {s : State} {b l : Nat} (h_s : State.wf s = true) : State.wf (State.release s b l) = true := by
  unfold State.release
  repeat' (first
    | with_reducible assumption
    | (with_reducible intro _; try beta_reduce)
    | with_reducible apply wf_ite
    | with_reducible apply State.enqueue_wf
    | with_reducible apply State.putCore_wf
    | with_reducible apply fst_wf
    | with_reducible refine optWf_of (by assumption) ?_
    | with_reducible refine optFst_of (by assumption) ?_
    | with_reducible refine optFst_of2 (by assumption) ?_
    | with_reducible refine fstWf_of (by assumption) ?_
    | with_reducible refine sndWf_of (by assumption) ?_
    | (extract_lets +onlyGivenNames x; refine carry (p := x.canon) ?_ ?_; (on_goal 1 => subst x); (on_goal 2 => clear_value x; intro hx))
    | (extract_lets +onlyGivenNames x; refine carry (p := x.1.canon) ?_ ?_; (on_goal 1 => subst x); (on_goal 2 => clear_value x; intro hx))
    | (extract_lets +onlyGivenNames x; clear_value x)
    | split
    | with_reducible apply wf_mk)

theorem State.issueOp_wf {s : State} {op b l : Nat} {d : List Byte} (h_s : State.wf s = true) : State.wf (State.issueOp s op b l d) = true := by
  unfold State.issueOp
  repeat' (first
    | with_reducible assumption
    | with_reducible apply wf_ite
    | with_reducible apply State.issue_wf)

theorem execCoreNop_wf {bay core : Nat} {d : List Byte} {s : State} (h_s : State.wf s = true) : OutWf (execCoreNop bay core d s) := by
  unfold execCoreNop
  repeat' (first
    | with_reducible assumption
    | with_reducible apply wf_ite
    | with_reducible apply State.issue_wf
    | with_reducible apply outWf_next)

theorem execCopy_wf {bay core : Nat} {d : List Byte} {s : State} (h_s : State.wf s = true) : OutWf (execCopy bay core d s) := by
  unfold execCopy
  repeat' (first
    | with_reducible assumption
    | with_reducible apply State.issueOp_wf
    | with_reducible apply outWf_next)

theorem execGather_wf {bay core : Nat} {d : List Byte} {s : State} (h_s : State.wf s = true) : OutWf (execGather bay core d s) := by
  unfold execGather
  repeat' (first
    | with_reducible assumption
    | with_reducible apply State.issueOp_wf
    | with_reducible apply outWf_next)

theorem execMatmul_wf {bay core : Nat} {d : List Byte} {s : State} (h_s : State.wf s = true) : OutWf (execMatmul bay core d s) := by
  unfold execMatmul
  repeat' (first
    | with_reducible assumption
    | with_reducible apply State.issueOp_wf
    | with_reducible apply outWf_next)

theorem execAttn_wf {bay core : Nat} {d : List Byte} {s : State} (h_s : State.wf s = true) : OutWf (execAttn bay core d s) := by
  unfold execAttn
  repeat' (first
    | with_reducible assumption
    | with_reducible apply State.issueOp_wf
    | with_reducible apply outWf_next)

theorem execVectorOp_wf {bay core : Nat} {d : List Byte} {s : State} (h_s : State.wf s = true) : OutWf (execVectorOp bay core d s) := by
  unfold execVectorOp
  repeat' (first
    | with_reducible assumption
    | with_reducible apply State.issueOp_wf
    | with_reducible apply outWf_next)

theorem execQuant_wf {bay core : Nat} {d : List Byte} {s : State} (h_s : State.wf s = true) : OutWf (execQuant bay core d s) := by
  unfold execQuant
  repeat' (first
    | with_reducible assumption
    | with_reducible apply State.issueOp_wf
    | with_reducible apply outWf_next)

theorem execPrism_wf {bay core : Nat} {d : List Byte} {s : State} (h_s : State.wf s = true) : OutWf (execPrism bay core d s) := by
  unfold execPrism
  repeat' (first
    | with_reducible assumption
    | with_reducible apply State.issueOp_wf
    | with_reducible apply outWf_next)

theorem execTopk_wf {bay core : Nat} {d : List Byte} {s : State} (h_s : State.wf s = true) : OutWf (execTopk bay core d s) := by
  unfold execTopk
  repeat' (first
    | with_reducible assumption
    | with_reducible apply State.issueOp_wf
    | with_reducible apply outWf_next)

theorem State.retireHead_wf {s : State} {b l : Nat} {d : List Byte} (h_s : State.wf s = true) : State.wf (State.retireHead s b l d) = true := by
  unfold State.retireHead
  repeat' (first
    | with_reducible assumption
    | (with_reducible intro _; try beta_reduce)
    | with_reducible apply wf_ite
    | with_reducible apply State.count64_wf
    | with_reducible apply State.headStep_wf
    | with_reducible apply State.pegLocal_wf
    | with_reducible apply State.putCore_wf
    | with_reducible apply State.release_wf
    | with_reducible apply parkWf_of
    | (extract_lets +onlyGivenNames x; refine carry (p := x.canon) ?_ ?_; (on_goal 1 => subst x); (on_goal 2 => clear_value x; intro hx))
    | (extract_lets +onlyGivenNames x; clear_value x)
    | split
    | with_reducible apply wf_mk)

theorem execCommandRetire_wf {bay core : Nat} {s : State} (h_s : State.wf s = true) : OutWf (execCommandRetire bay core s) := by
  unfold execCommandRetire
  repeat' (first
    | with_reducible assumption
    | with_reducible apply wf_ite
    | with_reducible apply State.retireHead_wf
    | with_reducible apply outWf_next
    | split)

theorem State.controlFails_wf {s : State} {b checker : Nat} (h_s : State.wf s = true) : State.wf (State.controlFails s b checker) = true := by
  unfold State.controlFails
  repeat' (first
    | with_reducible assumption
    | with_reducible apply wf_ite
    | with_reducible apply State.contained_wf
    | with_reducible apply State.report_wf
    | with_reducible apply State.withdrawBay_wf
    | (extract_lets +onlyGivenNames x; clear_value x)
    | with_reducible apply wf_mk)

theorem execControlCoreHeartbeatStall_wf {bay : Nat} {s : State} (h_s : State.wf s = true) : OutWf (execControlCoreHeartbeatStall bay s) := by
  unfold execControlCoreHeartbeatStall
  repeat' (first
    | with_reducible assumption
    | with_reducible apply State.controlFails_wf
    | with_reducible apply outWf_next)

theorem execProgressMonitorExpiry_wf {bay : Nat} {s : State} (h_s : State.wf s = true) : OutWf (execProgressMonitorExpiry bay s) := by
  unfold execProgressMonitorExpiry
  repeat' (first
    | with_reducible assumption
    | with_reducible apply wf_ite
    | with_reducible apply State.controlFails_wf
    | with_reducible apply outWf_next)

theorem State.watchdog_wf {s : State} {p : Page} (h_s : State.wf s = true) : State.wf (State.watchdog s p) = true := by
  unfold State.watchdog
  repeat' (first
    | with_reducible assumption
    | (with_reducible intro _; try beta_reduce)
    | with_reducible apply wf_ite
    | with_reducible apply State.contained_wf
    | with_reducible apply parkWf_of
    | with_reducible refine fstWf_of (by assumption) ?_
    | with_reducible refine sndWf_of (by assumption) ?_
    | (extract_lets +onlyGivenNames x; refine carry (p := x.canon) ?_ ?_; (on_goal 1 => subst x); (on_goal 2 => clear_value x; intro hx))
    | (extract_lets +onlyGivenNames x; clear_value x)
    | split
    | with_reducible apply wf_mk)

theorem execCreditWatchdogExpiry_wf {page : Nat} {s : State} (h_s : State.wf s = true) : OutWf (execCreditWatchdogExpiry page s) := by
  unfold execCreditWatchdogExpiry
  repeat' (first
    | with_reducible assumption
    | with_reducible apply outWf_ite
    | with_reducible apply outWf_fault
    | with_reducible apply Parker.page_wf
    | with_reducible apply State.watchdog_wf
    | with_reducible refine optWf_of (by assumption) ?_
    | with_reducible refine optFst_of (by assumption) ?_
    | with_reducible refine optFst_of2 (by assumption) ?_
    | with_reducible refine fstWf_of (by assumption) ?_
    | with_reducible refine sndWf_of (by assumption) ?_
    | with_reducible apply outWf_next
    | split
    | with_reducible apply wf_mk)

theorem State.rrcInvalidate_wf {s : State} {b mask : Nat} (h_s : State.wf s = true) : State.wf (State.rrcInvalidate s b mask) = true := by
  unfold State.rrcInvalidate
  repeat' (first
    | with_reducible assumption
    | with_reducible apply State.setPreg_wf
    | with_reducible apply wf_mk)

theorem execBayRrcInv_wf {bay mask : Nat} {s : State} (h_s : State.wf s = true) : OutWf (execBayRrcInv bay mask s) := by
  unfold execBayRrcInv
  repeat' (first
    | with_reducible assumption
    | with_reducible apply wf_ite
    | with_reducible apply State.rrcInvalidate_wf
    | with_reducible apply outWf_next)

theorem State.rrcInvDone_wf {s : State} {b : Nat} (h_s : State.wf s = true) : State.wf (State.rrcInvDone s b) = true := by
  unfold State.rrcInvDone
  repeat' (first
    | with_reducible assumption
    | (with_reducible intro _; try beta_reduce)
    | with_reducible apply State.irq_wf
    | with_reducible apply State.setPreg_wf
    | with_reducible apply State.staleReads_wf
    | with_reducible apply fst_wf
    | with_reducible apply parkWf_of
    | with_reducible refine optWf_of (by assumption) ?_
    | with_reducible refine optFst_of (by assumption) ?_
    | with_reducible refine optFst_of2 (by assumption) ?_
    | with_reducible refine fstWf_of (by assumption) ?_
    | with_reducible refine sndWf_of (by assumption) ?_
    | (extract_lets +onlyGivenNames x; refine carry (p := x.canon) ?_ ?_; (on_goal 1 => subst x); (on_goal 2 => clear_value x; intro hx))
    | (extract_lets +onlyGivenNames x; refine carry (p := x.1.canon) ?_ ?_; (on_goal 1 => subst x); (on_goal 2 => clear_value x; intro hx))
    | (extract_lets +onlyGivenNames x; clear_value x)
    | split
    | with_reducible apply wf_mk)

theorem execRrcInvDone_wf {bay : Nat} {s : State} (h_s : State.wf s = true) : OutWf (execRrcInvDone bay s) := by
  unfold execRrcInvDone
  repeat' (first
    | with_reducible assumption
    | with_reducible apply State.rrcInvDone_wf
    | with_reducible apply outWf_next)

end Sys2Proof.Machine
end

