-- ==== Sys2Proof/Laws/WfExperts.lean ====
section
/-!
SUPPORT. Every operation of Machine/Experts.lean keeps the canonical form of memory and registers.
-/

namespace Sys2Proof.Machine

open Sys2Proof

theorem State.dvFault_wf {s : State} {b job code : Nat} {d : List Byte} (h_s : State.wf s = true) : State.wf (State.dvFault s b job code d) = true := by
  unfold State.dvFault
  repeat' (first
    | with_reducible assumption
    | with_reducible apply State.contained_wf
    | with_reducible apply State.setPreg_wf)

theorem State.announce_wf {s : State} {u : UnitId} {job : Nat} {b : Bank} {layer label : Nat} {counts : List (Nat × Nat)} (h_s : State.wf s = true) : State.wf (State.announce s u job b layer label counts) = true := by
  unfold State.announce
  repeat' (first
    | with_reducible assumption
    | (with_reducible intro _; try beta_reduce)
    | with_reducible apply wf_ite
    | with_reducible apply State.fence_wf
    | with_reducible apply State.sendReq_wf
    | with_reducible apply State.useFree_wf
    | with_reducible apply foldl_wf
    | with_reducible apply getD_wf
    | with_reducible apply foldl_wf
    | with_reducible apply getD_wf
    | with_reducible apply parkWf_of
    | with_reducible apply foldl_park
    | (extract_lets +onlyGivenNames x; refine carry (p := x.canon) ?_ ?_; (on_goal 1 => subst x); (on_goal 2 => clear_value x; intro hx))
    | (extract_lets +onlyGivenNames x; clear_value x)
    | split)

theorem State.announce2_wf {s : State} {u : UnitId} {job : Nat} {b : Bank} (h_s : State.wf s = true) : State.wf (State.announce2 s u job b) = true := by
  unfold State.announce2
  repeat' (first
    | with_reducible assumption
    | (with_reducible intro _; try beta_reduce)
    | with_reducible apply State.fence_wf
    | with_reducible apply foldl_wf)

theorem State.sendRows_wf {s : State} {u : UnitId} {job : Nat} {b : Bank} {ex : Bool} {rows : Nat} {tensor : List Byte} {acc : List (Choice × Nat × Nat × Nat)} (h_s : State.wf s = true) : State.wf (State.sendRows s u job b ex rows tensor acc) = true := by
  unfold State.sendRows
  repeat' (first
    | with_reducible assumption
    | (with_reducible intro _; try beta_reduce)
    | with_reducible apply State.sendAll_wf
    | with_reducible apply foldl_wf
    | (extract_lets +onlyGivenNames x; clear_value x)
    | split)

theorem refuseRowsAt_wf {bay job : Nat} {b : Bank} {d zero : List Byte} {l : List Choice} {s : State} (h_s : s.wf) :
    AccWf (State.refuseRows.rowsAt bay job b d zero s l) := by
  induction l generalizing s with
  | nil => exact accWf_ok h_s
  | cons c l ih => exact accWf_bind (State.store_wf h_s) (fun _ h => ih h)

theorem State.refuseRows_wf {s : State} {bay job : Nat} {b : Bank} {d : List Byte} {refused : List Choice} (h_s : s.wf) :
    AccWf (s.refuseRows bay job b d refused) :=
  accWf_bind (refuseRowsAt_wf h_s) (fun _ h => State.store_wf h)

theorem State.noteChoices_wf {s : State} {bay job layer : Nat} {accepted refused : List Choice} (h_s : State.wf s = true) : State.wf (State.noteChoices s bay job layer accepted refused) = true := by
  unfold State.noteChoices
  repeat' (first
    | with_reducible assumption
    | with_reducible apply State.modPass_wf)

theorem State.scatterRun_wf {s : State} {bay job : Nat} {p : Pass} {b : Bank} {d : List Byte} (h_s : State.wf s = true) : DvRanWf (State.scatterRun s bay job p b d) := by
  unfold State.scatterRun
  repeat' (first
    | with_reducible assumption
    | (with_reducible intro _; try beta_reduce)
    | with_reducible apply State.announce_wf
    | with_reducible apply State.noteChoices_wf
    | with_reducible apply State.refuseRows_wf
    | with_reducible apply State.sendRows_wf
    | with_reducible apply State.touchAddr_wf
    | with_reducible apply dvWf_to
    | with_reducible apply dvWf_err
    | with_reducible apply dvWf_ite
    | with_reducible apply dv_acc
    | with_reducible apply dv_any
    | (extract_lets +onlyGivenNames x; refine carry (p := x.canon) ?_ ?_; (on_goal 1 => subst x); (on_goal 2 => clear_value x; intro hx))
    | (extract_lets +onlyGivenNames x; clear_value x)
    | split)

theorem State.grantRun_wf {s : State} {bay job : Nat} {p : Pass} {b : Bank} {d : List Byte} (h_s : State.wf s = true) : DvRanWf (State.grantRun s bay job p b d) := by
  unfold State.grantRun
  repeat' (first
    | with_reducible assumption
    | (with_reducible intro _; try beta_reduce)
    | with_reducible apply State.announce2_wf
    | with_reducible apply State.noteChoices_wf
    | with_reducible apply State.refuseRows_wf
    | with_reducible apply State.sendRows_wf
    | with_reducible apply dvWf_to
    | with_reducible apply dvWf_err
    | with_reducible apply dvWf_ite
    | with_reducible apply dv_acc
    | with_reducible apply dv_any)

theorem State.returnRun_wf {s : State} {bay job : Nat} {p : Pass} {b : Bank} {d : List Byte} (h_s : State.wf s = true) : DvRanWf (State.returnRun s bay job p b d) := by
  unfold State.returnRun
  repeat' (first
    | with_reducible assumption
    | (with_reducible intro _; try beta_reduce)
    | with_reducible apply State.count64_wf
    | with_reducible apply State.fence_wf
    | with_reducible apply State.sendAll_wf
    | with_reducible apply State.touchAddr_wf
    | with_reducible apply foldl_wf
    | with_reducible apply dvWf_to
    | with_reducible apply dvWf_err
    | with_reducible apply dvWf_ite
    | with_reducible apply dv_any
    | split)

theorem State.dvEnd_wf {s : State} {bay job : Nat} {d : List Byte} {r : DvRan} (h_s : s.wf) (h_r : DvRanWf r) : (s.dvEnd bay job d r).wf := by
  unfold State.dvEnd
  split
  · exact State.putDove_wf h_r
  · exact State.dvFault_wf h_s
  · exact State.putDove_wf (State.park_wf h_s)
  · exact State.unitFault_wf h_s
  · exact State.unitPoison_wf h_s
  · exact h_s

theorem State.dvRetire_wf {s : State} {bay job : Nat} {p : Pass} {d : List Byte} (h_s : State.wf s = true) : State.wf (State.dvRetire s bay job p d) = true := by
  unfold State.dvRetire
  repeat' (first
    | with_reducible assumption
    | with_reducible apply wf_ite
    | with_reducible apply State.dropHeld_wf
    | with_reducible apply State.pegLocal_wf
    | with_reducible apply State.putDove_wf
    | with_reducible apply snd_wf
    | with_reducible refine accWf_of (by assumption) ?_
    | with_reducible refine accFst_of (by assumption) ?_
    | with_reducible refine fstWf_of (by assumption) ?_
    | with_reducible refine sndWf_of (by assumption) ?_
    | with_reducible refine ranDone_of (by assumption) ?_
    | with_reducible refine ranWait_of (by assumption) ?_
    | with_reducible refine dvTo_of (by assumption) ?_
    | (extract_lets +onlyGivenNames x; refine carry (p := x.canon) ?_ ?_; (on_goal 1 => subst x); (on_goal 2 => clear_value x; intro hx))
    | (extract_lets +onlyGivenNames x; clear_value x)
    | split
    | with_reducible apply wf_mk)

theorem State.dvStart_wf {s : State} {bay job : Nat} {p : Pass} {d : List Byte} (h_s : State.wf s = true) : State.wf (State.dvStart s bay job p d) = true := by
  unfold State.dvStart
  repeat' (first
    | with_reducible assumption
    | (with_reducible intro _; try beta_reduce)
    | with_reducible apply wf_ite
    | with_reducible apply State.dvEnd_wf
    | with_reducible apply State.dvFault_wf
    | with_reducible apply State.returnRun_wf
    | with_reducible apply State.scatterRun_wf
    | with_reducible apply dvWf_ite
    | with_reducible apply dvWf_to
    | with_reducible apply dvWf_err
    | with_reducible apply dvWf_acc
    | with_reducible apply dv_acc
    | with_reducible apply dv_any
    | with_reducible apply snd_wf
    | with_reducible apply parkWf_of
    | with_reducible refine optWf_of (by assumption) ?_
    | with_reducible refine accWf_of (by assumption) ?_
    | with_reducible refine accFst_of (by assumption) ?_
    | with_reducible refine optFst_of (by assumption) ?_
    | with_reducible refine optFst_of2 (by assumption) ?_
    | with_reducible refine fstWf_of (by assumption) ?_
    | with_reducible refine sndWf_of (by assumption) ?_
    | split
    | with_reducible apply wf_mk)

theorem State.dvLoop_wf {s : State} {bay n : Nat} (h_s : s.wf) : (s.dvLoop bay n).wf := by
  induction n generalizing s with
  | zero => exact h_s
  | succ n ih =>
    unfold State.dvLoop
    dsimp only
    split
    · apply wf_ite
      · apply wf_ite h_s
        apply wf_ite
        · exact State.dvStart_wf h_s
        · exact ih (State.dvStart_wf h_s)
      · apply wf_ite _ h_s
        exact ih (State.dvRetire_wf h_s)
    · exact h_s

theorem State.dvStep_wf {s : State} {bay : Nat} (h_s : State.wf s = true) : State.wf (State.dvStep s bay) = true := by
  unfold State.dvStep
  repeat' (first
    | with_reducible assumption
    | with_reducible apply State.dvLoop_wf)

theorem State.dvPush_wf {s : State} {bay : Nat} {d : List Byte} (h_s : State.wf s = true) : State.wf (State.dvPush s bay d) = true := by
  unfold State.dvPush
  repeat' (first
    | with_reducible assumption
    | (with_reducible intro _; try beta_reduce)
    | with_reducible apply wf_ite
    | with_reducible apply State.dvStep_wf
    | with_reducible apply State.modPass_wf
    | with_reducible apply State.putDove_wf
    | with_reducible apply getD_wf
    | with_reducible apply getD_wf
    | with_reducible apply parkWf_of
    | with_reducible refine optWf_of (by assumption) ?_
    | with_reducible refine optFst_of (by assumption) ?_
    | with_reducible refine optFst_of2 (by assumption) ?_
    | with_reducible refine fstWf_of (by assumption) ?_
    | with_reducible refine sndWf_of (by assumption) ?_
    | (extract_lets +onlyGivenNames x; refine carry (p := x.canon) ?_ ?_; (on_goal 1 => subst x); (on_goal 2 => clear_value x; intro hx))
    | (extract_lets +onlyGivenNames x; clear_value x)
    | split
    | with_reducible apply wf_mk)

theorem execScatter_wf {bay : Nat} {d : List Byte} {s : State} (h_s : State.wf s = true) : OutWf (execScatter bay d s) := by
  unfold execScatter
  repeat' (first
    | with_reducible assumption
    | with_reducible apply wf_ite
    | with_reducible apply State.dvPush_wf
    | with_reducible apply outWf_next)

theorem execReturnRows_wf {bay : Nat} {d : List Byte} {s : State} (h_s : State.wf s = true) : OutWf (execReturnRows bay d s) := by
  unfold execReturnRows
  repeat' (first
    | with_reducible assumption
    | with_reducible apply wf_ite
    | with_reducible apply State.dvPush_wf
    | with_reducible apply outWf_next)

theorem State.gatherChunk_wf {s : State} {bay core job : Nat} {b : Bank} {k : Nat} {ex : Bool} {tag index dst stride step : Nat} {wait : Option (Nat × Nat)} {rows : List (Nat × Nat × Nat)} {c : Nat} (h_s : State.wf s = true) : State.wf (State.gatherChunk s bay core job b k ex tag index dst stride step wait rows c) = true := by
  unfold State.gatherChunk
  repeat' (first
    | with_reducible assumption
    | (with_reducible intro _; try beta_reduce)
    | with_reducible apply wf_ite
    | with_reducible apply State.issue_wf
    | with_reducible apply State.writeBay_wf
    | with_reducible apply fst_wf
    | with_reducible apply snd_wf
    | with_reducible apply parkWf_of
    | (extract_lets +onlyGivenNames x; refine carry (p := x.canon) ?_ ?_; (on_goal 1 => subst x); (on_goal 2 => clear_value x; intro hx))
    | (extract_lets +onlyGivenNames x; refine carry (p := x.1.canon) ?_ ?_; (on_goal 1 => subst x); (on_goal 2 => clear_value x; intro hx))
    | (extract_lets +onlyGivenNames x; clear_value x)
    | split)

theorem State.buildWork_wf {s : State} {bay core slot layer tag index dst stride : Nat} (h_s : State.wf s = true) : State.wf (State.buildWork s bay core slot layer tag index dst stride) = true := by
  unfold State.buildWork
  repeat' (first
    | with_reducible assumption
    | (with_reducible intro _; try beta_reduce)
    | with_reducible apply wf_ite
    | with_reducible apply State.dvFault_wf
    | with_reducible apply State.dvPush_wf
    | with_reducible apply State.gatherChunk_wf
    | with_reducible apply State.modPass_wf
    | with_reducible apply State.park_wf
    | with_reducible apply State.unitFault_wf
    | with_reducible apply State.unitPoison_wf
    | with_reducible apply getD_wf
    | with_reducible apply getD_wf
    | with_reducible apply parkWf_of
    | with_reducible refine optWf_of (by assumption) ?_
    | with_reducible refine accWf_of (by assumption) ?_
    | with_reducible refine accFst_of (by assumption) ?_
    | with_reducible refine optFst_of (by assumption) ?_
    | with_reducible refine optFst_of2 (by assumption) ?_
    | with_reducible refine fstWf_of (by assumption) ?_
    | with_reducible refine sndWf_of (by assumption) ?_
    | with_reducible refine ranDone_of (by assumption) ?_
    | with_reducible refine ranWait_of (by assumption) ?_
    | (extract_lets +onlyGivenNames x; refine carry (p := x.canon) ?_ ?_; (on_goal 1 => subst x); (on_goal 2 => clear_value x; intro hx))
    | (extract_lets +onlyGivenNames x; clear_value x)
    | split
    | with_reducible apply wf_mk)

theorem execArrivalPegTarget_wf {bay core slot layer tag index dst stride : Nat} {s : State} (h_s : State.wf s = true) : OutWf (execArrivalPegTarget bay core slot layer tag index dst stride s) := by
  unfold execArrivalPegTarget
  repeat' (first
    | with_reducible assumption
    | with_reducible apply State.buildWork_wf
    | with_reducible apply outWf_next)

theorem State.grantRows_wf {s : State} {bay slot layer : Nat} (h_s : State.wf s = true) : State.wf (State.grantRows s bay slot layer) = true := by
  unfold State.grantRows
  repeat' (first
    | with_reducible assumption
    | (with_reducible intro _; try beta_reduce)
    | with_reducible apply wf_ite
    | with_reducible apply State.dvFault_wf
    | with_reducible apply State.fence_wf
    | with_reducible apply State.park_wf
    | with_reducible apply State.sendReq_wf
    | with_reducible apply State.unitFault_wf
    | with_reducible apply State.unitPoison_wf
    | with_reducible apply foldl_wf
    | (extract_lets +onlyGivenNames x; clear_value x)
    | split)

theorem execExchangeGrant_wf {bay slot layer : Nat} {s : State} (h_s : State.wf s = true) : OutWf (execExchangeGrant bay slot layer s) := by
  unfold execExchangeGrant
  repeat' (first
    | with_reducible assumption
    | with_reducible apply State.grantRows_wf
    | with_reducible apply outWf_next)

theorem State.takeGrants_wf {s : State} {bay : Nat} (h_s : State.wf s = true) : State.wf (State.takeGrants s bay) = true := by
  unfold State.takeGrants
  repeat' (first
    | with_reducible assumption
    | with_reducible apply wf_ite
    | with_reducible apply State.dvEnd_wf
    | with_reducible apply State.dvStep_wf
    | with_reducible apply State.grantRun_wf
    | (extract_lets +onlyGivenNames x; clear_value x)
    | split)

theorem execGrantPegTarget_wf {bay : Nat} {s : State} (h_s : State.wf s = true) : OutWf (execGrantPegTarget bay s) := by
  unfold execGrantPegTarget
  repeat' (first
    | with_reducible assumption
    | with_reducible apply State.takeGrants_wf
    | with_reducible apply outWf_next)

end Sys2Proof.Machine
end

