-- ==== Sys2Proof/Laws/WfDma.lean ====
section
/-!
SUPPORT. Every operation of Machine/Dma.lean keeps the canonical form of memory and registers.
-/

namespace Sys2Proof.Machine

open Sys2Proof

theorem State.dmaWrite_wf {s : State} {c : DmaChan} {job : Nat} {d : List Byte} {off : Nat} {bs : List Byte} (h_s : State.wf s = true) : AccWf (State.dmaWrite s c job d off bs) := by
  unfold State.dmaWrite
  repeat' (first
    | with_reducible assumption
    | (with_reducible intro _; try beta_reduce)
    | with_reducible apply State.count64_wf
    | with_reducible apply State.sendAll_wf
    | with_reducible apply State.touch_wf
    | with_reducible apply State.writeBay_wf
    | with_reducible apply State.writeHost_wf
    | with_reducible apply State.writeVa_wf
    | with_reducible apply accWf_ok
    | with_reducible apply accWf_bind
    | (extract_lets +onlyGivenNames x; clear_value x)
    | split)

theorem State.putChan_wf {s : State} {c : DmaChan} {x : Chan} {st : Nat} (h_s : State.wf s = true) : State.wf (State.putChan s c x st) = true := by
  unfold State.putChan
  repeat' (first
    | with_reducible assumption
    | with_reducible apply State.setHReg_wf
    | with_reducible apply State.setHState_wf
    | with_reducible apply State.showBayChan_wf
    | (extract_lets +onlyGivenNames x; refine carry (p := x.canon) ?_ ?_; (on_goal 1 => subst x); (on_goal 2 => clear_value x; intro hx))
    | (extract_lets +onlyGivenNames x; clear_value x)
    | split
    | with_reducible apply wf_mk)

theorem State.dmaError_wf {s : State} {c : DmaChan} {job code : Nat} {rec_ : Nat} (h_s : State.wf s = true) : State.wf (State.dmaError s c job code rec_) = true := by
  unfold State.dmaError
  repeat' (first
    | with_reducible assumption
    | with_reducible apply wf_ite
    | with_reducible apply State.contained_wf
    | with_reducible apply State.count_wf
    | with_reducible apply State.hIrq_wf
    | with_reducible apply State.putChan_wf
    | with_reducible apply State.report_wf
    | with_reducible apply State.setHReg_wf
    | with_reducible apply State.setPreg_wf
    | (extract_lets +onlyGivenNames x; clear_value x)
    | split)

theorem State.dmaPark_wf {s : State} {c : DmaChan} {job vp : Nat} (h_s : State.wf s = true) : State.wf (State.dmaPark s c job vp) = true := by
  unfold State.dmaPark
  repeat' (first
    | with_reducible assumption
    | with_reducible apply State.count_wf
    | with_reducible apply State.hIrq_wf
    | with_reducible apply State.irq_wf
    | with_reducible apply State.park_wf
    | with_reducible apply State.putChan_wf
    | (extract_lets +onlyGivenNames x; refine carry (p := x.canon) ?_ ?_; (on_goal 1 => subst x); (on_goal 2 => clear_value x; intro hx))
    | split)

theorem State.dmaFail_wf {α : Type} {s : State} {c : DmaChan} {job : Nat} {x : Acc α} (h_s : State.wf s = true) : State.wf (State.dmaFail s c job x) = true := by
  unfold State.dmaFail
  repeat' (first
    | with_reducible assumption
    | with_reducible apply wf_ite
    | with_reducible apply State.dmaError_wf
    | with_reducible apply State.dmaPark_wf
    | with_reducible apply State.unitFault_wf
    | with_reducible apply State.unitPoison_wf
    | split)

theorem State.dmaFinish_wf {s : State} {c : DmaChan} {job : Nat} (h_s : State.wf s = true) : State.wf (State.dmaFinish s c job) = true := by
  unfold State.dmaFinish
  repeat' (first
    | with_reducible assumption
    | with_reducible apply wf_ite
    | with_reducible apply State.fence_wf
    | with_reducible apply State.putChan_wf
    | (extract_lets +onlyGivenNames x; clear_value x)
    | split)

theorem State.dmaBursts_wf {s : State} {c : DmaChan} {job : Nat} {bad : Bool} {n : Nat} (h_s : s.wf) : (s.dmaBursts c job bad n).wf := by
  induction n generalizing s with
  | zero => exact h_s
  | succ n ih =>
    unfold State.dmaBursts
    extract_lets x d src
    split
    · exact State.dmaFinish_wf h_s
    · extract_lets k ps bring
      have hb : LinesWf bring := linesWf_ite (State.bringLines_wf h_s) (linesWf_here h_s)
      clear_value bring
      split
      · exact State.containedQuiet_wf hb
      · exact State.putChan_wf hb
      · rename_i s' lines
        have hs : s'.wf := hb
        apply wf_ite
        · exact State.dmaError_wf hs
        · split
          · extract_lets bs
            split
            · rename_i t ht
              have h0 : t.wf := accWf_of ht (State.dmaWrite_wf hs)
              extract_lets s1 s2 s3 s4
              have h1 : s1.wf := wf_ite (foldl_wf h0 (fun _ _ h => State.touch_wf h)) h0
              have h2 : s2.wf := wf_ite (State.count64_wf h1) h1
              have h3 : s3.wf := by
                subst s3
                split
                · exact State.count64_wf h2
                · exact h2
              have h4 : s4.wf := State.putChan_wf h3
              exact wf_ite (State.dmaFinish_wf h4) (ih h4)
            · exact State.dmaFail_wf hs
          · exact State.dmaFail_wf hs

theorem State.dmaWork_wf {s : State} {c : DmaChan} {bursts : Nat} {bad : Bool} (h_s : State.wf s = true) : State.wf (State.dmaWork s c bursts bad) = true := by
  unfold State.dmaWork
  repeat' (first
    | with_reducible assumption
    | with_reducible apply wf_ite
    | with_reducible apply State.dmaBursts_wf
    | with_reducible apply State.dmaError_wf
    | with_reducible apply State.dmaFinish_wf
    | with_reducible apply State.putChan_wf
    | (extract_lets +onlyGivenNames x; refine carry (p := x.canon) ?_ ?_; (on_goal 1 => subst x); (on_goal 2 => clear_value x; intro hx))
    | split)

theorem State.hostFetch_wf {s : State} {n : Nat} (h_s : State.wf s = true) : State.wf (State.hostFetch s n) = true := by
  unfold State.hostFetch
  repeat' (first
    | with_reducible assumption
    | with_reducible apply wf_ite
    | with_reducible apply State.dmaError_wf
    | with_reducible apply State.putChan_wf
    | (extract_lets +onlyGivenNames x; clear_value x)
    | split)

theorem State.dmaRow_wf {s : State} {p : Nat → Bool} {c : DmaChan} {d : List Byte} {bursts : Nat} {bad : Bool} (h_s : State.wf s = true) : State.wf (State.dmaRow s p c d bursts bad) = true := by
  unfold State.dmaRow
  repeat' (first
    | with_reducible assumption
    | (with_reducible intro _; try beta_reduce)
    | with_reducible apply wf_ite
    | with_reducible apply State.dmaWork_wf
    | with_reducible apply State.holdUnit_wf
    | with_reducible apply State.hostFetch_wf
    | with_reducible apply State.putChan_wf
    | with_reducible refine optWf_of (by assumption) ?_
    | with_reducible refine optFst_of (by assumption) ?_
    | with_reducible refine optFst_of2 (by assumption) ?_
    | with_reducible refine fstWf_of (by assumption) ?_
    | with_reducible refine sndWf_of (by assumption) ?_
    | (extract_lets +onlyGivenNames x; refine carry (p := x.canon) ?_ ?_; (on_goal 1 => subst x); (on_goal 2 => clear_value x; intro hx))
    | (extract_lets +onlyGivenNames x; clear_value x)
    | split
    | with_reducible apply wf_mk)

theorem execDmaNop_wf {c : DmaChan} {d : List Byte} {s : State} (h_s : State.wf s = true) : OutWf (execDmaNop c d s) := by
  unfold execDmaNop
  repeat' (first
    | with_reducible assumption
    | with_reducible apply State.dmaRow_wf
    | with_reducible apply outWf_next)

theorem execDmaCopy_wf {c : DmaChan} {d : List Byte} {bursts : Nat} {bad : Bool} {s : State} (h_s : State.wf s = true) : OutWf (execDmaCopy c d bursts bad s) := by
  unfold execDmaCopy
  repeat' (first
    | with_reducible assumption
    | with_reducible apply State.dmaRow_wf
    | with_reducible apply outWf_next)

theorem execInterleave_wf {c : DmaChan} {d : List Byte} {bursts : Nat} {bad : Bool} {s : State} (h_s : State.wf s = true) : OutWf (execInterleave c d bursts bad s) := by
  unfold execInterleave
  repeat' (first
    | with_reducible assumption
    | with_reducible apply State.dmaRow_wf
    | with_reducible apply outWf_next)

theorem execDeinterleave_wf {c : DmaChan} {d : List Byte} {bursts : Nat} {bad : Bool} {s : State} (h_s : State.wf s = true) : OutWf (execDeinterleave c d bursts bad s) := by
  unfold execDeinterleave
  repeat' (first
    | with_reducible assumption
    | with_reducible apply State.dmaRow_wf
    | with_reducible apply outWf_next)

theorem execBitplane_wf {c : DmaChan} {d : List Byte} {bursts : Nat} {bad : Bool} {s : State} (h_s : State.wf s = true) : OutWf (execBitplane c d bursts bad s) := by
  unfold execBitplane
  repeat' (first
    | with_reducible assumption
    | with_reducible apply State.dmaRow_wf
    | with_reducible apply outWf_next)

theorem execBitplaneInv_wf {c : DmaChan} {d : List Byte} {bursts : Nat} {bad : Bool} {s : State} (h_s : State.wf s = true) : OutWf (execBitplaneInv c d bursts bad s) := by
  unfold execBitplaneInv
  repeat' (first
    | with_reducible assumption
    | with_reducible apply State.dmaRow_wf
    | with_reducible apply outWf_next)

theorem State.chanNext_wf {s : State} {c : DmaChan} (h_s : State.wf s = true) : State.wf (State.chanNext s c) = true := by
  unfold State.chanNext
  repeat' (first
    | with_reducible assumption
    | with_reducible apply wf_ite
    | with_reducible apply State.dropHeld_wf
    | with_reducible apply State.putChan_wf
    | with_reducible apply State.setHReg_wf
    | with_reducible apply getD_wf
    | with_reducible apply getD_wf
    | with_reducible apply fst_wf
    | with_reducible apply snd_wf
    | with_reducible apply parkWf_of
    | with_reducible refine fstWf_of (by assumption) ?_
    | with_reducible refine sndWf_of (by assumption) ?_
    | with_reducible refine dvTo_of (by assumption) ?_
    | (extract_lets +onlyGivenNames x; refine carry (p := x.canon) ?_ ?_; (on_goal 1 => subst x); (on_goal 2 => clear_value x; intro hx))
    | (extract_lets +onlyGivenNames x; refine carry (p := x.1.canon) ?_ ?_; (on_goal 1 => subst x); (on_goal 2 => clear_value x; intro hx))
    | (extract_lets +onlyGivenNames x; clear_value x)
    | split
    | with_reducible apply wf_mk)

theorem State.dmaRetire_wf {s : State} {c : DmaChan} (h_s : State.wf s = true) : State.wf (State.dmaRetire s c) = true := by
  unfold State.dmaRetire
  repeat' (first
    | with_reducible assumption
    | with_reducible apply wf_ite
    | with_reducible apply State.chanNext_wf
    | with_reducible apply State.hIrq_wf
    | with_reducible apply State.pegLocal_wf
    | with_reducible apply State.sendReq_wf
    | with_reducible apply State.setHState_wf
    | (extract_lets +onlyGivenNames x; refine carry (p := x.canon) ?_ ?_; (on_goal 1 => subst x); (on_goal 2 => clear_value x; intro hx))
    | split
    | with_reducible apply wf_mk)

theorem execDmaRetire_wf {c : DmaChan} {s : State} (h_s : State.wf s = true) : OutWf (execDmaRetire c s) := by
  unfold execDmaRetire
  repeat' (first
    | with_reducible assumption
    | with_reducible apply State.dmaRetire_wf
    | with_reducible apply outWf_next)

theorem State.hostChan_wf {s : State} {n : Nat} {f : State → State} (h_s : State.wf s = true) (h_f : ∀ (a : State), State.wf a = true → State.wf (f a) = true) : State.wf (State.hostChan s n f) = true := by
  unfold State.hostChan
  repeat' (first
    | with_reducible assumption
    | with_reducible apply wf_ite
    | with_reducible apply h_f
    | with_reducible apply State.unmapped_wf)

theorem State.hdmaTail_wf {s : State} {n : Nat} {v : Word} (h_s : State.wf s = true) : State.wf (State.hdmaTail s n v) = true := by
  unfold State.hdmaTail
  repeat' (first
    | with_reducible assumption
    | (with_reducible intro _; try beta_reduce)
    | with_reducible apply wf_ite
    | with_reducible apply State.dmaError_wf
    | with_reducible apply State.hostChan_wf
    | with_reducible apply State.hostFetch_wf
    | with_reducible apply State.setHReg_wf)

theorem execHdmaTail_wf {n : Nat} {v : Word} {s : State} (h_s : State.wf s = true) : OutWf (execHdmaTail n v s) := by
  unfold execHdmaTail
  repeat' (first
    | with_reducible assumption
    | with_reducible apply State.hdmaTail_wf
    | with_reducible apply outWf_next)

theorem State.hdmaCfg_wf {s : State} {n : Nat} {v : Word} (h_s : State.wf s = true) : State.wf (State.hdmaCfg s n v) = true := by
  unfold State.hdmaCfg
  repeat' (first
    | with_reducible assumption
    | (with_reducible intro _; try beta_reduce)
    | with_reducible apply wf_ite
    | with_reducible apply State.dmaError_wf
    | with_reducible apply State.hostChan_wf
    | with_reducible apply State.hostFetch_wf
    | with_reducible apply State.putChan_wf
    | with_reducible apply State.refuseReg_wf
    | with_reducible apply State.setHReg_wf)

theorem execHdmaCfg_wf {n : Nat} {v : Word} {s : State} (h_s : State.wf s = true) : OutWf (execHdmaCfg n v s) := by
  unfold execHdmaCfg
  repeat' (first
    | with_reducible assumption
    | with_reducible apply State.hdmaCfg_wf
    | with_reducible apply outWf_next)

theorem State.hdmaStop_wf {s : State} {n : Nat} {x : Chan} (h_s : State.wf s = true) : State.wf (State.hdmaStop s n x) = true := by
  unfold State.hdmaStop
  repeat' (first
    | with_reducible assumption
    | with_reducible apply State.hIrq_wf
    | with_reducible apply State.putChan_wf)

theorem State.hdmaAbort_wf {s : State} {n : Nat} (h_s : State.wf s = true) : State.wf (State.hdmaAbort s n) = true := by
  unfold State.hdmaAbort
  repeat' (first
    | with_reducible assumption
    | (with_reducible intro _; try beta_reduce)
    | with_reducible apply State.hdmaStop_wf
    | with_reducible apply State.hostChan_wf
    | with_reducible apply State.putChan_wf
    | with_reducible apply State.unpark_wf
    | (extract_lets +onlyGivenNames x; clear_value x)
    | split
    | with_reducible apply wf_mk)

theorem execHdmaAbort_wf {n : Nat} {s : State} (h_s : State.wf s = true) : OutWf (execHdmaAbort n s) := by
  unfold execHdmaAbort
  repeat' (first
    | with_reducible assumption
    | with_reducible apply State.hdmaAbort_wf
    | with_reducible apply outWf_next)

theorem execHdmaStopped_wf {n : Nat} {s : State} (h_s : State.wf s = true) : OutWf (execHdmaStopped n s) := by
  unfold execHdmaStopped
  repeat' (first
    | with_reducible assumption
    | with_reducible apply wf_ite
    | with_reducible apply State.hdmaStop_wf
    | with_reducible apply outWf_next)

theorem State.hdmaResume_wf {s : State} {n : Nat} (h_s : State.wf s = true) : State.wf (State.hdmaResume s n) = true := by
  unfold State.hdmaResume
  repeat' (first
    | with_reducible assumption
    | (with_reducible intro _; try beta_reduce)
    | with_reducible apply wf_ite
    | with_reducible apply State.dmaFinish_wf
    | with_reducible apply State.hostChan_wf
    | with_reducible apply State.hostFetch_wf
    | with_reducible apply State.putChan_wf)

theorem execHdmaResume_wf {n : Nat} {s : State} (h_s : State.wf s = true) : OutWf (execHdmaResume n s) := by
  unfold execHdmaResume
  repeat' (first
    | with_reducible assumption
    | with_reducible apply State.hdmaResume_wf
    | with_reducible apply outWf_next)

theorem State.hdmaSkip_wf {s : State} {n : Nat} (h_s : State.wf s = true) : State.wf (State.hdmaSkip s n) = true := by
  unfold State.hdmaSkip
  repeat' (first
    | with_reducible assumption
    | (with_reducible intro _; try beta_reduce)
    | with_reducible apply wf_ite
    | with_reducible apply State.chanNext_wf
    | with_reducible apply State.hostChan_wf
    | with_reducible apply State.hostFetch_wf)

theorem execHdmaSkip_wf {n : Nat} {s : State} (h_s : State.wf s = true) : OutWf (execHdmaSkip n s) := by
  unfold execHdmaSkip
  repeat' (first
    | with_reducible assumption
    | with_reducible apply State.hdmaSkip_wf
    | with_reducible apply outWf_next)

theorem State.hdmaReset_wf {s : State} {n : Nat} (h_s : State.wf s = true) : State.wf (State.hdmaReset s n) = true := by
  unfold State.hdmaReset
  repeat' (first
    | with_reducible assumption
    | (with_reducible intro _; try beta_reduce)
    | with_reducible apply wf_ite
    | with_reducible apply State.hostChan_wf
    | with_reducible apply State.putChan_wf
    | with_reducible apply State.setHReg_wf)

theorem execHdmaReset_wf {n : Nat} {s : State} (h_s : State.wf s = true) : OutWf (execHdmaReset n s) := by
  unfold execHdmaReset
  repeat' (first
    | with_reducible assumption
    | with_reducible apply State.hdmaReset_wf
    | with_reducible apply outWf_next)

theorem State.hdmaCtrl_wf {s : State} {n : Nat} {v : Word} (h_s : s.wf) : (s.hdmaCtrl n v).wf := by
  unfold State.hdmaCtrl
  split
  · exact State.hdmaAbort_wf h_s
  · exact State.hdmaResume_wf h_s
  · exact State.hdmaSkip_wf h_s
  · exact State.hdmaReset_wf h_s
  · exact State.hostChan_wf h_s (fun _ h => h)

theorem execPcieReadTimeout_wf {n : Nat} {s : State} (h_s : State.wf s = true) : OutWf (execPcieReadTimeout n s) := by
  unfold execPcieReadTimeout
  repeat' (first
    | with_reducible assumption
    | with_reducible apply wf_ite
    | with_reducible apply State.dmaError_wf
    | with_reducible apply outWf_next)

end Sys2Proof.Machine
end

