-- ==== Sys2Proof/Laws/WfResume.lean ====
section
/-!
SUPPORT. Every operation of Machine/Resume.lean keeps the canonical form of memory and registers.
-/

namespace Sys2Proof.Machine

open Sys2Proof

theorem State.stepCore_wf {s : State} {b l : Nat} (h_s : State.wf s = true) : State.wf (State.stepCore s b l) = true := by
  unfold State.stepCore
  repeat' (first
    | with_reducible assumption
    | with_reducible apply wf_ite
    | with_reducible apply State.headStep_wf
    | with_reducible apply State.putCore_wf)

theorem State.stepScribe_wf {s : State} {b : Nat} (h_s : State.wf s = true) : State.wf (State.stepScribe s b) = true := by
  unfold State.stepScribe
  repeat' (first
    | with_reducible assumption
    | (with_reducible intro _; try beta_reduce)
    | with_reducible apply wf_ite
    | with_reducible apply State.stepCore_wf
    | with_reducible apply foldl_wf)

theorem State.stepScribes_wf {s : State} (h_s : State.wf s = true) : State.wf (State.stepScribes s) = true := by
  unfold State.stepScribes
  repeat' (first
    | with_reducible assumption
    | (with_reducible intro _; try beta_reduce)
    | with_reducible apply State.stepScribe_wf
    | with_reducible apply foldl_wf)

theorem State.stepUnit_wf {s : State} {u : UnitId} (h_s : State.wf s = true) : State.wf (State.stepUnit s u) = true := by
  unfold State.stepUnit
  repeat' (first
    | with_reducible assumption
    | with_reducible apply wf_ite
    | with_reducible apply State.dvStep_wf
    | with_reducible apply State.putChan_wf
    | with_reducible apply State.putDove_wf
    | with_reducible apply State.stepCore_wf
    | with_reducible apply State.stepScribe_wf
    | split)

theorem State.landed_wf {s : State} {job vp : Nat} (h_s : State.wf s = true) : State.wf (State.landed s job vp) = true := by
  unfold State.landed
  repeat' (first
    | with_reducible assumption
    | (with_reducible intro _; try beta_reduce)
    | with_reducible apply State.stepUnit_wf
    | with_reducible apply foldl_wf
    | with_reducible apply wf_mk)

theorem State.pegMet_wf {s : State} {bay core : Nat} (h_s : State.wf s = true) : State.wf (State.pegMet s bay core) = true := by
  unfold State.pegMet
  repeat' (first
    | with_reducible assumption
    | with_reducible apply wf_ite
    | with_reducible apply State.dmaWork_wf
    | with_reducible apply State.dvStep_wf
    | with_reducible apply State.headStep_wf)

theorem execPegWaitMet_wf {bay core : Nat} {s : State} (h_s : State.wf s = true) : OutWf (execPegWaitMet bay core s) := by
  unfold execPegWaitMet
  repeat' (first
    | with_reducible assumption
    | with_reducible apply State.pegMet_wf
    | with_reducible apply outWf_next)

end Sys2Proof.Machine
end

