-- ==== Sys2Proof/Laws/WfDeep.lean ====
section
/-!
SUPPORT. Every operation of Machine/Deep.lean keeps the canonical form of memory and registers.
-/

namespace Sys2Proof.Machine

open Sys2Proof

theorem State.setDeepState_wf {s : State} {v : Nat} (h_s : State.wf s = true) : State.wf (State.setDeepState s v) = true := by
  unfold State.setDeepState
  repeat' (first
    | with_reducible assumption
    | with_reducible apply wf_ite
    | with_reducible apply State.irq_wf
    | with_reducible apply State.putPreg_wf)

theorem State.setBlock_wf {s : State} {k : Nat} {b : Block} (h_s : State.wf s = true) : State.wf (State.setBlock s k b) = true := by
  unfold State.setBlock
  repeat' (first
    | with_reducible assumption
    | with_reducible apply wf_mk)

theorem State.blockRead_wf {s : State} {k n : Nat} (h_s : State.wf s = true) : State.wf (State.blockRead s k n) = true := by
  unfold State.blockRead
  repeat' (first
    | with_reducible assumption
    | with_reducible apply State.count64_wf
    | with_reducible apply State.setBlock_wf
    | with_reducible apply parkWf_of
    | (extract_lets +onlyGivenNames x; refine carry (p := x.canon) ?_ ?_; (on_goal 1 => subst x); (on_goal 2 => clear_value x; intro hx))
    | (extract_lets +onlyGivenNames x; clear_value x)
    | with_reducible apply wf_mk)

theorem State.flashRead_wf {s : State} {la n : Nat} (h_s : State.wf s = true) : State.wf (State.flashRead s la n) = true := by
  unfold State.flashRead
  repeat' (first
    | with_reducible assumption
    | with_reducible apply State.blockRead_wf)

theorem State.showWear_wf {s : State} (h_s : State.wf s = true) : State.wf (State.showWear s) = true := by
  unfold State.showWear
  repeat' (first
    | with_reducible assumption
    | (with_reducible intro _; try beta_reduce)
    | with_reducible apply wf_ite
    | with_reducible apply State.irq_wf
    | with_reducible apply State.setPreg_wf
    | with_reducible apply parkWf_of
    | (extract_lets +onlyGivenNames x; refine carry (p := x.canon) ?_ ?_; (on_goal 1 => subst x); (on_goal 2 => clear_value x; intro hx))
    | (extract_lets +onlyGivenNames x; clear_value x)
    | split)

theorem State.flashProgram_wf {s : State} {la n : Nat} (h_s : State.wf s = true) : State.wf (State.flashProgram s la n) = true := by
  unfold State.flashProgram
  repeat' (first
    | with_reducible assumption
    | with_reducible apply wf_ite
    | with_reducible apply State.count64_wf
    | with_reducible apply State.setBlock_wf
    | with_reducible apply State.showWear_wf
    | with_reducible apply parkWf_of
    | (extract_lets +onlyGivenNames x; refine carry (p := x.canon) ?_ ?_; (on_goal 1 => subst x); (on_goal 2 => clear_value x; intro hx))
    | (extract_lets +onlyGivenNames x; clear_value x)
    | split)

theorem State.ageBlocks_wf {s : State} {f : Nat → Nat} (h_s : State.wf s = true) : State.wf (State.ageBlocks s f) = true := by
  unfold State.ageBlocks
  repeat' (first
    | with_reducible assumption
    | with_reducible apply wf_mk)

theorem State.checkAges_wf {s : State} (h_s : State.wf s = true) : State.wf (State.checkAges s) = true := by
  unfold State.checkAges
  repeat' (first
    | with_reducible assumption
    | (with_reducible intro _; try beta_reduce)
    | with_reducible apply State.putPreg_wf
    | with_reducible apply foldl_wf)

theorem State.second_wf {s : State} (h_s : State.wf s = true) : State.wf (State.second s) = true := by
  unfold State.second
  repeat' (first
    | with_reducible assumption
    | with_reducible apply State.ageBlocks_wf
    | with_reducible apply State.checkAges_wf
    | with_reducible apply State.count_wf
    | with_reducible apply State.putPreg_wf)

theorem execRetentionAgeTick_wf {s : State} (h_s : State.wf s = true) : OutWf (execRetentionAgeTick s) := by
  unfold execRetentionAgeTick
  repeat' (first
    | with_reducible assumption
    | with_reducible apply State.second_wf
    | with_reducible apply outWf_next)

theorem State.ageSince_wf {s : State} (h_s : State.wf s = true) : State.wf (State.ageSince s) = true := by
  unfold State.ageSince
  repeat' (first
    | with_reducible assumption
    | with_reducible apply State.ageBlocks_wf
    | split)

theorem State.setLevel_wf {s : State} {v : Int} (h_s : State.wf s = true) : State.wf (State.setLevel s v) = true := by
  unfold State.setLevel
  repeat' (first
    | with_reducible assumption
    | with_reducible apply wf_ite
    | with_reducible apply State.irq_wf
    | with_reducible apply State.setPreg_wf
    | with_reducible apply State.setPreg64_wf)

theorem State.programOther_wf {s : State} {n : Nat} (h_s : State.wf s = true) : State.wf (State.programOther s n) = true := by
  unfold State.programOther
  repeat' (first
    | with_reducible assumption
    | with_reducible apply State.setLevel_wf)

theorem execBudgetRefill_wf {s : State} (h_s : State.wf s = true) : OutWf (execBudgetRefill s) := by
  unfold execBudgetRefill
  repeat' (first
    | with_reducible assumption
    | with_reducible apply State.setLevel_wf
    | with_reducible apply outWf_next)

theorem State.setBudget_wf {s : State} {w : Word} (h_s : State.wf s = true) : State.wf (State.setBudget s w) = true := by
  unfold State.setBudget
  repeat' (first
    | with_reducible assumption
    | with_reducible apply State.setLevel_wf
    | with_reducible apply State.setPreg_wf)

theorem execReadDisturbRelocation_wf {block ecc : Nat} {s : State} (h_s : State.wf s = true) : OutWf (execReadDisturbRelocation block ecc s) := by
  unfold execReadDisturbRelocation
  repeat' (first
    | with_reducible assumption
    | with_reducible apply wf_ite
    | with_reducible apply State.setBlock_wf
    | with_reducible apply outWf_next)

theorem State.showReady_wf {s : State} (h_s : State.wf s = true) : State.wf (State.showReady s) = true := by
  unfold State.showReady
  repeat' (first
    | with_reducible assumption
    | with_reducible apply wf_ite
    | with_reducible apply State.setDeepState_wf
    | with_reducible apply parkWf_of
    | split)

theorem State.relocated_wf {s : State} {k : Nat} {retired low : Bool} (h_s : State.wf s = true) : State.wf (State.relocated s k retired low) = true := by
  unfold State.relocated
  repeat' (first
    | with_reducible assumption
    | with_reducible apply wf_ite
    | with_reducible apply State.blockRead_wf
    | with_reducible apply State.count64_wf
    | with_reducible apply State.count_wf
    | with_reducible apply State.programOther_wf
    | with_reducible apply State.setBlock_wf
    | with_reducible apply State.showReady_wf
    | with_reducible apply State.showWear_wf
    | with_reducible apply parkWf_of
    | (extract_lets +onlyGivenNames x; refine carry (p := x.canon) ?_ ?_; (on_goal 1 => subst x); (on_goal 2 => clear_value x; intro hx))
    | (extract_lets +onlyGivenNames x; clear_value x)
    | split
    | with_reducible apply wf_mk)

theorem execRelocationCommit_wf {block : Nat} {retired low : Bool} {s : State} (h_s : State.wf s = true) : OutWf (execRelocationCommit block retired low s) := by
  unfold execRelocationCommit
  repeat' (first
    | with_reducible assumption
    | with_reducible apply State.relocated_wf
    | with_reducible apply outWf_next)

theorem execTimeUnknownTimeout_wf {s : State} (h_s : State.wf s = true) : OutWf (execTimeUnknownTimeout s) := by
  unfold execTimeUnknownTimeout
  repeat' (first
    | with_reducible assumption
    | with_reducible apply wf_ite
    | with_reducible apply State.setPreg_wf
    | with_reducible apply outWf_next
    | with_reducible apply wf_mk)

theorem State.scanRead_wf {s : State} {k ecc : Nat} (h_s : State.wf s = true) : State.wf (State.scanRead s k ecc) = true := by
  unfold State.scanRead
  repeat' (first
    | with_reducible assumption
    | (with_reducible intro _; try beta_reduce)
    | with_reducible apply wf_ite
    | with_reducible apply State.blockRead_wf
    | with_reducible apply State.setBlock_wf
    | with_reducible apply State.setPreg_wf
    | with_reducible apply snd_wf
    | with_reducible apply parkWf_of
    | (extract_lets +onlyGivenNames x; refine carry (p := x.canon) ?_ ?_; (on_goal 1 => subst x); (on_goal 2 => clear_value x; intro hx))
    | (extract_lets +onlyGivenNames x; clear_value x)
    | split
    | with_reducible apply wf_mk)

theorem execRetentionScanRead_wf {block ecc : Nat} {s : State} (h_s : State.wf s = true) : OutWf (execRetentionScanRead block ecc s) := by
  unfold execRetentionScanRead
  repeat' (first
    | with_reducible assumption
    | with_reducible apply State.scanRead_wf
    | with_reducible apply outWf_next)

theorem State.holdupCheck_wf {s : State} {ok : Bool} (h_s : State.wf s = true) : State.wf (State.holdupCheck s ok) = true := by
  unfold State.holdupCheck
  repeat' (first
    | with_reducible assumption
    | with_reducible apply wf_ite
    | with_reducible apply State.irq_wf
    | with_reducible apply State.setPreg_wf)

theorem execHoldupCheck_wf {ok : Bool} {s : State} (h_s : State.wf s = true) : OutWf (execHoldupCheck ok s) := by
  unfold execHoldupCheck
  repeat' (first
    | with_reducible assumption
    | with_reducible apply State.holdupCheck_wf
    | with_reducible apply outWf_next)

theorem State.checkpointNow_wf {s : State} (h_s : State.wf s = true) : State.wf (State.checkpointNow s) = true := by
  unfold State.checkpointNow
  repeat' (first
    | with_reducible assumption
    | with_reducible apply wf_mk)

theorem execLifetimeCheckpoint_wf {s : State} (h_s : State.wf s = true) : OutWf (execLifetimeCheckpoint s) := by
  unfold execLifetimeCheckpoint
  repeat' (first
    | with_reducible assumption
    | with_reducible apply State.checkpointNow_wf
    | with_reducible apply outWf_next)

theorem State.putUnit_wf {s : State} {i key : Nat} {bs : List Byte} (h_s : State.wf s = true) : State.wf (State.putUnit s i key bs) = true := by
  unfold State.putUnit
  repeat' (first
    | with_reducible assumption
    | with_reducible apply State.flashProgram_wf
    | with_reducible apply State.rawWrite_wf
    | with_reducible apply wf_mk)

theorem State.stageWrite_wf {s : State} {g : Stage} {j : Job} (h_s : State.wf s = true) : AccWf (State.stageWrite s g j) := by
  unfold State.stageWrite
  repeat' (first
    | with_reducible assumption
    | (with_reducible intro _; try beta_reduce)
    | with_reducible apply State.writeVa_wf
    | with_reducible apply accWf_bind)

theorem State.stageGone_wf {s : State} {g : Stage} {free : Bool} (h_s : State.wf s = true) : State.wf (State.stageGone s g free) = true := by
  unfold State.stageGone
  repeat' (first
    | with_reducible assumption
    | with_reducible apply wf_ite
    | with_reducible apply State.issueStages_wf
    | with_reducible apply State.modArena_wf
    | with_reducible apply wf_mk)

theorem State.stageInstall_wf {s : State} {seq : Nat} {ok : Bool} (h_s : State.wf s = true) : State.wf (State.stageInstall s seq ok) = true := by
  unfold State.stageInstall
  repeat' (first
    | with_reducible assumption
    | (with_reducible intro _; try beta_reduce)
    | with_reducible apply wf_ite
    | with_reducible apply Parker.page_wf
    | with_reducible apply State.degrade_wf
    | with_reducible apply State.irq_wf
    | with_reducible apply State.penOnlyPage_wf
    | with_reducible apply State.setPte_wf
    | with_reducible apply State.stageGone_wf
    | with_reducible apply State.stageWrite_wf
    | with_reducible apply State.stepScribes_wf
    | with_reducible apply State.storedState_wf
    | with_reducible apply State.transFault_wf
    | with_reducible apply State.zeroTail_wf
    | with_reducible apply parkWf_of
    | with_reducible refine optWf_of (by assumption) ?_
    | with_reducible refine accWf_of (by assumption) ?_
    | with_reducible refine accFst_of (by assumption) ?_
    | with_reducible refine optFst_of (by assumption) ?_
    | with_reducible refine optFst_of2 (by assumption) ?_
    | with_reducible refine fstWf_of (by assumption) ?_
    | with_reducible refine sndWf_of (by assumption) ?_
    | (extract_lets +onlyGivenNames x; refine carry (p := x.canon) ?_ ?_; (on_goal 1 => subst x); (on_goal 2 => clear_value x; intro hx))
    | (extract_lets +onlyGivenNames x; clear_value x)
    | split
    | with_reducible apply wf_mk)

theorem execStagingInstall_wf {seq : Nat} {ok : Bool} {s : State} (h_s : State.wf s = true) : OutWf (execStagingInstall seq ok s) := by
  unfold execStagingInstall
  repeat' (first
    | with_reducible assumption
    | with_reducible apply State.stageInstall_wf
    | with_reducible apply outWf_next)

theorem execAttentionCutoff_wf {s : State} (h_s : State.wf s = true) : OutWf (execAttentionCutoff s) := by
  unfold execAttentionCutoff
  repeat' (first
    | with_reducible assumption
    | with_reducible apply State.stepScribes_wf
    | with_reducible apply outWf_next)

end Sys2Proof.Machine
end

