-- ==== Sys2Proof/Laws/Budget.lean ====
section
/-!
SUPPORT. What setting LEVEL of the write budget does (R259, R260).
-/

namespace Sys2Proof.Machine

open Sys2Proof

theorem State.preg_setPreg_same {s : State} (h : s.wf = true) (p : Page) (r : Nat) (v : Word) : (s.setPreg p r v).preg p r = v :=
  State.reg_setReg_same _ _ (keysRise_regs h)

/-- A 64-bit pattern put in two words is read back. -/
theorem halves (n : Nat) (h : n < 2 ^ 64) : (lo32 n).toNat + (hi32 n).toNat * 2 ^ 32 = n := by
  unfold lo32 hi32
  rw [BitVec.toNat_ofNat, BitVec.toNat_ofNat]
  omega

theorem signed_unsigned (v : Int) (h : -(2 : Int) ^ 63 ≤ v) (h2 : v < (2 : Int) ^ 63) : signed 64 (unsigned 64 v) = v := by
  unfold signed unsigned
  split <;> omega

/-- Offsets that setting LEVEL may write. -/
def levelRegs : List Nat := [Page.deep.base + 0x100, Page.deep.base + 0x108, Page.deep.base + 0x10C]

/-- The state after LEVEL and EXHAUSTED are stored, before the interrupt. -/
def State.levelStored (s : State) (v : Int) : State :=
  ((s.setPreg .deep 0x108 (lo32 (unsigned 64 v))).setPreg .deep 0x10C (hi32 (unsigned 64 v))).setPreg .deep 0x100
    (wassign (s.preg .deep 0x100) 8 (decide (v < s.budgetReserve)))

theorem State.levelStored_reg (s : State) (v : Int) {o : Nat} (h : o ∉ levelRegs) : (s.levelStored v).reg o = s.reg o := by
  simp only [levelRegs, List.mem_cons, List.not_mem_nil, or_false, not_or] at h
  unfold State.levelStored
  rw [State.setPreg, State.reg_setReg_ne _ h.1, State.setPreg, State.reg_setReg_ne _ h.2.2, State.setPreg, State.reg_setReg_ne _ h.2.1]

theorem State.levelStored_rest (s : State) (v : Int) : (s.levelStored v).rest = s.rest := by
  unfold State.levelStored
  rw [State.setPreg_rest, State.setPreg_rest, State.setPreg_rest]

theorem State.levelStored_out (s : State) (v : Int) : (s.levelStored v).out = s.out := by
  unfold State.levelStored
  simp only [State.setPreg_out]

theorem State.levelStored_wf {s : State} (h : s.wf = true) (v : Int) : (s.levelStored v).wf = true :=
  State.setPreg_wf (State.setPreg_wf (State.setPreg_wf h))

theorem State.levelStored_stat {s : State} (h : s.wf = true) (v : Int) :
    (s.levelStored v).preg .deep 0x100 = wassign (s.preg .deep 0x100) 8 (decide (v < s.budgetReserve)) :=
  State.preg_setPreg_same (State.setPreg_wf (State.setPreg_wf h)) _ _ _

theorem State.levelStored_lo {s : State} (h : s.wf = true) (v : Int) : (s.levelStored v).preg .deep 0x108 = lo32 (unsigned 64 v) := by
  unfold State.levelStored State.preg
  rw [State.setPreg, State.reg_setReg_ne _ (by decide), State.setPreg, State.reg_setReg_ne _ (by decide)]
  exact State.preg_setPreg_same h _ _ _

theorem State.levelStored_hi {s : State} (h : s.wf = true) (v : Int) : (s.levelStored v).preg .deep 0x10C = hi32 (unsigned 64 v) := by
  unfold State.levelStored State.preg
  rw [State.setPreg, State.reg_setReg_ne _ (by decide)]
  exact State.preg_setPreg_same (State.setPreg_wf h) _ _ _

theorem State.setLevel_eq (s : State) (v : Int) :
    s.setLevel v = if decide (v < s.budgetReserve) && !wbit (s.preg .deep 0x100) 8 then (s.levelStored v).irq .deep 2 else s.levelStored v := by
  have hr : (s.setPreg64 .deep 0x108 0x10C (unsigned 64 v)).preg .deep 0x104 = s.preg .deep 0x104 := by
    unfold State.setPreg64 State.preg
    rw [State.setPreg, State.reg_setReg_ne _ (by decide), State.setPreg, State.reg_setReg_ne _ (by decide)]
  have hs : (s.setPreg64 .deep 0x108 0x10C (unsigned 64 v)).preg .deep 0x100 = s.preg .deep 0x100 := by
    unfold State.setPreg64 State.preg
    rw [State.setPreg, State.reg_setReg_ne _ (by decide), State.setPreg, State.reg_setReg_ne _ (by decide)]
  unfold State.setLevel State.levelStored
  dsimp only
  rw [hs]
  unfold State.budgetReserve
  rw [hr]
  rfl

/-- LEVEL, EXHAUSTED and the rest of DEEP_STAT after LEVEL is set, and everything that may differ. -/
theorem State.setLevel_spec {s : State} (h : s.wf = true) (v : Int) (lo : -(2 : Int) ^ 63 ≤ v) (hi : v < (2 : Int) ^ 63) :
    (s.setLevel v).level = v ∧ (s.setLevel v).preg .deep 0x100 = wassign (s.preg .deep 0x100) 8 (decide (v < s.budgetReserve)) ∧
      (∀ o : Nat, o ∉ levelRegs → o ≠ Page.deep.base + 0x010 → ¬inPba o → (s.setLevel v).reg o = s.reg o) ∧ (s.setLevel v).rest = s.rest ∧
      ∃ xs : List Output, (s.setLevel v).out = xs ++ s.out ∧ ∀ x ∈ xs, ∃ n, x = Output.msix n := by
  have lv : ∀ t : State, t.preg .deep 0x108 = lo32 (unsigned 64 v) → t.preg .deep 0x10C = hi32 (unsigned 64 v) → t.level = v := by
    intro t h1 h2
    unfold State.level State.preg64
    rw [h1, h2, halves _ (by unfold unsigned; omega)]
    exact signed_unsigned v lo hi
  rw [State.setLevel_eq]
  split
  · obtain ⟨_, h2, h3, h4⟩ := State.setIrq_raises (State.levelStored_wf h v) .deep (wset ((s.levelStored v).preg .deep 0x010) 2)
    have r : ∀ k : Nat, k ≠ 0x010 → k < 0x800 → ((s.levelStored v).irq .deep 2).preg .deep k = (s.levelStored v).preg .deep k := fun k hk hk2 =>
      h2 (Page.deep.base + k) (by omega) (Page.header_not_pba _ hk2)
    rw [State.levelStored_out] at h4
    refine ⟨lv ((s.levelStored v).irq .deep 2) ?_ ?_, ?_, ?_, h3.trans (State.levelStored_rest s v), h4⟩
    · rw [r _ (by decide) (by decide), State.levelStored_lo h]
    · rw [r _ (by decide) (by decide), State.levelStored_hi h]
    · rw [r _ (by decide) (by decide), State.levelStored_stat h]
    · intro o ho h0 hp
      exact (h2 o h0 hp).trans (State.levelStored_reg s v ho)
  · exact ⟨lv _ (State.levelStored_lo h v) (State.levelStored_hi h v), State.levelStored_stat h v,
      fun o ho _ _ => State.levelStored_reg s v ho, State.levelStored_rest s v, [], State.levelStored_out s v, by simp⟩

end Sys2Proof.Machine
end

