-- ==== Sys2Proof/Laws/WfCadence.lean ====
section
/-!
SUPPORT. Every operation of Machine/Cadence.lean keeps the canonical form of memory and registers.
-/

namespace Sys2Proof.Machine

open Sys2Proof

theorem State.setRef_wf {s : State} {r : Nat} (h_s : State.wf s = true) : State.wf (State.setRef s r) = true := by
  unfold State.setRef
  repeat' (first
    | with_reducible assumption
    | with_reducible apply State.putPreg_wf)

theorem State.enterLock_wf {s : State} {st : Nat} (h_s : State.wf s = true) : State.wf (State.enterLock s st) = true := by
  unfold State.enterLock
  repeat' (first
    | with_reducible assumption
    | with_reducible apply wf_ite
    | with_reducible apply State.irq_wf
    | with_reducible apply State.putPreg_wf
    | (extract_lets +onlyGivenNames x; refine carry (p := x.canon) ?_ ?_; (on_goal 1 => subst x); (on_goal 2 => clear_value x; intro hx))
    | (extract_lets +onlyGivenNames x; clear_value x)
    | split
    | with_reducible apply wf_mk)

theorem State.cadenceRecord_wf {s : State} {code : Nat} (h_s : State.wf s = true) : State.wf (State.cadenceRecord s code) = true := by
  unfold State.cadenceRecord
  repeat' (first
    | with_reducible assumption
    | with_reducible apply State.report_wf)

theorem State.setPtpOk_wf {s : State} {n : Nat} {ok : Bool} (h_s : State.wf s = true) : State.wf (State.setPtpOk s n ok) = true := by
  unfold State.setPtpOk
  repeat' (first
    | with_reducible assumption
    | with_reducible apply wf_ite
    | with_reducible apply State.setPreg_wf
    | (extract_lets +onlyGivenNames x; clear_value x)
    | split
    | with_reducible apply wf_mk)

theorem State.cadenceCommitted_wf {s : State} (h_s : State.wf s = true) : State.wf (State.cadenceCommitted s) = true := by
  unfold State.cadenceCommitted
  repeat' (first
    | with_reducible assumption
    | with_reducible apply wf_ite
    | with_reducible apply State.enterLock_wf
    | with_reducible apply State.setRef_wf
    | with_reducible apply parkWf_of
    | (extract_lets +onlyGivenNames x; refine carry (p := x.canon) ?_ ?_; (on_goal 1 => subst x); (on_goal 2 => clear_value x; intro hx))
    | (extract_lets +onlyGivenNames x; clear_value x)
    | split
    | with_reducible apply wf_mk)

theorem State.steer_wf {s : State} {d : Int} (h_s : State.wf s = true) : State.wf (State.steer s d) = true := by
  unfold State.steer
  repeat' (first
    | with_reducible assumption
    | (with_reducible intro _; try beta_reduce)
    | with_reducible apply wf_ite
    | with_reducible apply State.setPreg_wf
    | with_reducible apply State.useFree_wf
    | with_reducible apply parkWf_of
    | (extract_lets +onlyGivenNames x; refine carry (p := x.canon) ?_ ?_; (on_goal 1 => subst x); (on_goal 2 => clear_value x; intro hx))
    | (extract_lets +onlyGivenNames x; clear_value x)
    | split)

theorem State.setPending_wf {s : State} {b : Bool} (h_s : State.wf s = true) : State.wf (State.setPending s b) = true := by
  unfold State.setPending
  repeat' (first
    | with_reducible assumption
    | with_reducible apply wf_ite
    | with_reducible apply State.irq_wf
    | with_reducible apply State.setPreg_wf
    | with_reducible apply parkWf_of
    | split)

theorem State.measure_wf {s : State} {count : DWord} (h_s : State.wf s = true) : State.wf (State.measure s count) = true := by
  unfold State.measure
  repeat' (first
    | with_reducible assumption
    | with_reducible apply wf_ite
    | with_reducible apply State.cadenceRecord_wf
    | with_reducible apply State.count_wf
    | with_reducible apply State.enterLock_wf
    | with_reducible apply State.setPending_wf
    | with_reducible apply State.setPreg_wf
    | with_reducible apply State.steer_wf
    | with_reducible apply parkWf_of
    | (extract_lets +onlyGivenNames x; refine carry (p := x.canon) ?_ ?_; (on_goal 1 => subst x); (on_goal 2 => clear_value x; intro hx))
    | (extract_lets +onlyGivenNames x; clear_value x)
    | split
    | with_reducible apply wf_mk)

theorem State.ptpMessage_wf {s : State} {port : Nat} {head : PtpHead} {t gm : Nat} (h_s : State.wf s = true) : State.wf (State.ptpMessage s port head t gm) = true := by
  unfold State.ptpMessage
  repeat' (first
    | with_reducible assumption
    | with_reducible apply wf_ite
    | with_reducible apply State.measure_wf
    | with_reducible apply State.setPreg64_wf
    | with_reducible apply State.setPtpOk_wf
    | with_reducible apply State.setRef_wf
    | with_reducible apply parkWf_of
    | (extract_lets +onlyGivenNames x; refine carry (p := x.canon) ?_ ?_; (on_goal 1 => subst x); (on_goal 2 => clear_value x; intro hx))
    | (extract_lets +onlyGivenNames x; clear_value x)
    | split)

theorem execPtpEventMessage_wf {port : Nat} {head : PtpHead} {time gm : Nat} {s : State} (h_s : State.wf s = true) : OutWf (execPtpEventMessage port head time gm s) := by
  unfold execPtpEventMessage
  repeat' (first
    | with_reducible assumption
    | with_reducible apply outWf_ite
    | with_reducible apply outWf_fault
    | with_reducible apply State.ptpMessage_wf
    | with_reducible apply outWf_next)

theorem State.lockAcquired_wf {s : State} (h_s : State.wf s = true) : State.wf (State.lockAcquired s) = true := by
  unfold State.lockAcquired
  repeat' (first
    | with_reducible assumption
    | with_reducible apply wf_ite
    | with_reducible apply State.ageSince_wf
    | with_reducible apply State.enterLock_wf
    | with_reducible apply State.setPreg_wf)

theorem execLockAcquired_wf {s : State} (h_s : State.wf s = true) : OutWf (execLockAcquired s) := by
  unfold execLockAcquired
  repeat' (first
    | with_reducible assumption
    | with_reducible apply State.lockAcquired_wf
    | with_reducible apply outWf_next)

theorem State.refLost_wf {s : State} {r : Nat} (h_s : State.wf s = true) : State.wf (State.refLost s r) = true := by
  unfold State.refLost
  repeat' (first
    | with_reducible assumption
    | with_reducible apply wf_ite
    | with_reducible apply State.cadenceRecord_wf
    | with_reducible apply State.enterLock_wf
    | with_reducible apply State.setPtpOk_wf
    | with_reducible apply State.setRef_wf
    | with_reducible apply parkWf_of
    | (extract_lets +onlyGivenNames x; refine carry (p := x.canon) ?_ ?_; (on_goal 1 => subst x); (on_goal 2 => clear_value x; intro hx))
    | (extract_lets +onlyGivenNames x; clear_value x)
    | split
    | with_reducible apply wf_mk)

theorem execReferenceLossTimeout_wf {r : Nat} {s : State} (h_s : State.wf s = true) : OutWf (execReferenceLossTimeout r s) := by
  unfold execReferenceLossTimeout
  repeat' (first
    | with_reducible assumption
    | with_reducible apply State.refLost_wf
    | with_reducible apply outWf_next)

theorem execHoldoverExpiry_wf {s : State} (h_s : State.wf s = true) : OutWf (execHoldoverExpiry s) := by
  unfold execHoldoverExpiry
  repeat' (first
    | with_reducible assumption
    | with_reducible apply wf_ite
    | with_reducible apply State.cadenceRecord_wf
    | with_reducible apply State.enterLock_wf
    | with_reducible apply outWf_next)

theorem execPortFailback_wf {s : State} (h_s : State.wf s = true) : OutWf (execPortFailback s) := by
  unfold execPortFailback
  repeat' (first
    | with_reducible assumption
    | with_reducible apply wf_ite
    | with_reducible apply State.setRef_wf
    | with_reducible apply outWf_next)

theorem State.cadenceEdge_wf {s : State} (h_s : State.wf s = true) : State.wf (State.cadenceEdge s) = true := by
  unfold State.cadenceEdge
  repeat' (first
    | with_reducible assumption
    | with_reducible apply wf_ite
    | with_reducible apply State.measure_wf
    | with_reducible apply State.setRef_wf
    | with_reducible apply parkWf_of
    | with_reducible refine optWf_of (by assumption) ?_
    | with_reducible refine optFst_of (by assumption) ?_
    | with_reducible refine optFst_of2 (by assumption) ?_
    | with_reducible refine fstWf_of (by assumption) ?_
    | with_reducible refine sndWf_of (by assumption) ?_
    | (extract_lets +onlyGivenNames x; refine carry (p := x.canon) ?_ ?_; (on_goal 1 => subst x); (on_goal 2 => clear_value x; intro hx))
    | (extract_lets +onlyGivenNames x; clear_value x)
    | split
    | with_reducible apply wf_mk)

theorem execCadenceInEdge_wf {s : State} (h_s : State.wf s = true) : OutWf (execCadenceInEdge s) := by
  unfold execCadenceInEdge
  repeat' (first
    | with_reducible assumption
    | with_reducible apply State.cadenceEdge_wf
    | with_reducible apply outWf_next)

theorem State.cadenceLoad_wf {s : State} {hi : Bool} {v : Word} (h_s : State.wf s = true) : State.wf (State.cadenceLoad s hi v) = true := by
  unfold State.cadenceLoad
  repeat' (first
    | with_reducible assumption
    | with_reducible apply wf_ite
    | with_reducible apply State.refuseReg_wf
    | (extract_lets +onlyGivenNames x; clear_value x)
    | split
    | with_reducible apply wf_mk)

theorem execCadenceLoad_wf {v : DWord} {s : State} (h_s : State.wf s = true) : OutWf (execCadenceLoad v s) := by
  unfold execCadenceLoad
  repeat' (first
    | with_reducible assumption
    | with_reducible apply State.cadenceLoad_wf
    | with_reducible apply outWf_next)

theorem State.alarm_wf {s : State} {n : Nat} (h_s : State.wf s = true) : State.wf (State.alarm s n) = true := by
  unfold State.alarm
  repeat' (first
    | with_reducible assumption
    | with_reducible apply wf_ite
    | with_reducible apply State.irq_wf
    | with_reducible apply State.setPreg_wf)

theorem execCadenceAlarm_wf {n : Nat} {s : State} (h_s : State.wf s = true) : OutWf (execCadenceAlarm n s) := by
  unfold execCadenceAlarm
  repeat' (first
    | with_reducible assumption
    | with_reducible apply State.alarm_wf
    | with_reducible apply outWf_next)

theorem State.ethLink_wf {s : State} {port mode : Nat} (h_s : State.wf s = true) : State.wf (State.ethLink s port mode) = true := by
  unfold State.ethLink
  repeat' (first
    | with_reducible assumption
    | with_reducible apply wf_ite
    | with_reducible apply State.irq_wf
    | with_reducible apply State.putPreg_wf
    | with_reducible apply State.setPtpOk_wf
    | with_reducible apply State.setRef_wf)

theorem execEthLinkChange_wf {port mode : Nat} {s : State} (h_s : State.wf s = true) : OutWf (execEthLinkChange port mode s) := by
  unfold execEthLinkChange
  repeat' (first
    | with_reducible assumption
    | with_reducible apply State.ethLink_wf
    | with_reducible apply outWf_next)

end Sys2Proof.Machine
end

