-- ==== Sys2Proof/Laws/WfTiers.lean ====
section
/-!
SUPPORT. Every operation of Machine/Tiers.lean keeps the canonical form of memory and registers.
-/

namespace Sys2Proof.Machine

open Sys2Proof

theorem State.setTierState_wf {s : State} {t v : Nat} (h_s : State.wf s = true) : State.wf (State.setTierState s t v) = true := by
  unfold State.setTierState
  repeat' (first
    | with_reducible assumption
    | with_reducible apply wf_ite
    | with_reducible apply State.irq_wf
    | with_reducible apply State.putPreg_wf)

theorem State.showFree_wf {s : State} (h_s : State.wf s = true) : State.wf (State.showFree s) = true := by
  unfold State.showFree
  repeat' (first
    | with_reducible assumption
    | with_reducible apply State.setPreg_wf)

theorem State.placeOn_wf {s : State} {need : Bool} {ts : List Nat} (h_s : State.wf s = true) : OptFst (State.placeOn s need ts) := by
  unfold State.placeOn
  repeat' (first
    | with_reducible assumption
    | (with_reducible intro _; try beta_reduce)
    | with_reducible apply State.useFree_wf
    | with_reducible apply optFstAny_bind
    | with_reducible apply optFstAny_map
    | with_reducible apply fstWf_mk
    | with_reducible apply wf_mk)

theorem State.placeDeep_wf {s : State} (h_s : State.wf s = true) : OptFst (State.placeDeep s) := by
  unfold State.placeDeep
  repeat' (first
    | with_reducible assumption
    | (with_reducible intro _; try beta_reduce)
    | with_reducible apply State.useFree_wf
    | with_reducible apply optFstAny_map
    | with_reducible apply fstWf_mk
    | with_reducible apply wf_mk)

theorem State.clearPage_wf {s : State} {page : Nat} (h_s : s.wf) : (s.clearPage page).wf :=
  wf_intro (memory_filter _ (wf_memory h_s)) (show RegFile.wf s.isH s.regs from wf_regs h_s)

theorem foldl_memory {α : Type} {f : List Host.Cell → α → List Host.Cell} {l : List α} {m : List Host.Cell} (h : Memory.wf m)
    (hf : ∀ m a, Memory.wf m → Memory.wf (f m a)) : Memory.wf (l.foldl f m) := by
  induction l generalizing m with
  | nil => exact h
  | cons a l ih => exact ih (hf m a h)

theorem State.copyPage_wf {s : State} {src dst : Nat} (h_s : s.wf) : (s.copyPage src dst).wf :=
  wf_intro (foldl_memory (wf_memory (State.clearPage_wf h_s)) (fun _ _ h => memory_putByte _ _ h))
    (show RegFile.wf s.isH s.regs from wf_regs h_s)

theorem State.landedAll_wf {s : State} {hs : List (Nat × Nat)} (h_s : State.wf s = true) : State.wf (State.landedAll s hs) = true := by
  unfold State.landedAll
  repeat' (first
    | with_reducible assumption
    | (with_reducible intro _; try beta_reduce)
    | with_reducible apply State.landed_wf
    | with_reducible apply foldl_wf)

theorem State.weightError_wf {s : State} {code role i : Nat} (h_s : State.wf s = true) : State.wf (State.weightError s code role i) = true := by
  unfold State.weightError
  repeat' (first
    | with_reducible assumption
    | with_reducible apply State.report_wf)

theorem State.putSlotPage_wf {s : State} {slot p : Nat} {bs : List Byte} (h_s : State.wf s = true) : State.wf (State.putSlotPage s slot p bs) = true := by
  unfold State.putSlotPage
  repeat' (first
    | with_reducible assumption
    | with_reducible apply State.flashProgram_wf
    | with_reducible apply State.writePa_wf
    | (extract_lets +onlyGivenNames x; refine carry (p := x.canon) ?_ ?_; (on_goal 1 => subst x); (on_goal 2 => clear_value x; intro hx))
    | (extract_lets +onlyGivenNames x; clear_value x)
    | with_reducible apply wf_mk)

theorem State.flashPageFails_wf {s : State} {page : Nat} {ok : Bool} {job : Option Nat} (h_s : State.wf s = true) : State.wf (State.flashPageFails s page ok job) = true := by
  unfold State.flashPageFails
  repeat' (first
    | with_reducible assumption
    | with_reducible apply wf_ite
    | with_reducible apply Parker.page_wf
    | with_reducible apply State.flashRead_wf
    | with_reducible apply State.putSlotPage_wf
    | with_reducible apply State.report_wf
    | with_reducible apply State.weightError_wf
    | with_reducible refine optWf_of (by assumption) ?_
    | with_reducible refine optFst_of (by assumption) ?_
    | with_reducible refine optFst_of2 (by assumption) ?_
    | with_reducible refine fstWf_of (by assumption) ?_
    | with_reducible refine sndWf_of (by assumption) ?_
    | (extract_lets +onlyGivenNames x; refine carry (p := x.canon) ?_ ?_; (on_goal 1 => subst x); (on_goal 2 => clear_value x; intro hx))
    | (extract_lets +onlyGivenNames x; clear_value x)
    | split
    | with_reducible apply wf_mk)

theorem State.countMove_wf {s : State} {a b : Nat} (h_s : State.wf s = true) : State.wf (State.countMove s a b) = true := by
  unfold State.countMove
  repeat' (first
    | with_reducible assumption
    | with_reducible apply wf_ite
    | with_reducible apply State.count64_wf)

theorem State.restage_wf {s : State} {src dst : Nat} (h_s : State.wf s = true) : State.wf (State.restage s src dst) = true := by
  unfold State.restage
  repeat' (first
    | with_reducible assumption
    | (with_reducible intro _; try beta_reduce)
    | with_reducible apply wf_ite
    | with_reducible apply fst_wf
    | with_reducible apply snd_wf
    | with_reducible apply parkWf_of
    | split
    | with_reducible apply wf_mk)

theorem State.releaseDram_wf {s : State} {page : Nat} (h_s : State.wf s = true) : State.wf (State.releaseDram s page) = true := by
  unfold State.releaseDram
  repeat' (first
    | with_reducible assumption
    | with_reducible apply State.dropPage_wf
    | (extract_lets +onlyGivenNames x; refine carry (p := x.canon) ?_ ?_; (on_goal 1 => subst x); (on_goal 2 => clear_value x; intro hx))
    | split
    | with_reducible apply wf_mk)

theorem State.carryClean_wf {s : State} {src dst : Nat} (h_s : State.wf s = true) : State.wf (State.carryClean s src dst) = true := by
  unfold State.carryClean
  repeat' (first
    | with_reducible assumption
    | with_reducible apply wf_ite
    | with_reducible refine optWf_of (by assumption) ?_
    | with_reducible refine optFst_of (by assumption) ?_
    | with_reducible refine optFst_of2 (by assumption) ?_
    | with_reducible refine fstWf_of (by assumption) ?_
    | with_reducible refine sndWf_of (by assumption) ?_
    | split
    | with_reducible apply wf_mk)

theorem State.shift_wf {s : State} {l : Leaf} {dst : Nat} (h_s : State.wf s = true) : State.wf (State.shift s l dst) = true := by
  unfold State.shift
  repeat' (first
    | with_reducible assumption
    | (with_reducible intro _; try beta_reduce)
    | with_reducible apply wf_ite
    | with_reducible apply Parker.page_wf
    | with_reducible apply State.carryClean_wf
    | with_reducible apply State.copyPage_wf
    | with_reducible apply State.countMove_wf
    | with_reducible apply State.dropPage_wf
    | with_reducible apply State.eachLeaf_wf
    | with_reducible apply State.flashProgram_wf
    | with_reducible apply State.programOther_wf
    | with_reducible apply State.releaseDram_wf
    | with_reducible apply State.restage_wf
    | with_reducible apply State.served_wf
    | with_reducible apply State.showFree_wf
    | with_reducible apply getD_wf
    | with_reducible apply getD_wf
    | with_reducible apply parkWf_of
    | with_reducible refine optWf_of (by assumption) ?_
    | with_reducible refine optFst_of (by assumption) ?_
    | with_reducible refine optFst_of2 (by assumption) ?_
    | with_reducible refine fstWf_of (by assumption) ?_
    | with_reducible refine sndWf_of (by assumption) ?_
    | (extract_lets +onlyGivenNames x; refine carry (p := x.canon) ?_ ?_; (on_goal 1 => subst x); (on_goal 2 => clear_value x; intro hx))
    | (extract_lets +onlyGivenNames x; clear_value x)
    | split
    | with_reducible apply wf_mk)

theorem State.demoteFree_wf {s : State} {l : Leaf} {dest : Nat} (h_s : State.wf s = true) : OptWf (State.demoteFree s l dest) := by
  unfold State.demoteFree
  repeat' (first
    | with_reducible assumption
    | (with_reducible intro _; try beta_reduce)
    | with_reducible apply State.countMove_wf
    | with_reducible apply State.dropPage_wf
    | with_reducible apply State.eachLeaf_wf
    | with_reducible apply State.releaseDram_wf
    | with_reducible apply State.showFree_wf
    | with_reducible apply optWf_none
    | with_reducible apply optWf_ite
    | with_reducible apply optAny_map
    | (extract_lets +onlyGivenNames x; refine carry (p := x.canon) ?_ ?_; (on_goal 1 => subst x); (on_goal 2 => clear_value x; intro hx))
    | with_reducible apply wf_mk)

theorem optWf_when {c : Prop} [Decidable c] {o : Option State} (h : OptWf o) : OptWf (if c then o else none) := optWf_ite h optWf_none

theorem State.evictFrom_wf {s : State} {ts : List Nat} (h_s : s.wf) : OptWf (s.evictFrom ts) := by
  refine findSome_wf (fun e => ?_)
  dsimp only
  split
  · exact optWf_some (optWf_of (by assumption) (optWf_when (State.demoteFree_wf h_s)))
  · split
    · exact optWf_some (State.shift_wf (optFst_of2 (by assumption) (optFst_ite (State.placeOn_wf h_s) optFst_none)))
    · refine optWf_ite optWf_none ?_
      split
      · exact optWf_some (optWf_of (by assumption) (State.demoteFree_wf h_s))
      · refine optWf_when (fun t e => ?_)
        cases h : s.placeDeep with
        | none => rw [h] at e; cases e
        | some r =>
          rw [h] at e
          cases e
          exact State.shift_wf (State.placeDeep_wf h_s r h)

theorem State.placeEvict_wf {s : State} {ts : List Nat} (h_s : State.wf s = true) : OptFst (State.placeEvict s ts) := by
  unfold State.placeEvict
  split
  · exact fun x e => by cases e; exact optFst_of2 (by assumption) (State.placeOn_wf h_s)
  · exact optFst_bind (State.evictFrom_wf h_s) (fun _ h => State.placeOn_wf h)

theorem optFst_orElse {α : Type} {o : Option (State × α)} {f : Unit → Option (State × α)} (ho : OptFst o) (hf : OptFst (f ())) : OptFst (o.orElse f) := by
  cases o with
  | none => exact hf
  | some a => exact fun x e => by cases e; exact ho a rfl

theorem State.placeMove_wf {s : State} {m : Move} {l : Leaf} (h_s : State.wf s = true) : OptFst (State.placeMove s m l) := by
  unfold State.placeMove
  dsimp only
  split
  case h_6 => exact optFst_orElse (State.placeEvict_wf h_s) (optFst_ite (State.placeEvict_wf h_s) optFst_none)
  case h_7 => exact State.placeEvict_wf h_s
  all_goals first
    | exact optFst_ite (State.placeDeep_wf h_s) optFst_none
    | exact State.placeOn_wf h_s

theorem State.startMove_wf {s : State} {m : Move} (h_s : State.wf s = true) : OptWf (State.startMove s m) := by
  unfold State.startMove
  repeat' (first
    | with_reducible assumption
    | (with_reducible intro _; try beta_reduce)
    | with_reducible apply State.demoteFree_wf
    | with_reducible apply State.eachLeaf_wf
    | with_reducible apply State.placeMove_wf
    | with_reducible apply State.showMigrate_wf
    | with_reducible apply optWf_some
    | with_reducible apply optWf_none
    | with_reducible apply optWf_ite
    | with_reducible apply optPair_bind
    | with_reducible refine optWf_of (by assumption) ?_
    | (extract_lets +onlyGivenNames x; refine carry (p := x.canon) ?_ ?_; (on_goal 1 => subst x); (on_goal 2 => clear_value x; intro hx))
    | split
    | with_reducible apply wf_mk)

theorem State.mapMove_wf {s : State} {job vp : Nat} (h_s : State.wf s = true) : State.wf (State.mapMove s job vp) = true := by
  unfold State.mapMove
  repeat' (first
    | with_reducible assumption
    | with_reducible apply wf_ite
    | with_reducible apply State.queueMove_wf
    | with_reducible apply parkWf_of
    | with_reducible refine optWf_of (by assumption) ?_
    | with_reducible refine optFst_of (by assumption) ?_
    | with_reducible refine optFst_of2 (by assumption) ?_
    | with_reducible refine fstWf_of (by assumption) ?_
    | with_reducible refine sndWf_of (by assumption) ?_
    | split
    | with_reducible apply wf_mk)

theorem State.mapMoves_wf {s : State} (h_s : State.wf s = true) : State.wf (State.mapMoves s) = true := by
  unfold State.mapMoves
  repeat' (first
    | with_reducible assumption
    | (with_reducible intro _; try beta_reduce)
    | with_reducible apply State.mapMove_wf
    | with_reducible apply foldl_wf
    | with_reducible apply foldl_wf
    | with_reducible apply foldl_park)

theorem State.preferMoves_wf {s : State} (h_s : State.wf s = true) : State.wf (State.preferMoves s) = true := by
  unfold State.preferMoves
  repeat' (first
    | with_reducible assumption
    | (with_reducible intro _; try beta_reduce)
    | with_reducible apply wf_ite
    | with_reducible apply Parker.page_wf
    | with_reducible apply State.queueMove_wf
    | with_reducible apply foldl_wf
    | with_reducible apply foldl_wf
    | with_reducible apply fst_wf
    | with_reducible apply snd_wf
    | with_reducible apply foldl_park
    | split)

theorem State.keepFreeDie_wf {s : State} {d : Nat} (h_s : State.wf s = true) : State.wf (State.keepFreeDie s d) = true := by
  unfold State.keepFreeDie
  repeat' (first
    | with_reducible assumption
    | (with_reducible intro _; try beta_reduce)
    | with_reducible apply wf_ite
    | with_reducible apply Parker.page_wf
    | with_reducible apply State.queueMove_wf
    | with_reducible apply foldl_wf
    | with_reducible apply foldl_wf
    | with_reducible apply fst_wf
    | with_reducible apply snd_wf
    | with_reducible apply foldl_park
    | with_reducible refine optWf_of (by assumption) ?_
    | with_reducible refine optFst_of (by assumption) ?_
    | with_reducible refine optFst_of2 (by assumption) ?_
    | with_reducible refine fstWf_of (by assumption) ?_
    | with_reducible refine sndWf_of (by assumption) ?_
    | (extract_lets +onlyGivenNames x; refine carry (p := x.canon) ?_ ?_; (on_goal 1 => subst x); (on_goal 2 => clear_value x; intro hx))
    | (extract_lets +onlyGivenNames x; refine carry (p := x.1.canon) ?_ ?_; (on_goal 1 => subst x); (on_goal 2 => clear_value x; intro hx))
    | (extract_lets +onlyGivenNames x; clear_value x)
    | split
    | with_reducible apply wf_mk)

theorem State.keepFree_wf {s : State} (h_s : State.wf s = true) : State.wf (State.keepFree s) = true := by
  unfold State.keepFree
  repeat' (first
    | with_reducible assumption
    | with_reducible apply State.keepFreeDie_wf)

theorem State.moveStart_wf {s : State} (h_s : State.wf s = true) : State.wf (State.moveStart s) = true := by
  have h := State.keepFree_wf (State.preferMoves_wf (State.mapMoves_wf h_s))
  unfold State.moveStart
  dsimp only
  exact getD_wf (findSome_wf (fun _ => State.startMove_wf h)) h

theorem execMigrationMoveStart_wf {s : State} (h_s : State.wf s = true) : OutWf (execMigrationMoveStart s) := by
  unfold execMigrationMoveStart
  repeat' (first
    | with_reducible assumption
    | with_reducible apply State.moveStart_wf
    | with_reducible apply outWf_next)

theorem State.promotionFails_wf {s : State} {m : Move} {page : Nat} {ok : Bool} (h_s : State.wf s = true) : State.wf (State.promotionFails s m page ok) = true := by
  unfold State.promotionFails
  repeat' (first
    | with_reducible assumption
    | (with_reducible intro _; try beta_reduce)
    | with_reducible apply wf_ite
    | with_reducible apply Parker.page_wf
    | with_reducible apply State.abandonMove_wf
    | with_reducible apply State.flashPageFails_wf
    | with_reducible apply State.report_wf
    | with_reducible apply State.transFault_wf
    | with_reducible apply fst_wf
    | with_reducible apply snd_wf
    | with_reducible refine optWf_of (by assumption) ?_
    | with_reducible refine optFst_of (by assumption) ?_
    | with_reducible refine optFst_of2 (by assumption) ?_
    | with_reducible refine fstWf_of (by assumption) ?_
    | with_reducible refine sndWf_of (by assumption) ?_
    | (extract_lets +onlyGivenNames x; refine carry (p := x.canon) ?_ ?_; (on_goal 1 => subst x); (on_goal 2 => clear_value x; intro hx))
    | (extract_lets +onlyGivenNames x; refine carry (p := x.1.canon) ?_ ?_; (on_goal 1 => subst x); (on_goal 2 => clear_value x; intro hx))
    | (extract_lets +onlyGivenNames x; clear_value x)
    | split
    | with_reducible apply wf_mk)

theorem State.finishMove_wf {s : State} {m : Move} {ok : Bool} (h_s : State.wf s = true) : State.wf (State.finishMove s m ok) = true := by
  unfold State.finishMove
  repeat' (first
    | with_reducible assumption
    | with_reducible apply wf_ite
    | with_reducible apply State.abandonMove_wf
    | with_reducible apply State.flashRead_wf
    | with_reducible apply State.landedAll_wf
    | with_reducible apply State.promotionFails_wf
    | with_reducible apply State.shift_wf
    | with_reducible apply State.showMigrate_wf
    | split
    | with_reducible apply wf_mk)

theorem State.moveComplete_wf {s : State} {job vp : Nat} {ok : Bool} (h_s : State.wf s = true) : State.wf (State.moveComplete s job vp ok) = true := by
  unfold State.moveComplete
  repeat' (first
    | with_reducible assumption
    | with_reducible apply State.finishMove_wf
    | split)

theorem execMigrationMoveComplete_wf {job vpage : Nat} {ok : Bool} {s : State} (h_s : State.wf s = true) : OutWf (execMigrationMoveComplete job vpage ok s) := by
  unfold execMigrationMoveComplete
  repeat' (first
    | with_reducible assumption
    | with_reducible apply State.moveComplete_wf
    | with_reducible apply outWf_next)

theorem State.demandComplete_wf {s : State} {job vp : Nat} {ok : Bool} (h_s : State.wf s = true) : State.wf (State.demandComplete s job vp ok) = true := by
  unfold State.demandComplete
  dsimp only
  split
  · exact h_s
  · split
    · exact State.finishMove_wf h_s
    · split
      · exact h_s
      · have h := optWf_of (by assumption) (optWf_when (State.startMove_wf h_s))
        split
        · exact State.finishMove_wf h
        · exact h

theorem execDemandPromotionComplete_wf {job vpage : Nat} {ok : Bool} {s : State} (h_s : State.wf s = true) : OutWf (execDemandPromotionComplete job vpage ok s) := by
  unfold execDemandPromotionComplete
  repeat' (first
    | with_reducible assumption
    | with_reducible apply State.demandComplete_wf
    | with_reducible apply outWf_next)

theorem execDemandLate_wf {job vpage : Nat} {s : State} (h_s : State.wf s = true) : OutWf (execDemandLate job vpage s) := by
  unfold execDemandLate
  repeat' (first
    | with_reducible assumption
    | with_reducible apply wf_ite
    | with_reducible apply State.irq_wf
    | with_reducible apply outWf_next
    | with_reducible apply wf_mk)

theorem State.decayPage_wf {s : State} {k : Nat} {l : Leaf} (h_s : State.wf s = true) : State.wf (State.decayPage s k l) = true := by
  unfold State.decayPage
  repeat' (first
    | with_reducible assumption
    | with_reducible apply wf_ite
    | with_reducible apply State.queueMove_wf
    | with_reducible apply wf_mk)

theorem State.decay_wf {s : State} (h_s : State.wf s = true) : State.wf (State.decay s) = true := by
  unfold State.decay
  repeat' (first
    | with_reducible assumption
    | (with_reducible intro _; try beta_reduce)
    | with_reducible apply State.decayPage_wf
    | with_reducible apply State.keepFree_wf
    | with_reducible apply foldl_wf
    | (extract_lets +onlyGivenNames x; refine carry (p := x.canon) ?_ ?_; (on_goal 1 => subst x); (on_goal 2 => clear_value x; intro hx))
    | with_reducible apply wf_mk)

theorem execDecayInterval_wf {s : State} (h_s : State.wf s = true) : OutWf (execDecayInterval s) := by
  unfold execDecayInterval
  repeat' (first
    | with_reducible assumption
    | with_reducible apply State.decay_wf
    | with_reducible apply outWf_next)

theorem State.placeNew_wf {s : State} {vp cls aff : Nat} (h_s : s.wf) : OptFst (s.placeNew vp cls aff) := by
  have try_ : ∀ ts, OptFst (if cls = 0 then s.placeOn false ts else s.placeEvict ts) :=
    fun ts => optFst_ite (State.placeOn_wf h_s) (State.placeEvict_wf h_s)
  unfold State.placeNew
  dsimp only
  split
  · exact try_ _
  · exact try_ _
  · exact optFst_orElse (try_ _) (try_ _)
  · refine optFst_orElse (optFst_orElse (try_ _) (try_ _)) (optFst_ite (fun x e => ?_) optFst_none)
    cases h : s.placeDeep with
    | none => rw [h] at e; cases e
    | some r =>
      rw [h] at e
      cases e
      exact State.programOther_wf (State.flashProgram_wf (State.placeDeep_wf h_s r h))

theorem State.needTable_wf {s : State} {k : Nat} (h_s : State.wf s = true) : State.wf (State.needTable s k) = true := by
  unfold State.needTable
  repeat' (first
    | with_reducible assumption
    | with_reducible apply wf_ite
    | with_reducible apply State.useFree_wf
    | split
    | with_reducible apply wf_mk)

theorem State.addTable_wf {s : State} {job vp : Nat} (h_s : State.wf s = true) : State.wf (State.addTable s job vp) = true := by
  unfold State.addTable
  repeat' (first
    | with_reducible assumption
    | with_reducible apply State.needTable_wf)

theorem State.mapZero_wf {s : State} {job : Nat} {write : Bool} {cls aff vp n : Nat} (h_s : s.wf) : OptWf (s.mapZero job write cls aff vp n) := by
  induction n generalizing s vp with
  | zero => exact optWf_some h_s
  | succ n ih =>
    unfold State.mapZero
    exact optPair_bind (State.placeNew_wf h_s) (fun _ h => ih (State.setLeaf_wf (State.addTable_wf (State.served_wf (State.clearPage_wf h)))))

theorem State.mapWeight_wf {s : State} {job cls aff page vp n : Nat} (h_s : s.wf) : (s.mapWeight job cls aff page vp n).wf := by
  induction n generalizing s page vp with
  | zero => exact h_s
  | succ n ih =>
    unfold State.mapWeight
    exact ih (State.mapMove_wf (State.setLeaf_wf (State.addTable_wf h_s)))

theorem State.map__wf {s : State} {e : Entry} (h_s : State.wf s = true) : State.wf (State.map_ s e) = true := by
  unfold State.map_
  repeat' (first
    | with_reducible assumption
    | with_reducible apply wf_ite
    | with_reducible apply State.complete_wf
    | with_reducible apply State.mapWeight_wf
    | with_reducible apply State.mapZero_wf
    | with_reducible apply State.showFree_wf
    | with_reducible refine optWf_of (by assumption) ?_
    | (extract_lets +onlyGivenNames x; clear_value x)
    | split
    | with_reducible apply wf_mk)

theorem execMapPages_wf {r : Ring} {s : State} (h_s : State.wf s = true) : OutWf (execMapPages r s) := by
  unfold execMapPages
  repeat' (first
    | with_reducible assumption
    | (with_reducible intro _; try beta_reduce)
    | with_reducible apply State.map__wf
    | with_reducible apply State.onEntry_wf
    | with_reducible apply outWf_next)

theorem State.mapComplete_wf {s : State} (h_s : State.wf s = true) : State.wf (State.mapComplete s) = true := by
  unfold State.mapComplete
  repeat' (first
    | with_reducible assumption
    | with_reducible apply State.completeLater_wf
    | split
    | with_reducible apply wf_mk)

theorem execMapComplete_wf {s : State} (h_s : State.wf s = true) : OutWf (execMapComplete s) := by
  unfold execMapComplete
  repeat' (first
    | with_reducible assumption
    | with_reducible apply State.mapComplete_wf
    | with_reducible apply outWf_next)

theorem State.freeIfUnused_wf {s : State} {page : Nat} (h_s : State.wf s = true) : State.wf (State.freeIfUnused s page) = true := by
  unfold State.freeIfUnused
  repeat' (first
    | with_reducible assumption
    | with_reducible apply wf_ite
    | with_reducible apply Parker.page_wf
    | with_reducible apply State.dropPage_wf
    | with_reducible apply State.releaseDram_wf
    | with_reducible apply parkWf_of
    | split)

theorem State.leaveMove_wf {s : State} {job vp : Nat} (h_s : State.wf s = true) : State.wf (State.leaveMove s job vp) = true := by
  unfold State.leaveMove
  repeat' (first
    | with_reducible assumption
    | (with_reducible intro _; try beta_reduce)
    | with_reducible apply wf_ite
    | with_reducible apply Parker.page_wf
    | with_reducible apply State.abandonMove_wf
    | with_reducible apply fst_wf
    | with_reducible apply snd_wf
    | with_reducible refine optWf_of (by assumption) ?_
    | with_reducible refine optFst_of (by assumption) ?_
    | with_reducible refine optFst_of2 (by assumption) ?_
    | with_reducible refine fstWf_of (by assumption) ?_
    | with_reducible refine sndWf_of (by assumption) ?_
    | split
    | with_reducible apply wf_mk)

theorem State.unmapPage_wf {s : State} {job vp : Nat} (h_s : State.wf s = true) : State.wf (State.unmapPage s job vp) = true := by
  unfold State.unmapPage
  repeat' (first
    | with_reducible assumption
    | with_reducible apply Parker.page_wf
    | with_reducible apply State.freeIfUnused_wf
    | with_reducible apply State.landed_wf
    | with_reducible apply State.leaveMove_wf
    | with_reducible refine optWf_of (by assumption) ?_
    | with_reducible refine optFst_of (by assumption) ?_
    | with_reducible refine optFst_of2 (by assumption) ?_
    | with_reducible refine fstWf_of (by assumption) ?_
    | with_reducible refine sndWf_of (by assumption) ?_
    | (extract_lets +onlyGivenNames x; refine carry (p := x.canon) ?_ ?_; (on_goal 1 => subst x); (on_goal 2 => clear_value x; intro hx))
    | (extract_lets +onlyGivenNames x; clear_value x)
    | split
    | with_reducible apply wf_mk)

theorem State.unmap_wf {s : State} {e : Entry} (h_s : State.wf s = true) : State.wf (State.unmap s e) = true := by
  unfold State.unmap
  repeat' (first
    | with_reducible assumption
    | (with_reducible intro _; try beta_reduce)
    | with_reducible apply wf_ite
    | with_reducible apply State.complete_wf
    | with_reducible apply State.showFree_wf
    | with_reducible apply State.unmapPage_wf
    | with_reducible apply foldl_wf
    | (extract_lets +onlyGivenNames x; refine carry (p := x.canon) ?_ ?_; (on_goal 1 => subst x); (on_goal 2 => clear_value x; intro hx))
    | split)

theorem execUnmapPages_wf {r : Ring} {s : State} (h_s : State.wf s = true) : OutWf (execUnmapPages r s) := by
  unfold execUnmapPages
  repeat' (first
    | with_reducible assumption
    | (with_reducible intro _; try beta_reduce)
    | with_reducible apply State.onEntry_wf
    | with_reducible apply State.unmap_wf
    | with_reducible apply outWf_next)

theorem State.hint_wf {s : State} {e : Entry} (h_s : State.wf s = true) : State.wf (State.hint s e) = true := by
  unfold State.hint
  repeat' (first
    | with_reducible assumption
    | (with_reducible intro _; try beta_reduce)
    | with_reducible apply wf_ite
    | with_reducible apply State.complete_wf
    | with_reducible apply State.queueMove_wf
    | with_reducible apply foldl_wf
    | (extract_lets +onlyGivenNames x; clear_value x)
    | split)

theorem execMigrateHint_wf {r : Ring} {s : State} (h_s : State.wf s = true) : OutWf (execMigrateHint r s) := by
  unfold execMigrateHint
  repeat' (first
    | with_reducible assumption
    | (with_reducible intro _; try beta_reduce)
    | with_reducible apply State.hint_wf
    | with_reducible apply State.onEntry_wf
    | with_reducible apply outWf_next)

theorem State.evacuatePage_wf {s : State} {t k : Nat} (h_s : State.wf s = true) : State.wf (State.evacuatePage s t k) = true := by
  unfold State.evacuatePage
  dsimp only
  split
  · exact h_s
  · split
    · exact h_s
    · split
      · exact optWf_of (by assumption) (optWf_when (State.demoteFree_wf (wf_mk _ h_s)))
      · exact State.queueMove_wf (wf_mk _ h_s)

theorem State.evacuate_wf {s : State} {t : Nat} (h_s : State.wf s = true) : State.wf (State.evacuate s t) = true := by
  unfold State.evacuate
  repeat' (first
    | with_reducible assumption
    | (with_reducible intro _; try beta_reduce)
    | with_reducible apply Parker.page_wf
    | with_reducible apply State.abandonMove_wf
    | with_reducible apply State.dropPage_wf
    | with_reducible apply State.eachLeaf_wf
    | with_reducible apply State.evacuatePage_wf
    | with_reducible apply State.releaseDram_wf
    | with_reducible apply State.restage_wf
    | with_reducible apply State.setTierState_wf
    | with_reducible apply State.showMigrate_wf
    | with_reducible apply foldl_wf
    | with_reducible apply foldl_wf
    | with_reducible apply fst_wf
    | with_reducible apply snd_wf
    | with_reducible apply parkWf_of
    | with_reducible apply foldl_park
    | (extract_lets +onlyGivenNames x; refine carry (p := x.canon) ?_ ?_; (on_goal 1 => subst x); (on_goal 2 => clear_value x; intro hx))
    | (extract_lets +onlyGivenNames x; refine carry (p := x.1.canon) ?_ ?_; (on_goal 1 => subst x); (on_goal 2 => clear_value x; intro hx))
    | (extract_lets +onlyGivenNames x; clear_value x)
    | with_reducible apply wf_mk)

theorem State.retrain_wf {s : State} {t : Nat} {withdraw : Bool} (h_s : State.wf s = true) : State.wf (State.retrain s t withdraw) = true := by
  unfold State.retrain
  repeat' (first
    | with_reducible assumption
    | with_reducible apply wf_ite
    | with_reducible apply State.evacuate_wf
    | split
    | with_reducible apply wf_mk)

theorem execTierRetrainReq_wf {tier : Nat} {s : State} (h_s : State.wf s = true) : OutWf (execTierRetrainReq tier s) := by
  unfold execTierRetrainReq
  repeat' (first
    | with_reducible assumption
    | with_reducible apply State.retrain_wf
    | with_reducible apply outWf_next)

theorem State.marginReq_wf {s : State} {t : Nat} (h_s : State.wf s = true) : State.wf (State.marginReq s t) = true := by
  unfold State.marginReq
  repeat' (first
    | with_reducible assumption
    | with_reducible apply wf_ite
    | with_reducible apply State.setPreg_wf)

theorem execTierMarginReq_wf {tier : Nat} {s : State} (h_s : State.wf s = true) : OutWf (execTierMarginReq tier s) := by
  unfold execTierMarginReq
  repeat' (first
    | with_reducible assumption
    | with_reducible apply State.marginReq_wf
    | with_reducible apply outWf_next)

theorem State.marginCheck_wf {s : State} {t temp volt load : Nat} {pass noSpare : Bool} (h_s : State.wf s = true) : State.wf (State.marginCheck s t temp volt load pass noSpare) = true := by
  unfold State.marginCheck
  repeat' (first
    | with_reducible assumption
    | with_reducible apply wf_ite
    | with_reducible apply State.fwCommit_wf
    | with_reducible apply State.irq_wf
    | with_reducible apply State.retrain_wf
    | with_reducible apply State.setPreg_wf
    | with_reducible apply parkWf_of
    | (extract_lets +onlyGivenNames x; refine carry (p := x.canon) ?_ ?_; (on_goal 1 => subst x); (on_goal 2 => clear_value x; intro hx))
    | (extract_lets +onlyGivenNames x; clear_value x)
    | split
    | with_reducible apply wf_mk)

theorem execMarginCheck_wf {tier temp volt load : Nat} {pass noSpare : Bool} {s : State} (h_s : State.wf s = true) : OutWf (execMarginCheck tier temp volt load pass noSpare s) := by
  unfold execMarginCheck
  repeat' (first
    | with_reducible assumption
    | with_reducible apply State.marginCheck_wf
    | with_reducible apply outWf_next)

theorem State.nextTraining_wf {s : State} (h_s : State.wf s = true) : State.wf (State.nextTraining s) = true := by
  unfold State.nextTraining
  repeat' (first
    | with_reducible assumption
    | with_reducible apply wf_ite
    | with_reducible apply State.evacuate_wf
    | split)

theorem State.trained_wf {s : State} {t temp volt load repaired low : Nat} (h_s : State.wf s = true) : State.wf (State.trained s t temp volt load repaired low) = true := by
  unfold State.trained
  repeat' (first
    | with_reducible assumption
    | (with_reducible intro _; try beta_reduce)
    | with_reducible apply wf_ite
    | with_reducible apply State.fwCommit_wf
    | with_reducible apply State.irq_wf
    | with_reducible apply State.nextTraining_wf
    | with_reducible apply State.repaired_wf
    | with_reducible apply State.setPreg_wf
    | with_reducible apply State.setTierState_wf
    | with_reducible apply State.showFree_wf
    | with_reducible apply fst_wf
    | with_reducible apply parkWf_of
    | (extract_lets +onlyGivenNames x; refine carry (p := x.canon) ?_ ?_; (on_goal 1 => subst x); (on_goal 2 => clear_value x; intro hx))
    | (extract_lets +onlyGivenNames x; refine carry (p := x.1.canon) ?_ ?_; (on_goal 1 => subst x); (on_goal 2 => clear_value x; intro hx))
    | (extract_lets +onlyGivenNames x; clear_value x)
    | split
    | with_reducible apply wf_mk)

theorem execTierTrainingComplete_wf {tier temp volt load repaired low : Nat} {s : State} (h_s : State.wf s = true) : OutWf (execTierTrainingComplete tier temp volt load repaired low s) := by
  unfold execTierTrainingComplete
  repeat' (first
    | with_reducible assumption
    | with_reducible apply State.trained_wf
    | with_reducible apply outWf_next)

theorem State.stageStart_wf {s : State} (h_s : State.wf s = true) : State.wf (State.stageStart s) = true := by
  unfold State.stageStart
  repeat' (first
    | with_reducible assumption
    | (with_reducible intro _; try beta_reduce)
    | with_reducible apply wf_ite
    | with_reducible apply State.flashRead_wf
    | with_reducible apply State.startMove_wf
    | with_reducible apply parkWf_of
    | with_reducible refine optWf_of (by assumption) ?_
    | with_reducible refine optFst_of (by assumption) ?_
    | with_reducible refine optFst_of2 (by assumption) ?_
    | with_reducible refine fstWf_of (by assumption) ?_
    | with_reducible refine sndWf_of (by assumption) ?_
    | (extract_lets +onlyGivenNames x; refine carry (p := x.canon) ?_ ?_; (on_goal 1 => subst x); (on_goal 2 => clear_value x; intro hx))
    | (extract_lets +onlyGivenNames x; clear_value x)
    | split
    | with_reducible apply wf_mk)

theorem execStagingDescriptorStart_wf {s : State} (h_s : State.wf s = true) : OutWf (execStagingDescriptorStart s) := by
  unfold execStagingDescriptorStart
  repeat' (first
    | with_reducible assumption
    | with_reducible apply outWf_ite
    | with_reducible apply outWf_fault
    | with_reducible apply State.stageStart_wf
    | with_reducible apply parkWf_of
    | with_reducible apply outWf_next)

end Sys2Proof.Machine
end

