-- ==== Sys2Proof/Laws/WfPark.lean ====
section
/-!
SUPPORT. Every operation of Machine/Park.lean keeps the canonical form of memory and registers.
-/

namespace Sys2Proof.Machine

open Sys2Proof

theorem State.putPen_wf {s : State} {j : Job} {job pen : Nat} {r : List Byte} (h_s : State.wf s = true) : State.wf (State.putPen s j job pen r) = true := by
  unfold State.putPen
  repeat' (first
    | with_reducible assumption
    | with_reducible apply State.writeVa_wf
    | with_reducible refine accWf_of (by assumption) ?_
    | split)

theorem State.takePen_wf {s : State} {job : Nat} (h_s : State.wf s = true) : FstWf (State.takePen s job) := by
  unfold State.takePen
  repeat' (first
    | with_reducible assumption
    | with_reducible apply State.modArena_wf
    | with_reducible apply State.useFree_wf
    | split
    | with_reducible apply fstWf_mk)

theorem State.parkUnit_wf {s : State} {j : Job} {k : ListKey} {p key : Nat} {kv8 tail : Bool} {fill : Nat} {d : List Byte × List Byte × List Byte × List Byte} (h_s : State.wf s = true) : OptFst (State.parkUnit s j k p key kv8 tail fill d) := by
  unfold State.parkUnit
  repeat' (first
    | with_reducible assumption
    | (with_reducible intro _; try beta_reduce)
    | with_reducible apply wf_ite
    | with_reducible apply State.putPen_wf
    | with_reducible apply State.putUnit_wf
    | with_reducible apply State.takePen_wf
    | with_reducible apply State.useFree_wf
    | with_reducible apply optWf_ite
    | with_reducible apply optWf_some
    | with_reducible apply optWf_none
    | with_reducible apply optFst_ite
    | with_reducible apply optFst_some
    | with_reducible apply optFst_none
    | with_reducible apply optAny_map
    | with_reducible apply optWf_map
    | with_reducible apply optAny_bind
    | with_reducible apply optWf_bind
    | with_reducible apply optPair_bind
    | with_reducible apply optFstAny_bind
    | with_reducible apply optFstAny_map
    | with_reducible apply optFst_bind
    | with_reducible apply fstWf_ite
    | with_reducible apply fstWf_mk
    | with_reducible apply sndWf_ite
    | with_reducible apply sndWf_mk
    | with_reducible apply fst_wf
    | with_reducible apply snd_wf
    | (extract_lets +onlyGivenNames x; refine carry (p := x.canon) ?_ ?_; (on_goal 1 => subst x); (on_goal 2 => clear_value x; intro hx))
    | (extract_lets +onlyGivenNames x; refine carry (p := x.1.canon) ?_ ?_; (on_goal 1 => subst x); (on_goal 2 => clear_value x; intro hx))
    | (extract_lets +onlyGivenNames x; clear_value x)
    | split)

theorem Parker.unit_wf {a : Parker} {j : Job} {x : Stream} {key : Nat} {tail : Bool} {g : ListKey × Nat × Nat × Bool} (h_a : ParkWf a) :
    ParkWf (a.unit j x key tail g) := by
  have hs : a.s.wf := h_a
  unfold Parker.unit
  split
  · exact parkWf_mk hs
  · split
    · exact parkWf_mk (optFst_of2 (by assumption) (State.parkUnit_wf hs))
    · exact parkWf_mk hs

theorem Parker.page_wf {a : Parker} {j : Job} {x : Stream} {key : Nat} {full : Bool} {g : ListKey × Nat × Nat × Bool} (h_a : ParkWf a) :
    ParkWf (a.page j x key full g) := by
  have hs : a.s.wf := h_a
  unfold Parker.page
  split
  · exact parkWf_mk hs
  · exact Parker.unit_wf hs
  · split
    · exact Parker.unit_wf hs
    · split
      · exact parkWf_mk (State.takePen_wf hs)
      · exact parkWf_mk hs
  · exact parkWf_mk hs
  · exact parkWf_mk hs
  · exact parkWf_mk hs

theorem Parker.pack_wf {a : Parker} {j : Job} {job key : Nat} {rs : List (Nat × Nat × List Byte)} (h_a : ParkWf a) : ParkWf (a.pack j job key rs) := by
  have hs : a.s.wf := h_a
  unfold Parker.pack
  split
  · exact parkWf_mk hs
  · exact parkWf_mk (foldl_wf (State.putUnit_wf (State.useFree_wf hs)) (fun _ _ h => State.putPen_wf h))

theorem State.notParked_wf {s : State} {n : Nat} {x : Stream} (h_s : State.wf s = true) : State.wf (State.notParked s n x) = true := by
  unfold State.notParked
  repeat' (first
    | with_reducible assumption
    | with_reducible apply State.completeLater_wf
    | with_reducible apply State.count_wf
    | with_reducible apply State.setStream_wf
    | (extract_lets +onlyGivenNames x; refine carry (p := x.canon) ?_ ?_; (on_goal 1 => subst x); (on_goal 2 => clear_value x; intro hx))
    | (extract_lets +onlyGivenNames x; clear_value x)
    | split)

theorem State.parkPlan_wf {s : State} {j : Job} {x : Stream} {full : Bool} {ps : List (ListKey × Nat × Nat × Bool)} (h_s : State.wf s = true) :
    ParkWf (State.parkPlan s j x full ps) := by
  unfold State.parkPlan
  refine foldl_park (foldl_park h_s (fun _ _ h => Parker.page_wf h)) (fun _ _ h => ?_)
  split
  · exact h
  · exact Parker.pack_wf h

theorem State.parkWrite_wf {s : State} {n : Nat} (h_s : State.wf s = true) : State.wf (State.parkWrite s n) = true := by
  unfold State.parkWrite
  repeat' (first
    | with_reducible assumption
    | (with_reducible intro _; try beta_reduce)
    | with_reducible apply wf_ite
    | with_reducible apply State.count_wf
    | with_reducible apply State.modStream_wf
    | with_reducible apply State.notParked_wf
    | with_reducible apply State.parkPlan_wf
    | with_reducible apply State.setLevel_wf
    | with_reducible apply State.showFree_wf
    | with_reducible apply fst_wf
    | with_reducible apply snd_wf
    | with_reducible apply parkWf_of
    | with_reducible refine optWf_of (by assumption) ?_
    | with_reducible refine optFst_of (by assumption) ?_
    | with_reducible refine optFst_of2 (by assumption) ?_
    | with_reducible refine fstWf_of (by assumption) ?_
    | with_reducible refine sndWf_of (by assumption) ?_
    | (extract_lets +onlyGivenNames x; refine carry (p := x.canon) ?_ ?_; (on_goal 1 => subst x); (on_goal 2 => clear_value x; intro hx))
    | (extract_lets +onlyGivenNames x; refine carry (p := x.1.canon) ?_ ?_; (on_goal 1 => subst x); (on_goal 2 => clear_value x; intro hx))
    | (extract_lets +onlyGivenNames x; clear_value x)
    | split
    | with_reducible apply wf_mk)

theorem execParkWrite_wf {stream : Nat} {s : State} (h_s : State.wf s = true) : OutWf (execParkWrite stream s) := by
  unfold execParkWrite
  repeat' (first
    | with_reducible assumption
    | with_reducible apply State.parkWrite_wf
    | with_reducible apply outWf_next)

theorem State.showSets_wf {s : State} (h_s : State.wf s = true) : State.wf (State.showSets s) = true := by
  unfold State.showSets
  repeat' (first
    | with_reducible assumption
    | with_reducible apply State.setPreg_wf)

theorem State.commitSet_wf {s : State} {key : Nat} {x : ParkSet} (h_s : State.wf s = true) : State.wf (State.commitSet s key x) = true := by
  unfold State.commitSet
  repeat' (first
    | with_reducible assumption
    | with_reducible apply State.showSets_wf
    | with_reducible apply State.sweepUnits_wf
    | with_reducible apply wf_mk)

theorem State.deleteSet_wf {s : State} {key : Nat} (h_s : State.wf s = true) : State.wf (State.deleteSet s key) = true := by
  unfold State.deleteSet
  repeat' (first
    | with_reducible assumption
    | with_reducible apply State.showSets_wf
    | with_reducible apply State.sweepUnits_wf
    | with_reducible apply wf_mk)

theorem State.freeFrames_wf {s : State} {j : Job} {job n : Nat} {x : Stream} {v : ListKey → Nat → Nat} (h_s : State.wf s = true) : State.wf (State.freeFrames s j job n x v) = true := by
  unfold State.freeFrames
  repeat' (first
    | with_reducible assumption
    | (with_reducible intro _; try beta_reduce)
    | with_reducible apply State.modArena_wf
    | with_reducible apply State.setPte_wf
    | with_reducible apply foldl_wf)

theorem State.freeStream_wf {s : State} {n : Nat} (h_s : State.wf s = true) : State.wf (State.freeStream s n) = true := by
  unfold State.freeStream
  repeat' (first
    | with_reducible assumption
    | (with_reducible intro _; try beta_reduce)
    | with_reducible apply wf_ite
    | with_reducible apply State.freeFrames_wf
    | with_reducible apply State.issueStages_wf
    | with_reducible apply State.labDropStream_wf
    | with_reducible apply State.modArena_wf
    | with_reducible apply State.modJob_wf
    | with_reducible apply State.sweepUnits_wf
    | with_reducible apply foldl_wf
    | with_reducible apply foldl_wf
    | with_reducible apply parkWf_of
    | with_reducible apply foldl_park
    | with_reducible refine optWf_of (by assumption) ?_
    | with_reducible refine optFst_of (by assumption) ?_
    | with_reducible refine optFst_of2 (by assumption) ?_
    | with_reducible refine fstWf_of (by assumption) ?_
    | with_reducible refine sndWf_of (by assumption) ?_
    | with_reducible refine ranDone_of (by assumption) ?_
    | with_reducible refine ranWait_of (by assumption) ?_
    | (extract_lets +onlyGivenNames x; refine carry (p := x.canon) ?_ ?_; (on_goal 1 => subst x); (on_goal 2 => clear_value x; intro hx))
    | (extract_lets +onlyGivenNames x; clear_value x)
    | split
    | with_reducible apply wf_mk)

theorem State.parkComplete_wf {s : State} {n : Nat} (h_s : State.wf s = true) : State.wf (State.parkComplete s n) = true := by
  unfold State.parkComplete
  repeat' (first
    | with_reducible assumption
    | with_reducible apply wf_ite
    | with_reducible apply State.commitSet_wf
    | with_reducible apply State.completeLater_wf
    | with_reducible apply State.freeFrames_wf
    | with_reducible apply State.freeStream_wf
    | with_reducible apply State.issueStages_wf
    | with_reducible apply State.setStream_wf
    | with_reducible apply State.showFree_wf
    | (extract_lets +onlyGivenNames x; clear_value x)
    | split)

theorem execParkComplete_wf {stream : Nat} {s : State} (h_s : State.wf s = true) : OutWf (execParkComplete stream s) := by
  unfold execParkComplete
  repeat' (first
    | with_reducible assumption
    | with_reducible apply State.parkComplete_wf
    | with_reducible apply outWf_next)

end Sys2Proof.Machine
end

