-- ==== Sys2Proof/Laws/WfStreams.lean ====
section
/-!
SUPPORT. Every operation of Machine/Streams.lean keeps the canonical form of memory and registers.
-/

namespace Sys2Proof.Machine

open Sys2Proof

theorem State.preStage_wf {s : State} {n p deadline floor : Nat} {k : ListKey} (h_s : State.wf s = true) : State.wf (State.preStage s n p deadline floor k) = true := by
  unfold State.preStage
  repeat' (first
    | with_reducible assumption
    | with_reducible apply wf_ite
    | with_reducible apply State.askStage_wf
    | with_reducible apply State.transFault_wf
    | with_reducible apply State.useFree_wf
    | with_reducible refine accFst_of (by assumption) ?_
    | split)

theorem State.preStageRange_wf {s : State} {n lo hi deadline floor : Nat} (h_s : State.wf s = true) : State.wf (State.preStageRange s n lo hi deadline floor) = true := by
  unfold State.preStageRange
  repeat' (first
    | with_reducible assumption
    | (with_reducible intro _; try beta_reduce)
    | with_reducible apply State.preStage_wf
    | with_reducible apply foldl_wf
    | split)

theorem State.stageTails_wf {s : State} {n : Nat} (h_s : State.wf s = true) : State.wf (State.stageTails s n) = true := by
  unfold State.stageTails
  repeat' (first
    | with_reducible assumption
    | with_reducible apply State.preStageRange_wf
    | split)

theorem State.activate_wf {s : State} {n : Nat} (h_s : State.wf s = true) : State.wf (State.activate s n) = true := by
  unfold State.activate
  repeat' (first
    | with_reducible assumption
    | with_reducible apply wf_ite
    | with_reducible apply State.completeLater_wf
    | with_reducible apply State.preStageRange_wf
    | with_reducible apply State.setStream_wf
    | with_reducible apply State.stageTails_wf
    | with_reducible apply parkWf_of
    | with_reducible refine optWf_of (by assumption) ?_
    | with_reducible refine optFst_of (by assumption) ?_
    | with_reducible refine optFst_of2 (by assumption) ?_
    | with_reducible refine fstWf_of (by assumption) ?_
    | with_reducible refine sndWf_of (by assumption) ?_
    | (extract_lets +onlyGivenNames x; refine carry (p := x.canon) ?_ ?_; (on_goal 1 => subst x); (on_goal 2 => clear_value x; intro hx))
    | (extract_lets +onlyGivenNames x; clear_value x)
    | split
    | with_reducible apply wf_mk)

theorem execStreamActivation_wf {stream : Nat} {s : State} (h_s : State.wf s = true) : OutWf (execStreamActivation stream s) := by
  unfold execStreamActivation
  repeat' (first
    | with_reducible assumption
    | with_reducible apply State.activate_wf
    | with_reducible apply outWf_next)

theorem State.openPage_wf {s : State} {n : Nat} {set : ParkSet} {g : Nat × Nat × Nat} (h_s : State.wf s = true) : State.wf (State.openPage s n set g) = true := by
  unfold State.openPage
  repeat' (first
    | with_reducible assumption
    | with_reducible apply wf_ite
    | with_reducible apply State.degrade_wf
    | with_reducible apply State.flashRead_wf
    | with_reducible apply State.modStream_wf
    | with_reducible apply State.putPen_wf
    | with_reducible apply State.setPte_wf
    | with_reducible apply State.storedState_wf
    | with_reducible apply State.takePen_wf
    | with_reducible apply fst_wf
    | (extract_lets +onlyGivenNames x; refine carry (p := x.canon) ?_ ?_; (on_goal 1 => subst x); (on_goal 2 => clear_value x; intro hx))
    | (extract_lets +onlyGivenNames x; refine carry (p := x.1.canon) ?_ ?_; (on_goal 1 => subst x); (on_goal 2 => clear_value x; intro hx))
    | (extract_lets +onlyGivenNames x; clear_value x)
    | split)

theorem State.openEntry_wf {s : State} {e : Entry} (h_s : State.wf s = true) : State.wf (State.openEntry s e) = true := by
  unfold State.openEntry
  repeat' (first
    | with_reducible assumption
    | (with_reducible intro _; try beta_reduce)
    | with_reducible apply wf_ite
    | with_reducible apply State.complete_wf
    | with_reducible apply State.openPage_wf
    | with_reducible apply State.setStream_wf
    | with_reducible apply State.stageTails_wf
    | with_reducible apply State.transFault_wf
    | with_reducible apply foldl_wf
    | (extract_lets +onlyGivenNames x; clear_value x)
    | split)

theorem execOpenStream_wf {r : Ring} {s : State} (h_s : State.wf s = true) : OutWf (execOpenStream r s) := by
  unfold execOpenStream
  repeat' (first
    | with_reducible assumption
    | (with_reducible intro _; try beta_reduce)
    | with_reducible apply State.onEntry_wf
    | with_reducible apply State.openEntry_wf
    | with_reducible apply outWf_next)

theorem State.streamEntry_wf {s : State} {e : Entry} {res : List (Nat × Nat)} {f : State → Job → Nat → Stream → State} (h_s : State.wf s = true) (h_f : ∀ (a : State) (b : Job) (c : Nat) (d : Stream), State.wf a = true → State.wf (f a b c d) = true) : State.wf (State.streamEntry s e res f) = true := by
  unfold State.streamEntry
  repeat' (first
    | with_reducible assumption
    | with_reducible apply wf_ite
    | with_reducible apply h_f
    | with_reducible apply State.complete_wf
    | (extract_lets +onlyGivenNames x; clear_value x)
    | split)

theorem State.parkEntry_wf {s : State} {e : Entry} (h_s : State.wf s = true) : State.wf (State.parkEntry s e) = true := by
  unfold State.parkEntry
  repeat' (first
    | with_reducible assumption
    | (with_reducible intro _; try beta_reduce)
    | with_reducible apply wf_ite
    | with_reducible apply State.complete_wf
    | with_reducible apply State.setStream_wf
    | with_reducible apply State.streamEntry_wf)

theorem execParkStream_wf {r : Ring} {s : State} (h_s : State.wf s = true) : OutWf (execParkStream r s) := by
  unfold execParkStream
  repeat' (first
    | with_reducible assumption
    | (with_reducible intro _; try beta_reduce)
    | with_reducible apply State.onEntry_wf
    | with_reducible apply State.parkEntry_wf
    | with_reducible apply outWf_next)

theorem State.resumeEntry_wf {s : State} {e : Entry} (h_s : State.wf s = true) : State.wf (State.resumeEntry s e) = true := by
  unfold State.resumeEntry
  repeat' (first
    | with_reducible assumption
    | (with_reducible intro _; try beta_reduce)
    | with_reducible apply wf_ite
    | with_reducible apply State.complete_wf
    | with_reducible apply State.setStream_wf
    | with_reducible apply State.stageTails_wf
    | with_reducible apply State.streamEntry_wf)

theorem execResumeStream_wf {r : Ring} {s : State} (h_s : State.wf s = true) : OutWf (execResumeStream r s) := by
  unfold execResumeStream
  repeat' (first
    | with_reducible assumption
    | (with_reducible intro _; try beta_reduce)
    | with_reducible apply State.onEntry_wf
    | with_reducible apply State.resumeEntry_wf
    | with_reducible apply outWf_next)

theorem State.closeEntry_wf {s : State} {e : Entry} (h_s : State.wf s = true) : State.wf (State.closeEntry s e) = true := by
  unfold State.closeEntry
  repeat' (first
    | with_reducible assumption
    | (with_reducible intro _; try beta_reduce)
    | with_reducible apply wf_ite
    | with_reducible apply State.complete_wf
    | with_reducible apply State.setStream_wf
    | with_reducible apply State.streamEntry_wf)

theorem execCloseStream_wf {r : Ring} {s : State} (h_s : State.wf s = true) : OutWf (execCloseStream r s) := by
  unfold execCloseStream
  repeat' (first
    | with_reducible assumption
    | (with_reducible intro _; try beta_reduce)
    | with_reducible apply State.closeEntry_wf
    | with_reducible apply State.onEntry_wf
    | with_reducible apply outWf_next)

theorem State.sendFrame_wf {s : State} {x : Stream} {bs : List Byte} (h_s : State.wf s = true) : State.wf (State.sendFrame s x bs) = true := by
  unfold State.sendFrame
  repeat' (first
    | with_reducible assumption
    | with_reducible apply wf_ite
    | with_reducible apply State.count64_wf
    | with_reducible apply State.sendUdp_wf
    | with_reducible apply parkWf_of
    | (extract_lets +onlyGivenNames x; refine carry (p := x.canon) ?_ ?_; (on_goal 1 => subst x); (on_goal 2 => clear_value x; intro hx))
    | (extract_lets +onlyGivenNames x; clear_value x)
    | split)

theorem State.egressTick_wf {s : State} {n : Nat} (h_s : State.wf s = true) : State.wf (State.egressTick s n) = true := by
  unfold State.egressTick
  repeat' (first
    | with_reducible assumption
    | with_reducible apply wf_ite
    | with_reducible apply State.count_wf
    | with_reducible apply State.freeStream_wf
    | with_reducible apply State.irq_wf
    | with_reducible apply State.modStream_wf
    | with_reducible apply State.park_wf
    | with_reducible apply State.sendFrame_wf
    | with_reducible apply State.unitFault_wf
    | with_reducible apply State.unitPoison_wf
    | (extract_lets +onlyGivenNames x; clear_value x)
    | split)

theorem execEgressTick_wf {stream : Nat} {s : State} (h_s : State.wf s = true) : OutWf (execEgressTick stream s) := by
  unfold execEgressTick
  repeat' (first
    | with_reducible assumption
    | with_reducible apply State.egressTick_wf
    | with_reducible apply outWf_next)

theorem State.closeComplete_wf {s : State} {n : Nat} (h_s : State.wf s = true) : State.wf (State.closeComplete s n) = true := by
  unfold State.closeComplete
  repeat' (first
    | with_reducible assumption
    | with_reducible apply wf_ite
    | with_reducible apply State.completeLater_wf
    | with_reducible apply State.freeStream_wf
    | with_reducible apply State.sendFrame_wf
    | (extract_lets +onlyGivenNames x; refine carry (p := x.canon) ?_ ?_; (on_goal 1 => subst x); (on_goal 2 => clear_value x; intro hx))
    | split)

theorem execCloseComplete_wf {stream : Nat} {s : State} (h_s : State.wf s = true) : OutWf (execCloseComplete stream s) := by
  unfold execCloseComplete
  repeat' (first
    | with_reducible assumption
    | with_reducible apply State.closeComplete_wf
    | with_reducible apply outWf_next)

theorem State.event_wf {s : State} {c code detail data : Nat} {result : List Byte} (h_s : State.wf s = true) : State.wf (State.event s c code detail data result) = true := by
  unfold State.event
  repeat' (first
    | with_reducible assumption
    | with_reducible apply State.clientPost_wf)

theorem State.wake_wf {s : State} {n : Nat} {x : Stream} (h_s : State.wf s = true) : State.wf (State.wake s n x) = true := by
  unfold State.wake
  repeat' (first
    | with_reducible assumption
    | with_reducible apply State.count_wf
    | with_reducible apply State.event_wf
    | with_reducible apply State.irq_wf
    | with_reducible apply State.modStream_wf
    | with_reducible apply State.preStageRange_wf)

theorem State.mediaDrop_wf {s : State} {r : Nat} (h_s : State.wf s = true) : State.wf (State.mediaDrop s r) = true := by
  unfold State.mediaDrop
  repeat' (first
    | with_reducible assumption
    | with_reducible apply State.count_wf)

theorem State.audioFrame_wf {s : State} {port : Nat} {addr : List Byte} {sport : Nat} {p : List Byte} (h_s : State.wf s = true) : State.wf (State.audioFrame s port addr sport p) = true := by
  unfold State.audioFrame
  repeat' (first
    | with_reducible assumption
    | with_reducible apply wf_ite
    | with_reducible apply State.count_wf
    | with_reducible apply State.count64_wf
    | with_reducible apply State.mediaDrop_wf
    | with_reducible apply State.park_wf
    | with_reducible apply State.setStream_wf
    | with_reducible apply State.touch_wf
    | with_reducible apply State.unitFault_wf
    | with_reducible apply State.unitPoison_wf
    | with_reducible apply State.wake_wf
    | with_reducible apply State.writeVa_wf
    | with_reducible refine accWf_of (by assumption) ?_
    | (extract_lets +onlyGivenNames x; clear_value x)
    | split)

theorem execAudioInFrame_wf {port : Nat} {addr : List Byte} {sport : Nat} {payload : List Byte} {s : State} (h_s : State.wf s = true) : OutWf (execAudioInFrame port addr sport payload s) := by
  unfold execAudioInFrame
  repeat' (first
    | with_reducible assumption
    | with_reducible apply State.audioFrame_wf
    | with_reducible apply outWf_next)

theorem State.consumeSlot_wf {s : State} {n : Nat} (h_s : State.wf s = true) : State.wf (State.consumeSlot s n) = true := by
  unfold State.consumeSlot
  repeat' (first
    | with_reducible assumption
    | with_reducible apply wf_ite
    | with_reducible apply State.modStream_wf
    | with_reducible apply State.park_wf
    | with_reducible apply State.unitFault_wf
    | with_reducible apply State.writeVa_wf
    | with_reducible refine accWf_of (by assumption) ?_
    | (extract_lets +onlyGivenNames x; clear_value x)
    | split)

theorem State.skipFrames_wf {s : State} {n launch : Nat} (h_s : State.wf s = true) : State.wf (State.skipFrames s n launch) = true := by
  unfold State.skipFrames
  repeat' (first
    | with_reducible assumption
    | with_reducible apply wf_ite
    | with_reducible apply State.count_wf
    | with_reducible apply State.setStream_wf
    | split)

theorem State.parkList_wf {s : State} {e : Entry} (h_s : State.wf s = true) : State.wf (State.parkList s e) = true := by
  unfold State.parkList
  repeat' (first
    | with_reducible assumption
    | with_reducible apply wf_ite
    | with_reducible apply State.complete_wf
    | with_reducible apply State.writeVa_wf
    | with_reducible refine accWf_of (by assumption) ?_
    | (extract_lets +onlyGivenNames x; clear_value x)
    | split)

theorem execParkList_wf {r : Ring} {s : State} (h_s : State.wf s = true) : OutWf (execParkList r s) := by
  unfold execParkList
  repeat' (first
    | with_reducible assumption
    | (with_reducible intro _; try beta_reduce)
    | with_reducible apply State.onEntry_wf
    | with_reducible apply State.parkList_wf
    | with_reducible apply outWf_next)

theorem State.parkDelete_wf {s : State} {e : Entry} (h_s : State.wf s = true) : State.wf (State.parkDelete s e) = true := by
  unfold State.parkDelete
  repeat' (first
    | with_reducible assumption
    | with_reducible apply wf_ite
    | with_reducible apply State.complete_wf
    | with_reducible apply State.deleteSet_wf
    | with_reducible apply State.showFree_wf
    | (extract_lets +onlyGivenNames x; clear_value x)
    | split)

theorem execParkDelete_wf {r : Ring} {s : State} (h_s : State.wf s = true) : OutWf (execParkDelete r s) := by
  unfold execParkDelete
  repeat' (first
    | with_reducible assumption
    | (with_reducible intro _; try beta_reduce)
    | with_reducible apply State.onEntry_wf
    | with_reducible apply State.parkDelete_wf
    | with_reducible apply outWf_next)

theorem State.mediaSel_wf {s : State} {v : Nat} (h_s : State.wf s = true) : State.wf (State.mediaSel s v) = true := by
  unfold State.mediaSel
  repeat' (first
    | with_reducible assumption
    | (with_reducible intro _; try beta_reduce)
    | with_reducible apply State.setPreg_wf
    | with_reducible apply foldl_wf)

theorem execMediaStreamSel_wf {stream : Nat} {s : State} (h_s : State.wf s = true) : OutWf (execMediaStreamSel stream s) := by
  unfold execMediaStreamSel
  repeat' (first
    | with_reducible assumption
    | with_reducible apply State.mediaSel_wf
    | with_reducible apply outWf_next)

end Sys2Proof.Machine
end

