-- ==== Sys2Proof/Laws/WfWeights.lean ====
section
/-!
SUPPORT. Every operation of Machine/Weights.lean keeps the canonical form of memory and registers.
-/

namespace Sys2Proof.Machine

open Sys2Proof

theorem State.setGslot_wf {s : State} {k : Nat} {g : GenSlot} (h_s : State.wf s = true) : State.wf (State.setGslot s k g) = true := by
  unfold State.setGslot
  repeat' (first
    | with_reducible assumption
    | with_reducible apply wf_mk)

theorem State.weightStatus_wf {s : State} {e : Entry} (h_s : State.wf s = true) : State.wf (State.weightStatus s e) = true := by
  unfold State.weightStatus
  repeat' (first
    | with_reducible assumption
    | with_reducible apply State.complete_wf
    | (extract_lets +onlyGivenNames x; clear_value x)
    | split)

theorem execWeightStatus_wf {r : Ring} {s : State} (h_s : State.wf s = true) : OutWf (execWeightStatus r s) := by
  unfold execWeightStatus
  repeat' (first
    | with_reducible assumption
    | (with_reducible intro _; try beta_reduce)
    | with_reducible apply State.onEntry_wf
    | with_reducible apply State.weightStatus_wf
    | with_reducible apply outWf_next)

theorem State.fetchEntry_wf {s : State} {e : Entry} (h_s : State.wf s = true) : State.wf (State.fetchEntry s e) = true := by
  unfold State.fetchEntry
  repeat' (first
    | with_reducible assumption
    | with_reducible apply wf_ite
    | with_reducible apply State.complete_wf
    | with_reducible apply State.setGslot_wf
    | (extract_lets +onlyGivenNames x; refine carry (p := x.canon) ?_ ?_; (on_goal 1 => subst x); (on_goal 2 => clear_value x; intro hx))
    | (extract_lets +onlyGivenNames x; clear_value x)
    | split
    | with_reducible apply wf_mk)

theorem execFetch_wf {r : Ring} {s : State} (h_s : State.wf s = true) : OutWf (execFetch r s) := by
  unfold execFetch
  repeat' (first
    | with_reducible assumption
    | (with_reducible intro _; try beta_reduce)
    | with_reducible apply State.fetchEntry_wf
    | with_reducible apply State.onEntry_wf
    | with_reducible apply outWf_next)

theorem State.fetchEnd_wf {s : State} {f : Fetch} {g : GenSlot} {status detail : Nat} (h_s : State.wf s = true) : State.wf (State.fetchEnd s f g status detail) = true := by
  unfold State.fetchEnd
  repeat' (first
    | with_reducible assumption
    | with_reducible apply State.completeLater_wf
    | with_reducible apply State.setGslot_wf
    | with_reducible apply wf_mk)

theorem State.fetchFails_wf {s : State} {f : Fetch} {status : Nat} (h_s : State.wf s = true) : State.wf (State.fetchFails s f status) = true := by
  unfold State.fetchFails
  repeat' (first
    | with_reducible assumption
    | with_reducible apply State.fetchEnd_wf)

theorem State.fetchRefused_wf {s : State} {f : Fetch} {status detail : Nat} (h_s : State.wf s = true) : State.wf (State.fetchRefused s f status detail) = true := by
  unfold State.fetchRefused
  repeat' (first
    | with_reducible assumption
    | with_reducible apply State.fetchEnd_wf)

theorem State.pushPage_wf {s : State} {f : Fetch} {p : Nat} (h_s : State.wf s = true) : State.wf (State.pushPage s f p) = true := by
  unfold State.pushPage
  repeat' (first
    | with_reducible assumption
    | (with_reducible intro _; try beta_reduce)
    | with_reducible apply State.sendReq_wf
    | with_reducible apply foldl_wf
    | with_reducible apply foldl_wf
    | with_reducible apply fst_wf
    | with_reducible apply snd_wf
    | with_reducible apply parkWf_of
    | with_reducible apply foldl_park
    | (extract_lets +onlyGivenNames x; refine carry (p := x.canon) ?_ ?_; (on_goal 1 => subst x); (on_goal 2 => clear_value x; intro hx))
    | (extract_lets +onlyGivenNames x; refine carry (p := x.1.canon) ?_ ?_; (on_goal 1 => subst x); (on_goal 2 => clear_value x; intro hx))
    | (extract_lets +onlyGivenNames x; clear_value x))

theorem State.fetchStep_wf {s : State} {f : Fetch} {todo : List Nat} (h_s : State.wf s = true) : State.wf (State.fetchStep s f todo) = true := by
  unfold State.fetchStep
  repeat' (first
    | with_reducible assumption
    | with_reducible apply wf_ite
    | with_reducible apply State.fetchEnd_wf
    | (extract_lets +onlyGivenNames x; refine carry (p := x.canon) ?_ ?_; (on_goal 1 => subst x); (on_goal 2 => clear_value x; intro hx))
    | with_reducible apply wf_mk)

theorem State.fetchRetry_wf {s : State} {f : Fetch} {code role i : Nat} {again : List Nat} (h_s : State.wf s = true) : State.wf (State.fetchRetry s f code role i again) = true := by
  unfold State.fetchRetry
  repeat' (first
    | with_reducible assumption
    | with_reducible apply wf_ite
    | with_reducible apply State.fetchFails_wf
    | with_reducible apply State.weightError_wf
    | with_reducible apply wf_mk)

theorem State.treeRetry_wf {s : State} {f : Fetch} {t : Part} {todo : List Nat} (h_s : State.wf s = true) : State.wf (State.treeRetry s f t todo) = true := by
  unfold State.treeRetry
  repeat' (first
    | with_reducible assumption
    | (with_reducible intro _; try beta_reduce)
    | with_reducible apply wf_ite
    | with_reducible apply State.fetchFails_wf
    | with_reducible apply State.weightError_wf
    | with_reducible apply fst_wf
    | with_reducible apply parkWf_of
    | (extract_lets +onlyGivenNames x; refine carry (p := x.canon) ?_ ?_; (on_goal 1 => subst x); (on_goal 2 => clear_value x; intro hx))
    | (extract_lets +onlyGivenNames x; refine carry (p := x.1.canon) ?_ ?_; (on_goal 1 => subst x); (on_goal 2 => clear_value x; intro hx))
    | (extract_lets +onlyGivenNames x; clear_value x)
    | split
    | with_reducible apply wf_mk)

theorem State.fetchHead_wf {s : State} {f : Fetch} {p : Nat} {bs : List Byte} (h_s : State.wf s = true) : State.wf (State.fetchHead s f p bs) = true := by
  unfold State.fetchHead
  repeat' (first
    | with_reducible assumption
    | (with_reducible intro _; try beta_reduce)
    | with_reducible apply wf_ite
    | with_reducible apply State.fetchRefused_wf
    | with_reducible apply State.fetchStep_wf
    | with_reducible apply State.pushPage_wf
    | with_reducible apply State.putSlotPage_wf
    | with_reducible apply State.setGslot_wf
    | with_reducible apply foldl_wf
    | with_reducible apply getD_wf
    | with_reducible apply foldl_wf
    | with_reducible apply getD_wf
    | with_reducible apply parkWf_of
    | with_reducible apply foldl_park
    | with_reducible refine optWf_of (by assumption) ?_
    | with_reducible refine optFst_of (by assumption) ?_
    | with_reducible refine optFst_of2 (by assumption) ?_
    | with_reducible refine fstWf_of (by assumption) ?_
    | with_reducible refine sndWf_of (by assumption) ?_
    | with_reducible refine dvTo_of (by assumption) ?_
    | (extract_lets +onlyGivenNames x; refine carry (p := x.canon) ?_ ?_; (on_goal 1 => subst x); (on_goal 2 => clear_value x; intro hx))
    | (extract_lets +onlyGivenNames x; clear_value x)
    | split
    | with_reducible apply wf_mk)

theorem State.fetchBody_wf {s : State} {f : Fetch} {p : Nat} {bs : List Byte} (h_s : State.wf s = true) : State.wf (State.fetchBody s f p bs) = true := by
  unfold State.fetchBody
  repeat' (first
    | with_reducible assumption
    | (with_reducible intro _; try beta_reduce)
    | with_reducible apply wf_ite
    | with_reducible apply State.fetchRetry_wf
    | with_reducible apply State.fetchStep_wf
    | with_reducible apply State.pushPage_wf
    | with_reducible apply State.putSlotPage_wf
    | with_reducible apply State.treeRetry_wf
    | with_reducible apply foldl_wf
    | with_reducible apply foldl_wf
    | with_reducible apply parkWf_of
    | with_reducible apply foldl_park
    | with_reducible refine optWf_of (by assumption) ?_
    | with_reducible refine optFst_of (by assumption) ?_
    | with_reducible refine optFst_of2 (by assumption) ?_
    | with_reducible refine fstWf_of (by assumption) ?_
    | with_reducible refine sndWf_of (by assumption) ?_
    | with_reducible refine dvTo_of (by assumption) ?_
    | (extract_lets +onlyGivenNames x; refine carry (p := x.canon) ?_ ?_; (on_goal 1 => subst x); (on_goal 2 => clear_value x; intro hx))
    | (extract_lets +onlyGivenNames x; clear_value x)
    | split
    | with_reducible apply wf_mk)

theorem State.fetchBytes_wf {s : State} {f : Fetch} {p : Nat} {data : List Byte} (h_s : State.wf s = true) : FstWf (State.fetchBytes s f p data) := by
  unfold State.fetchBytes
  repeat' (first
    | with_reducible assumption
    | (with_reducible intro _; try beta_reduce)
    | with_reducible apply wf_ite
    | with_reducible apply State.bringLines_wf
    | with_reducible apply State.flashRead_wf
    | with_reducible apply State.refused_wf
    | with_reducible apply getD_wf
    | with_reducible apply fstWf_ite
    | with_reducible apply fstWf_mk
    | with_reducible apply sndWf_ite
    | with_reducible apply sndWf_mk
    | with_reducible apply getD_wf
    | with_reducible apply parkWf_of
    | with_reducible refine optWf_of (by assumption) ?_
    | with_reducible refine optFst_of (by assumption) ?_
    | with_reducible refine optFst_of2 (by assumption) ?_
    | with_reducible refine fstWf_of (by assumption) ?_
    | with_reducible refine sndWf_of (by assumption) ?_
    | with_reducible refine linesHere_of (by assumption) ?_
    | with_reducible refine linesWaiting_of (by assumption) ?_
    | with_reducible refine linesRefused_of (by assumption) ?_
    | with_reducible refine ranDone_of (by assumption) ?_
    | with_reducible refine ranWait_of (by assumption) ?_
    | (extract_lets +onlyGivenNames x; refine carry (p := x.canon) ?_ ?_; (on_goal 1 => subst x); (on_goal 2 => clear_value x; intro hx))
    | (extract_lets +onlyGivenNames x; clear_value x)
    | split
    | with_reducible apply wf_mk)

theorem State.fetchArrival_wf {s : State} {p : Nat} {data : List Byte} {ok : Bool} (h_s : State.wf s = true) : State.wf (State.fetchArrival s p data ok) = true := by
  unfold State.fetchArrival
  split
  · exact h_s
  · split
    · exact h_s
    · split
      · exact fstWf_of (by assumption) (State.fetchBytes_wf h_s)
      · have h := fstWf_of (by assumption) (State.fetchBytes_wf h_s)
        split
        · split
          · exact State.fetchRetry_wf h
          · exact State.fetchRetry_wf h
        · split
          · exact State.fetchBody_wf h
          · exact State.fetchHead_wf h

theorem State.fetchLine_wf {s : State} {off : Nat} {line : List Byte} (h_s : State.wf s = true) : State.wf (State.fetchLine s off line) = true := by
  unfold State.fetchLine
  repeat' (first
    | with_reducible assumption
    | with_reducible apply wf_ite
    | (extract_lets +onlyGivenNames x; clear_value x)
    | split
    | with_reducible apply wf_mk)

theorem State.broadcastEnd_wf {s : State} (h_s : State.wf s = true) : State.wf (State.broadcastEnd s) = true := by
  unfold State.broadcastEnd
  repeat' (first
    | with_reducible assumption
    | with_reducible apply wf_ite
    | split
    | with_reducible apply wf_mk)

theorem execBroadcastEnd_wf {s : State} (h_s : State.wf s = true) : OutWf (execBroadcastEnd s) := by
  unfold execBroadcastEnd
  repeat' (first
    | with_reducible assumption
    | with_reducible apply State.broadcastEnd_wf
    | with_reducible apply outWf_next)

theorem State.stagePage_wf {s : State} {vp w cls aff : Nat} (h_s : State.wf s = true) : FstWf (State.stagePage s vp w cls aff) := by
  unfold State.stagePage
  repeat' (first
    | with_reducible assumption
    | (with_reducible intro _; try beta_reduce)
    | with_reducible apply wf_ite
    | with_reducible apply Parker.page_wf
    | with_reducible apply State.abandonMove_wf
    | with_reducible apply State.carryClean_wf
    | with_reducible apply State.copyPage_wf
    | with_reducible apply State.eachLeaf_wf
    | with_reducible apply State.flashPageFails_wf
    | with_reducible apply State.flashRead_wf
    | with_reducible apply State.landedAll_wf
    | with_reducible apply State.placeNew_wf
    | with_reducible apply State.served_wf
    | with_reducible apply fstWf_ite
    | with_reducible apply fstWf_mk
    | with_reducible apply sndWf_ite
    | with_reducible apply sndWf_mk
    | with_reducible apply parkWf_of
    | with_reducible refine optWf_of (by assumption) ?_
    | with_reducible refine optFst_of (by assumption) ?_
    | with_reducible refine optFst_of2 (by assumption) ?_
    | with_reducible refine fstWf_of (by assumption) ?_
    | with_reducible refine sndWf_of (by assumption) ?_
    | (extract_lets +onlyGivenNames x; refine carry (p := x.canon) ?_ ?_; (on_goal 1 => subst x); (on_goal 2 => clear_value x; intro hx))
    | (extract_lets +onlyGivenNames x; clear_value x)
    | split
    | with_reducible apply wf_mk)

theorem State.repoint_wf {s : State} {job vp page : Nat} (h_s : State.wf s = true) : State.wf (State.repoint s job vp page) = true := by
  unfold State.repoint
  repeat' (first
    | with_reducible assumption
    | with_reducible apply wf_ite
    | with_reducible apply Parker.page_wf
    | with_reducible apply State.freeIfUnused_wf
    | with_reducible apply State.landed_wf
    | with_reducible apply State.leaveMove_wf
    | with_reducible apply State.setLeaf_wf
    | with_reducible apply parkWf_of
    | with_reducible refine optWf_of (by assumption) ?_
    | with_reducible refine optFst_of (by assumption) ?_
    | with_reducible refine optFst_of2 (by assumption) ?_
    | with_reducible refine fstWf_of (by assumption) ?_
    | with_reducible refine sndWf_of (by assumption) ?_
    | (extract_lets +onlyGivenNames x; refine carry (p := x.canon) ?_ ?_; (on_goal 1 => subst x); (on_goal 2 => clear_value x; intro hx))
    | (extract_lets +onlyGivenNames x; clear_value x)
    | split
    | with_reducible apply wf_mk)

theorem foldl_fst {α β : Type} {f : State × β → α → State × β} {l : List α} {a : State × β} (h : a.1.wf)
    (hf : ∀ (a : State × β) (x : α), a.1.wf → (f a x).1.wf) : (l.foldl f a).1.wf := by
  induction l generalizing a with
  | nil => exact h
  | cons x l ih => exact ih (hf a x h)

theorem State.stageSwap_wf {s : State} {x : Swap} {j : Job} (h_s : s.wf) : (s.stageSwap x j).wf := by
  unfold State.stageSwap
  extract_lets rs attr r
  have hr : r.1.wf := by
    subst r
    refine foldl_fst h_s (fun acc g h => ?_)
    dsimp only
    split
    · exact h
    · have hp : ∀ a b c d, (acc.1.stagePage a b c d).1.wf := fun a b c d => State.stagePage_wf h
      apply wf_ite _ (hp _ _ _ _)
      split
      · exact State.repoint_wf (hp _ _ _ _)
      · exact State.setLeaf_wf (State.addTable_wf (hp _ _ _ _))
  exact State.showFree_wf (wf_mk _ hr)

theorem State.swapEntry_wf {s : State} {e : Entry} (h_s : State.wf s = true) : State.wf (State.swapEntry s e) = true := by
  unfold State.swapEntry
  repeat' (first
    | with_reducible assumption
    | with_reducible apply wf_ite
    | with_reducible apply State.complete_wf
    | with_reducible apply State.stageSwap_wf
    | (extract_lets +onlyGivenNames x; clear_value x)
    | split
    | with_reducible apply wf_mk)

theorem execSwap_wf {r : Ring} {s : State} (h_s : State.wf s = true) : OutWf (execSwap r s) := by
  unfold execSwap
  repeat' (first
    | with_reducible assumption
    | (with_reducible intro _; try beta_reduce)
    | with_reducible apply State.onEntry_wf
    | with_reducible apply State.swapEntry_wf
    | with_reducible apply outWf_next)

theorem State.swapExecute_wf {s : State} {job layer : Nat} (h_s : State.wf s = true) : State.wf (State.swapExecute s job layer) = true := by
  unfold State.swapExecute
  repeat' (first
    | with_reducible assumption
    | (with_reducible intro _; try beta_reduce)
    | with_reducible apply wf_ite
    | with_reducible apply State.modJob_wf
    | with_reducible apply State.repoint_wf
    | with_reducible apply State.showFree_wf
    | with_reducible apply State.stageSwap_wf
    | with_reducible apply foldl_wf
    | (extract_lets +onlyGivenNames x; refine carry (p := x.canon) ?_ ?_; (on_goal 1 => subst x); (on_goal 2 => clear_value x; intro hx))
    | (extract_lets +onlyGivenNames x; have _ := fun t : State => x t; subst x; try beta_reduce)
    | split
    | with_reducible apply wf_mk)

theorem execSwapExecute_wf {job layer : Nat} {s : State} (h_s : State.wf s = true) : OutWf (execSwapExecute job layer s) := by
  unfold execSwapExecute
  repeat' (first
    | with_reducible assumption
    | with_reducible apply State.swapExecute_wf
    | with_reducible apply outWf_next)

theorem State.releaseShadow_wf {s : State} {x : Swap} (h_s : State.wf s = true) : State.wf (State.releaseShadow s x) = true := by
  unfold State.releaseShadow
  repeat' (first
    | with_reducible assumption
    | (with_reducible intro _; try beta_reduce)
    | with_reducible apply State.completeLater_wf
    | with_reducible apply State.showFree_wf
    | with_reducible apply State.unmapPage_wf
    | with_reducible apply foldl_wf
    | with_reducible apply foldl_wf
    | with_reducible apply parkWf_of
    | with_reducible apply foldl_park
    | with_reducible refine optWf_of (by assumption) ?_
    | with_reducible refine optFst_of (by assumption) ?_
    | with_reducible refine optFst_of2 (by assumption) ?_
    | with_reducible refine fstWf_of (by assumption) ?_
    | with_reducible refine sndWf_of (by assumption) ?_
    | (extract_lets +onlyGivenNames x; refine carry (p := x.canon) ?_ ?_; (on_goal 1 => subst x); (on_goal 2 => clear_value x; intro hx))
    | (extract_lets +onlyGivenNames x; clear_value x)
    | split
    | with_reducible apply wf_mk)

theorem State.releaseShadows_wf {s : State} {job next : Nat} (h_s : State.wf s = true) : State.wf (State.releaseShadows s job next) = true := by
  unfold State.releaseShadows
  repeat' (first
    | with_reducible assumption
    | (with_reducible intro _; try beta_reduce)
    | with_reducible apply State.releaseShadow_wf
    | with_reducible apply foldl_wf
    | with_reducible apply foldl_wf
    | with_reducible apply parkWf_of
    | with_reducible apply foldl_park
    | with_reducible refine optWf_of (by assumption) ?_
    | with_reducible refine optFst_of (by assumption) ?_
    | with_reducible refine optFst_of2 (by assumption) ?_
    | with_reducible refine fstWf_of (by assumption) ?_
    | with_reducible refine sndWf_of (by assumption) ?_
    | split
    | with_reducible apply wf_mk)

theorem State.swapsFormed_wf {s : State} {job seq : Nat} (h_s : State.wf s = true) : State.wf (State.swapsFormed s job seq) = true := by
  unfold State.swapsFormed
  repeat' (first
    | with_reducible assumption
    | (with_reducible intro _; try beta_reduce)
    | with_reducible apply wf_ite
    | with_reducible apply State.completeLater_wf
    | with_reducible apply State.modJob_wf
    | with_reducible apply State.releaseShadows_wf
    | with_reducible apply foldl_wf
    | with_reducible apply foldl_wf
    | with_reducible apply parkWf_of
    | with_reducible apply foldl_park
    | with_reducible refine optWf_of (by assumption) ?_
    | with_reducible refine optFst_of (by assumption) ?_
    | with_reducible refine optFst_of2 (by assumption) ?_
    | with_reducible refine fstWf_of (by assumption) ?_
    | with_reducible refine sndWf_of (by assumption) ?_
    | (extract_lets +onlyGivenNames x; refine carry (p := x.canon) ?_ ?_; (on_goal 1 => subst x); (on_goal 2 => clear_value x; intro hx))
    | (extract_lets +onlyGivenNames x; clear_value x)
    | split
    | with_reducible apply wf_mk)

theorem State.swapsCommitted_wf {s : State} {job seq : Nat} (h_s : State.wf s = true) : State.wf (State.swapsCommitted s job seq) = true := by
  unfold State.swapsCommitted
  repeat' (first
    | with_reducible assumption
    | with_reducible apply State.releaseShadows_wf)

theorem State.dropStaged_wf {s : State} {x : Swap} (h_s : State.wf s = true) : State.wf (State.dropStaged s x) = true := by
  unfold State.dropStaged
  repeat' (first
    | with_reducible assumption
    | (with_reducible intro _; try beta_reduce)
    | with_reducible apply wf_ite
    | with_reducible apply State.releaseDram_wf
    | with_reducible apply foldl_wf)

theorem State.weightLoad_wf {s : State} {e : Entry} (h_s : State.wf s = true) : State.wf (State.weightLoad s e) = true := by
  unfold State.weightLoad
  repeat' (first
    | with_reducible assumption
    | with_reducible apply State.complete_wf
    | (extract_lets +onlyGivenNames x; clear_value x)
    | split
    | with_reducible apply wf_mk)

theorem execWeightLoad_wf {r : Ring} {s : State} (h_s : State.wf s = true) : OutWf (execWeightLoad r s) := by
  unfold execWeightLoad
  repeat' (first
    | with_reducible assumption
    | (with_reducible intro _; try beta_reduce)
    | with_reducible apply State.onEntry_wf
    | with_reducible apply State.weightLoad_wf
    | with_reducible apply outWf_next)

theorem State.loadInto_wf {s : State} {job vp : Nat} {bs : List Byte} (h_s : s.wf) : OptWf (s.loadInto job vp bs) := by
  unfold State.loadInto
  split
  · exact optWf_none
  · apply optWf_ite
    · apply optWf_some
      split
      · exact State.writePa_wf (State.writePa_wf h_s)
      · exact State.writePa_wf h_s
    · rename_i l _
      intro t e
      cases h : s.placeNew vp (if l.cls = 0 then 1 else l.cls) l.affinity with
      | none => rw [h] at e; cases e
      | some r =>
        rw [h] at e
        cases e
        exact State.repoint_wf (State.writePa_wf (State.placeNew_wf h_s r h))

theorem State.loadEnd_wf {s : State} {w : WLoad} {status : Nat} (h_s : State.wf s = true) : State.wf (State.loadEnd s w status) = true := by
  unfold State.loadEnd
  repeat' (first
    | with_reducible assumption
    | with_reducible apply State.completeLater_wf
    | with_reducible apply wf_mk)

theorem State.loadLines_wf {s : State} {w : WLoad} {a : Nat} (h_s : State.wf s = true) : FstWf (State.loadLines s w a) := by
  unfold State.loadLines
  repeat' (first
    | with_reducible assumption
    | (with_reducible intro _; try beta_reduce)
    | with_reducible apply wf_ite
    | with_reducible apply State.bringLines_wf
    | with_reducible apply State.refused_wf
    | with_reducible apply fstWf_ite
    | with_reducible apply fstWf_mk
    | with_reducible apply sndWf_ite
    | with_reducible apply sndWf_mk
    | with_reducible refine optWf_of (by assumption) ?_
    | with_reducible refine optFst_of (by assumption) ?_
    | with_reducible refine optFst_of2 (by assumption) ?_
    | with_reducible refine fstWf_of (by assumption) ?_
    | with_reducible refine sndWf_of (by assumption) ?_
    | with_reducible refine linesHere_of (by assumption) ?_
    | with_reducible refine linesWaiting_of (by assumption) ?_
    | with_reducible refine linesRefused_of (by assumption) ?_
    | with_reducible refine ranDone_of (by assumption) ?_
    | with_reducible refine ranWait_of (by assumption) ?_
    | split
    | with_reducible apply wf_mk)

theorem State.loadBytes_wf {s : State} {w : WLoad} {j : Job} {desc data : List Byte} (h_s : State.wf s = true) : FstWf (State.loadBytes s w j desc data) := by
  unfold State.loadBytes
  dsimp only
  split
  · exact fstWf_mk h_s
  · exact State.loadLines_wf h_s
  · split
    · split
      · exact fstWf_ite (fstWf_mk (State.flashRead_wf h_s)) (fstWf_mk h_s)
      · exact fstWf_mk h_s
    · exact State.loadLines_wf h_s
    · exact fstWf_mk h_s

theorem State.loadArrival_wf {s : State} {i : Nat} {data : List Byte} {ok : Bool} (h_s : State.wf s = true) : State.wf (State.loadArrival s i data ok) = true := by
  unfold State.loadArrival
  repeat' (first
    | with_reducible assumption
    | with_reducible apply wf_ite
    | with_reducible apply State.loadBytes_wf
    | with_reducible apply State.loadEnd_wf
    | with_reducible apply State.loadInto_wf
    | with_reducible apply State.park_wf
    | with_reducible apply State.unitFault_wf
    | with_reducible apply State.unitPoison_wf
    | with_reducible apply State.weightError_wf
    | with_reducible apply fst_wf
    | with_reducible refine optWf_of (by assumption) ?_
    | with_reducible refine fstWf_of (by assumption) ?_
    | (extract_lets +onlyGivenNames x; clear_value x)
    | split
    | with_reducible apply wf_mk)

theorem execFetchPageArrival_wf {load page : Nat} {data : List Byte} {ok : Bool} {s : State} (h_s : State.wf s = true) : OutWf (execFetchPageArrival load page data ok s) := by
  unfold execFetchPageArrival
  repeat' (first
    | with_reducible assumption
    | with_reducible apply wf_ite
    | with_reducible apply State.fetchArrival_wf
    | with_reducible apply State.loadArrival_wf
    | with_reducible apply outWf_next)

theorem State.flashCopyFails_wf {s : State} {w slot : Nat} {p : Part} {i : Nat} {repair : Option (List Byte)} (h_s : State.wf s = true) : State.wf (State.flashCopyFails s w slot p i repair) = true := by
  unfold State.flashCopyFails
  repeat' (first
    | with_reducible assumption
    | with_reducible apply wf_ite
    | with_reducible apply State.putSlotPage_wf
    | with_reducible apply State.weightError_wf
    | (extract_lets +onlyGivenNames x; clear_value x)
    | split
    | with_reducible apply wf_mk)

theorem State.treePageFails_wf {s : State} {w slot p : Nat} {t : Part} {repair : Option (List Byte)} (h_s : State.wf s = true) :
    State.wf (State.treePageFails s w slot p t repair) = true := by
  have lost : ∀ u : State, u.wf → (({ u with lostPages := sinsert u.lostPages w } : State).weightError 0x204 t.role (p - t.tree)).wf :=
    fun _ h => State.weightError_wf (wf_mk _ h)
  unfold State.treePageFails
  dsimp only
  split
  · exact lost _ h_s
  · split
    · exact lost _ h_s
    · exact State.weightError_wf (State.putSlotPage_wf h_s)

theorem optWf_orElse {o : Option State} {f : Unit → Option State} (ho : OptWf o) (hf : OptWf (f ())) : OptWf (o.orElse f) := by
  cases o with
  | none => exact hf
  | some a => exact fun x e => by cases e; exact ho a rfl

theorem State.headPageFails_wf {s : State} {w slot p : Nat} {repair : Option (List Byte)} (h_s : State.wf s = true) :
    State.wf (State.headPageFails s w slot p repair) = true := by
  have fix : ∀ bs, OptWf (if (s.putSlotPage slot p bs).headerOk slot then some ((s.putSlotPage slot p bs).weightError 0x202 0xFFFF p) else none) :=
    fun _ => optWf_ite (optWf_some (State.weightError_wf (State.putSlotPage_wf h_s))) optWf_none
  unfold State.headPageFails
  dsimp only
  split
  · exact optWf_of (by assumption) (optWf_orElse (optWf_ite (fix _) optWf_none) (optAny_bind fix))
  · exact State.weightError_wf (wf_mk _ h_s)

theorem State.sweepFlash_wf {s : State} {w : Nat} {ok : Bool} {repair : Option (List Byte)} (h_s : State.wf s = true) : State.wf (State.sweepFlash s w ok repair) = true := by
  unfold State.sweepFlash
  repeat' (first
    | with_reducible assumption
    | with_reducible apply wf_ite
    | with_reducible apply State.flashCopyFails_wf
    | with_reducible apply State.flashRead_wf
    | with_reducible apply State.headPageFails_wf
    | with_reducible apply State.treePageFails_wf
    | with_reducible apply parkWf_of
    | with_reducible refine optWf_of (by assumption) ?_
    | with_reducible refine optFst_of (by assumption) ?_
    | with_reducible refine optFst_of2 (by assumption) ?_
    | with_reducible refine fstWf_of (by assumption) ?_
    | with_reducible refine sndWf_of (by assumption) ?_
    | (extract_lets +onlyGivenNames x; refine carry (p := x.canon) ?_ ?_; (on_goal 1 => subst x); (on_goal 2 => clear_value x; intro hx))
    | (extract_lets +onlyGivenNames x; clear_value x)
    | split
    | with_reducible apply wf_mk)

theorem State.residentFails_wf {s : State} {d role i : Nat} {job : Option Nat} (h_s : State.wf s = true) : State.wf (State.residentFails s d role i job) = true := by
  unfold State.residentFails
  repeat' (first
    | with_reducible assumption
    | with_reducible apply State.contained_wf
    | with_reducible apply wf_mk)

theorem State.stagedFails_wf {s : State} {d w : Nat} (h_s : State.wf s = true) : State.wf (State.stagedFails s d w) = true := by
  unfold State.stagedFails
  repeat' (first
    | with_reducible assumption
    | with_reducible apply wf_ite
    | with_reducible apply State.carryClean_wf
    | with_reducible apply State.copyPage_wf
    | with_reducible apply State.flashPageFails_wf
    | with_reducible apply State.flashRead_wf
    | with_reducible apply State.restage_wf
    | split)

theorem State.sweepResident_wf {s : State} {d : Nat} {ok : Bool} (h_s : State.wf s = true) : State.wf (State.sweepResident s d ok) = true := by
  unfold State.sweepResident
  repeat' (first
    | with_reducible assumption
    | (with_reducible intro _; try beta_reduce)
    | with_reducible apply wf_ite
    | with_reducible apply State.residentFails_wf
    | with_reducible apply State.stagedFails_wf
    | with_reducible apply findSome_wf
    | with_reducible apply fst_wf
    | with_reducible apply snd_wf
    | with_reducible apply parkWf_of
    | with_reducible apply findSome_wf
    | with_reducible refine optWf_of (by assumption) ?_
    | with_reducible refine optFst_of (by assumption) ?_
    | with_reducible refine optFst_of2 (by assumption) ?_
    | with_reducible refine fstWf_of (by assumption) ?_
    | with_reducible refine sndWf_of (by assumption) ?_
    | (extract_lets +onlyGivenNames x; refine carry (p := x.canon) ?_ ?_; (on_goal 1 => subst x); (on_goal 2 => clear_value x; intro hx))
    | (extract_lets +onlyGivenNames x; refine carry (p := x.1.canon) ?_ ?_; (on_goal 1 => subst x); (on_goal 2 => clear_value x; intro hx))
    | (extract_lets +onlyGivenNames x; clear_value x)
    | split
    | with_reducible apply wf_mk)

theorem execGlintSweepCheck_wf {page : Nat} {ok : Bool} {repair : Option (List Byte)} {s : State} (h_s : State.wf s = true) : OutWf (execGlintSweepCheck page ok repair s) := by
  unfold execGlintSweepCheck
  repeat' (first
    | with_reducible assumption
    | with_reducible apply wf_ite
    | with_reducible apply State.sweepFlash_wf
    | with_reducible apply State.sweepResident_wf
    | with_reducible apply outWf_next)

theorem State.reloadCopies_wf {s : State} (h_s : State.wf s = true) : State.wf (State.reloadCopies s) = true := by
  unfold State.reloadCopies
  repeat' (first
    | with_reducible assumption
    | (with_reducible intro _; try beta_reduce)
    | with_reducible apply wf_ite
    | with_reducible apply State.copyPage_wf
    | with_reducible apply State.flashRead_wf
    | with_reducible apply foldl_wf
    | (extract_lets +onlyGivenNames x; refine carry (p := x.canon) ?_ ?_; (on_goal 1 => subst x); (on_goal 2 => clear_value x; intro hx))
    | split
    | with_reducible apply wf_mk)

end Sys2Proof.Machine
end

