-- ==== Sys2Proof/Laws/WfPasses.lean ====
section
/-!
SUPPORT. Every operation of Machine/Passes.lean keeps the canonical form of memory and registers.
-/

namespace Sys2Proof.Machine

open Sys2Proof

theorem State.reserve_wf {s : State} {job n : Nat} (h_s : State.wf s = true) : OptWf (State.reserve s job n) := by
  unfold State.reserve
  repeat' (first
    | with_reducible assumption
    | (with_reducible intro _; try beta_reduce)
    | with_reducible apply State.modArena_wf
    | with_reducible apply State.useFree_wf
    | with_reducible apply optWf_some
    | with_reducible apply optWf_none
    | with_reducible apply optWf_ite
    | with_reducible apply optAny_map
    | split)

theorem State.walk_wf {s : State} {job room : Nat} {l took failed : List Nat} (h_s : s.wf) : FstWf (s.walk job room l took failed) := by
  induction l generalizing s took failed with
  | nil => exact h_s
  | cons n l ih =>
    unfold State.walk
    refine fstWf_ite (fstWf_mk h_s) ?_
    split
    · exact ih (optWf_of (by assumption) (State.reserve_wf h_s))
    · exact ih h_s

theorem State.sendFenced_wf {s : State} {job win off peg : Nat} {bs : List Byte} {e : Nat} (h_s : State.wf s = true) : State.wf (State.sendFenced s job win off peg bs e) = true := by
  unfold State.sendFenced
  repeat' (first
    | with_reducible assumption
    | with_reducible apply State.fence_wf
    | with_reducible apply State.sendAll_wf)

theorem State.formJob_wf {s : State} {job : Nat} (h_s : State.wf s = true) : State.wf (State.formJob s job) = true := by
  unfold State.formJob
  repeat' (first
    | with_reducible assumption
    | (with_reducible intro _; try beta_reduce)
    | with_reducible apply wf_ite
    | with_reducible apply State.modJob_wf
    | with_reducible apply State.sendFenced_wf
    | with_reducible apply State.walk_wf
    | with_reducible apply foldl_wf
    | with_reducible apply fst_wf
    | split)

theorem execPassFormation_wf {s : State} (h_s : State.wf s = true) : OutWf (execPassFormation s) := by
  unfold execPassFormation
  repeat' (first
    | with_reducible assumption
    | (with_reducible intro _; try beta_reduce)
    | with_reducible apply wf_ite
    | with_reducible apply State.formJob_wf
    | with_reducible apply State.gateBays_wf
    | with_reducible apply foldl_wf
    | with_reducible apply outWf_next)

theorem State.postSwitch_wf {s : State} {w : Option Switch} {op status : Nat} {result : List Byte} {first : Bool} (h_s : State.wf s = true) : State.wf (State.postSwitch s w op status result first) = true := by
  unfold State.postSwitch
  repeat' (first
    | with_reducible assumption
    | with_reducible apply State.completeLater_wf
    | split)

theorem State.showBank_wf {s : State} {n : Nat} (h_s : State.wf s = true) : State.wf (State.showBank s n) = true := by
  unfold State.showBank
  repeat' (first
    | with_reducible assumption
    | (with_reducible intro _; try beta_reduce)
    | with_reducible apply State.setPreg_wf
    | with_reducible apply foldl_wf)

theorem State.takeSwitches_wf {s : State} {n label seq : Nat} (h_s : State.wf s = true) : State.wf (State.takeSwitches s n label seq) = true := by
  unfold State.takeSwitches
  repeat' (first
    | with_reducible assumption
    | with_reducible apply State.postSwitch_wf
    | with_reducible apply State.setJob_wf
    | (extract_lets +onlyGivenNames x; clear_value x)
    | split)

theorem State.releaseSwitches_wf {s : State} {n next : Nat} (h_s : State.wf s = true) : State.wf (State.releaseSwitches s n next) = true := by
  unfold State.releaseSwitches
  repeat' (first
    | with_reducible assumption
    | with_reducible apply State.postSwitch_wf
    | with_reducible apply State.setJob_wf
    | with_reducible apply State.showBank_wf
    | split)

theorem State.stageVisit_wf {s : State} {k : ListKey} {p deadline : Nat} (h_s : State.wf s = true) : State.wf (State.stageVisit s k p deadline) = true := by
  unfold State.stageVisit
  repeat' (first
    | with_reducible assumption
    | with_reducible apply wf_ite
    | with_reducible apply State.askStage_wf
    | with_reducible apply State.poisonFault_wf
    | with_reducible apply State.transFault_wf
    | with_reducible apply State.useFree_wf
    | with_reducible refine accFst_of (by assumption) ?_
    | split)

theorem State.stagePass_wf {s : State} {job label : Nat} {streams : List Nat} (h_s : State.wf s = true) : State.wf (State.stagePass s job label streams) = true := by
  unfold State.stagePass
  repeat' (first
    | with_reducible assumption
    | (with_reducible intro _; try beta_reduce)
    | with_reducible apply State.stageVisit_wf
    | with_reducible apply foldl_wf
    | split)

theorem State.schedFault_wf {s : State} {job code member label runId : Nat} (h_s : State.wf s = true) : State.wf (State.schedFault s job code member label runId) = true := by
  unfold State.schedFault
  repeat' (first
    | with_reducible assumption
    | with_reducible apply State.contained_wf)

theorem State.schedAcc_wf {α : Type} {s : State} {job : Nat} {x : Acc α} {k : α → State} (h_s : s.wf) (h_k : ∀ a, (k a).wf) :
    (s.schedAcc job x k).wf := by
  unfold State.schedAcc
  split
  · exact h_k _
  · exact State.unitFault_wf h_s
  · exact State.unitPoison_wf h_s
  · exact State.park_wf h_s
  · exact h_s

theorem State.adapterMoves_wf {s : State} {job : Nat} {p : Pass} (h_s : State.wf s = true) : State.wf (State.adapterMoves s job p) = true := by
  unfold State.adapterMoves
  repeat' (first
    | with_reducible assumption
    | (with_reducible intro _; try beta_reduce)
    | with_reducible apply wf_ite
    | with_reducible apply Parker.page_wf
    | with_reducible apply State.hint_wf
    | with_reducible apply State.queueMove_wf
    | with_reducible apply foldl_wf
    | with_reducible apply foldl_wf
    | with_reducible apply fst_wf
    | with_reducible apply snd_wf
    | with_reducible apply parkWf_of
    | with_reducible apply foldl_park
    | with_reducible refine optWf_of (by assumption) ?_
    | with_reducible refine optFst_of (by assumption) ?_
    | with_reducible refine optFst_of2 (by assumption) ?_
    | with_reducible refine fstWf_of (by assumption) ?_
    | with_reducible refine sndWf_of (by assumption) ?_
    | (extract_lets +onlyGivenNames x; refine carry (p := x.canon) ?_ ?_; (on_goal 1 => subst x); (on_goal 2 => clear_value x; intro hx))
    | (extract_lets +onlyGivenNames x; refine carry (p := x.1.canon) ?_ ?_; (on_goal 1 => subst x); (on_goal 2 => clear_value x; intro hx))
    | (extract_lets +onlyGivenNames x; clear_value x)
    | split
    | with_reducible apply wf_mk)

theorem State.schedAccS_wf {s : State} {job : Nat} {x : Acc State} {k : State → State} (h_s : s.wf) (h_x : AccWf x)
    (h_k : ∀ t : State, t.wf → (k t).wf) : (s.schedAcc job x k).wf := by
  unfold State.schedAcc
  split
  · exact h_k _ (accWf_of rfl h_x)
  · exact State.unitFault_wf h_s
  · exact State.unitPoison_wf h_s
  · exact State.park_wf h_s
  · exact h_s

theorem State.schedAccP_wf {α : Type} {s : State} {job : Nat} {x : Acc (State × α)} {k : State × α → State} (h_s : s.wf) (h_x : AccFst x)
    (h_k : ∀ t : State × α, t.1.wf → (k t).wf) : (s.schedAcc job x k).wf := by
  unfold State.schedAcc
  split
  · exact h_k _ (h_x _ rfl)
  · exact State.unitFault_wf h_s
  · exact State.unitPoison_wf h_s
  · exact State.park_wf h_s
  · exact h_s

theorem State.formPass_wf {s : State} {job : Nat} {f : Forming} {bms : List (List Byte)} (h_s : State.wf s = true) : State.wf (State.formPass s job f bms) = true := by
  unfold State.formPass
  repeat' (first
    | with_reducible assumption
    | (with_reducible intro _; try beta_reduce)
    | with_reducible apply wf_ite
    | with_reducible apply State.adapterMoves_wf
    | with_reducible apply State.consumeSlot_wf
    | with_reducible apply State.modArena_wf
    | with_reducible apply State.releaseSwitches_wf
    | with_reducible apply State.schedAcc_wf
    | with_reducible apply State.setJob_wf
    | with_reducible apply State.showBank_wf
    | with_reducible apply State.skipFrames_wf
    | with_reducible apply State.stagePass_wf
    | with_reducible apply State.swapsFormed_wf
    | with_reducible apply State.takeSwitches_wf
    | with_reducible apply foldl_wf
    | with_reducible apply getD_wf
    | with_reducible apply foldl_wf
    | with_reducible apply getD_wf
    | with_reducible apply fst_wf
    | with_reducible apply snd_wf
    | with_reducible apply parkWf_of
    | with_reducible apply foldl_park
    | with_reducible refine optWf_of (by assumption) ?_
    | with_reducible refine optFst_of (by assumption) ?_
    | with_reducible refine optFst_of2 (by assumption) ?_
    | with_reducible refine fstWf_of (by assumption) ?_
    | with_reducible refine sndWf_of (by assumption) ?_
    | with_reducible refine ranDone_of (by assumption) ?_
    | with_reducible refine ranWait_of (by assumption) ?_
    | (extract_lets +onlyGivenNames x; refine carry (p := x.canon) ?_ ?_; (on_goal 1 => subst x); (on_goal 2 => clear_value x; intro hx))
    | (extract_lets +onlyGivenNames x; refine carry (p := x.1.canon) ?_ ?_; (on_goal 1 => subst x); (on_goal 2 => clear_value x; intro hx))
    | (extract_lets +onlyGivenNames x; clear_value x)
    | split
    | with_reducible apply wf_mk)

theorem State.exchangeDone_wf {s : State} {job : Nat} (h_s : State.wf s = true) : State.wf (State.exchangeDone s job) = true := by
  unfold State.exchangeDone
  repeat' (first
    | with_reducible assumption
    | (with_reducible intro _; try beta_reduce)
    | with_reducible apply wf_ite
    | with_reducible apply State.formPass_wf
    | with_reducible apply State.schedAcc_wf
    | with_reducible apply State.schedFault_wf
    | (extract_lets +onlyGivenNames x; clear_value x)
    | split)

theorem execFormationExchangeComplete_wf {s : State} (h_s : State.wf s = true) : OutWf (execFormationExchangeComplete s) := by
  unfold execFormationExchangeComplete
  repeat' (first
    | with_reducible assumption
    | (with_reducible intro _; try beta_reduce)
    | with_reducible apply State.exchangeDone_wf
    | with_reducible apply foldl_wf
    | with_reducible apply outWf_next)

theorem State.addPreempted_wf {s : State} {h : Holder} {n : Nat} (h_s : State.wf s = true) : State.wf (State.addPreempted s h n) = true := by
  unfold State.addPreempted
  repeat' (first
    | with_reducible assumption
    | with_reducible apply State.modPass_wf
    | split
    | with_reducible apply wf_mk)

theorem State.addPreempt_wf {s : State} {h : Holder} (h_s : State.wf s = true) : State.wf (State.addPreempt s h) = true := by
  unfold State.addPreempt
  repeat' (first
    | with_reducible assumption
    | with_reducible apply State.modPass_wf
    | split
    | with_reducible apply wf_mk)

theorem State.giveCores_wf {s : State} {h : Holder} (h_s : State.wf s = true) : State.wf (State.giveCores s h) = true := by
  unfold State.giveCores
  repeat' (first
    | with_reducible assumption
    | (with_reducible intro _; try beta_reduce)
    | with_reducible apply wf_ite
    | with_reducible apply State.addPreempted_wf
    | with_reducible apply State.dvStep_wf
    | with_reducible apply State.issue_wf
    | with_reducible apply State.putChan_wf
    | with_reducible apply State.putDove_wf
    | with_reducible apply State.unpark_wf
    | with_reducible apply foldl_wf
    | (extract_lets +onlyGivenNames x; refine carry (p := x.canon) ?_ ?_; (on_goal 1 => subst x); (on_goal 2 => clear_value x; intro hx))
    | (extract_lets +onlyGivenNames x; clear_value x)
    | split
    | with_reducible apply wf_mk)

theorem State.endTail_wf {s : State} (h_s : State.wf s = true) : State.wf (State.endTail s) = true := by
  unfold State.endTail
  repeat' (first
    | with_reducible assumption
    | (with_reducible intro _; try beta_reduce)
    | with_reducible apply wf_ite
    | with_reducible apply State.modJob_wf
    | with_reducible refine optWf_of (by assumption) ?_
    | with_reducible refine optFst_of (by assumption) ?_
    | with_reducible refine optFst_of2 (by assumption) ?_
    | with_reducible refine fstWf_of (by assumption) ?_
    | with_reducible refine sndWf_of (by assumption) ?_
    | split
    | with_reducible apply wf_mk)

theorem State.reschedule_wf {s : State} (h_s : State.wf s = true) : State.wf (State.reschedule s) = true := by
  unfold State.reschedule
  repeat' (first
    | with_reducible assumption
    | with_reducible apply wf_ite
    | with_reducible apply State.endTail_wf
    | with_reducible apply State.giveCores_wf
    | with_reducible apply fst_wf
    | with_reducible apply snd_wf
    | with_reducible apply parkWf_of
    | with_reducible refine optWf_of (by assumption) ?_
    | with_reducible refine optFst_of (by assumption) ?_
    | with_reducible refine optFst_of2 (by assumption) ?_
    | with_reducible refine fstWf_of (by assumption) ?_
    | with_reducible refine sndWf_of (by assumption) ?_
    | (extract_lets +onlyGivenNames x; refine carry (p := x.canon) ?_ ?_; (on_goal 1 => subst x); (on_goal 2 => clear_value x; intro hx))
    | (extract_lets +onlyGivenNames x; refine carry (p := x.1.canon) ?_ ?_; (on_goal 1 => subst x); (on_goal 2 => clear_value x; intro hx))
    | (extract_lets +onlyGivenNames x; clear_value x)
    | split
    | with_reducible apply wf_mk)

theorem State.dropHolder_wf {s : State} {h : Holder} (h_s : State.wf s = true) : State.wf (State.dropHolder s h) = true := by
  unfold State.dropHolder
  repeat' (first
    | with_reducible assumption
    | with_reducible apply State.reschedule_wf
    | split
    | with_reducible apply wf_mk)

theorem execPreemptionRequest_wf {s : State} (h_s : State.wf s = true) : OutWf (execPreemptionRequest s) := by
  unfold execPreemptionRequest
  repeat' (first
    | with_reducible assumption
    | with_reducible apply State.reschedule_wf
    | with_reducible apply outWf_next)

theorem State.saveHolder_wf {s : State} {h : Holder} (h_s : State.wf s = true) : State.wf (State.saveHolder s h) = true := by
  unfold State.saveHolder
  repeat' (first
    | with_reducible assumption
    | (with_reducible intro _; try beta_reduce)
    | with_reducible apply State.addPreempt_wf
    | with_reducible apply State.putCore_wf
    | with_reducible apply State.putDove_wf
    | with_reducible apply State.showBayChan_wf
    | with_reducible apply foldl_wf
    | with_reducible apply wf_mk)

theorem State.preempt_wf {s : State} (h_s : State.wf s = true) : State.wf (State.preempt s) = true := by
  unfold State.preempt
  repeat' (first
    | with_reducible assumption
    | with_reducible apply wf_ite
    | with_reducible apply State.reschedule_wf
    | with_reducible apply State.saveHolder_wf
    | split)

theorem execPreemptionEffective_wf {s : State} (h_s : State.wf s = true) : OutWf (execPreemptionEffective s) := by
  unfold execPreemptionEffective
  repeat' (first
    | with_reducible assumption
    | with_reducible apply State.preempt_wf
    | with_reducible apply outWf_next)

theorem State.clearBay_wf {s : State} {job : Nat} (h_s : State.wf s = true) : State.wf (State.clearBay s job) = true := by
  unfold State.clearBay
  repeat' (first
    | with_reducible assumption
    | with_reducible apply State.useFree_wf
    | (extract_lets +onlyGivenNames x; refine carry (p := x.canon) ?_ ?_; (on_goal 1 => subst x); (on_goal 2 => clear_value x; intro hx))
    | (extract_lets +onlyGivenNames x; clear_value x)
    | with_reducible apply wf_mk)

theorem State.startJob_wf {s : State} {job : Nat} (h_s : State.wf s = true) : State.wf (State.startJob s job) = true := by
  unfold State.startJob
  repeat' (first
    | with_reducible assumption
    | with_reducible apply wf_ite
    | with_reducible apply State.clearBay_wf
    | with_reducible apply State.setJob_wf
    | split)

theorem execPassStart_wf {s : State} (h_s : State.wf s = true) : OutWf (execPassStart s) := by
  unfold execPassStart
  repeat' (first
    | with_reducible assumption
    | (with_reducible intro _; try beta_reduce)
    | with_reducible apply State.reschedule_wf
    | with_reducible apply State.startJob_wf
    | with_reducible apply foldl_wf
    | with_reducible apply outWf_next)

end Sys2Proof.Machine
end

