-- ==== Sys2Proof/Laws/WfRepair.lean ====
section
/-!
SUPPORT. Every operation of Machine/Repair.lean keeps the canonical form of memory and registers.
-/

namespace Sys2Proof.Machine

open Sys2Proof

theorem State.repaired_wf {s : State} {code pa va job : Nat} (h_s : State.wf s = true) : State.wf (State.repaired s code pa va job) = true := by
  unfold State.repaired
  repeat' (first
    | with_reducible assumption
    | with_reducible apply State.report_wf)

theorem State.losePage_wf {s : State} {j : Job} {k : ListKey} {x : Stream} {p e : Nat} {kv8 : Bool} (h_s : State.wf s = true) : State.wf (State.losePage s j k x p e kv8) = true := by
  unfold State.losePage
  repeat' (first
    | with_reducible assumption
    | with_reducible apply wf_ite
    | with_reducible apply State.askStage_wf
    | with_reducible apply State.modArena_wf
    | with_reducible apply State.penOnlyPage_wf
    | with_reducible apply State.setPte_wf
    | with_reducible apply State.useFree_wf
    | with_reducible refine accFst_of (by assumption) ?_
    | (extract_lets +onlyGivenNames x; refine carry (p := x.canon) ?_ ?_; (on_goal 1 => subst x); (on_goal 2 => clear_value x; intro hx))
    | split)

theorem State.zeroLine_wf {s : State} {j : Job} {k : ListKey} {x : Stream} {p e : Nat} {kv8 side : Bool} {pa va : Nat} (h_s : State.wf s = true) : State.wf (State.zeroLine s j k x p e kv8 side pa va) = true := by
  unfold State.zeroLine
  repeat' (first
    | with_reducible assumption
    | with_reducible apply wf_ite
    | with_reducible apply State.degrade_wf
    | with_reducible apply State.modArena_wf
    | with_reducible apply State.modStream_wf
    | with_reducible apply State.setPte_wf
    | with_reducible apply State.sweepUnits_wf
    | with_reducible apply State.writePa_wf)

theorem State.repairLine_wf {s : State} {line : Nat} (h_s : State.wf s = true) : State.wf (State.repairLine s line) = true := by
  unfold State.repairLine
  repeat' (first
    | with_reducible assumption
    | with_reducible apply wf_ite
    | with_reducible apply State.flashRead_wf
    | with_reducible apply State.losePage_wf
    | with_reducible apply State.repaired_wf
    | with_reducible apply State.writePa_wf
    | with_reducible apply State.zeroLine_wf
    | (extract_lets +onlyGivenNames x; clear_value x)
    | split)

theorem State.repairAll_wf {s : State} (h_s : State.wf s = true) : State.wf (State.repairAll s) = true := by
  unfold State.repairAll
  repeat' (first
    | with_reducible assumption
    | (with_reducible intro _; try beta_reduce)
    | with_reducible apply State.repairLine_wf
    | with_reducible apply foldl_wf)

theorem State.repairScrubbed_wf {s : State} {job : Nat} (h_s : State.wf s = true) : State.wf (State.repairScrubbed s job) = true := by
  unfold State.repairScrubbed
  repeat' (first
    | with_reducible assumption
    | (with_reducible intro _; try beta_reduce)
    | with_reducible apply State.repairLine_wf
    | with_reducible apply foldl_wf
    | with_reducible apply wf_mk)

end Sys2Proof.Machine
end

