-- ==== Sys2Proof/Laws/WfCommit.lean ====
section
/-!
SUPPORT. Every operation of Machine/Commit.lean keeps the canonical form of memory and registers.
-/

namespace Sys2Proof.Machine

open Sys2Proof

theorem State.sendBarrier_wf {s : State} {job done : Nat} (h_s : State.wf s = true) : State.wf (State.sendBarrier s job done) = true := by
  unfold State.sendBarrier
  repeat' (first
    | with_reducible assumption
    | (with_reducible intro _; try beta_reduce)
    | with_reducible apply wf_ite
    | with_reducible apply State.sendFenced_wf
    | with_reducible apply State.setJob_wf
    | with_reducible apply foldl_wf
    | (extract_lets +onlyGivenNames x; clear_value x)
    | split)

theorem execBarrierLineSend_wf {job done : Nat} {s : State} (h_s : State.wf s = true) : OutWf (execBarrierLineSend job done s) := by
  unfold execBarrierLineSend
  repeat' (first
    | with_reducible assumption
    | with_reducible apply State.sendBarrier_wf
    | with_reducible apply outWf_next)

theorem State.accountOr_wf {s : State} {c : Nat} {f : List Byte → List Byte} (h_s : State.wf s = true) : State.wf (State.accountOr s c f) = true := by
  unfold State.accountOr
  repeat' (first
    | with_reducible assumption
    | with_reducible apply State.account_wf
    | with_reducible apply State.park_wf
    | with_reducible apply State.unitFault_wf
    | with_reducible refine optWf_of (by assumption) ?_
    | split)

theorem State.tellClients_wf {s : State} {job : Nat} {p : Pass} (h_s : State.wf s = true) : State.wf (State.tellClients s job p) = true := by
  unfold State.tellClients
  repeat' (first
    | with_reducible assumption
    | (with_reducible intro _; try beta_reduce)
    | with_reducible apply wf_ite
    | with_reducible apply State.accountOr_wf
    | with_reducible apply State.clientPost_wf
    | with_reducible apply foldl_wf)

theorem State.recipeCommit_wf {s : State} {job : Nat} {j : Job} {p : Pass} {t : Nat × List Nat} (h_s : s.wf) : (s.recipeCommit job j p t).wf := by
  refine State.schedAccP_wf h_s (accFst_bind (fun e => accFst_bind (fun r => ?_))) (fun x h => wf_ite h (State.report_wf h))
  intro x hx
  dsimp only at hx
  cases hw : s.writeVa job (j.statusVa t.1) (statusAfter r t.2 (alarmWhy e t.2) p.recipeBank p.label) with
  | ok a =>
    have ha : a.wf := State.writeVa_wf h_s a hw
    rw [hw] at hx
    cases hx
    exact ha
  | _ => rw [hw] at hx; cases hx

theorem State.imbalanceCommit_wf {s : State} {job : Nat} {p : Pass} {k : Nat} (h_s : s.wf) : (s.imbalanceCommit job p k).wf :=
  State.schedAccS_wf h_s (accAny_bind (fun _ => accAny_bind (fun _ => State.writeVa_wf h_s))) (fun _ h => h)

theorem State.commitStream_wf {s : State} {n : Nat} (h_s : State.wf s = true) : State.wf (State.commitStream s n) = true := by
  unfold State.commitStream
  repeat' (first
    | with_reducible assumption
    | with_reducible apply wf_ite
    | with_reducible apply State.event_wf
    | with_reducible apply State.modArena_wf
    | with_reducible apply State.setStream_wf
    | split)

theorem State.unitCounts_wf {s : State} {p : Pass} (h_s : State.wf s = true) : State.wf (State.unitCounts s p) = true := by
  unfold State.unitCounts
  repeat' (first
    | with_reducible assumption
    | (with_reducible intro _; try beta_reduce)
    | with_reducible apply wf_ite
    | with_reducible apply State.count_wf
    | with_reducible apply State.irq_wf
    | with_reducible apply foldl_wf)

theorem State.beginTail_wf {s : State} {job : Nat} (h_s : State.wf s = true) : State.wf (State.beginTail s job) = true := by
  unfold State.beginTail
  repeat' (first
    | with_reducible assumption
    | (with_reducible intro _; try beta_reduce)
    | with_reducible apply wf_ite
    | with_reducible apply State.dropHolder_wf
    | with_reducible apply parkWf_of
    | split
    | with_reducible apply wf_mk)

theorem State.commitPass_wf {s : State} {job b : Nat} (h_s : State.wf s = true) : State.wf (State.commitPass s job b) = true := by
  unfold State.commitPass
  repeat' (first
    | with_reducible assumption
    | (with_reducible intro _; try beta_reduce)
    | with_reducible apply State.addPreempted_wf
    | with_reducible apply State.beginTail_wf
    | with_reducible apply State.clearBay_wf
    | with_reducible apply State.commitStream_wf
    | with_reducible apply State.imbalanceCommit_wf
    | with_reducible apply State.modJob_wf
    | with_reducible apply State.recipeCommit_wf
    | with_reducible apply State.releaseSwitches_wf
    | with_reducible apply State.repairScrubbed_wf
    | with_reducible apply State.swapsCommitted_wf
    | with_reducible apply State.tellClients_wf
    | with_reducible apply State.trouble_wf
    | with_reducible apply State.unitCounts_wf
    | with_reducible apply foldl_wf
    | with_reducible apply foldl_wf
    | with_reducible apply fst_wf
    | with_reducible apply snd_wf
    | with_reducible apply parkWf_of
    | with_reducible apply foldl_park
    | with_reducible refine optWf_of (by assumption) ?_
    | with_reducible refine optFst_of (by assumption) ?_
    | with_reducible refine optFst_of2 (by assumption) ?_
    | with_reducible refine fstWf_of (by assumption) ?_
    | with_reducible refine sndWf_of (by assumption) ?_
    | (extract_lets +onlyGivenNames x; refine carry (p := x.canon) ?_ ?_; (on_goal 1 => subst x); (on_goal 2 => clear_value x; intro hx))
    | (extract_lets +onlyGivenNames x; refine carry (p := x.1.canon) ?_ ?_; (on_goal 1 => subst x); (on_goal 2 => clear_value x; intro hx))
    | (extract_lets +onlyGivenNames x; clear_value x)
    | split
    | with_reducible apply wf_mk)

theorem State.barrierDone_wf {s : State} {job : Nat} (h_s : State.wf s = true) : State.wf (State.barrierDone s job) = true := by
  unfold State.barrierDone
  repeat' (first
    | with_reducible assumption
    | (with_reducible intro _; try beta_reduce)
    | with_reducible apply wf_ite
    | with_reducible apply State.commitPass_wf
    | with_reducible apply State.schedAcc_wf
    | with_reducible apply State.schedFault_wf
    | with_reducible apply foldl_wf
    | with_reducible apply foldl_wf
    | with_reducible apply parkWf_of
    | with_reducible apply foldl_park
    | with_reducible refine optWf_of (by assumption) ?_
    | with_reducible refine optFst_of (by assumption) ?_
    | with_reducible refine optFst_of2 (by assumption) ?_
    | with_reducible refine fstWf_of (by assumption) ?_
    | with_reducible refine sndWf_of (by assumption) ?_
    | (extract_lets +onlyGivenNames x; refine carry (p := x.canon) ?_ ?_; (on_goal 1 => subst x); (on_goal 2 => clear_value x; intro hx))
    | (extract_lets +onlyGivenNames x; clear_value x)
    | split
    | with_reducible apply wf_mk)

theorem execCommitBarrierComplete_wf {s : State} (h_s : State.wf s = true) : OutWf (execCommitBarrierComplete s) := by
  unfold execCommitBarrierComplete
  repeat' (first
    | with_reducible assumption
    | (with_reducible intro _; try beta_reduce)
    | with_reducible apply State.barrierDone_wf
    | with_reducible apply foldl_wf
    | with_reducible apply outWf_next)

theorem State.runEntry_wf {s : State} {e : Entry} (h_s : State.wf s = true) : State.wf (State.runEntry s e) = true := by
  unfold State.runEntry
  repeat' (first
    | with_reducible assumption
    | with_reducible apply wf_ite
    | with_reducible apply State.complete_wf
    | with_reducible apply State.endRun_wf
    | (extract_lets +onlyGivenNames x; clear_value x)
    | split
    | with_reducible apply wf_mk)

theorem execRun_wf {r : Ring} {s : State} (h_s : State.wf s = true) : OutWf (execRun r s) := by
  unfold execRun
  repeat' (first
    | with_reducible assumption
    | (with_reducible intro _; try beta_reduce)
    | with_reducible apply State.onEntry_wf
    | with_reducible apply State.runEntry_wf
    | with_reducible apply outWf_next)

theorem State.runEnd_wf {s : State} (h_s : State.wf s = true) : State.wf (State.runEnd s) = true := by
  unfold State.runEnd
  repeat' (first
    | with_reducible assumption
    | with_reducible apply wf_ite
    | with_reducible apply State.accountOr_wf
    | with_reducible apply State.dropHolder_wf
    | with_reducible apply State.endRun_wf
    | (extract_lets +onlyGivenNames x; refine carry (p := x.canon) ?_ ?_; (on_goal 1 => subst x); (on_goal 2 => clear_value x; intro hx))
    | split
    | with_reducible apply wf_mk)

theorem execRunEnd_wf {s : State} (h_s : State.wf s = true) : OutWf (execRunEnd s) := by
  unfold execRunEnd
  repeat' (first
    | with_reducible assumption
    | with_reducible apply State.runEnd_wf
    | with_reducible apply outWf_next)

theorem State.runLimit_wf {s : State} (h_s : State.wf s = true) : State.wf (State.runLimit s) = true := by
  unfold State.runLimit
  repeat' (first
    | with_reducible assumption
    | with_reducible apply wf_ite
    | with_reducible apply State.schedFault_wf
    | split)

theorem execRunLimit_wf {s : State} (h_s : State.wf s = true) : OutWf (execRunLimit s) := by
  unfold execRunLimit
  repeat' (first
    | with_reducible assumption
    | with_reducible apply State.runLimit_wf
    | with_reducible apply outWf_next)

end Sys2Proof.Machine
end

