-- ==== Sys2Proof/Laws/WfJobs.lean ====
section
/-!
SUPPORT. Every operation of Machine/Jobs.lean keeps the canonical form of memory and registers.
-/

namespace Sys2Proof.Machine

open Sys2Proof

theorem execRingNop_wf {r : Ring} {s : State} (h_s : State.wf s = true) : OutWf (execRingNop r s) := by
  unfold execRingNop
  repeat' (first
    | with_reducible assumption
    | (with_reducible intro _; try beta_reduce)
    | with_reducible apply State.complete_wf
    | with_reducible apply State.onEntry_wf
    | with_reducible apply outWf_next
    | split)

theorem State.showJob_wf {s : State} {n : Nat} (h_s : State.wf s = true) : State.wf (State.showJob s n) = true := by
  unfold State.showJob
  repeat' (first
    | with_reducible assumption
    | with_reducible apply State.putPreg_wf
    | with_reducible apply State.setPreg_wf
    | with_reducible apply State.showArena_wf
    | with_reducible apply State.showBank_wf)

theorem State.mapRange_wf {s : State} {job : Nat} {j : Job} {r : RangeRec} (h_s : State.wf s = true) : OptWf (State.mapRange s job j r) := by
  unfold State.mapRange
  repeat' (first
    | with_reducible assumption
    | with_reducible apply State.mapWeight_wf
    | with_reducible apply State.mapZero_wf
    | with_reducible apply optWf_some
    | with_reducible apply optWf_none
    | with_reducible apply optWf_ite)

theorem State.mapRanges_wf {s : State} {job : Nat} {j : Job} {l : List RangeRec} (h_s : s.wf) : OptWf (s.mapRanges job j l) := by
  induction l generalizing s with
  | nil => exact optWf_some h_s
  | cons r l ih =>
    unfold State.mapRanges
    exact optWf_ite (optWf_bind (State.mapRange_wf h_s) (fun _ h => ih h)) (ih h_s)

theorem State.assignPartition_wf {s : State} {b job : Nat} (h_s : State.wf s = true) : State.wf (State.assignPartition s b job) = true := by
  unfold State.assignPartition
  repeat' (first
    | with_reducible assumption
    | with_reducible apply State.setPreg_wf
    | with_reducible apply wf_mk)

theorem State.assignPartitions_wf {s : State} {job : Nat} (h_s : State.wf s = true) : State.wf (State.assignPartitions s job) = true := by
  unfold State.assignPartitions
  repeat' (first
    | with_reducible assumption
    | (with_reducible intro _; try beta_reduce)
    | with_reducible apply State.assignPartition_wf
    | with_reducible apply foldl_wf)

theorem State.grantLines_wf {s : State} (h_s : State.wf s = true) : State.wf (State.grantLines s) = true := by
  unfold State.grantLines
  repeat' (first
    | with_reducible assumption
    | with_reducible apply wf_ite
    | with_reducible apply State.putPreg_wf
    | split
    | with_reducible apply wf_mk)

theorem State.jobCreate_wf {s : State} {e : Entry} (h_s : State.wf s = true) : State.wf (State.jobCreate s e) = true := by
  unfold State.jobCreate
  repeat' (first
    | with_reducible assumption
    | (with_reducible intro _; try beta_reduce)
    | with_reducible apply wf_ite
    | with_reducible apply State.assignPartitions_wf
    | with_reducible apply State.complete_wf
    | with_reducible apply State.grantLines_wf
    | with_reducible apply State.mapRanges_wf
    | with_reducible apply State.needTable_wf
    | with_reducible apply State.setJob_wf
    | with_reducible apply State.setPreg_wf
    | with_reducible apply State.showFree_wf
    | with_reducible apply State.showJob_wf
    | with_reducible apply State.staleReads_wf
    | with_reducible apply fst_wf
    | with_reducible apply snd_wf
    | with_reducible apply parkWf_of
    | with_reducible refine optWf_of (by assumption) ?_
    | with_reducible refine optFst_of (by assumption) ?_
    | with_reducible refine optFst_of2 (by assumption) ?_
    | with_reducible refine fstWf_of (by assumption) ?_
    | with_reducible refine sndWf_of (by assumption) ?_
    | (extract_lets +onlyGivenNames x; refine carry (p := x.canon) ?_ ?_; (on_goal 1 => subst x); (on_goal 2 => clear_value x; intro hx))
    | (extract_lets +onlyGivenNames x; refine carry (p := x.1.canon) ?_ ?_; (on_goal 1 => subst x); (on_goal 2 => clear_value x; intro hx))
    | (extract_lets +onlyGivenNames x; clear_value x)
    | split
    | with_reducible apply wf_mk)

theorem execJobCreate_wf {r : Ring} {s : State} (h_s : State.wf s = true) : OutWf (execJobCreate r s) := by
  unfold execJobCreate
  repeat' (first
    | with_reducible assumption
    | (with_reducible intro _; try beta_reduce)
    | with_reducible apply State.jobCreate_wf
    | with_reducible apply State.onEntry_wf
    | with_reducible apply outWf_next)

theorem State.startWrites_wf {s : State} {n : Nat} {j : Job} (h_s : State.wf s = true) : State.wf (State.startWrites s n j) = true := by
  unfold State.startWrites
  repeat' (first
    | with_reducible assumption
    | (with_reducible intro _; try beta_reduce)
    | with_reducible apply State.setPreg_wf
    | with_reducible apply State.writeVa_wf
    | with_reducible apply foldl_wf
    | with_reducible refine accWf_of (by assumption) ?_
    | split
    | with_reducible apply wf_mk)

theorem State.jobStart_wf {s : State} {e : Entry} (h_s : State.wf s = true) : State.wf (State.jobStart s e) = true := by
  unfold State.jobStart
  repeat' (first
    | with_reducible assumption
    | with_reducible apply wf_ite
    | with_reducible apply State.complete_wf
    | with_reducible apply State.setJob_wf
    | with_reducible apply State.showJob_wf
    | with_reducible apply State.startWrites_wf
    | (extract_lets +onlyGivenNames x; refine carry (p := x.canon) ?_ ?_; (on_goal 1 => subst x); (on_goal 2 => clear_value x; intro hx))
    | (extract_lets +onlyGivenNames x; clear_value x)
    | split
    | with_reducible apply wf_mk)

theorem execJobStart_wf {r : Ring} {s : State} (h_s : State.wf s = true) : OutWf (execJobStart r s) := by
  unfold execJobStart
  repeat' (first
    | with_reducible assumption
    | (with_reducible intro _; try beta_reduce)
    | with_reducible apply State.jobStart_wf
    | with_reducible apply State.onEntry_wf
    | with_reducible apply outWf_next)

theorem State.jobDestroy_wf {s : State} {e : Entry} (h_s : State.wf s = true) : State.wf (State.jobDestroy s e) = true := by
  unfold State.jobDestroy
  repeat' (first
    | with_reducible assumption
    | with_reducible apply wf_ite
    | with_reducible apply State.complete_wf
    | with_reducible apply State.setJob_wf
    | with_reducible apply State.showJob_wf
    | (extract_lets +onlyGivenNames x; clear_value x)
    | split)

theorem execJobDestroy_wf {r : Ring} {s : State} (h_s : State.wf s = true) : OutWf (execJobDestroy r s) := by
  unfold execJobDestroy
  repeat' (first
    | with_reducible assumption
    | (with_reducible intro _; try beta_reduce)
    | with_reducible apply State.jobDestroy_wf
    | with_reducible apply State.onEntry_wf
    | with_reducible apply outWf_next)

theorem State.cancelEntries_wf {s : State} {n : Nat} {j : Job} (h_s : State.wf s = true) : State.wf (State.cancelEntries s n j) = true := by
  unfold State.cancelEntries
  repeat' (first
    | with_reducible assumption
    | (with_reducible intro _; try beta_reduce)
    | with_reducible apply wf_ite
    | with_reducible apply State.completeLater_wf
    | with_reducible apply State.dropStaged_wf
    | with_reducible apply foldl_wf
    | (extract_lets +onlyGivenNames x; refine carry (p := x.canon) ?_ ?_; (on_goal 1 => subst x); (on_goal 2 => clear_value x; intro hx))
    | (extract_lets +onlyGivenNames x; have _ := fun t : State => x t; subst x; try beta_reduce)
    | split
    | with_reducible apply wf_mk)

theorem State.freeStreams_wf {s : State} {n : Nat} (h_s : State.wf s = true) : State.wf (State.freeStreams s n) = true := by
  unfold State.freeStreams
  repeat' (first
    | with_reducible assumption
    | (with_reducible intro _; try beta_reduce)
    | with_reducible apply State.completeLater_wf
    | with_reducible apply State.freeStream_wf
    | with_reducible apply foldl_wf
    | split)

theorem filterRegs_wf {s : State} {p : Nat × Word → Bool} (h : s.wf) : State.wf { s with regs := s.regs.filter p } :=
  wf_intro (show Memory.wf s.mem from wf_memory h) (regFile_filter (h := s.isH) _ (wf_regs h))

theorem State.clearTables_wf {s : State} {n : Nat} (h_s : s.wf) : (s.clearTables n).wf :=
  State.setPreg_wf (foldl_wf (filterRegs_wf h_s) (fun _ _ h => State.setReg_wf h))

theorem State.closeChannels_wf {s : State} {n : Nat} (h_s : State.wf s = true) : State.wf (State.closeChannels s n) = true := by
  unfold State.closeChannels
  repeat' (first
    | with_reducible assumption
    | (with_reducible intro _; try beta_reduce)
    | with_reducible apply wf_ite
    | with_reducible apply State.putChan_wf
    | with_reducible apply State.setHReg_wf
    | with_reducible apply State.unpark_wf
    | with_reducible apply foldl_wf)

theorem State.dropSpace_wf {s : State} {n : Nat} (h_s : State.wf s = true) : State.wf (State.dropSpace s n) = true := by
  unfold State.dropSpace
  repeat' (first
    | with_reducible assumption
    | (with_reducible intro _; try beta_reduce)
    | with_reducible apply State.showFree_wf
    | with_reducible apply State.unmapPage_wf
    | with_reducible apply foldl_wf
    | with_reducible apply wf_mk)

theorem State.dropJobState_wf {s : State} {n : Nat} (h_s : State.wf s = true) : State.wf (State.dropJobState s n) = true := by
  unfold State.dropJobState
  repeat' (first
    | with_reducible assumption
    | (with_reducible intro _; try beta_reduce)
    | with_reducible apply State.issueStages_wf
    | with_reducible apply State.labDropJob_wf
    | with_reducible apply State.putPreg_wf
    | with_reducible apply State.setPreg_wf
    | with_reducible apply State.showArena_wf
    | with_reducible apply State.showContaining_wf
    | with_reducible apply State.showJob_wf
    | with_reducible apply State.showMigrate_wf
    | with_reducible apply foldl_wf
    | with_reducible apply foldl_wf
    | with_reducible apply fst_wf
    | with_reducible apply snd_wf
    | with_reducible apply parkWf_of
    | with_reducible apply foldl_park
    | (extract_lets +onlyGivenNames x; refine carry (p := x.canon) ?_ ?_; (on_goal 1 => subst x); (on_goal 2 => clear_value x; intro hx))
    | (extract_lets +onlyGivenNames x; refine carry (p := x.1.canon) ?_ ?_; (on_goal 1 => subst x); (on_goal 2 => clear_value x; intro hx))
    | (extract_lets +onlyGivenNames x; clear_value x)
    | with_reducible apply wf_mk)

theorem State.destroyJob_wf {s : State} {n : Nat} (h_s : State.wf s = true) : State.wf (State.destroyJob s n) = true := by
  unfold State.destroyJob
  repeat' (first
    | with_reducible assumption
    | (with_reducible intro _; try beta_reduce)
    | with_reducible apply State.abandonRuns_wf
    | with_reducible apply State.abandonUnits_wf
    | with_reducible apply State.cancelEntries_wf
    | with_reducible apply State.clearTables_wf
    | with_reducible apply State.closeChannels_wf
    | with_reducible apply State.completeLater_wf
    | with_reducible apply State.dropJobState_wf
    | with_reducible apply State.dropSpace_wf
    | with_reducible apply State.endClient_wf
    | with_reducible apply State.freeStreams_wf
    | with_reducible apply State.reschedule_wf
    | with_reducible apply foldl_wf
    | with_reducible apply foldl_wf
    | with_reducible apply fst_wf
    | with_reducible apply snd_wf
    | with_reducible apply foldl_park
    | with_reducible refine optWf_of (by assumption) ?_
    | with_reducible refine optFst_of (by assumption) ?_
    | with_reducible refine optFst_of2 (by assumption) ?_
    | with_reducible refine fstWf_of (by assumption) ?_
    | with_reducible refine sndWf_of (by assumption) ?_
    | (extract_lets +onlyGivenNames x; refine carry (p := x.canon) ?_ ?_; (on_goal 1 => subst x); (on_goal 2 => clear_value x; intro hx))
    | (extract_lets +onlyGivenNames x; refine carry (p := x.1.canon) ?_ ?_; (on_goal 1 => subst x); (on_goal 2 => clear_value x; intro hx))
    | (extract_lets +onlyGivenNames x; clear_value x)
    | split
    | with_reducible apply wf_mk)

theorem execJobDestruction_wf {s : State} (h_s : State.wf s = true) : OutWf (execJobDestruction s) := by
  unfold execJobDestruction
  repeat' (first
    | with_reducible assumption
    | (with_reducible intro _; try beta_reduce)
    | with_reducible apply wf_ite
    | with_reducible apply State.destroyJob_wf
    | with_reducible apply foldl_wf
    | with_reducible apply outWf_next
    | split)

theorem State.clientCreate_wf {s : State} {e : Entry} (h_s : State.wf s = true) : State.wf (State.clientCreate s e) = true := by
  unfold State.clientCreate
  repeat' (first
    | with_reducible assumption
    | with_reducible apply wf_ite
    | with_reducible apply State.complete_wf
    | with_reducible apply State.writeVa_wf
    | with_reducible refine accWf_of (by assumption) ?_
    | (extract_lets +onlyGivenNames x; clear_value x)
    | split
    | with_reducible apply wf_mk)

theorem execClientCreate_wf {r : Ring} {s : State} (h_s : State.wf s = true) : OutWf (execClientCreate r s) := by
  unfold execClientCreate
  repeat' (first
    | with_reducible assumption
    | (with_reducible intro _; try beta_reduce)
    | with_reducible apply State.clientCreate_wf
    | with_reducible apply State.onEntry_wf
    | with_reducible apply outWf_next)

theorem State.clientDestroy_wf {s : State} {e : Entry} (h_s : State.wf s = true) : State.wf (State.clientDestroy s e) = true := by
  unfold State.clientDestroy
  repeat' (first
    | with_reducible assumption
    | (with_reducible intro _; try beta_reduce)
    | with_reducible apply wf_ite
    | with_reducible apply State.complete_wf
    | with_reducible apply State.reapClient_wf
    | with_reducible apply snd_wf
    | with_reducible apply parkWf_of
    | with_reducible refine optWf_of (by assumption) ?_
    | with_reducible refine optFst_of (by assumption) ?_
    | with_reducible refine optFst_of2 (by assumption) ?_
    | with_reducible refine fstWf_of (by assumption) ?_
    | with_reducible refine sndWf_of (by assumption) ?_
    | (extract_lets +onlyGivenNames x; refine carry (p := x.canon) ?_ ?_; (on_goal 1 => subst x); (on_goal 2 => clear_value x; intro hx))
    | (extract_lets +onlyGivenNames x; clear_value x)
    | split
    | with_reducible apply wf_mk)

theorem execClientDestroy_wf {r : Ring} {s : State} (h_s : State.wf s = true) : OutWf (execClientDestroy r s) := by
  unfold execClientDestroy
  repeat' (first
    | with_reducible assumption
    | (with_reducible intro _; try beta_reduce)
    | with_reducible apply State.clientDestroy_wf
    | with_reducible apply State.onEntry_wf
    | with_reducible apply outWf_next)

theorem State.switchEntry_wf {s : State} {e : Entry} {get : Job → Banked} {put : Job → Banked → Job} {legal : Nat → Bool} {bad : State → Nat → Job → Nat → Option Nat} (h_s : State.wf s = true) : State.wf (State.switchEntry s e get put legal bad) = true := by
  unfold State.switchEntry
  repeat' (first
    | with_reducible assumption
    | with_reducible apply wf_ite
    | with_reducible apply State.complete_wf
    | with_reducible apply State.setJob_wf
    | with_reducible apply State.showBank_wf
    | (extract_lets +onlyGivenNames x; clear_value x)
    | split)

theorem execRecipeSwitch_wf {r : Ring} {s : State} (h_s : State.wf s = true) : OutWf (execRecipeSwitch r s) := by
  unfold execRecipeSwitch
  repeat' (first
    | with_reducible assumption
    | (with_reducible intro _; try beta_reduce)
    | with_reducible apply State.onEntry_wf
    | with_reducible apply State.switchEntry_wf
    | with_reducible apply outWf_next)

theorem execPlacementSwitch_wf {r : Ring} {s : State} (h_s : State.wf s = true) : OutWf (execPlacementSwitch r s) := by
  unfold execPlacementSwitch
  repeat' (first
    | with_reducible assumption
    | (with_reducible intro _; try beta_reduce)
    | with_reducible apply State.onEntry_wf
    | with_reducible apply State.switchEntry_wf
    | with_reducible apply outWf_next)

theorem execLevelChange_wf {r : Ring} {s : State} (h_s : State.wf s = true) : OutWf (execLevelChange r s) := by
  unfold execLevelChange
  repeat' (first
    | with_reducible assumption
    | (with_reducible intro _; try beta_reduce)
    | with_reducible apply State.onEntry_wf
    | with_reducible apply State.switchEntry_wf
    | with_reducible apply outWf_next)

end Sys2Proof.Machine
end

