-- ==== Sys2Proof/Laws/WfPeers.lean ====
section
/-!
SUPPORT. Every operation of Machine/Peers.lean keeps the canonical form of memory and registers.
-/

namespace Sys2Proof.Machine

open Sys2Proof

theorem State.stopPass_wf {s : State} {n seq : Nat} (h_s : State.wf s = true) : State.wf (State.stopPass s n seq) = true := by
  unfold State.stopPass
  repeat' (first
    | with_reducible assumption
    | with_reducible apply wf_ite
    | with_reducible apply State.abandonRuns_wf
    | with_reducible apply State.abandonUnits_wf
    | with_reducible apply State.setJob_wf
    | (extract_lets +onlyGivenNames x; clear_value x)
    | split)

theorem State.haltLine_wf {s : State} {n : Nat} {l : List Byte} (h_s : State.wf s = true) : State.wf (State.haltLine s n l) = true := by
  unfold State.haltLine
  repeat' (first
    | with_reducible assumption
    | with_reducible apply wf_ite
    | with_reducible apply State.episodeLine_wf
    | with_reducible apply State.report_wf
    | with_reducible apply State.reschedule_wf
    | with_reducible apply State.stopPass_wf
    | (extract_lets +onlyGivenNames x; refine carry (p := x.canon) ?_ ?_; (on_goal 1 => subst x); (on_goal 2 => clear_value x; intro hx))
    | (extract_lets +onlyGivenNames x; clear_value x)
    | split)

theorem State.showLoss_wf {s : State} (h_s : State.wf s = true) : State.wf (State.showLoss s) = true := by
  unfold State.showLoss
  repeat' (first
    | with_reducible assumption
    | with_reducible apply State.putPreg_wf
    | with_reducible apply State.setPreg_wf)

theorem State.dropPasses_wf {s : State} {n q : Nat} (h_s : State.wf s = true) : State.wf (State.dropPasses s n q) = true := by
  unfold State.dropPasses
  repeat' (first
    | with_reducible assumption
    | with_reducible apply State.modArena_wf
    | with_reducible apply State.modJob_wf
    | (extract_lets +onlyGivenNames x; refine carry (p := x.canon) ?_ ?_; (on_goal 1 => subst x); (on_goal 2 => clear_value x; intro hx))
    | (extract_lets +onlyGivenNames x; clear_value x)
    | split)

theorem State.loseMember_wf {s : State} {e n : Nat} (h_s : State.wf s = true) : State.wf (State.loseMember s e n) = true := by
  unfold State.loseMember
  repeat' (first
    | with_reducible assumption
    | with_reducible apply wf_ite
    | with_reducible apply State.dropPasses_wf
    | with_reducible apply State.episodeLine_wf
    | with_reducible apply State.sendContain_wf
    | with_reducible apply State.setJob_wf
    | with_reducible apply State.stopPass_wf
    | split)

theorem State.declareLost_wf {s : State} {e : Nat} (h_s : State.wf s = true) : State.wf (State.declareLost s e) = true := by
  unfold State.declareLost
  repeat' (first
    | with_reducible assumption
    | (with_reducible intro _; try beta_reduce)
    | with_reducible apply wf_ite
    | with_reducible apply State.irq_wf
    | with_reducible apply State.loseMember_wf
    | with_reducible apply State.report_wf
    | with_reducible apply State.reschedule_wf
    | with_reducible apply State.showContaining_wf
    | with_reducible apply State.showLoss_wf
    | with_reducible apply foldl_wf
    | with_reducible apply wf_mk)

theorem State.lossLine_wf {s : State} {n : Nat} {l : List Byte} (h_s : State.wf s = true) : State.wf (State.lossLine s n l) = true := by
  unfold State.lossLine
  repeat' (first
    | with_reducible assumption
    | with_reducible apply wf_ite
    | with_reducible apply State.declareLost_wf
    | with_reducible apply State.episodeLine_wf
    | with_reducible apply State.stopPass_wf
    | split)

theorem State.sendLoss_wf {s : State} (h_s : State.wf s = true) : State.wf (State.sendLoss s) = true := by
  unfold State.sendLoss
  repeat' (first
    | with_reducible assumption
    | (with_reducible intro _; try beta_reduce)
    | with_reducible apply State.report_wf
    | with_reducible apply State.sendContain_wf
    | with_reducible apply foldl_wf
    | split)

theorem State.silentMember_wf {s : State} {e : Nat} (h_s : State.wf s = true) : State.wf (State.silentMember s e) = true := by
  unfold State.silentMember
  repeat' (first
    | with_reducible assumption
    | with_reducible apply wf_ite
    | with_reducible apply State.declareLost_wf)

theorem execSilentMemberTimeout_wf {endpoint : Nat} {s : State} (h_s : State.wf s = true) : OutWf (execSilentMemberTimeout endpoint s) := by
  unfold execSilentMemberTimeout
  repeat' (first
    | with_reducible assumption
    | with_reducible apply State.silentMember_wf
    | with_reducible apply outWf_next)

theorem State.answerJoin_wf {s : State} {n e t : Nat} (h_s : State.wf s = true) : State.wf (State.answerJoin s n e t) = true := by
  unfold State.answerJoin
  repeat' (first
    | with_reducible assumption
    | with_reducible apply wf_ite
    | with_reducible apply State.abandonUnits_wf
    | with_reducible apply State.dropPasses_wf
    | with_reducible apply State.modJob_wf
    | with_reducible apply State.sendUrgent_wf
    | with_reducible apply State.showContaining_wf
    | with_reducible apply State.showLoss_wf
    | (extract_lets +onlyGivenNames x; refine carry (p := x.canon) ?_ ?_; (on_goal 1 => subst x); (on_goal 2 => clear_value x; intro hx))
    | split)

theorem State.joinLine_wf {s : State} {n : Nat} {l : List Byte} (h_s : State.wf s = true) : State.wf (State.joinLine s n l) = true := by
  unfold State.joinLine
  repeat' (first
    | with_reducible assumption
    | with_reducible apply wf_ite
    | with_reducible apply State.answerJoin_wf
    | with_reducible apply State.setJob_wf
    | split)

theorem State.syncLine_wf {s : State} {n : Nat} {l : List Byte} (h_s : State.wf s = true) : State.wf (State.syncLine s n l) = true := by
  unfold State.syncLine
  repeat' (first
    | with_reducible assumption
    | with_reducible apply wf_ite
    | with_reducible apply State.setJob_wf
    | split)

theorem State.lineReceived_wf {s : State} {n : Nat} {l : List Byte} (h_s : State.wf s = true) : State.wf (State.lineReceived s n l) = true := by
  unfold State.lineReceived
  repeat' (first
    | with_reducible assumption
    | with_reducible apply State.haltLine_wf
    | with_reducible apply State.joinLine_wf
    | with_reducible apply State.lossLine_wf
    | with_reducible apply State.syncLine_wf
    | split)

theorem State.lineOf_wf {s : State} {kind n : Nat} {l : List Byte} (h_s : State.wf s = true) : State.wf (State.lineOf s kind n l) = true := by
  unfold State.lineOf
  repeat' (first
    | with_reducible assumption
    | with_reducible apply wf_ite
    | with_reducible apply State.lineReceived_wf)

theorem execHaltReceive_wf {job : Nat} {line : List Byte} {s : State} (h_s : State.wf s = true) : OutWf (execHaltReceive job line s) := by
  unfold execHaltReceive
  repeat' (first
    | with_reducible assumption
    | with_reducible apply State.lineOf_wf
    | with_reducible apply outWf_next)

theorem execLossReceive_wf {job : Nat} {line : List Byte} {s : State} (h_s : State.wf s = true) : OutWf (execLossReceive job line s) := by
  unfold execLossReceive
  repeat' (first
    | with_reducible assumption
    | with_reducible apply State.lineOf_wf
    | with_reducible apply outWf_next)

theorem execJoinReceive_wf {job : Nat} {line : List Byte} {s : State} (h_s : State.wf s = true) : OutWf (execJoinReceive job line s) := by
  unfold execJoinReceive
  repeat' (first
    | with_reducible assumption
    | with_reducible apply State.lineOf_wf
    | with_reducible apply outWf_next)

theorem execSyncReceive_wf {job : Nat} {line : List Byte} {s : State} (h_s : State.wf s = true) : OutWf (execSyncReceive job line s) := by
  unfold execSyncReceive
  repeat' (first
    | with_reducible assumption
    | with_reducible apply State.lineOf_wf
    | with_reducible apply outWf_next)

end Sys2Proof.Machine
end

