-- ==== Sys2Proof/Laws/WfIngress.lean ====
section
/-!
SUPPORT. Every operation of Machine/Ingress.lean keeps the canonical form of memory and registers.
-/

namespace Sys2Proof.Machine

open Sys2Proof

theorem State.noteRequest_wf {s : State} {p : Packet} (h_s : State.wf s = true) : State.wf (State.noteRequest s p) = true := by
  unfold State.noteRequest
  repeat' (first
    | with_reducible assumption
    | (extract_lets +onlyGivenNames x; clear_value x)
    | with_reducible apply wf_mk)

theorem State.noteAnswer_wf {s : State} {src seq code : Nat} (h_s : State.wf s = true) : State.wf (State.noteAnswer s src seq code) = true := by
  unfold State.noteAnswer
  repeat' (first
    | with_reducible assumption
    | with_reducible apply wf_mk)

theorem State.dedupExpire_wf {s : State} {src : Nat} (h_s : State.wf s = true) : State.wf (State.dedupExpire s src) = true := by
  unfold State.dedupExpire
  repeat' (first
    | with_reducible assumption
    | with_reducible apply wf_ite
    | split
    | with_reducible apply wf_mk)

theorem execDedupRecordExpiry_wf {src : Nat} {s : State} (h_s : State.wf s = true) : OutWf (execDedupRecordExpiry src s) := by
  unfold execDedupRecordExpiry
  repeat' (first
    | with_reducible assumption
    | with_reducible apply State.dedupExpire_wf
    | with_reducible apply outWf_next)

theorem State.answer_wf {s : State} {n : Nat} {p : Packet} {typ code : Nat} {shared : Bool} {line : List Byte} (h_s : State.wf s = true) : State.wf (State.answer s n p typ code shared line) = true := by
  unfold State.answer
  repeat' (first
    | with_reducible assumption
    | with_reducible apply State.noteAnswer_wf
    | with_reducible apply State.transmit_wf)

theorem State.refusePkt_wf {s : State} {n : Option Nat} {p : Packet} {code : Nat} (h_s : State.wf s = true) : State.wf (State.refusePkt s n p code) = true := by
  unfold State.refusePkt
  repeat' (first
    | with_reducible assumption
    | with_reducible apply wf_ite
    | with_reducible apply State.answer_wf
    | with_reducible apply State.count_wf
    | with_reducible apply State.irq_wf
    | with_reducible apply State.report_wf
    | with_reducible apply State.setPreg_wf)

theorem State.misroutePut_wf {s : State} {n : Nat} {j : Job} {r : List Byte} (h_s : State.wf s = true) : OptWf (State.misroutePut s n j r) := by
  unfold State.misroutePut
  repeat' (first
    | with_reducible assumption
    | (with_reducible intro _; try beta_reduce)
    | with_reducible apply State.modJob_wf
    | with_reducible apply State.setPreg_wf
    | with_reducible apply State.writeVa_wf
    | with_reducible apply foldl_wf
    | with_reducible apply optWf_some
    | with_reducible apply optWf_none
    | with_reducible apply optWf_ite
    | with_reducible refine accWf_of (by assumption) ?_
    | split)

theorem State.misrouteNote_wf {s : State} {n : Nat} {p : Packet} {kind epoch : Nat} (h_s : State.wf s = true) : State.wf (State.misrouteNote s n p kind epoch) = true := by
  unfold State.misrouteNote
  repeat' (first
    | with_reducible assumption
    | (with_reducible intro _; try beta_reduce)
    | with_reducible apply wf_ite
    | with_reducible apply State.countWrap_wf
    | with_reducible apply State.irq_wf
    | with_reducible apply State.misroutePut_wf
    | with_reducible apply State.modJob_wf
    | with_reducible apply foldl_wf
    | with_reducible apply getD_wf
    | split)

theorem State.ingressFault_wf {s : State} {n va code : Nat} {p : Packet} (h_s : State.wf s = true) : State.wf (State.ingressFault s n va code p) = true := by
  unfold State.ingressFault
  repeat' (first
    | with_reducible assumption
    | with_reducible apply State.lastFault_wf
    | with_reducible apply State.refusePkt_wf)

theorem State.applyWrite_wf {s : State} {n : Nat} {j : Job} {w : Win} {p : Packet} (h_s : State.wf s = true) : State.wf (State.applyWrite s n j w p) = true := by
  unfold State.applyWrite
  repeat' (first
    | with_reducible assumption
    | with_reducible apply wf_ite
    | with_reducible apply State.answer_wf
    | with_reducible apply State.count64_wf
    | with_reducible apply State.fetchLine_wf
    | with_reducible apply State.ingressFault_wf
    | with_reducible apply State.lineReceived_wf
    | with_reducible apply State.touch_wf
    | with_reducible apply State.writeBay_wf
    | with_reducible apply State.writeVa_wf
    | with_reducible refine accWf_of (by assumption) ?_
    | (extract_lets +onlyGivenNames x; refine carry (p := x.canon) ?_ ?_; (on_goal 1 => subst x); (on_goal 2 => clear_value x; intro hx))
    | (extract_lets +onlyGivenNames x; have _ := fun t : State => x t; subst x; try beta_reduce)
    | (extract_lets +onlyGivenNames x; clear_value x)
    | split)

theorem State.applyRead_wf {s : State} {n : Nat} {w : Win} {p : Packet} (h_s : State.wf s = true) : State.wf (State.applyRead s n w p) = true := by
  unfold State.applyRead
  repeat' (first
    | with_reducible assumption
    | with_reducible apply wf_ite
    | with_reducible apply State.answer_wf
    | with_reducible apply State.count64_wf
    | with_reducible apply State.ingressFault_wf
    | with_reducible apply State.refusePkt_wf
    | with_reducible apply State.touch_wf
    | (extract_lets +onlyGivenNames x; refine carry (p := x.canon) ?_ ?_; (on_goal 1 => subst x); (on_goal 2 => clear_value x; intro hx))
    | (extract_lets +onlyGivenNames x; clear_value x)
    | split)

theorem State.flushAccum_wf {s : State} {a : Accum} (h_s : State.wf s = true) : State.wf (State.flushAccum s a) = true := by
  unfold State.flushAccum
  repeat' (first
    | with_reducible assumption
    | (with_reducible intro _; try beta_reduce)
    | with_reducible apply State.answer_wf
    | with_reducible apply State.count64_wf
    | with_reducible apply State.pegAdd_wf
    | with_reducible apply foldl_wf
    | (extract_lets +onlyGivenNames x; refine carry (p := x.canon) ?_ ?_; (on_goal 1 => subst x); (on_goal 2 => clear_value x; intro hx))
    | with_reducible apply wf_mk)

theorem State.applyInc_wf {s : State} {port n : Nat} {p : Packet} (h_s : State.wf s = true) : State.wf (State.applyInc s port n p) = true := by
  unfold State.applyInc
  repeat' (first
    | with_reducible assumption
    | with_reducible apply wf_ite
    | with_reducible apply State.answer_wf
    | with_reducible apply State.count64_wf
    | with_reducible apply State.flushAccum_wf
    | with_reducible apply State.pegAdd_wf
    | (extract_lets +onlyGivenNames x; refine carry (p := x.canon) ?_ ?_; (on_goal 1 => subst x); (on_goal 2 => clear_value x; intro hx))
    | (extract_lets +onlyGivenNames x; clear_value x)
    | split
    | with_reducible apply wf_mk)

theorem State.flushPeg_wf {s : State} {port peg : Nat} (h_s : State.wf s = true) : State.wf (State.flushPeg s port peg) = true := by
  unfold State.flushPeg
  repeat' (first
    | with_reducible assumption
    | with_reducible apply State.flushAccum_wf
    | split)

theorem execPegAccumulatorFlush_wf {port peg : Nat} {s : State} (h_s : State.wf s = true) : OutWf (execPegAccumulatorFlush port peg s) := by
  unfold execPegAccumulatorFlush
  repeat' (first
    | with_reducible assumption
    | with_reducible apply State.flushPeg_wf
    | with_reducible apply outWf_next)

theorem State.handleReq_wf {s : State} {port : Nat} {p : Packet} (h_s : State.wf s = true) : State.wf (State.handleReq s port p) = true := by
  unfold State.handleReq
  repeat' (first
    | with_reducible assumption
    | with_reducible apply wf_ite
    | with_reducible apply State.applyInc_wf
    | with_reducible apply State.applyRead_wf
    | with_reducible apply State.applyWrite_wf
    | with_reducible apply State.misrouteNote_wf
    | with_reducible apply State.refusePkt_wf
    | split)

theorem State.crcDrop_wf {s : State} {p : Packet} (h_s : State.wf s = true) : State.wf (State.crcDrop s p) = true := by
  unfold State.crcDrop
  repeat' (first
    | with_reducible assumption
    | with_reducible apply State.contained_wf
    | with_reducible apply State.count_wf)

theorem State.answerAgain_wf {s : State} {port : Nat} {p : Packet} {code : Nat} (h_s : State.wf s = true) : State.wf (State.answerAgain s port p code) = true := by
  unfold State.answerAgain
  repeat' (first
    | with_reducible assumption
    | with_reducible apply wf_ite
    | with_reducible apply State.answer_wf
    | with_reducible apply State.handleReq_wf)

theorem State.request_wf {s : State} {port : Nat} {p : Packet} {crc : Bool} (h_s : State.wf s = true) : State.wf (State.request s port p crc) = true := by
  unfold State.request
  repeat' (first
    | with_reducible assumption
    | with_reducible apply wf_ite
    | with_reducible apply State.answerAgain_wf
    | with_reducible apply State.count_wf
    | with_reducible apply State.crcDrop_wf
    | with_reducible apply State.handleReq_wf
    | with_reducible apply State.noteRequest_wf
    | (extract_lets +onlyGivenNames x; refine carry (p := x.canon) ?_ ?_; (on_goal 1 => subst x); (on_goal 2 => clear_value x; intro hx))
    | split
    | with_reducible apply wf_mk)

theorem State.requestOf_wf {s : State} {typ port : Nat} {p : Packet} {crc : Bool} (h_s : State.wf s = true) : State.wf (State.requestOf s typ port p crc) = true := by
  unfold State.requestOf
  repeat' (first
    | with_reducible assumption
    | with_reducible apply wf_ite
    | with_reducible apply State.crcDrop_wf
    | with_reducible apply State.request_wf
    | split)

theorem execLineRead_wf {port : Nat} {p : Packet} {crc : Nat} {s : State} (h_s : State.wf s = true) : OutWf (execLineRead port p crc s) := by
  unfold execLineRead
  repeat' (first
    | with_reducible assumption
    | with_reducible apply outWf_ite
    | with_reducible apply outWf_fault
    | with_reducible apply State.requestOf_wf
    | with_reducible apply outWf_next)

theorem execLineWrite_wf {port : Nat} {p : Packet} {crc : Nat} {s : State} (h_s : State.wf s = true) : OutWf (execLineWrite port p crc s) := by
  unfold execLineWrite
  repeat' (first
    | with_reducible assumption
    | with_reducible apply outWf_ite
    | with_reducible apply outWf_fault
    | with_reducible apply State.requestOf_wf
    | with_reducible apply outWf_next)

theorem execPegInc_wf {port : Nat} {p : Packet} {crc : Nat} {s : State} (h_s : State.wf s = true) : OutWf (execPegInc port p crc s) := by
  unfold execPegInc
  repeat' (first
    | with_reducible assumption
    | with_reducible apply outWf_ite
    | with_reducible apply outWf_fault
    | with_reducible apply State.requestOf_wf
    | with_reducible apply outWf_next)

end Sys2Proof.Machine
end

