-- ==== Sys2Proof/Laws/WfAnswers.lean ====
section
/-!
SUPPORT. Every operation of Machine/Answers.lean keeps the canonical form of memory and registers.
-/

namespace Sys2Proof.Machine

open Sys2Proof

theorem State.settle_wf {s : State} {r : Req} {error : Option Nat} (h_s : State.wf s = true) : State.wf (State.settle s r error) = true := by
  unfold State.settle
  repeat' (first
    | with_reducible assumption
    | with_reducible apply State.pump_wf
    | with_reducible apply wf_mk)

theorem State.goOn_wf {s : State} {u : UnitId} (h_s : State.wf s = true) : State.wf (State.goOn s u) = true := by
  unfold State.goOn
  repeat' (first
    | with_reducible assumption
    | with_reducible apply State.dvStep_wf
    | with_reducible apply State.headStep_wf
    | split)

theorem State.lineFor_wf {s : State} {r : Req} {shared : Bool} {line : List Byte} (h_s : State.wf s = true) : State.wf (State.lineFor s r shared line) = true := by
  unfold State.lineFor
  repeat' (first
    | with_reducible assumption
    | with_reducible apply wf_ite
    | with_reducible apply State.count64_wf
    | with_reducible apply State.putCore_wf
    | with_reducible apply State.rrcFill_wf
    | (extract_lets +onlyGivenNames x; clear_value x)
    | split
    | with_reducible apply wf_mk)

theorem State.readData_wf {s : State} {p : Packet} (h_s : State.wf s = true) : State.wf (State.readData s p) = true := by
  unfold State.readData
  repeat' (first
    | with_reducible assumption
    | with_reducible apply State.count_wf
    | with_reducible apply State.goOn_wf
    | with_reducible apply State.lineFor_wf
    | with_reducible apply State.settle_wf
    | split)

theorem State.acked_wf {s : State} {p : Packet} (h_s : State.wf s = true) : State.wf (State.acked s p) = true := by
  unfold State.acked
  repeat' (first
    | with_reducible assumption
    | with_reducible apply State.count_wf
    | with_reducible apply State.goOn_wf
    | with_reducible apply State.settle_wf
    | split)

theorem State.readRefused_wf {s : State} {r : Req} {code : Nat} (h_s : State.wf s = true) : State.wf (State.readRefused s r code) = true := by
  unfold State.readRefused
  repeat' (first
    | with_reducible assumption
    | with_reducible apply State.containedQuiet_wf
    | with_reducible apply State.loadEnd_wf
    | split)

theorem State.refused_wf {s : State} {p : Packet} (h_s : State.wf s = true) : State.wf (State.refused s p) = true := by
  unfold State.refused
  repeat' (first
    | with_reducible assumption
    | with_reducible apply wf_ite
    | with_reducible apply State.count_wf
    | with_reducible apply State.irq_wf
    | with_reducible apply State.readRefused_wf
    | with_reducible apply State.refusalRecord_wf
    | with_reducible apply State.setFailed_wf
    | with_reducible apply State.settle_wf
    | (extract_lets +onlyGivenNames x; refine carry (p := x.canon) ?_ ?_; (on_goal 1 => subst x); (on_goal 2 => clear_value x; intro hx))
    | (extract_lets +onlyGivenNames x; clear_value x)
    | split)

theorem State.answerOf_wf {s : State} {typ : Nat} {p : Packet} {crc : Bool} {f : State → Packet → State} (h_s : State.wf s = true) (h_f : ∀ (a : State) (b : Packet), State.wf a = true → State.wf (f a b) = true) : State.wf (State.answerOf s typ p crc f) = true := by
  unfold State.answerOf
  repeat' (first
    | with_reducible assumption
    | with_reducible apply wf_ite
    | with_reducible apply h_f
    | with_reducible apply State.crcDrop_wf
    | with_reducible apply wf_mk)

theorem execReadData_wf {p : Packet} {crc : Nat} {s : State} (h_s : State.wf s = true) : OutWf (execReadData p crc s) := by
  unfold execReadData
  repeat' (first
    | with_reducible assumption
    | (with_reducible intro _; try beta_reduce)
    | with_reducible apply State.answerOf_wf
    | with_reducible apply State.readData_wf
    | with_reducible apply outWf_next)

theorem execAck_wf {p : Packet} {crc : Nat} {s : State} (h_s : State.wf s = true) : OutWf (execAck p crc s) := by
  unfold execAck
  repeat' (first
    | with_reducible assumption
    | (with_reducible intro _; try beta_reduce)
    | with_reducible apply State.acked_wf
    | with_reducible apply State.answerOf_wf
    | with_reducible apply outWf_next)

theorem execRefuse_wf {p : Packet} {crc : Nat} {s : State} (h_s : State.wf s = true) : OutWf (execRefuse p crc s) := by
  unfold execRefuse
  repeat' (first
    | with_reducible assumption
    | (with_reducible intro _; try beta_reduce)
    | with_reducible apply State.answerOf_wf
    | with_reducible apply State.refused_wf
    | with_reducible apply outWf_next)

theorem State.fenceGood_wf {s : State} {f : Fence} (h_s : State.wf s = true) : State.wf (State.fenceGood s f) = true := by
  unfold State.fenceGood
  repeat' (first
    | with_reducible assumption
    | with_reducible apply wf_ite
    | with_reducible apply State.goOn_wf
    | with_reducible apply State.putChan_wf
    | with_reducible apply State.sendAll_wf
    | (extract_lets +onlyGivenNames x; refine carry (p := x.canon) ?_ ?_; (on_goal 1 => subst x); (on_goal 2 => clear_value x; intro hx))
    | (extract_lets +onlyGivenNames x; have _ := fun t : State => x t; subst x; try beta_reduce)
    | split)

theorem State.fenceComplete_wf {s : State} (h_s : State.wf s = true) : State.wf (State.fenceComplete s) = true := by
  unfold State.fenceComplete
  repeat' (first
    | with_reducible assumption
    | with_reducible apply State.containedQuiet_wf
    | with_reducible apply State.fenceGood_wf
    | (extract_lets +onlyGivenNames x; refine carry (p := x.canon) ?_ ?_; (on_goal 1 => subst x); (on_goal 2 => clear_value x; intro hx))
    | split
    | with_reducible apply wf_mk)

theorem execFenceComplete_wf {s : State} (h_s : State.wf s = true) : OutWf (execFenceComplete s) := by
  unfold execFenceComplete
  repeat' (first
    | with_reducible assumption
    | with_reducible apply State.fenceComplete_wf
    | with_reducible apply outWf_next)

end Sys2Proof.Machine
end

