-- ==== Sys2Proof/Laws/WfLinks.lean ====
section
/-!
SUPPORT. Every operation of Machine/Links.lean keeps the canonical form of memory and registers.
-/

namespace Sys2Proof.Machine

open Sys2Proof

theorem State.linkRecord_wf {s : State} {n code lane : Nat} (h_s : State.wf s = true) : State.wf (State.linkRecord s n code lane) = true := by
  unfold State.linkRecord
  repeat' (first
    | with_reducible assumption
    | with_reducible apply State.report_wf)

theorem State.setLinkState_wf {s : State} {n st : Nat} (h_s : State.wf s = true) : State.wf (State.setLinkState s n st) = true := by
  unfold State.setLinkState
  repeat' (first
    | with_reducible assumption
    | with_reducible apply wf_ite
    | with_reducible apply State.irq_wf
    | with_reducible apply State.putPreg_wf
    | with_reducible apply State.setPreg_wf)

theorem State.showLanes_wf {s : State} {n : Nat} (h_s : State.wf s = true) : State.wf (State.showLanes s n) = true := by
  unfold State.showLanes
  repeat' (first
    | with_reducible assumption
    | with_reducible apply State.putPreg_wf
    | with_reducible apply State.setPreg_wf
    | with_reducible apply wf_mk)

theorem State.putLanes_wf {s : State} {n : Nat} {f : Port → Port} (h_s : State.wf s = true) : State.wf (State.putLanes s n f) = true := by
  unfold State.putLanes
  repeat' (first
    | with_reducible assumption
    | with_reducible apply State.modPort_wf
    | with_reducible apply State.showLanes_wf)

theorem State.goDown_wf {s : State} {n st : Nat} (h_s : State.wf s = true) : State.wf (State.goDown s n st) = true := by
  unfold State.goDown
  repeat' (first
    | with_reducible assumption
    | (with_reducible intro _; try beta_reduce)
    | with_reducible apply wf_ite
    | with_reducible apply State.count_wf
    | with_reducible apply State.linkRecord_wf
    | with_reducible apply State.putPreg_wf
    | with_reducible apply State.setLinkState_wf
    | with_reducible apply State.setPort_wf
    | with_reducible apply State.setPreg_wf
    | with_reducible apply State.showLanes_wf
    | with_reducible apply State.transmit_wf
    | with_reducible apply foldl_wf)

theorem State.portDown_wf {s : State} {n : Nat} (h_s : State.wf s = true) : State.wf (State.portDown s n) = true := by
  unfold State.portDown
  repeat' (first
    | with_reducible assumption
    | with_reducible apply wf_ite
    | with_reducible apply State.goDown_wf
    | with_reducible apply State.setLinkState_wf
    | with_reducible apply parkWf_of
    | split)

theorem execPortDown_wf {port : Nat} {s : State} (h_s : State.wf s = true) : OutWf (execPortDown port s) := by
  unfold execPortDown
  repeat' (first
    | with_reducible assumption
    | with_reducible apply State.portDown_wf
    | with_reducible apply outWf_next)

theorem State.linkRetrain_wf {s : State} {n : Nat} (h_s : State.wf s = true) : State.wf (State.linkRetrain s n) = true := by
  unfold State.linkRetrain
  repeat' (first
    | with_reducible assumption
    | with_reducible apply wf_ite
    | with_reducible apply State.goDown_wf)

theorem execLinkRetrain_wf {port : Nat} {s : State} (h_s : State.wf s = true) : OutWf (execLinkRetrain port s) := by
  unfold execLinkRetrain
  repeat' (first
    | with_reducible assumption
    | with_reducible apply State.linkRetrain_wf
    | with_reducible apply outWf_next)

theorem State.replay_wf {s : State} {n : Nat} (h_s : State.wf s = true) : State.wf (State.replay s n) = true := by
  unfold State.replay
  repeat' (first
    | with_reducible assumption
    | with_reducible apply State.count_wf
    | with_reducible apply State.emit_wf
    | with_reducible apply State.modPort_wf
    | (extract_lets +onlyGivenNames x; refine carry (p := x.canon) ?_ ?_; (on_goal 1 => subst x); (on_goal 2 => clear_value x; intro hx))
    | split)

theorem State.setWidth_wf {s : State} {n w : Nat} (h_s : State.wf s = true) : State.wf (State.setWidth s n w) = true := by
  unfold State.setWidth
  repeat' (first
    | with_reducible assumption
    | with_reducible apply State.count_wf
    | with_reducible apply State.irq_wf
    | with_reducible apply State.linkRecord_wf
    | with_reducible apply State.modPort_wf
    | with_reducible apply State.pumpPort_wf
    | with_reducible apply State.putPreg_wf
    | with_reducible apply State.replay_wf)

theorem State.fitWidth_wf {s : State} {n : Nat} (h_s : State.wf s = true) : State.wf (State.fitWidth s n) = true := by
  unfold State.fitWidth
  repeat' (first
    | with_reducible assumption
    | with_reducible apply wf_ite
    | with_reducible apply State.emit_wf
    | with_reducible apply State.goDown_wf
    | with_reducible apply State.modPort_wf)

theorem State.laneFailure_wf {s : State} {n l : Nat} (h_s : State.wf s = true) : State.wf (State.laneFailure s n l) = true := by
  unfold State.laneFailure
  repeat' (first
    | with_reducible assumption
    | with_reducible apply wf_ite
    | with_reducible apply State.fitWidth_wf
    | with_reducible apply State.putLanes_wf)

theorem execLaneFailure_wf {port lane : Nat} {s : State} (h_s : State.wf s = true) : OutWf (execLaneFailure port lane s) := by
  unfold execLaneFailure
  repeat' (first
    | with_reducible assumption
    | with_reducible apply State.laneFailure_wf
    | with_reducible apply outWf_next)

theorem State.widthAck_wf {s : State} {n : Nat} (h_s : State.wf s = true) : State.wf (State.widthAck s n) = true := by
  unfold State.widthAck
  repeat' (first
    | with_reducible assumption
    | with_reducible apply wf_ite
    | with_reducible apply State.setWidth_wf
    | split)

theorem execWidthAck_wf {port : Nat} {s : State} (h_s : State.wf s = true) : OutWf (execWidthAck port s) := by
  unfold execWidthAck
  repeat' (first
    | with_reducible assumption
    | with_reducible apply State.widthAck_wf
    | with_reducible apply outWf_next)

theorem State.beginTest_wf {s : State} {n : Nat} (h_s : State.wf s = true) : State.wf (State.beginTest s n) = true := by
  unfold State.beginTest
  repeat' (first
    | with_reducible assumption
    | with_reducible apply wf_ite
    | with_reducible apply State.putLanes_wf)

theorem State.laneTest_wf {s : State} {n : Nat} {passed : List Nat} (h_s : State.wf s = true) : State.wf (State.laneTest s n passed) = true := by
  unfold State.laneTest
  repeat' (first
    | with_reducible assumption
    | with_reducible apply wf_ite
    | with_reducible apply State.beginTest_wf
    | with_reducible apply State.fitWidth_wf
    | with_reducible apply State.putLanes_wf
    | split)

theorem execLaneTest_wf {port : Nat} {passed : List Nat} {s : State} (h_s : State.wf s = true) : OutWf (execLaneTest port passed s) := by
  unfold execLaneTest
  repeat' (first
    | with_reducible assumption
    | with_reducible apply State.laneTest_wf
    | with_reducible apply outWf_next)

theorem execTestLanes_wf {port : Nat} {s : State} (h_s : State.wf s = true) : OutWf (execTestLanes port s) := by
  unfold execTestLanes
  repeat' (first
    | with_reducible assumption
    | with_reducible apply State.beginTest_wf
    | with_reducible apply outWf_next)

theorem State.adaptReq_wf {s : State} {n : Nat} (h_s : State.wf s = true) : State.wf (State.adaptReq s n) = true := by
  unfold State.adaptReq
  repeat' (first
    | with_reducible assumption
    | with_reducible apply wf_ite
    | with_reducible apply State.modPort_wf)

theorem execAdapt_wf {port : Nat} {s : State} (h_s : State.wf s = true) : OutWf (execAdapt port s) := by
  unfold execAdapt
  repeat' (first
    | with_reducible assumption
    | with_reducible apply State.adaptReq_wf
    | with_reducible apply outWf_next)

theorem State.stampCal_wf {s : State} {n temp volt load : Nat} (h_s : State.wf s = true) : State.wf (State.stampCal s n temp volt load) = true := by
  unfold State.stampCal
  repeat' (first
    | with_reducible assumption
    | with_reducible apply State.setPreg_wf)

theorem State.readapt_wf {s : State} {n temp volt load : Nat} {failed : List Nat} (h_s : State.wf s = true) : State.wf (State.readapt s n temp volt load failed) = true := by
  unfold State.readapt
  repeat' (first
    | with_reducible assumption
    | with_reducible apply wf_ite
    | with_reducible apply State.fitWidth_wf
    | with_reducible apply State.irq_wf
    | with_reducible apply State.linkRecord_wf
    | with_reducible apply State.modPort_wf
    | with_reducible apply State.putLanes_wf
    | with_reducible apply State.stampCal_wf)

theorem execEqualisationReadapt_wf {port temp volt load : Nat} {failed : List Nat} {s : State} (h_s : State.wf s = true) : OutWf (execEqualisationReadapt port temp volt load failed s) := by
  unfold execEqualisationReadapt
  repeat' (first
    | with_reducible assumption
    | with_reducible apply State.readapt_wf
    | with_reducible apply outWf_next)

theorem State.portTraining_wf {s : State} {n lo hi id : Nat} {lanes : List Nat} {temp volt load : Nat} (h_s : State.wf s = true) : State.wf (State.portTraining s n lo hi id lanes temp volt load) = true := by
  unfold State.portTraining
  repeat' (first
    | with_reducible assumption
    | with_reducible apply wf_ite
    | with_reducible apply State.count_wf
    | with_reducible apply State.emit_wf
    | with_reducible apply State.linkRecord_wf
    | with_reducible apply State.pumpPort_wf
    | with_reducible apply State.putPreg_wf
    | with_reducible apply State.retryHeld_wf
    | with_reducible apply State.setLinkState_wf
    | with_reducible apply State.setPort_wf
    | with_reducible apply State.setPreg_wf
    | with_reducible apply State.showLanes_wf
    | with_reducible apply State.stampCal_wf)

theorem execPortTraining_wf {port lo hi id : Nat} {lanes : List Nat} {temp volt load : Nat} {s : State} (h_s : State.wf s = true) : OutWf (execPortTraining port lo hi id lanes temp volt load s) := by
  unfold execPortTraining
  repeat' (first
    | with_reducible assumption
    | with_reducible apply State.portTraining_wf
    | with_reducible apply outWf_next)

theorem State.sendNak_wf {s : State} {n : Nat} (h_s : State.wf s = true) : State.wf (State.sendNak s n) = true := by
  unfold State.sendNak
  repeat' (first
    | with_reducible assumption
    | with_reducible apply wf_ite
    | with_reducible apply State.emit_wf
    | with_reducible apply State.setPort_wf)

theorem State.dataFlit_wf {s : State} {n q : Nat} (h_s : State.wf s = true) : State.wf (State.dataFlit s n q) = true := by
  unfold State.dataFlit
  repeat' (first
    | with_reducible assumption
    | with_reducible apply wf_ite
    | with_reducible apply State.sendNak_wf
    | with_reducible apply State.setPort_wf)

theorem State.flit_wf {s : State} {n : Nat} {f : Flit} (h_s : State.wf s = true) : State.wf (State.flit s n f) = true := by
  unfold State.flit
  repeat' (first
    | with_reducible assumption
    | with_reducible apply wf_ite
    | with_reducible apply State.count_wf
    | with_reducible apply State.count64_wf
    | with_reducible apply State.dataFlit_wf
    | with_reducible apply State.emit_wf
    | with_reducible apply State.modPort_wf
    | with_reducible apply State.pumpPort_wf
    | with_reducible apply State.replay_wf
    | with_reducible apply State.sendNak_wf
    | with_reducible apply State.setWidth_wf)

theorem execFlitReceive_wf {port : Nat} {f : FlitIn} {s : State} (h_s : State.wf s = true) : OutWf (execFlitReceive port f s) := by
  unfold execFlitReceive
  repeat' (first
    | with_reducible assumption
    | with_reducible apply outWf_ite
    | with_reducible apply outWf_fault
    | with_reducible apply State.flit_wf
    | with_reducible apply outWf_next)

theorem State.ackTimeout_wf {s : State} {n : Nat} (h_s : State.wf s = true) : State.wf (State.ackTimeout s n) = true := by
  unfold State.ackTimeout
  repeat' (first
    | with_reducible assumption
    | with_reducible apply wf_ite
    | with_reducible apply State.replay_wf)

theorem execAckTimeout_wf {port : Nat} {s : State} (h_s : State.wf s = true) : OutWf (execAckTimeout port s) := by
  unfold execAckTimeout
  repeat' (first
    | with_reducible assumption
    | with_reducible apply State.ackTimeout_wf
    | with_reducible apply outWf_next)

theorem State.replayRetrain_wf {s : State} {n : Nat} (h_s : State.wf s = true) : State.wf (State.replayRetrain s n) = true := by
  unfold State.replayRetrain
  repeat' (first
    | with_reducible assumption
    | with_reducible apply wf_ite
    | with_reducible apply State.goDown_wf
    | with_reducible apply State.linkRecord_wf)

theorem execReplayRetrain_wf {port : Nat} {s : State} (h_s : State.wf s = true) : OutWf (execReplayRetrain port s) := by
  unfold execReplayRetrain
  repeat' (first
    | with_reducible assumption
    | with_reducible apply State.replayRetrain_wf
    | with_reducible apply outWf_next)

theorem State.linkCfg_wf {s : State} {n : Nat} {v : Word} (h_s : State.wf s = true) : State.wf (State.linkCfg s n v) = true := by
  unfold State.linkCfg
  repeat' (first
    | with_reducible assumption
    | with_reducible apply wf_ite
    | with_reducible apply State.fitWidth_wf
    | with_reducible apply State.goDown_wf
    | with_reducible apply State.setLinkState_wf
    | with_reducible apply State.setPreg_wf)

end Sys2Proof.Machine
end

