-- ==== Sys2Proof/Laws/WfSettings.lean ====
section
/-!
SUPPORT. Every operation of Machine/Settings.lean keeps the canonical form of memory and registers.
-/

namespace Sys2Proof.Machine

open Sys2Proof

theorem State.settingsResult_wf {s : State} {r : Nat} (h_s : State.wf s = true) : State.wf (State.settingsResult s r) = true := by
  unfold State.settingsResult
  repeat' (first
    | with_reducible assumption
    | with_reducible apply State.irq_wf
    | with_reducible apply State.putPreg_wf
    | with_reducible apply State.putStat_wf
    | with_reducible apply State.showSettings_wf)

theorem State.settingsCmd_wf {s : State} {f : State → State} (h_s : State.wf s = true) (h_f : ∀ (a : State), State.wf a = true → State.wf (f a) = true) : State.wf (State.settingsCmd s f) = true := by
  unfold State.settingsCmd
  repeat' (first
    | with_reducible assumption
    | with_reducible apply wf_ite
    | with_reducible apply h_f
    | with_reducible apply State.putPreg_wf)

theorem State.settingsRead_wf {s : State} (h_s : State.wf s = true) : State.wf (State.settingsRead s) = true := by
  unfold State.settingsRead
  repeat' (first
    | with_reducible assumption
    | (with_reducible intro _; try beta_reduce)
    | with_reducible apply wf_ite
    | with_reducible apply State.putPreg_wf
    | with_reducible apply State.setPreg_wf
    | with_reducible apply State.settingsCmd_wf
    | with_reducible apply State.settingsResult_wf
    | with_reducible apply foldl_wf
    | split)

theorem execSettingsRead_wf {s : State} (h_s : State.wf s = true) : OutWf (execSettingsRead s) := by
  unfold execSettingsRead
  repeat' (first
    | with_reducible assumption
    | with_reducible apply State.settingsRead_wf
    | with_reducible apply outWf_next)

theorem State.addStaged_wf {s : State} {v : Option (List Byte)} (h_s : State.wf s = true) : State.wf (State.addStaged s v) = true := by
  unfold State.addStaged
  repeat' (first
    | with_reducible assumption
    | with_reducible apply wf_ite
    | with_reducible apply State.setPreg_wf
    | with_reducible apply State.setSettings_wf
    | with_reducible apply State.settingsResult_wf)

theorem State.settingsStage_wf {s : State} (h_s : State.wf s = true) : State.wf (State.settingsStage s) = true := by
  unfold State.settingsStage
  repeat' (first
    | with_reducible assumption
    | (with_reducible intro _; try beta_reduce)
    | with_reducible apply wf_ite
    | with_reducible apply State.addStaged_wf
    | with_reducible apply State.settingsCmd_wf
    | with_reducible apply State.settingsResult_wf)

theorem execSettingsStage_wf {s : State} (h_s : State.wf s = true) : OutWf (execSettingsStage s) := by
  unfold execSettingsStage
  repeat' (first
    | with_reducible assumption
    | with_reducible apply State.settingsStage_wf
    | with_reducible apply outWf_next)

theorem State.settingsDelete_wf {s : State} (h_s : State.wf s = true) : State.wf (State.settingsDelete s) = true := by
  unfold State.settingsDelete
  repeat' (first
    | with_reducible assumption
    | (with_reducible intro _; try beta_reduce)
    | with_reducible apply wf_ite
    | with_reducible apply State.addStaged_wf
    | with_reducible apply State.settingsCmd_wf
    | with_reducible apply State.settingsResult_wf)

theorem execSettingsDelete_wf {s : State} (h_s : State.wf s = true) : OutWf (execSettingsDelete s) := by
  unfold execSettingsDelete
  repeat' (first
    | with_reducible assumption
    | with_reducible apply State.settingsDelete_wf
    | with_reducible apply outWf_next)

theorem State.settingsCommit_wf {s : State} (h_s : State.wf s = true) : State.wf (State.settingsCommit s) = true := by
  unfold State.settingsCommit
  repeat' (first
    | with_reducible assumption
    | (with_reducible intro _; try beta_reduce)
    | with_reducible apply wf_ite
    | with_reducible apply State.putStat_wf
    | with_reducible apply State.serveStore_wf
    | with_reducible apply State.setSettings_wf
    | with_reducible apply State.settingsCmd_wf
    | with_reducible apply State.settingsResult_wf
    | with_reducible apply parkWf_of
    | split
    | with_reducible apply wf_mk)

theorem execSettingsCommit_wf {s : State} (h_s : State.wf s = true) : OutWf (execSettingsCommit s) := by
  unfold execSettingsCommit
  repeat' (first
    | with_reducible assumption
    | with_reducible apply State.settingsCommit_wf
    | with_reducible apply outWf_next)

theorem State.settingsDiscard_wf {s : State} (h_s : State.wf s = true) : State.wf (State.settingsDiscard s) = true := by
  unfold State.settingsDiscard
  repeat' (first
    | with_reducible assumption
    | (with_reducible intro _; try beta_reduce)
    | with_reducible apply wf_ite
    | with_reducible apply State.setSettings_wf
    | with_reducible apply State.settingsCmd_wf
    | with_reducible apply State.settingsResult_wf)

theorem execSettingsDiscard_wf {s : State} (h_s : State.wf s = true) : OutWf (execSettingsDiscard s) := by
  unfold execSettingsDiscard
  repeat' (first
    | with_reducible assumption
    | with_reducible apply State.settingsDiscard_wf
    | with_reducible apply outWf_next)

theorem State.creditEarned_wf {s : State} (h_s : State.wf s = true) : State.wf (State.creditEarned s) = true := by
  unfold State.creditEarned
  repeat' (first
    | with_reducible assumption
    | with_reducible apply wf_ite
    | with_reducible apply State.putPreg_wf
    | with_reducible apply State.serveStore_wf
    | with_reducible apply parkWf_of
    | (extract_lets +onlyGivenNames x; refine carry (p := x.canon) ?_ ?_; (on_goal 1 => subst x); (on_goal 2 => clear_value x; intro hx))
    | (extract_lets +onlyGivenNames x; clear_value x)
    | split)

theorem execCommitCreditEarned_wf {s : State} (h_s : State.wf s = true) : OutWf (execCommitCreditEarned s) := by
  unfold execCommitCreditEarned
  repeat' (first
    | with_reducible assumption
    | with_reducible apply State.creditEarned_wf
    | with_reducible apply outWf_next)

theorem State.prepareComplete_wf {s : State} {ok : Bool} (h_s : State.wf s = true) : State.wf (State.prepareComplete s ok) = true := by
  unfold State.prepareComplete
  repeat' (first
    | with_reducible assumption
    | (with_reducible intro _; try beta_reduce)
    | with_reducible apply wf_ite
    | with_reducible apply State.dropPrepare_wf
    | with_reducible apply State.markCopy_wf
    | with_reducible apply State.putPrepared_wf
    | with_reducible apply State.putStat_wf
    | with_reducible apply State.serveStore_wf
    | with_reducible apply State.setSettings_wf
    | with_reducible apply State.settingsResult_wf
    | with_reducible apply parkWf_of
    | with_reducible refine optWf_of (by assumption) ?_
    | with_reducible refine optFst_of (by assumption) ?_
    | with_reducible refine optFst_of2 (by assumption) ?_
    | with_reducible refine fstWf_of (by assumption) ?_
    | with_reducible refine sndWf_of (by assumption) ?_
    | split
    | with_reducible apply wf_mk)

theorem execSettingsPrepareComplete_wf {ok : Bool} {s : State} (h_s : State.wf s = true) : OutWf (execSettingsPrepareComplete ok s) := by
  unfold execSettingsPrepareComplete
  repeat' (first
    | with_reducible assumption
    | with_reducible apply State.prepareComplete_wf
    | with_reducible apply outWf_next)

end Sys2Proof.Machine
end

