-- ==== Sys2Proof/Laws/WfEnds.lean ====
section
/-!
SUPPORT. Every operation of Machine/Ends.lean keeps the canonical form of memory and registers.
-/

namespace Sys2Proof.Machine

open Sys2Proof

theorem State.drive_wf {s : State} {name : String} {level : Bool} (h_s : State.wf s = true) : State.wf (State.drive s name level) = true := by
  unfold State.drive
  repeat' (first
    | with_reducible assumption
    | with_reducible apply State.emit_wf)

theorem State.setReady_wf {s : State} {b : Bool} (h_s : State.wf s = true) : State.wf (State.setReady s b) = true := by
  unfold State.setReady
  repeat' (first
    | with_reducible assumption
    | with_reducible apply State.drive_wf
    | with_reducible apply State.setPreg_wf)

theorem State.showHold_wf {s : State} (h_s : State.wf s = true) : State.wf (State.showHold s) = true := by
  unfold State.showHold
  repeat' (first
    | with_reducible assumption
    | with_reducible apply wf_ite
    | with_reducible apply State.setPreg_wf
    | with_reducible apply State.setReady_wf)

theorem State.scanLetGo_wf {s : State} (h_s : State.wf s = true) : State.wf (State.scanLetGo s) = true := by
  unfold State.scanLetGo
  repeat' (first
    | with_reducible assumption
    | (with_reducible intro _; try beta_reduce)
    | with_reducible apply State.emit_wf
    | with_reducible apply foldl_wf
    | with_reducible apply foldl_wf
    | with_reducible apply foldl_park
    | with_reducible apply wf_mk)

theorem State.letGo_wf {s : State} (h_s : State.wf s = true) : State.wf (State.letGo s) = true := by
  unfold State.letGo
  repeat' (first
    | with_reducible assumption
    | with_reducible apply State.emit_wf
    | with_reducible apply State.scanLetGo_wf
    | with_reducible apply parkWf_of)

theorem State.redrive_wf {s : State} (h_s : State.wf s = true) : State.wf (State.redrive s) = true := by
  unfold State.redrive
  repeat' (first
    | with_reducible assumption
    | with_reducible apply State.drive_wf)

theorem State.closeDeep_wf {s : State} {finished : Bool} (h_s : State.wf s = true) : State.wf (State.closeDeep s finished) = true := by
  unfold State.closeDeep
  repeat' (first
    | with_reducible assumption
    | with_reducible apply wf_ite
    | with_reducible apply State.checkpointNow_wf
    | (extract_lets +onlyGivenNames x; refine carry (p := x.canon) ?_ ?_; (on_goal 1 => subst x); (on_goal 2 => clear_value x; intro hx))
    | (extract_lets +onlyGivenNames x; clear_value x)
    | with_reducible apply wf_mk)

theorem State.durable_wf {s : State} (h_s : s.wf) : s.durable.wf :=
  wf_intro (memory_filter _ (wf_memory h_s)) rfl

theorem State.afterPower_wf {s : State} {l : Life} (h_s : State.wf s = true) : State.wf (State.afterPower s l) = true := by
  unfold State.afterPower
  repeat' (first
    | with_reducible assumption
    | with_reducible apply State.durable_wf
    | with_reducible apply State.letGo_wf
    | with_reducible apply wf_mk)

theorem State.rollBack_wf {s : State} {result : Nat} (h_s : State.wf s = true) : State.wf (State.rollBack s result) = true := by
  unfold State.rollBack
  repeat' (first
    | with_reducible assumption
    | (with_reducible intro _; try beta_reduce)
    | with_reducible apply wf_ite
    | with_reducible apply State.dropPrepare_wf
    | with_reducible apply State.irq_wf
    | with_reducible apply State.serveStore_wf
    | with_reducible apply State.setPreg_wf
    | with_reducible apply State.setSettings_wf
    | with_reducible apply parkWf_of
    | (extract_lets +onlyGivenNames x; refine carry (p := x.canon) ?_ ?_; (on_goal 1 => subst x); (on_goal 2 => clear_value x; intro hx))
    | (extract_lets +onlyGivenNames x; clear_value x)
    | split
    | with_reducible apply wf_mk)

theorem State.endJobs_wf {s : State} (h_s : State.wf s = true) : State.wf (State.endJobs s) = true := by
  unfold State.endJobs
  repeat' (first
    | with_reducible assumption
    | (with_reducible intro _; try beta_reduce)
    | with_reducible apply wf_ite
    | with_reducible apply State.destroyJob_wf
    | with_reducible apply State.rollBack_wf
    | with_reducible apply foldl_wf)

end Sys2Proof.Machine
end

