-- ==== Sys2Proof/Laws/WfPower.lean ====
section
/-!
SUPPORT. Every operation of Machine/Power.lean keeps the canonical form of memory and registers.
-/

namespace Sys2Proof.Machine

open Sys2Proof

theorem State.pw_wf {s : State} {f : Power → Power} (h_s : State.wf s = true) : State.wf (State.pw s f) = true := by
  unfold State.pw
  repeat' (first
    | with_reducible assumption
    | with_reducible apply wf_mk)

theorem State.setPoint_wf {s : State} {b p : Nat} (h_s : State.wf s = true) : State.wf (State.setPoint s b p) = true := by
  unfold State.setPoint
  repeat' (first
    | with_reducible assumption
    | with_reducible apply State.putPreg_wf)

theorem State.setLimit_wf {s : State} {r b : Nat} {v : Option Nat} (h_s : State.wf s = true) : State.wf (State.setLimit s r b v) = true := by
  unfold State.setLimit
  repeat' (first
    | with_reducible assumption
    | with_reducible apply State.pw_wf)

theorem State.settlePoints_wf {s : State} (h_s : State.wf s = true) : State.wf (State.settlePoints s) = true := by
  unfold State.settlePoints
  repeat' (first
    | with_reducible assumption
    | (with_reducible intro _; try beta_reduce)
    | with_reducible apply wf_ite
    | with_reducible apply State.setPoint_wf
    | with_reducible apply foldl_wf)

theorem State.riseBay_wf {s : State} {b : Nat} (h_s : State.wf s = true) : State.wf (State.riseBay s b) = true := by
  unfold State.riseBay
  repeat' (first
    | with_reducible assumption
    | (with_reducible intro _; try beta_reduce)
    | with_reducible apply wf_ite
    | with_reducible apply State.pw_wf
    | with_reducible apply State.setLimit_wf
    | with_reducible apply State.setPoint_wf
    | with_reducible apply foldl_wf
    | split)

theorem State.stepDown_wf {s : State} {r b : Nat} (h_s : State.wf s = true) : State.wf (State.stepDown s r b) = true := by
  unfold State.stepDown
  repeat' (first
    | with_reducible assumption
    | with_reducible apply wf_ite
    | with_reducible apply State.setLimit_wf)

theorem State.showDrift_wf {s : State} {t : Nat} (h_s : State.wf s = true) : State.wf (State.showDrift s t) = true := by
  unfold State.showDrift
  repeat' (first
    | with_reducible assumption
    | with_reducible apply wf_ite
    | with_reducible apply State.irq_wf
    | with_reducible apply State.setPreg_wf
    | with_reducible apply parkWf_of
    | (extract_lets +onlyGivenNames x; refine carry (p := x.canon) ?_ ?_; (on_goal 1 => subst x); (on_goal 2 => clear_value x; intro hx))
    | (extract_lets +onlyGivenNames x; clear_value x)
    | split)

theorem State.showTiers_wf {s : State} (h_s : State.wf s = true) : State.wf (State.showTiers s) = true := by
  unfold State.showTiers
  repeat' (first
    | with_reducible assumption
    | (with_reducible intro _; try beta_reduce)
    | with_reducible apply wf_ite
    | with_reducible apply State.irq_wf
    | with_reducible apply State.setPreg_wf
    | with_reducible apply State.showDrift_wf
    | with_reducible apply foldl_wf
    | with_reducible apply foldl_wf
    | with_reducible apply parkWf_of
    | with_reducible apply foldl_park
    | (extract_lets +onlyGivenNames x; refine carry (p := x.canon) ?_ ?_; (on_goal 1 => subst x); (on_goal 2 => clear_value x; intro hx))
    | (extract_lets +onlyGivenNames x; clear_value x)
    | split)

theorem State.showTemps_wf {s : State} (h_s : State.wf s = true) : State.wf (State.showTemps s) = true := by
  unfold State.showTemps
  repeat' (first
    | with_reducible assumption
    | with_reducible apply State.putPreg_wf
    | with_reducible apply State.setPreg_wf
    | with_reducible apply State.showTiers_wf)

theorem State.showReasons_wf {s : State} (h_s : State.wf s = true) : State.wf (State.showReasons s) = true := by
  unfold State.showReasons
  repeat' (first
    | with_reducible assumption
    | with_reducible apply wf_ite
    | with_reducible apply State.alertN_wf
    | with_reducible apply State.irq_wf
    | with_reducible apply State.setPreg_wf)

theorem State.pwrRecord_wf {s : State} {code sev key start dur : Nat} (h_s : State.wf s = true) : State.wf (State.pwrRecord s code sev key start dur) = true := by
  unfold State.pwrRecord
  repeat' (first
    | with_reducible assumption
    | with_reducible apply State.report_wf)

theorem State.showCap_wf {s : State} (h_s : State.wf s = true) : State.wf (State.showCap s) = true := by
  unfold State.showCap
  repeat' (first
    | with_reducible assumption
    | with_reducible apply wf_ite
    | with_reducible apply State.irq_wf
    | with_reducible apply State.setPreg_wf)

theorem State.plumbCheck_wf {s : State} (h_s : State.wf s = true) : State.wf (State.plumbCheck s) = true := by
  unfold State.plumbCheck
  repeat' (first
    | with_reducible assumption
    | with_reducible apply wf_ite
    | with_reducible apply State.irq_wf
    | with_reducible apply State.pw_wf
    | with_reducible apply State.pwrRecord_wf
    | with_reducible apply State.setPreg_wf
    | with_reducible apply State.useFree_wf
    | (extract_lets +onlyGivenNames x; clear_value x)
    | split)

theorem State.govern_wf {s : State} (h_s : State.wf s = true) : State.wf (State.govern s) = true := by
  unfold State.govern
  repeat' (first
    | with_reducible assumption
    | with_reducible apply State.plumbCheck_wf
    | with_reducible apply State.settlePoints_wf
    | with_reducible apply State.showCap_wf
    | with_reducible apply State.showReasons_wf
    | with_reducible apply State.showTiers_wf)

theorem State.readings_wf {s : State} {vin iin pin : Nat} (h_s : State.wf s = true) : State.wf (State.readings s vin iin pin) = true := by
  unfold State.readings
  repeat' (first
    | with_reducible assumption
    | with_reducible apply State.count64_wf
    | with_reducible apply State.pw_wf
    | with_reducible apply State.setPreg_wf)

theorem State.railReadings_wf {s : State} {rails : List (Nat × Nat)} {out : List Nat} (h_s : State.wf s = true) : State.wf (State.railReadings s rails out) = true := by
  unfold State.railReadings
  repeat' (first
    | with_reducible assumption
    | (with_reducible intro _; try beta_reduce)
    | with_reducible apply State.pw_wf
    | with_reducible apply State.pwrRecord_wf
    | with_reducible apply State.setPreg_wf
    | with_reducible apply foldl_wf
    | split)

theorem State.excursionOver_wf {s : State} (h_s : State.wf s = true) : State.wf (State.excursionOver s) = true := by
  unfold State.excursionOver
  repeat' (first
    | with_reducible assumption
    | (with_reducible intro _; try beta_reduce)
    | with_reducible apply State.pwrRecord_wf
    | with_reducible apply State.stepDown_wf
    | with_reducible apply foldl_wf)

theorem State.excursion_wf {s : State} {pin : Nat} (h_s : State.wf s = true) : State.wf (State.excursion s pin) = true := by
  unfold State.excursion
  repeat' (first
    | with_reducible assumption
    | with_reducible apply wf_ite
    | with_reducible apply State.excursionOver_wf
    | with_reducible apply State.pw_wf
    | (extract_lets +onlyGivenNames x; refine carry (p := x.canon) ?_ ?_; (on_goal 1 => subst x); (on_goal 2 => clear_value x; intro hx))
    | (extract_lets +onlyGivenNames x; clear_value x)
    | split)

theorem State.sendReplies_wf {s : State} {pin : Nat} (h_s : State.wf s = true) : State.wf (State.sendReplies s pin) = true := by
  unfold State.sendReplies
  repeat' (first
    | with_reducible assumption
    | (with_reducible intro _; try beta_reduce)
    | with_reducible apply State.pw_wf
    | with_reducible apply State.sendMgmt_wf
    | with_reducible apply State.useFree_wf
    | with_reducible apply foldl_wf
    | with_reducible apply foldl_wf
    | with_reducible apply fst_wf
    | with_reducible apply parkWf_of
    | with_reducible apply foldl_park
    | (extract_lets +onlyGivenNames x; refine carry (p := x.canon) ?_ ?_; (on_goal 1 => subst x); (on_goal 2 => clear_value x; intro hx))
    | (extract_lets +onlyGivenNames x; refine carry (p := x.1.canon) ?_ ?_; (on_goal 1 => subst x); (on_goal 2 => clear_value x; intro hx))
    | (extract_lets +onlyGivenNames x; clear_value x)
    | with_reducible apply wf_mk)

theorem State.fitCaps_wf {s : State} {fits room : List Nat} (h_s : State.wf s = true) : State.wf (State.fitCaps s fits room) = true := by
  unfold State.fitCaps
  repeat' (first
    | with_reducible assumption
    | (with_reducible intro _; try beta_reduce)
    | with_reducible apply State.setLimit_wf
    | with_reducible apply foldl_wf)

theorem State.evaluate_wf {s : State} {vin iin pin : Nat} {fits room : List Nat} {rails : List (Nat × Nat)} {out : List Nat} (h_s : State.wf s = true) : State.wf (State.evaluate s vin iin pin fits room rails out) = true := by
  unfold State.evaluate
  repeat' (first
    | with_reducible assumption
    | (with_reducible intro _; try beta_reduce)
    | with_reducible apply wf_ite
    | with_reducible apply State.excursion_wf
    | with_reducible apply State.fitCaps_wf
    | with_reducible apply State.govern_wf
    | with_reducible apply State.pw_wf
    | with_reducible apply State.railReadings_wf
    | with_reducible apply State.readings_wf
    | with_reducible apply State.riseBay_wf
    | with_reducible apply State.sendReplies_wf
    | with_reducible apply State.settlePoints_wf
    | with_reducible apply foldl_wf)

theorem execGovernorEvaluation_wf {vin iin pin : Nat} {fits room : List Nat} {rails : List (Nat × Nat)} {out : List Nat} {s : State} (h_s : State.wf s = true) : OutWf (execGovernorEvaluation vin iin pin fits room rails out s) := by
  unfold execGovernorEvaluation
  repeat' (first
    | with_reducible assumption
    | with_reducible apply State.evaluate_wf
    | with_reducible apply outWf_next)

theorem State.modeChange_wf {s : State} (h_s : State.wf s = true) : State.wf (State.modeChange s) = true := by
  unfold State.modeChange
  repeat' (first
    | with_reducible assumption
    | with_reducible apply wf_ite
    | with_reducible apply State.govern_wf
    | with_reducible apply State.putPreg_wf)

theorem execModeChange_wf {s : State} (h_s : State.wf s = true) : OutWf (execModeChange s) := by
  unfold execModeChange
  repeat' (first
    | with_reducible assumption
    | with_reducible apply State.modeChange_wf
    | with_reducible apply outWf_next)

theorem State.capChanged_wf {s : State} {hardware : Bool} {f : State → State} (h_s : State.wf s = true) (h_f : ∀ (a : State), State.wf a = true → State.wf (f a) = true) : State.wf (State.capChanged s hardware f) = true := by
  unfold State.capChanged
  repeat' (first
    | with_reducible assumption
    | with_reducible apply wf_ite
    | with_reducible apply h_f
    | with_reducible apply State.govern_wf
    | with_reducible apply State.pw_wf)

theorem State.setSmbusCap_wf {s : State} {w lease : Nat} (h_s : State.wf s = true) : State.wf (State.setSmbusCap s w lease) = true := by
  unfold State.setSmbusCap
  repeat' (first
    | with_reducible assumption
    | (with_reducible intro _; try beta_reduce)
    | with_reducible apply State.capChanged_wf
    | with_reducible apply State.pw_wf)

theorem State.setEthCap_wf {s : State} {w lease : Nat} (h_s : State.wf s = true) : State.wf (State.setEthCap s w lease) = true := by
  unfold State.setEthCap
  repeat' (first
    | with_reducible assumption
    | (with_reducible intro _; try beta_reduce)
    | with_reducible apply State.capChanged_wf
    | with_reducible apply State.pw_wf)

theorem State.capSet_wf {s : State} {port : Nat} {x : MgmtIn} (h_s : State.wf s = true) : State.wf (State.capSet s port x) = true := by
  unfold State.capSet
  repeat' (first
    | with_reducible assumption
    | (with_reducible intro _; try beta_reduce)
    | with_reducible apply wf_ite
    | with_reducible apply State.ethDrop_wf
    | with_reducible apply State.pw_wf
    | with_reducible apply State.sendMgmt_wf
    | with_reducible apply State.setEthCap_wf
    | with_reducible apply State.useFree_wf
    | with_reducible apply parkWf_of
    | (extract_lets +onlyGivenNames x; refine carry (p := x.canon) ?_ ?_; (on_goal 1 => subst x); (on_goal 2 => clear_value x; intro hx))
    | (extract_lets +onlyGivenNames x; clear_value x)
    | split
    | with_reducible apply wf_mk)

theorem execCapSet_wf {port : Nat} {m : MgmtIn} {s : State} (h_s : State.wf s = true) : OutWf (execCapSet port m s) := by
  unfold execCapSet
  repeat' (first
    | with_reducible assumption
    | with_reducible apply outWf_ite
    | with_reducible apply outWf_fault
    | with_reducible apply State.capSet_wf
    | with_reducible apply outWf_next)

theorem State.telemReq_wf {s : State} {port : Nat} {x : MgmtIn} (h_s : State.wf s = true) : State.wf (State.telemReq s port x) = true := by
  unfold State.telemReq
  repeat' (first
    | with_reducible assumption
    | (with_reducible intro _; try beta_reduce)
    | with_reducible apply wf_ite
    | with_reducible apply State.ethDrop_wf
    | with_reducible apply State.sendMgmt_wf
    | with_reducible apply State.useFree_wf
    | with_reducible apply parkWf_of
    | (extract_lets +onlyGivenNames x; refine carry (p := x.canon) ?_ ?_; (on_goal 1 => subst x); (on_goal 2 => clear_value x; intro hx))
    | (extract_lets +onlyGivenNames x; clear_value x)
    | split)

theorem execTelemReq_wf {port : Nat} {m : MgmtIn} {s : State} (h_s : State.wf s = true) : OutWf (execTelemReq port m s) := by
  unfold execTelemReq
  repeat' (first
    | with_reducible assumption
    | with_reducible apply outWf_ite
    | with_reducible apply outWf_fault
    | with_reducible apply State.telemReq_wf
    | with_reducible apply outWf_next)

theorem State.leaseExpiry_wf {s : State} {source : Nat} (h_s : State.wf s = true) : State.wf (State.leaseExpiry s source) = true := by
  unfold State.leaseExpiry
  repeat' (first
    | with_reducible assumption
    | (with_reducible intro _; try beta_reduce)
    | with_reducible apply wf_ite
    | with_reducible apply State.alertN_wf
    | with_reducible apply State.capChanged_wf
    | with_reducible apply State.pw_wf
    | with_reducible apply State.pwrRecord_wf)

theorem execCapLeaseExpiry_wf {source : Nat} {s : State} (h_s : State.wf s = true) : OutWf (execCapLeaseExpiry source s) := by
  unfold execCapLeaseExpiry
  repeat' (first
    | with_reducible assumption
    | with_reducible apply State.leaseExpiry_wf
    | with_reducible apply outWf_next)

theorem State.capUnacked_wf {s : State} (h_s : State.wf s = true) : State.wf (State.capUnacked s) = true := by
  unfold State.capUnacked
  repeat' (first
    | with_reducible assumption
    | with_reducible apply wf_ite
    | with_reducible apply State.govern_wf
    | with_reducible apply State.pw_wf
    | split)

theorem execCapUnacknowledged_wf {s : State} (h_s : State.wf s = true) : OutWf (execCapUnacknowledged s) := by
  unfold execCapUnacknowledged
  repeat' (first
    | with_reducible assumption
    | with_reducible apply State.capUnacked_wf
    | with_reducible apply outWf_next)

theorem State.pmRead_wf {s : State} {code : Nat} {d : List Byte} (h_s : State.wf s = true) : State.wf (State.pmRead s code d) = true := by
  unfold State.pmRead
  repeat' (first
    | with_reducible assumption
    | with_reducible apply wf_ite
    | with_reducible apply State.emit_wf)

theorem State.pmBlock_wf {s : State} {code : Nat} {d : List Byte} (h_s : State.wf s = true) : State.wf (State.pmBlock s code d) = true := by
  unfold State.pmBlock
  repeat' (first
    | with_reducible assumption
    | with_reducible apply State.pmRead_wf)

theorem execStatusWord_wf {s : State} (h_s : State.wf s = true) : OutWf (execStatusWord s) := by
  unfold execStatusWord
  repeat' (first
    | with_reducible assumption
    | with_reducible apply State.pmRead_wf
    | with_reducible apply outWf_next)

theorem execReadVin_wf {s : State} (h_s : State.wf s = true) : OutWf (execReadVin s) := by
  unfold execReadVin
  repeat' (first
    | with_reducible assumption
    | with_reducible apply State.pmRead_wf
    | with_reducible apply outWf_next)

theorem execReadIin_wf {s : State} (h_s : State.wf s = true) : OutWf (execReadIin s) := by
  unfold execReadIin
  repeat' (first
    | with_reducible assumption
    | with_reducible apply State.pmRead_wf
    | with_reducible apply outWf_next)

theorem execReadPin_wf {s : State} (h_s : State.wf s = true) : OutWf (execReadPin s) := by
  unfold execReadPin
  repeat' (first
    | with_reducible assumption
    | with_reducible apply State.pmRead_wf
    | with_reducible apply outWf_next)

theorem execReadTemperature1_wf {s : State} (h_s : State.wf s = true) : OutWf (execReadTemperature1 s) := by
  unfold execReadTemperature1
  repeat' (first
    | with_reducible assumption
    | with_reducible apply State.pmRead_wf
    | with_reducible apply outWf_next)

theorem execReadTemperature2_wf {s : State} (h_s : State.wf s = true) : OutWf (execReadTemperature2 s) := by
  unfold execReadTemperature2
  repeat' (first
    | with_reducible assumption
    | with_reducible apply State.pmRead_wf
    | with_reducible apply outWf_next)

theorem execReadTemperature3_wf {s : State} (h_s : State.wf s = true) : OutWf (execReadTemperature3 s) := by
  unfold execReadTemperature3
  repeat' (first
    | with_reducible assumption
    | with_reducible apply State.pmRead_wf
    | with_reducible apply outWf_next)

theorem execPmbusRevision_wf {s : State} (h_s : State.wf s = true) : OutWf (execPmbusRevision s) := by
  unfold execPmbusRevision
  repeat' (first
    | with_reducible assumption
    | with_reducible apply State.pmRead_wf
    | with_reducible apply outWf_next)

theorem execMfrId_wf {s : State} (h_s : State.wf s = true) : OutWf (execMfrId s) := by
  unfold execMfrId
  repeat' (first
    | with_reducible assumption
    | with_reducible apply State.pmBlock_wf
    | with_reducible apply outWf_next)

theorem execMfrModel_wf {s : State} (h_s : State.wf s = true) : OutWf (execMfrModel s) := by
  unfold execMfrModel
  repeat' (first
    | with_reducible assumption
    | with_reducible apply State.pmBlock_wf
    | with_reducible apply outWf_next)

theorem execMfrSerial_wf {s : State} (h_s : State.wf s = true) : OutWf (execMfrSerial s) := by
  unfold execMfrSerial
  repeat' (first
    | with_reducible assumption
    | with_reducible apply State.pmBlock_wf
    | with_reducible apply outWf_next)

theorem State.mfrCapSet_wf {s : State} {w p : Nat} (h_s : State.wf s = true) : State.wf (State.mfrCapSet s w p) = true := by
  unfold State.mfrCapSet
  repeat' (first
    | with_reducible assumption
    | with_reducible apply wf_ite
    | with_reducible apply State.pw_wf
    | with_reducible apply State.setSmbusCap_wf)

theorem execMfrCapSet_wf {watts pec : Nat} {s : State} (h_s : State.wf s = true) : OutWf (execMfrCapSet watts pec s) := by
  unfold execMfrCapSet
  repeat' (first
    | with_reducible assumption
    | with_reducible apply State.mfrCapSet_wf
    | with_reducible apply outWf_next)

theorem execMfrCapLease_wf {seconds pec : Nat} {s : State} (h_s : State.wf s = true) : OutWf (execMfrCapLease seconds pec s) := by
  unfold execMfrCapLease
  repeat' (first
    | with_reducible assumption
    | with_reducible apply wf_ite
    | with_reducible apply State.pw_wf
    | with_reducible apply outWf_next)

theorem execMfrCapActive_wf {s : State} (h_s : State.wf s = true) : OutWf (execMfrCapActive s) := by
  unfold execMfrCapActive
  repeat' (first
    | with_reducible assumption
    | with_reducible apply State.pmRead_wf
    | with_reducible apply outWf_next)

theorem execMfrThrottle_wf {s : State} (h_s : State.wf s = true) : OutWf (execMfrThrottle s) := by
  unfold execMfrThrottle
  repeat' (first
    | with_reducible assumption
    | with_reducible apply State.pmRead_wf
    | with_reducible apply outWf_next)

theorem State.alertResponse_wf {s : State} (h_s : State.wf s = true) : State.wf (State.alertResponse s) = true := by
  unfold State.alertResponse
  repeat' (first
    | with_reducible assumption
    | with_reducible apply wf_ite
    | with_reducible apply State.drive_wf
    | with_reducible apply State.emit_wf
    | with_reducible apply wf_mk)

theorem execAlertResponse_wf {s : State} (h_s : State.wf s = true) : OutWf (execAlertResponse s) := by
  unfold execAlertResponse
  repeat' (first
    | with_reducible assumption
    | with_reducible apply State.alertResponse_wf
    | with_reducible apply outWf_next)

theorem State.brakeOn_wf {s : State} (h_s : State.wf s = true) : State.wf (State.brakeOn s) = true := by
  unfold State.brakeOn
  repeat' (first
    | with_reducible assumption
    | with_reducible apply wf_ite
    | with_reducible apply State.govern_wf
    | with_reducible apply State.irq_wf
    | with_reducible apply State.pw_wf
    | with_reducible apply State.pwrRecord_wf)

theorem execPwrBrakeNAssert_wf {s : State} (h_s : State.wf s = true) : OutWf (execPwrBrakeNAssert s) := by
  unfold execPwrBrakeNAssert
  repeat' (first
    | with_reducible assumption
    | with_reducible apply State.brakeOn_wf
    | with_reducible apply outWf_next)

theorem State.brakeOff_wf {s : State} (h_s : State.wf s = true) : State.wf (State.brakeOff s) = true := by
  unfold State.brakeOff
  repeat' (first
    | with_reducible assumption
    | with_reducible apply wf_ite
    | with_reducible apply State.govern_wf
    | with_reducible apply State.pw_wf)

theorem execPwrBrakeNDeassert_wf {s : State} (h_s : State.wf s = true) : OutWf (execPwrBrakeNDeassert s) := by
  unfold execPwrBrakeNDeassert
  repeat' (first
    | with_reducible assumption
    | with_reducible apply State.brakeOff_wf
    | with_reducible apply outWf_next)

theorem execDroopDetect_wf {bay : Nat} {s : State} (h_s : State.wf s = true) : OutWf (execDroopDetect bay s) := by
  unfold execDroopDetect
  repeat' (first
    | with_reducible assumption
    | with_reducible apply wf_ite
    | with_reducible apply State.count_wf
    | with_reducible apply outWf_next)

theorem execDroopStepDown_wf {bay : Nat} {s : State} (h_s : State.wf s = true) : OutWf (execDroopStepDown bay s) := by
  unfold execDroopStepDown
  repeat' (first
    | with_reducible assumption
    | with_reducible apply wf_ite
    | with_reducible apply State.govern_wf
    | with_reducible apply State.stepDown_wf
    | with_reducible apply outWf_next)

theorem State.sense_wf {s : State} {n v : Nat} (h_s : State.wf s = true) : State.wf (State.sense s n v) = true := by
  unfold State.sense
  repeat' (first
    | with_reducible assumption
    | with_reducible apply wf_ite
    | with_reducible apply State.alertN_wf
    | with_reducible apply State.irq_wf
    | with_reducible apply State.pw_wf
    | with_reducible apply State.pwrRecord_wf
    | with_reducible apply State.showTemps_wf
    | with_reducible apply wf_mk)

theorem execThermalThreshold_wf {sensor value : Nat} {s : State} (h_s : State.wf s = true) : OutWf (execThermalThreshold sensor value s) := by
  unfold execThermalThreshold
  repeat' (first
    | with_reducible assumption
    | with_reducible apply wf_ite
    | with_reducible apply State.govern_wf
    | with_reducible apply State.sense_wf
    | with_reducible apply outWf_next)

theorem State.throttleStep_wf {s : State} {b : Nat} (h_s : State.wf s = true) : State.wf (State.throttleStep s b) = true := by
  unfold State.throttleStep
  repeat' (first
    | with_reducible assumption
    | (with_reducible intro _; try beta_reduce)
    | with_reducible apply wf_ite
    | with_reducible apply State.govern_wf
    | with_reducible apply State.pw_wf
    | with_reducible apply State.setLimit_wf
    | with_reducible apply State.setPoint_wf
    | with_reducible apply foldl_wf)

theorem execThrottleStep_wf {bay : Nat} {s : State} (h_s : State.wf s = true) : OutWf (execThrottleStep bay s) := by
  unfold execThrottleStep
  repeat' (first
    | with_reducible assumption
    | with_reducible apply State.throttleStep_wf
    | with_reducible apply outWf_next)

theorem State.critical_wf {s : State} {n v : Nat} (h_s : State.wf s = true) : State.wf (State.critical s n v) = true := by
  unfold State.critical
  repeat' (first
    | with_reducible assumption
    | (with_reducible intro _; try beta_reduce)
    | with_reducible apply wf_ite
    | with_reducible apply State.govern_wf
    | with_reducible apply State.pw_wf
    | with_reducible apply State.sense_wf
    | with_reducible apply State.setLimit_wf
    | with_reducible apply foldl_wf)

theorem execCriticalLimit_wf {sensor value : Nat} {s : State} (h_s : State.wf s = true) : OutWf (execCriticalLimit sensor value s) := by
  unfold execCriticalLimit
  repeat' (first
    | with_reducible assumption
    | with_reducible apply State.critical_wf
    | with_reducible apply outWf_next)

theorem execFlashTemperature_wf {package value : Nat} {s : State} (h_s : State.wf s = true) : OutWf (execFlashTemperature package value s) := by
  unfold execFlashTemperature
  repeat' (first
    | with_reducible assumption
    | with_reducible apply wf_ite
    | with_reducible apply State.govern_wf
    | with_reducible apply State.sense_wf
    | with_reducible apply outWf_next)

theorem State.trip_wf {s : State} {n v : Nat} (h_s : State.wf s = true) : State.wf (State.trip s n v) = true := by
  unfold State.trip
  repeat' (first
    | with_reducible assumption
    | with_reducible apply wf_ite
    | with_reducible apply State.afterPower_wf
    | with_reducible apply State.closeDeep_wf
    | with_reducible apply State.emit_wf
    | with_reducible apply State.pwrRecord_wf
    | with_reducible apply State.sendLoss_wf
    | with_reducible apply State.sense_wf
    | (extract_lets +onlyGivenNames x; refine carry (p := x.canon) ?_ ?_; (on_goal 1 => subst x); (on_goal 2 => clear_value x; intro hx))
    | with_reducible apply wf_mk)

theorem execThermalTrip_wf {sensor value : Nat} {s : State} (h_s : State.wf s = true) : OutWf (execThermalTrip sensor value s) := by
  unfold execThermalTrip
  repeat' (first
    | with_reducible assumption
    | with_reducible apply State.trip_wf
    | with_reducible apply outWf_next)

theorem State.gateDeep_wf {s : State} {on : Bool} (h_s : State.wf s = true) : State.wf (State.gateDeep s on) = true := by
  unfold State.gateDeep
  repeat' (first
    | with_reducible assumption
    | with_reducible apply wf_ite
    | with_reducible apply State.closeDeep_wf
    | with_reducible apply State.irq_wf
    | with_reducible apply State.setDeepState_wf
    | with_reducible apply State.setPreg_wf
    | with_reducible apply State.showReady_wf
    | with_reducible apply parkWf_of
    | (extract_lets +onlyGivenNames x; refine carry (p := x.canon) ?_ ?_; (on_goal 1 => subst x); (on_goal 2 => clear_value x; intro hx))
    | (extract_lets +onlyGivenNames x; clear_value x)
    | split)

theorem State.pwrGate_wf {s : State} {w : Word} (h_s : State.wf s = true) : State.wf (State.pwrGate s w) = true := by
  unfold State.pwrGate
  repeat' (first
    | with_reducible assumption
    | with_reducible apply wf_ite
    | with_reducible apply State.gateDeep_wf
    | with_reducible apply State.refuseReg_wf
    | with_reducible apply State.setPreg_wf)

theorem execPwrGate_wf {v : Word} {s : State} (h_s : State.wf s = true) : OutWf (execPwrGate v s) := by
  unfold execPwrGate
  repeat' (first
    | with_reducible assumption
    | with_reducible apply State.pwrGate_wf
    | with_reducible apply outWf_next)

theorem State.holdBegins_wf {s : State} (h_s : State.wf s = true) : State.wf (State.holdBegins s) = true := by
  unfold State.holdBegins
  repeat' (first
    | with_reducible assumption
    | with_reducible apply wf_ite
    | with_reducible apply State.irq_wf
    | with_reducible apply State.letGo_wf
    | with_reducible apply State.plumbCheck_wf
    | with_reducible apply State.pw_wf
    | with_reducible apply State.pwrRecord_wf
    | with_reducible apply State.setPreg_wf
    | with_reducible apply State.showReasons_wf)

theorem execHeartbeatLoss_wf {s : State} (h_s : State.wf s = true) : OutWf (execHeartbeatLoss s) := by
  unfold execHeartbeatLoss
  repeat' (first
    | with_reducible assumption
    | with_reducible apply State.holdBegins_wf
    | with_reducible apply outWf_next)

theorem State.holdEnds_wf {s : State} (h_s : State.wf s = true) : State.wf (State.holdEnds s) = true := by
  unfold State.holdEnds
  repeat' (first
    | with_reducible assumption
    | with_reducible apply wf_ite
    | with_reducible apply State.govern_wf
    | with_reducible apply State.irq_wf
    | with_reducible apply State.pw_wf
    | with_reducible apply State.pwrRecord_wf
    | with_reducible apply State.redrive_wf
    | with_reducible apply State.setPreg_wf
    | (extract_lets +onlyGivenNames x; refine carry (p := x.canon) ?_ ?_; (on_goal 1 => subst x); (on_goal 2 => clear_value x; intro hx))
    | split)

theorem execHeartbeatReturn_wf {s : State} (h_s : State.wf s = true) : OutWf (execHeartbeatReturn s) := by
  unfold execHeartbeatReturn
  repeat' (first
    | with_reducible assumption
    | with_reducible apply State.holdEnds_wf
    | with_reducible apply outWf_next)

theorem State.holdExpires_wf {s : State} (h_s : State.wf s = true) : State.wf (State.holdExpires s) = true := by
  unfold State.holdExpires
  repeat' (first
    | with_reducible assumption
    | with_reducible apply wf_ite
    | with_reducible apply State.endJobs_wf
    | with_reducible apply State.pw_wf
    | with_reducible apply State.pwrRecord_wf
    | with_reducible apply State.sendLoss_wf
    | with_reducible apply State.setReady_wf
    | with_reducible apply State.settlePoints_wf
    | with_reducible apply State.showReasons_wf
    | (extract_lets +onlyGivenNames x; refine carry (p := x.canon) ?_ ?_; (on_goal 1 => subst x); (on_goal 2 => clear_value x; intro hx))
    | split
    | with_reducible apply wf_mk)

theorem execHoldExpiry_wf {s : State} (h_s : State.wf s = true) : OutWf (execHoldExpiry s) := by
  unfold execHoldExpiry
  repeat' (first
    | with_reducible assumption
    | with_reducible apply State.holdExpires_wf
    | with_reducible apply outWf_next)

theorem State.inputIsLow_wf {s : State} {vin : Nat} (h_s : State.wf s = true) : State.wf (State.inputIsLow s vin) = true := by
  unfold State.inputIsLow
  repeat' (first
    | with_reducible assumption
    | with_reducible apply wf_ite
    | with_reducible apply State.govern_wf
    | with_reducible apply State.pw_wf
    | with_reducible apply State.pwrRecord_wf)

theorem execInputLow_wf {vin : Nat} {s : State} (h_s : State.wf s = true) : OutWf (execInputLow vin s) := by
  unfold execInputLow
  repeat' (first
    | with_reducible assumption
    | with_reducible apply State.inputIsLow_wf
    | with_reducible apply outWf_next)

theorem execInputLowRecovery_wf {s : State} (h_s : State.wf s = true) : OutWf (execInputLowRecovery s) := by
  unfold execInputLowRecovery
  repeat' (first
    | with_reducible assumption
    | with_reducible apply wf_ite
    | with_reducible apply State.govern_wf
    | with_reducible apply State.pw_wf
    | with_reducible apply outWf_next)

theorem State.inputCurrent_wf {s : State} {iin : Nat} {fits : List Nat} (h_s : State.wf s = true) : State.wf (State.inputCurrent s iin fits) = true := by
  unfold State.inputCurrent
  repeat' (first
    | with_reducible assumption
    | (with_reducible intro _; try beta_reduce)
    | with_reducible apply wf_ite
    | with_reducible apply State.govern_wf
    | with_reducible apply State.pw_wf
    | with_reducible apply State.setLimit_wf
    | with_reducible apply foldl_wf)

theorem execInputCurrent_wf {iin : Nat} {fits : List Nat} {s : State} (h_s : State.wf s = true) : OutWf (execInputCurrent iin fits s) := by
  unfold execInputCurrent
  repeat' (first
    | with_reducible assumption
    | with_reducible apply State.inputCurrent_wf
    | with_reducible apply outWf_next)

theorem State.supplyEvent_wf {s : State} {vin energy : Nat} (h_s : State.wf s = true) : State.wf (State.supplyEvent s vin energy) = true := by
  unfold State.supplyEvent
  repeat' (first
    | with_reducible assumption
    | with_reducible apply wf_ite
    | with_reducible apply State.afterPower_wf
    | with_reducible apply State.closeDeep_wf
    | with_reducible apply State.emit_wf
    | with_reducible apply State.pwrRecord_wf
    | with_reducible apply State.scanLetGo_wf
    | with_reducible apply State.sendLoss_wf
    | with_reducible apply parkWf_of
    | (extract_lets +onlyGivenNames x; refine carry (p := x.canon) ?_ ?_; (on_goal 1 => subst x); (on_goal 2 => clear_value x; intro hx))
    | (extract_lets +onlyGivenNames x; clear_value x)
    | split
    | with_reducible apply wf_mk)

theorem execSupplyEvent_wf {vin energy : Nat} {s : State} (h_s : State.wf s = true) : OutWf (execSupplyEvent vin energy s) := by
  unfold execSupplyEvent
  repeat' (first
    | with_reducible assumption
    | with_reducible apply outWf_ite
    | with_reducible apply outWf_fault
    | with_reducible apply State.supplyEvent_wf
    | with_reducible apply parkWf_of
    | with_reducible apply outWf_next)

end Sys2Proof.Machine
end

