-- ==== Sys2Proof/Laws/WfTxRegs.lean ====
section
/-!
SUPPORT. Every operation of Machine/TxRegs.lean keeps the canonical form of memory and registers.
-/

namespace Sys2Proof.Machine

open Sys2Proof

theorem State.showDrain_wf {s : State} {j : Nat} (h_s : State.wf s = true) : State.wf (State.showDrain s j) = true := by
  unfold State.showDrain
  repeat' (first
    | with_reducible assumption
    | with_reducible apply State.setPreg_wf)

theorem State.startDrain_wf {s : State} {j : Nat} (h_s : State.wf s = true) : State.wf (State.startDrain s j) = true := by
  unfold State.startDrain
  repeat' (first
    | with_reducible assumption
    | with_reducible apply State.showDrain_wf
    | with_reducible apply wf_mk)

theorem State.showSources_wf {s : State} (h_s : State.wf s = true) : State.wf (State.showSources s) = true := by
  unfold State.showSources
  repeat' (first
    | with_reducible assumption
    | with_reducible apply State.putPreg_wf)

theorem State.showAssigned_wf {s : State} {was now : Bool} (h_s : State.wf s = true) : State.wf (State.showAssigned s was now) = true := by
  unfold State.showAssigned
  repeat' (first
    | with_reducible assumption
    | with_reducible apply wf_ite
    | with_reducible apply State.putPreg_wf)

theorem State.txEffect_wf {s old : State} {off : Nat} (h_s : State.wf s = true) (h_old : State.wf old = true) : State.wf (State.txEffect s old off) = true := by
  unfold State.txEffect
  repeat' (first
    | with_reducible assumption
    | with_reducible apply wf_ite
    | with_reducible apply State.cadenceCommitted_wf
    | with_reducible apply State.govern_wf
    | with_reducible apply State.linkCfg_wf
    | with_reducible apply State.pegIrq_wf
    | with_reducible apply State.retryHeld_wf
    | with_reducible apply State.setBudget_wf
    | with_reducible apply State.setPeg_wf
    | with_reducible apply State.setReg_wf
    | with_reducible apply State.showAssigned_wf
    | with_reducible apply State.showSources_wf
    | with_reducible apply State.startDrain_wf
    | (extract_lets +onlyGivenNames x; clear_value x)
    | split)

theorem State.txApply_wf {s : State} {ws : List (Nat × Word)} (h_s : State.wf s = true) : State.wf (State.txApply s ws) = true := by
  unfold State.txApply
  repeat' (first
    | with_reducible assumption
    | (with_reducible intro _; try beta_reduce)
    | with_reducible apply State.setReg_wf
    | with_reducible apply State.txEffect_wf
    | with_reducible apply foldl_wf)

theorem State.stageTx_wf {s : State} {off : Nat} {v : Word} (h_s : State.wf s = true) : State.wf (State.stageTx s off v) = true := by
  unfold State.stageTx
  repeat' (first
    | with_reducible assumption
    | with_reducible apply wf_ite
    | with_reducible apply State.putPreg_wf
    | with_reducible apply wf_mk)

theorem State.txWrite_wf {s : State} {off : Nat} {v : Word} (h_s : State.wf s = true) : State.wf (State.txWrite s off v) = true := by
  unfold State.txWrite
  repeat' (first
    | with_reducible assumption
    | with_reducible apply wf_ite
    | with_reducible apply State.refuseReg_wf
    | with_reducible apply State.setPreg_wf
    | with_reducible apply State.stageTx_wf
    | with_reducible apply State.txApply_wf
    | split)

theorem execWindowEntryWrite_wf {j w k : Nat} {v : Word} {s : State} (h_s : State.wf s = true) : OutWf (execWindowEntryWrite j w k v s) := by
  unfold execWindowEntryWrite
  repeat' (first
    | with_reducible assumption
    | with_reducible apply wf_ite
    | with_reducible apply State.txWrite_wf
    | with_reducible apply outWf_next)

theorem State.drainDone_wf {s : State} {j : Nat} (h_s : State.wf s = true) : State.wf (State.drainDone s j) = true := by
  unfold State.drainDone
  repeat' (first
    | with_reducible assumption
    | with_reducible apply wf_ite
    | with_reducible apply State.irq_wf
    | with_reducible apply State.showDrain_wf)

theorem execWindowDrainDone_wf {job : Nat} {s : State} (h_s : State.wf s = true) : OutWf (execWindowDrainDone job s) := by
  unfold execWindowDrainDone
  repeat' (first
    | with_reducible assumption
    | with_reducible apply wf_ite
    | with_reducible apply State.drainDone_wf
    | with_reducible apply outWf_next)

theorem execPegCtrlWrite_wf {p : Nat} {v : Word} {s : State} (h_s : State.wf s = true) : OutWf (execPegCtrlWrite p v s) := by
  unfold execPegCtrlWrite
  repeat' (first
    | with_reducible assumption
    | with_reducible apply wf_ite
    | with_reducible apply State.txWrite_wf
    | with_reducible apply outWf_next)

theorem execPegValueWrite_wf {p : Nat} {v : Word} {s : State} (h_s : State.wf s = true) : OutWf (execPegValueWrite p v s) := by
  unfold execPegValueWrite
  repeat' (first
    | with_reducible assumption
    | with_reducible apply wf_ite
    | with_reducible apply State.setPeg_wf
    | with_reducible apply outWf_next)

theorem execRouteEntryWrite_wf {e h : Nat} {v : Word} {s : State} (h_s : State.wf s = true) : OutWf (execRouteEntryWrite e h v s) := by
  unfold execRouteEntryWrite
  repeat' (first
    | with_reducible assumption
    | with_reducible apply wf_ite
    | with_reducible apply State.txWrite_wf
    | with_reducible apply outWf_next)

theorem execRouteEndpointWrite_wf {v : Word} {s : State} (h_s : State.wf s = true) : OutWf (execRouteEndpointWrite v s) := by
  unfold execRouteEndpointWrite
  repeat' (first
    | with_reducible assumption
    | with_reducible apply State.txWrite_wf
    | with_reducible apply outWf_next)

theorem execCapHost_wf {v : Word} {s : State} (h_s : State.wf s = true) : OutWf (execCapHost v s) := by
  unfold execCapHost
  repeat' (first
    | with_reducible assumption
    | with_reducible apply State.txWrite_wf
    | with_reducible apply outWf_next)

end Sys2Proof.Machine
end

