-- ==== Sys2Proof/Laws/WfTxn.lean ====
section
/-!
SUPPORT. Every operation of Machine/Txn.lean keeps the canonical form of memory and registers.
-/

namespace Sys2Proof.Machine

open Sys2Proof

theorem State.setTxnResult_wf {s : State} {r : Nat} (h_s : State.wf s = true) : State.wf (State.setTxnResult s r) = true := by
  unfold State.setTxnResult
  repeat' (first
    | with_reducible assumption
    | with_reducible apply State.putPreg_wf)

theorem State.setTxnState_wf {s : State} {v : Nat} (h_s : State.wf s = true) : State.wf (State.setTxnState s v) = true := by
  unfold State.setTxnState
  repeat' (first
    | with_reducible assumption
    | with_reducible apply State.putPreg_wf)

theorem State.txnBegin_wf {s : State} (h_s : State.wf s = true) : State.wf (State.txnBegin s) = true := by
  unfold State.txnBegin
  repeat' (first
    | with_reducible assumption
    | with_reducible apply wf_ite
    | with_reducible apply State.setPreg_wf
    | with_reducible apply State.setTxnResult_wf
    | (extract_lets +onlyGivenNames x; refine carry (p := x.canon) ?_ ?_; (on_goal 1 => subst x); (on_goal 2 => clear_value x; intro hx))
    | (extract_lets +onlyGivenNames x; clear_value x)
    | with_reducible apply wf_mk)

theorem execTxnBegin_wf {s : State} (h_s : State.wf s = true) : OutWf (execTxnBegin s) := by
  unfold execTxnBegin
  repeat' (first
    | with_reducible assumption
    | with_reducible apply State.txnBegin_wf
    | with_reducible apply outWf_next)

theorem State.failAddr_wf {s : State} {off : Nat} {settings : Bool} (h_s : State.wf s = true) : State.wf (State.failAddr s off settings) = true := by
  unfold State.failAddr
  repeat' (first
    | with_reducible assumption
    | with_reducible apply State.setPreg_wf)

theorem State.refuseStaged_wf {s : State} {off : Nat} {v : Word} (h_s : State.wf s = true) : State.wf (State.refuseStaged s off v) = true := by
  unfold State.refuseStaged
  repeat' (first
    | with_reducible assumption
    | with_reducible apply State.refuseReg_wf
    | split)

theorem State.txnCommit_wf {s : State} (h_s : State.wf s = true) : State.wf (State.txnCommit s) = true := by
  unfold State.txnCommit
  repeat' (first
    | with_reducible assumption
    | (with_reducible intro _; try beta_reduce)
    | with_reducible apply wf_ite
    | with_reducible apply State.failAddr_wf
    | with_reducible apply State.refuseStaged_wf
    | with_reducible apply State.rollBack_wf
    | with_reducible apply State.serveStore_wf
    | with_reducible apply State.setPreg64_wf
    | with_reducible apply State.setSettings_wf
    | with_reducible apply State.setTxnResult_wf
    | with_reducible apply State.setTxnState_wf
    | with_reducible apply parkWf_of
    | with_reducible refine optWf_of (by assumption) ?_
    | with_reducible refine optFst_of (by assumption) ?_
    | with_reducible refine optFst_of2 (by assumption) ?_
    | with_reducible refine fstWf_of (by assumption) ?_
    | with_reducible refine sndWf_of (by assumption) ?_
    | (extract_lets +onlyGivenNames x; refine carry (p := x.canon) ?_ ?_; (on_goal 1 => subst x); (on_goal 2 => clear_value x; intro hx))
    | (extract_lets +onlyGivenNames x; clear_value x)
    | split
    | with_reducible apply wf_mk)

theorem execTxnCommit_wf {s : State} (h_s : State.wf s = true) : OutWf (execTxnCommit s) := by
  unfold execTxnCommit
  repeat' (first
    | with_reducible assumption
    | with_reducible apply State.txnCommit_wf
    | with_reducible apply outWf_next)

theorem execTxnRollback_wf {s : State} (h_s : State.wf s = true) : OutWf (execTxnRollback s) := by
  unfold execTxnRollback
  repeat' (first
    | with_reducible assumption
    | with_reducible apply wf_ite
    | with_reducible apply State.rollBack_wf
    | with_reducible apply outWf_next)

theorem State.commitInstant_wf {s : State} (h_s : State.wf s = true) : State.wf (State.commitInstant s) = true := by
  unfold State.commitInstant
  repeat' (first
    | with_reducible assumption
    | with_reducible apply wf_ite
    | with_reducible apply State.count_wf
    | with_reducible apply State.failAddr_wf
    | with_reducible apply State.irq_wf
    | with_reducible apply State.rollBack_wf
    | with_reducible apply State.setPreg_wf
    | with_reducible apply State.setSettings_wf
    | with_reducible apply State.setTxnResult_wf
    | with_reducible apply State.setTxnState_wf
    | with_reducible apply State.txApply_wf
    | (extract_lets +onlyGivenNames x; refine carry (p := x.canon) ?_ ?_; (on_goal 1 => subst x); (on_goal 2 => clear_value x; intro hx))
    | (extract_lets +onlyGivenNames x; clear_value x)
    | split
    | with_reducible apply wf_mk)

theorem execCommitInstant_wf {s : State} (h_s : State.wf s = true) : OutWf (execCommitInstant s) := by
  unfold execCommitInstant
  repeat' (first
    | with_reducible assumption
    | with_reducible apply State.commitInstant_wf
    | with_reducible apply outWf_next)

theorem execTxnTimeout_wf {s : State} (h_s : State.wf s = true) : OutWf (execTxnTimeout s) := by
  unfold execTxnTimeout
  repeat' (first
    | with_reducible assumption
    | with_reducible apply wf_ite
    | with_reducible apply State.rollBack_wf
    | with_reducible apply outWf_next)

theorem State.txnPersisted_wf {s : State} (h_s : State.wf s = true) : State.wf (State.txnPersisted s) = true := by
  unfold State.txnPersisted
  repeat' (first
    | with_reducible assumption
    | with_reducible apply wf_ite
    | with_reducible apply State.irq_wf
    | with_reducible apply State.markCopy_wf
    | with_reducible apply State.serveStore_wf
    | with_reducible apply State.setPreg_wf
    | with_reducible apply State.setTxnState_wf
    | with_reducible apply State.showSettings_wf
    | with_reducible apply parkWf_of
    | (extract_lets +onlyGivenNames x; refine carry (p := x.canon) ?_ ?_; (on_goal 1 => subst x); (on_goal 2 => clear_value x; intro hx))
    | (extract_lets +onlyGivenNames x; clear_value x)
    | split
    | with_reducible apply wf_mk)

theorem execTxnPersisted_wf {s : State} (h_s : State.wf s = true) : OutWf (execTxnPersisted s) := by
  unfold execTxnPersisted
  repeat' (first
    | with_reducible assumption
    | with_reducible apply outWf_ite
    | with_reducible apply outWf_fault
    | with_reducible apply State.txnPersisted_wf
    | with_reducible apply outWf_next)

end Sys2Proof.Machine
end

