-- ==== Sys2Proof/Laws/WfHostIf.lean ====
section
/-!
SUPPORT. Every operation of Machine/HostIf.lean keeps the canonical form of memory and registers.
-/

namespace Sys2Proof.Machine

open Sys2Proof

theorem State.hotReset_wf {s : State} {up : Bool} (h_s : State.wf s = true) : State.wf (State.hotReset s up) = true := by
  unfold State.hotReset
  repeat' (first
    | with_reducible assumption
    | with_reducible apply State.showHold_wf
    | with_reducible apply wf_mk)

theorem execPcieHotReset_wf {up : Bool} {s : State} (h_s : State.wf s = true) : OutWf (execPcieHotReset up s) := by
  unfold execPcieHotReset
  repeat' (first
    | with_reducible assumption
    | with_reducible apply State.hotReset_wf
    | with_reducible apply outWf_next)

theorem execD3hotEntry_wf {s : State} (h_s : State.wf s = true) : OutWf (execD3hotEntry s) := by
  unfold execD3hotEntry
  repeat' (first
    | with_reducible assumption
    | with_reducible apply State.showHold_wf
    | with_reducible apply outWf_next
    | with_reducible apply wf_mk)

theorem execD3hotExit_wf {s : State} (h_s : State.wf s = true) : OutWf (execD3hotExit s) := by
  unfold execD3hotExit
  repeat' (first
    | with_reducible assumption
    | with_reducible apply State.showHold_wf
    | with_reducible apply outWf_next
    | with_reducible apply wf_mk)

theorem State.sendPending_wf {s : State} {v : Nat} (h_s : State.wf s = true) : State.wf (State.sendPending s v) = true := by
  unfold State.sendPending
  repeat' (first
    | with_reducible assumption
    | with_reducible apply wf_ite
    | with_reducible apply State.emit_wf
    | with_reducible apply State.setReg_wf)

theorem execMsixPendingSend_wf {v : Nat} {s : State} (h_s : State.wf s = true) : OutWf (execMsixPendingSend v s) := by
  unfold execMsixPendingSend
  repeat' (first
    | with_reducible assumption
    | with_reducible apply State.sendPending_wf
    | with_reducible apply outWf_next)

theorem State.sqTail_wf {s : State} {c k : Nat} {v : Word} (h_s : State.wf s = true) : State.wf (State.sqTail s c k v) = true := by
  unfold State.sqTail
  repeat' (first
    | with_reducible assumption
    | with_reducible apply wf_ite
    | with_reducible apply State.record_wf
    | (extract_lets +onlyGivenNames x; clear_value x)
    | split
    | with_reducible apply wf_mk)

theorem execDbSqTail_wf {c k : Nat} {v : Word} {s : State} (h_s : State.wf s = true) : OutWf (execDbSqTail c k v s) := by
  unfold execDbSqTail
  repeat' (first
    | with_reducible assumption
    | with_reducible apply wf_ite
    | with_reducible apply State.sqTail_wf
    | with_reducible apply outWf_next)

theorem State.asqTail_wf {s : State} {v : Word} (h_s : State.wf s = true) : State.wf (State.asqTail s v) = true := by
  unfold State.asqTail
  repeat' (first
    | with_reducible assumption
    | with_reducible apply wf_ite
    | with_reducible apply State.irq_wf
    | with_reducible apply State.report_wf
    | with_reducible apply State.setPreg_wf)

theorem execHostAsqTail_wf {v : Word} {s : State} (h_s : State.wf s = true) : OutWf (execHostAsqTail v s) := by
  unfold execHostAsqTail
  repeat' (first
    | with_reducible assumption
    | with_reducible apply State.asqTail_wf
    | with_reducible apply outWf_next)

theorem State.cqArm_wf {s : State} {c : Nat} {v : Word} (h_s : State.wf s = true) : State.wf (State.cqArm s c v) = true := by
  unfold State.cqArm
  repeat' (first
    | with_reducible assumption
    | with_reducible apply wf_ite
    | with_reducible apply State.clientArm_wf
    | with_reducible apply wf_mk)

theorem execDbCqArm_wf {c : Nat} {v : Word} {s : State} (h_s : State.wf s = true) : OutWf (execDbCqArm c v s) := by
  unfold execDbCqArm
  repeat' (first
    | with_reducible assumption
    | with_reducible apply State.cqArm_wf
    | with_reducible apply outWf_next)

theorem State.acqArm_wf {s : State} {v : Word} (h_s : State.wf s = true) : State.wf (State.acqArm s v) = true := by
  unfold State.acqArm
  repeat' (first
    | with_reducible assumption
    | with_reducible apply wf_ite
    | with_reducible apply State.adminArm_wf
    | with_reducible apply wf_mk)

theorem execHostAcqArm_wf {v : Word} {s : State} (h_s : State.wf s = true) : OutWf (execHostAcqArm v s) := by
  unfold execHostAcqArm
  repeat' (first
    | with_reducible assumption
    | with_reducible apply State.acqArm_wf
    | with_reducible apply outWf_next)

theorem State.acfgWrite_wf {s : State} {w : Word} (h_s : State.wf s = true) : State.wf (State.acfgWrite s w) = true := by
  unfold State.acfgWrite
  repeat' (first
    | with_reducible assumption
    | with_reducible apply wf_ite
    | with_reducible apply State.rawWrite_wf
    | with_reducible apply State.refuseReg_wf
    | with_reducible apply State.setPreg_wf
    | (extract_lets +onlyGivenNames x; refine carry (p := x.canon) ?_ ?_; (on_goal 1 => subst x); (on_goal 2 => clear_value x; intro hx))
    | with_reducible apply wf_mk)

theorem execHostAcfgEnable_wf {v : Word} {s : State} (h_s : State.wf s = true) : OutWf (execHostAcfgEnable v s) := by
  unfold execHostAcfgEnable
  repeat' (first
    | with_reducible assumption
    | with_reducible apply wf_ite
    | with_reducible apply State.acfgWrite_wf
    | with_reducible apply outWf_next)

theorem State.drainClient_wf {s : State} {c n : Nat} (h_s : s.wf) : (s.drainClient c n).wf := by
  induction n generalizing s with
  | zero => exact h_s
  | succ n ih =>
    unfold State.drainClient
    split
    · exact h_s
    · refine wf_ite h_s ?_
      split
      · exact h_s
      · exact ih (wf_mk _ (optWf_of (by assumption) (State.clientPuts_wf h_s)))

theorem State.drainAdmin_wf {s : State} {n : Nat} (h_s : s.wf) : (s.drainAdmin n).wf := by
  induction n generalizing s with
  | zero => exact h_s
  | succ n ih =>
    unfold State.drainAdmin
    exact wf_ite h_s (ih (wf_mk _ (foldl_wf h_s (fun _ _ h => State.adminPut_wf h))))

theorem execCompletionBacklogDrain_wf {r : Ring} {s : State} (h_s : State.wf s = true) : OutWf (execCompletionBacklogDrain r s) := by
  unfold execCompletionBacklogDrain
  repeat' (first
    | with_reducible assumption
    | with_reducible apply State.adminArm_wf
    | with_reducible apply State.clientArm_wf
    | with_reducible apply State.drainAdmin_wf
    | with_reducible apply State.drainClient_wf
    | with_reducible apply outWf_next
    | split)

theorem State.holdWrite_wf {s : State} {v : Word} (h_s : State.wf s = true) : State.wf (State.holdWrite s v) = true := by
  unfold State.holdWrite
  repeat' (first
    | with_reducible assumption
    | with_reducible apply State.setPreg_wf
    | with_reducible apply State.showHold_wf)

theorem execChipHold_wf {v : Word} {s : State} (h_s : State.wf s = true) : OutWf (execChipHold v s) := by
  unfold execChipHold
  repeat' (first
    | with_reducible assumption
    | with_reducible apply State.holdWrite_wf
    | with_reducible apply outWf_next)

theorem State.ringSel_wf {s : State} {v : Word} (h_s : State.wf s = true) : State.wf (State.ringSel s v) = true := by
  unfold State.ringSel
  repeat' (first
    | with_reducible assumption
    | with_reducible apply wf_ite
    | with_reducible apply State.refuseReg_wf
    | with_reducible apply State.setPreg_wf)

theorem execRingSel_wf {v : Word} {s : State} (h_s : State.wf s = true) : OutWf (execRingSel v s) := by
  unfold execRingSel
  repeat' (first
    | with_reducible assumption
    | with_reducible apply State.ringSel_wf
    | with_reducible apply outWf_next)

theorem execBlkIrqErrorRearm_wf {off : Nat} {s : State} (h_s : State.wf s = true) : OutWf (execBlkIrqErrorRearm off s) := by
  unfold execBlkIrqErrorRearm
  repeat' (first
    | with_reducible assumption
    | with_reducible apply State.rearm_wf
    | with_reducible apply outWf_next
    | split)

theorem State.forceIrq_wf {s : State} {p : Page} {v : Word} (h_s : State.wf s = true) : State.wf (State.forceIrq s p v) = true := by
  unfold State.forceIrq
  repeat' (first
    | with_reducible assumption
    | with_reducible apply State.setIrq_wf)

theorem execBlkIrqForce_wf {off : Nat} {v : Word} {s : State} (h_s : State.wf s = true) : OutWf (execBlkIrqForce off v s) := by
  unfold execBlkIrqForce
  repeat' (first
    | with_reducible assumption
    | with_reducible apply State.forceIrq_wf
    | with_reducible apply outWf_next
    | split)

end Sys2Proof.Machine
end

