-- ==== Sys2Proof/Laws/WfBoot.lean ====
section
/-!
SUPPORT. Every operation of Machine/Boot.lean keeps the canonical form of memory and registers.
-/

namespace Sys2Proof.Machine

open Sys2Proof

theorem State.setBoot_wf {s : State} {f : Boot → Boot} (h_s : State.wf s = true) : State.wf (State.setBoot s f) = true := by
  unfold State.setBoot
  repeat' (first
    | with_reducible assumption
    | with_reducible apply wf_mk)

theorem State.setFw_wf {s : State} {n : Nat} {f : FwSlot → FwSlot} (h_s : State.wf s = true) : State.wf (State.setFw s n f) = true := by
  unfold State.setFw
  repeat' (first
    | with_reducible assumption
    | with_reducible apply State.setBoot_wf)

theorem State.fwState_wf {s : State} {n st result : Nat} (h_s : State.wf s = true) : State.wf (State.fwState s n st result) = true := by
  unfold State.fwState
  repeat' (first
    | with_reducible assumption
    | with_reducible apply State.setFw_wf)

theorem State.fwRecord_wf {s : State} {code slot kind : Nat} (h_s : State.wf s = true) : State.wf (State.fwRecord s code slot kind) = true := by
  unfold State.fwRecord
  repeat' (first
    | with_reducible assumption
    | with_reducible apply State.report_wf)

theorem State.loadSettings_wf {s : State} {okA okB : Bool} (h_s : State.wf s = true) : State.wf (State.loadSettings s okA okB) = true := by
  unfold State.loadSettings
  repeat' (first
    | with_reducible assumption
    | (with_reducible intro _; try beta_reduce)
    | with_reducible apply wf_ite
    | with_reducible apply State.putStat_wf
    | with_reducible apply State.report_wf
    | with_reducible apply State.setSettings_wf
    | with_reducible apply State.showSettings_wf
    | with_reducible apply foldl_wf
    | with_reducible apply getD_wf
    | with_reducible apply foldl_wf
    | with_reducible apply getD_wf
    | with_reducible apply parkWf_of
    | with_reducible apply foldl_park
    | (extract_lets +onlyGivenNames x; refine carry (p := x.canon) ?_ ?_; (on_goal 1 => subst x); (on_goal 2 => clear_value x; intro hx))
    | (extract_lets +onlyGivenNames x; clear_value x)
    | split
    | with_reducible apply wf_mk)

theorem State.budgetField_wf {s : State} {hi lo v : Nat} (h_s : State.wf s = true) : State.wf (State.budgetField s hi lo v) = true := by
  unfold State.budgetField
  repeat' (first
    | with_reducible assumption
    | with_reducible apply wf_ite
    | with_reducible apply State.setPreg_wf
    | with_reducible apply parkWf_of
    | (extract_lets +onlyGivenNames x; refine carry (p := x.canon) ?_ ?_; (on_goal 1 => subst x); (on_goal 2 => clear_value x; intro hx))
    | (extract_lets +onlyGivenNames x; clear_value x)
    | split)

theorem State.loadField_wf {s : State} {t hi lo : Nat} (h_s : State.wf s = true) : State.wf (State.loadField s t hi lo) = true := by
  unfold State.loadField
  repeat' (first
    | with_reducible assumption
    | with_reducible apply State.budgetField_wf
    | with_reducible apply parkWf_of
    | with_reducible refine optWf_of (by assumption) ?_
    | with_reducible refine optFst_of (by assumption) ?_
    | with_reducible refine optFst_of2 (by assumption) ?_
    | with_reducible refine fstWf_of (by assumption) ?_
    | with_reducible refine sndWf_of (by assumption) ?_
    | split
    | with_reducible apply wf_mk)

theorem State.loadBudget_wf {s : State} (h_s : State.wf s = true) : State.wf (State.loadBudget s) = true := by
  unfold State.loadBudget
  repeat' (first
    | with_reducible assumption
    | with_reducible apply State.loadField_wf)

theorem State.mountDeep_wf {s : State} {k : BootCheck} (h_s : State.wf s = true) : State.wf (State.mountDeep s k) = true := by
  unfold State.mountDeep
  repeat' (first
    | with_reducible assumption
    | (with_reducible intro _; try beta_reduce)
    | with_reducible apply wf_ite
    | with_reducible apply State.count_wf
    | with_reducible apply State.holdupCheck_wf
    | with_reducible apply State.report_wf
    | with_reducible apply State.setDeepState_wf
    | with_reducible apply State.setLevel_wf
    | with_reducible apply State.setPreg_wf
    | with_reducible apply State.showReady_wf
    | with_reducible apply State.showSets_wf
    | with_reducible apply State.showWear_wf
    | with_reducible apply foldl_wf
    | with_reducible apply getD_wf
    | with_reducible apply foldl_wf
    | with_reducible apply getD_wf
    | with_reducible apply fst_wf
    | with_reducible apply snd_wf
    | with_reducible apply parkWf_of
    | with_reducible apply foldl_park
    | (extract_lets +onlyGivenNames x; refine carry (p := x.canon) ?_ ?_; (on_goal 1 => subst x); (on_goal 2 => clear_value x; intro hx))
    | (extract_lets +onlyGivenNames x; refine carry (p := x.1.canon) ?_ ?_; (on_goal 1 => subst x); (on_goal 2 => clear_value x; intro hx))
    | (extract_lets +onlyGivenNames x; clear_value x)
    | split
    | with_reducible apply wf_mk)

theorem State.trainTiers_wf {s : State} {k : BootCheck} {ts : List Nat} {power : Bool} (h_s : State.wf s = true) : State.wf (State.trainTiers s k ts power) = true := by
  unfold State.trainTiers
  repeat' (first
    | with_reducible assumption
    | (with_reducible intro _; try beta_reduce)
    | with_reducible apply State.setPreg_wf
    | with_reducible apply State.setTierState_wf
    | with_reducible apply State.showFree_wf
    | with_reducible apply foldl_wf
    | (extract_lets +onlyGivenNames x; refine carry (p := x.canon) ?_ ?_; (on_goal 1 => subst x); (on_goal 2 => clear_value x; intro hx))
    | split
    | with_reducible apply wf_mk)

theorem State.loadAbsent_wf {s : State} {b slot : Nat} (h_s : State.wf s = true) : State.wf (State.loadAbsent s b slot) = true := by
  unfold State.loadAbsent
  repeat' (first
    | with_reducible assumption
    | with_reducible apply wf_ite
    | with_reducible apply State.mapSlot_wf
    | with_reducible apply State.putPreg_wf
    | with_reducible apply State.setSlotState_wf
    | with_reducible apply parkWf_of
    | (extract_lets +onlyGivenNames x; refine carry (p := x.canon) ?_ ?_; (on_goal 1 => subst x); (on_goal 2 => clear_value x; intro hx))
    | (extract_lets +onlyGivenNames x; clear_value x)
    | split)

theorem State.loadFailed_wf {s : State} (h_s : State.wf s = true) : State.wf (State.loadFailed s) = true := by
  unfold State.loadFailed
  repeat' (first
    | with_reducible assumption
    | (with_reducible intro _; try beta_reduce)
    | with_reducible apply wf_ite
    | with_reducible apply State.loadAbsent_wf
    | with_reducible apply State.putPreg_wf
    | with_reducible apply State.remap_wf
    | with_reducible apply State.setSlotState_wf
    | with_reducible apply State.showCapacity_wf
    | with_reducible apply foldl_wf
    | with_reducible apply foldl_wf
    | with_reducible apply parkWf_of
    | with_reducible apply foldl_park
    | (extract_lets +onlyGivenNames x; refine carry (p := x.canon) ?_ ?_; (on_goal 1 => subst x); (on_goal 2 => clear_value x; intro hx))
    | (extract_lets +onlyGivenNames x; clear_value x)
    | split)

theorem State.showImage_wf {s : State} (h_s : State.wf s = true) : State.wf (State.showImage s) = true := by
  unfold State.showImage
  repeat' (first
    | with_reducible assumption
    | with_reducible apply State.setPreg_wf)

theorem State.settleSlots_wf {s : State} (h_s : State.wf s = true) : State.wf (State.settleSlots s) = true := by
  unfold State.settleSlots
  repeat' (first
    | with_reducible assumption
    | (with_reducible intro _; try beta_reduce)
    | with_reducible apply State.fwState_wf
    | with_reducible apply foldl_wf
    | split
    | with_reducible apply wf_mk)

theorem State.recovery_wf {s : State} {k : BootCheck} {fw : Word} (h_s : State.wf s = true) : State.wf (State.recovery s k fw) = true := by
  unfold State.recovery
  repeat' (first
    | with_reducible assumption
    | with_reducible apply State.setPreg_wf
    | with_reducible apply State.setReady_wf
    | with_reducible apply State.trainTiers_wf
    | with_reducible apply wf_mk)

theorem State.bringUp_wf {s : State} {k : BootCheck} {cause : Nat} {power : Bool} (h_s : State.wf s = true) : State.wf (State.bringUp s k cause power) = true := by
  unfold State.bringUp
  repeat' (first
    | with_reducible assumption
    | with_reducible apply wf_ite
    | with_reducible apply State.count_wf
    | with_reducible apply State.emit_wf
    | with_reducible apply State.fwCommit_wf
    | with_reducible apply State.fwRecord_wf
    | with_reducible apply State.fwState_wf
    | with_reducible apply State.govern_wf
    | with_reducible apply State.loadBudget_wf
    | with_reducible apply State.loadFailed_wf
    | with_reducible apply State.loadSettings_wf
    | with_reducible apply State.mountDeep_wf
    | with_reducible apply State.putPreg_wf
    | with_reducible apply State.pw_wf
    | with_reducible apply State.recovery_wf
    | with_reducible apply State.redrive_wf
    | with_reducible apply State.setBoot_wf
    | with_reducible apply State.setPreg_wf
    | with_reducible apply State.settleSlots_wf
    | with_reducible apply State.showHold_wf
    | with_reducible apply State.showImage_wf
    | with_reducible apply State.showTemps_wf
    | with_reducible apply State.trainTiers_wf
    | (extract_lets +onlyGivenNames x; refine carry (p := x.canon) ?_ ?_; (on_goal 1 => subst x); (on_goal 2 => clear_value x; intro hx))
    | split
    | with_reducible apply wf_mk)

end Sys2Proof.Machine
end

