-- ==== Sys2Proof/Laws/WfResets.lean ====
section
/-!
SUPPORT. Every operation of Machine/Resets.lean keeps the canonical form of memory and registers.
-/

namespace Sys2Proof.Machine

open Sys2Proof

theorem State.warmState_wf {s : State} (h_s : s.wf) : s.warmState.wf :=
  wf_intro (show Memory.wf s.mem from wf_memory h_s) (regFile_filter (h := s.isH) (r := s.regs) _ (wf_regs h_s))

theorem State.warmReset_wf {s : State} {cause : Nat} {k : BootCheck} (h_s : State.wf s = true) : State.wf (State.warmReset s cause k) = true := by
  unfold State.warmReset
  repeat' (first
    | with_reducible assumption
    | with_reducible apply wf_ite
    | with_reducible apply State.bringUp_wf
    | with_reducible apply State.closeDeep_wf
    | with_reducible apply State.irq_wf
    | with_reducible apply State.letGo_wf
    | with_reducible apply State.sendLoss_wf
    | with_reducible apply State.setTxnResult_wf
    | with_reducible apply State.showContaining_wf
    | with_reducible apply State.showLoss_wf
    | with_reducible apply State.warmState_wf
    | with_reducible apply parkWf_of
    | (extract_lets +onlyGivenNames x; refine carry (p := x.canon) ?_ ?_; (on_goal 1 => subst x); (on_goal 2 => clear_value x; intro hx))
    | (extract_lets +onlyGivenNames x; clear_value x)
    | split)

theorem execChipReset_wf {v : Word} {k : BootCheck} {s : State} (h_s : State.wf s = true) : OutWf (execChipReset v k s) := by
  unfold execChipReset
  repeat' (first
    | with_reducible assumption
    | with_reducible apply wf_ite
    | with_reducible apply State.warmReset_wf
    | with_reducible apply outWf_next)

theorem execFlr_wf {k : BootCheck} {s : State} (h_s : State.wf s = true) : OutWf (execFlr k s) := by
  unfold execFlr
  repeat' (first
    | with_reducible assumption
    | with_reducible apply State.warmReset_wf
    | with_reducible apply outWf_next
    | with_reducible apply wf_mk)

theorem execWarmModuleReset_wf {k : BootCheck} {s : State} (h_s : State.wf s = true) : OutWf (execWarmModuleReset k s) := by
  unfold execWarmModuleReset
  repeat' (first
    | with_reducible assumption
    | with_reducible apply State.warmReset_wf
    | with_reducible apply outWf_next)

theorem State.powerUp_wf {s : State} {k : BootCheck} (h_s : State.wf s = true) : State.wf (State.powerUp s k) = true := by
  unfold State.powerUp
  repeat' (first
    | with_reducible assumption
    | with_reducible apply wf_ite
    | with_reducible apply State.bringUp_wf
    | with_reducible apply wf_mk)

theorem execPowerUp_wf {k : BootCheck} {s : State} (h_s : State.wf s = true) : OutWf (execPowerUp k s) := by
  unfold execPowerUp
  repeat' (first
    | with_reducible assumption
    | with_reducible apply State.powerUp_wf
    | with_reducible apply outWf_next)

theorem State.resetAssert_wf {s : State} (h_s : State.wf s = true) : State.wf (State.resetAssert s) = true := by
  unfold State.resetAssert
  repeat' (first
    | with_reducible assumption
    | with_reducible apply wf_ite
    | with_reducible apply State.afterPower_wf
    | with_reducible apply State.closeDeep_wf
    | with_reducible apply State.emit_wf
    | (extract_lets +onlyGivenNames x; refine carry (p := x.canon) ?_ ?_; (on_goal 1 => subst x); (on_goal 2 => clear_value x; intro hx))
    | with_reducible apply wf_mk)

theorem execModResetNAssert_wf {s : State} (h_s : State.wf s = true) : OutWf (execModResetNAssert s) := by
  unfold execModResetNAssert
  repeat' (first
    | with_reducible assumption
    | with_reducible apply State.resetAssert_wf
    | with_reducible apply outWf_next)

theorem State.resetDeassert_wf {s : State} {k : BootCheck} (h_s : State.wf s = true) : State.wf (State.resetDeassert s k) = true := by
  unfold State.resetDeassert
  repeat' (first
    | with_reducible assumption
    | with_reducible apply wf_ite
    | with_reducible apply State.bringUp_wf
    | with_reducible apply State.emit_wf
    | with_reducible apply State.scanLetGo_wf
    | with_reducible apply parkWf_of
    | (extract_lets +onlyGivenNames x; refine carry (p := x.canon) ?_ ?_; (on_goal 1 => subst x); (on_goal 2 => clear_value x; intro hx))
    | (extract_lets +onlyGivenNames x; clear_value x)
    | split
    | with_reducible apply wf_mk)

theorem execModResetNDeassert_wf {k : BootCheck} {s : State} (h_s : State.wf s = true) : OutWf (execModResetNDeassert k s) := by
  unfold execModResetNDeassert
  repeat' (first
    | with_reducible assumption
    | with_reducible apply State.resetDeassert_wf
    | with_reducible apply outWf_next)

theorem execModPresentNBreak_wf {s : State} (h_s : State.wf s = true) : OutWf (execModPresentNBreak s) := by
  unfold execModPresentNBreak
  repeat' (first
    | with_reducible assumption
    | with_reducible apply State.emit_wf
    | with_reducible apply outWf_next)

theorem execHostPerstN_wf {s : State} (h_s : State.wf s = true) : OutWf (execHostPerstN s) := by
  unfold execHostPerstN
  repeat' (first
    | with_reducible assumption
    | with_reducible apply State.hotReset_wf
    | with_reducible apply outWf_next)

theorem State.setIr_wf {s : State} {n : Nat} (h_s : State.wf s = true) : State.wf (State.setIr s n) = true := by
  unfold State.setIr
  repeat' (first
    | with_reducible assumption
    | with_reducible apply wf_mk)

theorem State.shift1_wf {s : State} {bs : List Bool} (h_s : State.wf s = true) : State.wf (State.shift1 s bs) = true := by
  unfold State.shift1
  repeat' (first
    | with_reducible assumption
    | with_reducible apply wf_ite
    | with_reducible apply State.emit_wf)

theorem State.tapReset_wf {s : State} (h_s : State.wf s = true) : State.wf (State.tapReset s) = true := by
  unfold State.tapReset
  repeat' (first
    | with_reducible assumption
    | with_reducible apply State.scanLetGo_wf
    | with_reducible apply State.setIr_wf
    | with_reducible apply parkWf_of)

theorem execTapReset_wf {s : State} (h_s : State.wf s = true) : OutWf (execTapReset s) := by
  unfold execTapReset
  repeat' (first
    | with_reducible assumption
    | with_reducible apply outWf_ite
    | with_reducible apply outWf_fault
    | with_reducible apply State.tapReset_wf
    | with_reducible apply outWf_next)

theorem State.tapBypass_wf {s : State} (h_s : State.wf s = true) : State.wf (State.tapBypass s) = true := by
  unfold State.tapBypass
  repeat' (first
    | with_reducible assumption
    | with_reducible apply wf_ite
    | with_reducible apply State.scanLetGo_wf
    | with_reducible apply State.setIr_wf
    | with_reducible apply State.shift1_wf
    | with_reducible apply parkWf_of
    | split)

theorem execJtagBypass_wf {s : State} (h_s : State.wf s = true) : OutWf (execJtagBypass s) := by
  unfold execJtagBypass
  repeat' (first
    | with_reducible assumption
    | with_reducible apply State.tapBypass_wf
    | with_reducible apply outWf_next)

theorem execJtagIdcode_wf {s : State} (h_s : State.wf s = true) : OutWf (execJtagIdcode s) := by
  unfold execJtagIdcode
  repeat' (first
    | with_reducible assumption
    | (with_reducible intro _; try beta_reduce)
    | with_reducible apply wf_ite
    | with_reducible apply outWf_ite
    | with_reducible apply outWf_fault
    | with_reducible apply State.scanLetGo_wf
    | with_reducible apply State.setIr_wf
    | with_reducible apply State.shift1_wf
    | with_reducible apply parkWf_of
    | with_reducible apply outWf_next
    | split)

theorem State.samplePreload_wf {s : State} {ins : List Bool} {cells : List (String × Bool)} (h_s : State.wf s = true) : State.wf (State.samplePreload s ins cells) = true := by
  unfold State.samplePreload
  repeat' (first
    | with_reducible assumption
    | (with_reducible intro _; try beta_reduce)
    | with_reducible apply wf_ite
    | with_reducible apply State.scanLetGo_wf
    | with_reducible apply State.shift1_wf
    | with_reducible apply snd_wf
    | with_reducible apply parkWf_of
    | (extract_lets +onlyGivenNames x; refine carry (p := x.canon) ?_ ?_; (on_goal 1 => subst x); (on_goal 2 => clear_value x; intro hx))
    | (extract_lets +onlyGivenNames x; clear_value x)
    | split
    | with_reducible apply wf_mk)

theorem execJtagSamplePreload_wf {ins : List Bool} {cells : List (String × Bool)} {s : State} (h_s : State.wf s = true) : OutWf (execJtagSamplePreload ins cells s) := by
  unfold execJtagSamplePreload
  repeat' (first
    | with_reducible assumption
    | with_reducible apply State.samplePreload_wf
    | with_reducible apply outWf_next)

theorem State.driveCells_wf {s : State} (h_s : State.wf s = true) : State.wf (State.driveCells s) = true := by
  unfold State.driveCells
  repeat' (first
    | with_reducible assumption
    | (with_reducible intro _; try beta_reduce)
    | with_reducible apply State.emit_wf
    | with_reducible apply State.scanLetGo_wf
    | with_reducible apply foldl_wf
    | with_reducible apply foldl_wf
    | with_reducible apply fst_wf
    | with_reducible apply snd_wf
    | with_reducible apply parkWf_of
    | with_reducible apply foldl_park
    | (extract_lets +onlyGivenNames x; refine carry (p := x.canon) ?_ ?_; (on_goal 1 => subst x); (on_goal 2 => clear_value x; intro hx))
    | (extract_lets +onlyGivenNames x; refine carry (p := x.1.canon) ?_ ?_; (on_goal 1 => subst x); (on_goal 2 => clear_value x; intro hx))
    | (extract_lets +onlyGivenNames x; clear_value x)
    | with_reducible apply wf_mk)

theorem execJtagExtest_wf {s : State} (h_s : State.wf s = true) : OutWf (execJtagExtest s) := by
  unfold execJtagExtest
  repeat' (first
    | with_reducible assumption
    | with_reducible apply wf_ite
    | with_reducible apply State.driveCells_wf
    | with_reducible apply State.setIr_wf
    | with_reducible apply State.tapBypass_wf
    | with_reducible apply outWf_next)

theorem execJtagClamp_wf {s : State} (h_s : State.wf s = true) : OutWf (execJtagClamp s) := by
  unfold execJtagClamp
  repeat' (first
    | with_reducible assumption
    | with_reducible apply wf_ite
    | with_reducible apply State.driveCells_wf
    | with_reducible apply State.setIr_wf
    | with_reducible apply State.shift1_wf
    | with_reducible apply State.tapBypass_wf
    | with_reducible apply outWf_next)

theorem execJtagHighz_wf {s : State} (h_s : State.wf s = true) : OutWf (execJtagHighz s) := by
  unfold execJtagHighz
  repeat' (first
    | with_reducible assumption
    | with_reducible apply wf_ite
    | with_reducible apply State.emit_wf
    | with_reducible apply State.letGo_wf
    | with_reducible apply State.setIr_wf
    | with_reducible apply State.tapBypass_wf
    | with_reducible apply outWf_next)

end Sys2Proof.Machine
end

