-- ==== Sys2Proof/Laws/WfFirmware.lean ====
section
/-!
SUPPORT. Every operation of Machine/Firmware.lean keeps the canonical form of memory and registers.
-/

namespace Sys2Proof.Machine

open Sys2Proof

theorem State.fwSpend_wf {s : State} {edits : List (Nat × Option (List Byte))} (h_s : State.wf s = true) : State.wf (State.fwSpend s edits) = true := by
  unfold State.fwSpend
  repeat' (first
    | with_reducible assumption
    | with_reducible apply State.fwCommit_wf
    | with_reducible apply State.takeCredit_wf)

theorem State.fwResult_wf {s : State} {n result : Nat} (h_s : State.wf s = true) : State.wf (State.fwResult s n result) = true := by
  unfold State.fwResult
  repeat' (first
    | with_reducible assumption
    | with_reducible apply State.setFw_wf)

theorem State.fwStage_wf {s : State} (h_s : State.wf s = true) : State.wf (State.fwStage s) = true := by
  unfold State.fwStage
  repeat' (first
    | with_reducible assumption
    | with_reducible apply wf_ite
    | with_reducible apply State.fwRecord_wf
    | with_reducible apply State.fwResult_wf
    | with_reducible apply State.fwSpend_wf
    | with_reducible apply State.fwState_wf
    | with_reducible apply State.setFw_wf
    | (extract_lets +onlyGivenNames x; clear_value x)
    | split)

theorem execFwStage_wf {s : State} (h_s : State.wf s = true) : OutWf (execFwStage s) := by
  unfold execFwStage
  repeat' (first
    | with_reducible assumption
    | with_reducible apply State.fwStage_wf
    | with_reducible apply outWf_next)

theorem State.stageComplete_wf {s : State} {flash intact : Bool} (h_s : State.wf s = true) : State.wf (State.stageComplete s flash intact) = true := by
  unfold State.stageComplete
  repeat' (first
    | with_reducible assumption
    | with_reducible apply wf_ite
    | with_reducible apply State.fwRecord_wf
    | with_reducible apply State.fwSpend_wf
    | with_reducible apply State.fwState_wf
    | split)

theorem execFwStageComplete_wf {flash intact : Bool} {s : State} (h_s : State.wf s = true) : OutWf (execFwStageComplete flash intact s) := by
  unfold execFwStageComplete
  repeat' (first
    | with_reducible assumption
    | with_reducible apply State.stageComplete_wf
    | with_reducible apply outWf_next)

theorem State.fwActivate_wf {s : State} (h_s : State.wf s = true) : State.wf (State.fwActivate s) = true := by
  unfold State.fwActivate
  repeat' (first
    | with_reducible assumption
    | with_reducible apply wf_ite
    | with_reducible apply State.fwResult_wf
    | with_reducible apply State.fwSpend_wf
    | with_reducible apply State.setBoot_wf
    | split)

theorem execFwActivate_wf {s : State} (h_s : State.wf s = true) : OutWf (execFwActivate s) := by
  unfold execFwActivate
  repeat' (first
    | with_reducible assumption
    | with_reducible apply State.fwActivate_wf
    | with_reducible apply outWf_next)

theorem State.runImage_wf {s : State} {n : Nat} {k : BootCheck} (h_s : State.wf s = true) : State.wf (State.runImage s n k) = true := by
  unfold State.runImage
  repeat' (first
    | with_reducible assumption
    | with_reducible apply State.closeDeep_wf
    | with_reducible apply State.mountDeep_wf
    | with_reducible apply State.setBoot_wf
    | with_reducible apply State.setReady_wf
    | with_reducible apply State.showImage_wf)

theorem State.activation_wf {s : State} {k : BootCheck} (h_s : State.wf s = true) : State.wf (State.activation s k) = true := by
  unfold State.activation
  repeat' (first
    | with_reducible assumption
    | with_reducible apply wf_ite
    | with_reducible apply State.fwSpend_wf
    | with_reducible apply State.fwState_wf
    | with_reducible apply State.runImage_wf
    | with_reducible apply State.setBoot_wf
    | with_reducible apply State.setReady_wf
    | split)

theorem execActivation_wf {k : BootCheck} {s : State} (h_s : State.wf s = true) : OutWf (execActivation k s) := by
  unfold execActivation
  repeat' (first
    | with_reducible assumption
    | with_reducible apply State.activation_wf
    | with_reducible apply outWf_next)

theorem State.confirm_wf {s : State} {edits : List (Nat × Option (List Byte))} (h_s : State.wf s = true) : State.wf (State.confirm s edits) = true := by
  unfold State.confirm
  repeat' (first
    | with_reducible assumption
    | with_reducible apply wf_ite
    | with_reducible apply State.fwRecord_wf
    | with_reducible apply State.fwSpend_wf
    | with_reducible apply State.fwState_wf
    | with_reducible apply State.setBoot_wf)

theorem State.fwConfirm_wf {s : State} (h_s : State.wf s = true) : State.wf (State.fwConfirm s) = true := by
  unfold State.fwConfirm
  repeat' (first
    | with_reducible assumption
    | with_reducible apply wf_ite
    | with_reducible apply State.confirm_wf
    | with_reducible apply State.fwSpend_wf
    | split)

theorem execFwConfirm_wf {s : State} (h_s : State.wf s = true) : OutWf (execFwConfirm s) := by
  unfold execFwConfirm
  repeat' (first
    | with_reducible assumption
    | with_reducible apply State.fwConfirm_wf
    | with_reducible apply outWf_next)

theorem State.autoConfirm_wf {s : State} (h_s : State.wf s = true) : State.wf (State.autoConfirm s) = true := by
  unfold State.autoConfirm
  repeat' (first
    | with_reducible assumption
    | with_reducible apply wf_ite
    | with_reducible apply State.confirm_wf
    | split)

theorem execTrialAutoConfirm_wf {s : State} (h_s : State.wf s = true) : OutWf (execTrialAutoConfirm s) := by
  unfold execTrialAutoConfirm
  repeat' (first
    | with_reducible assumption
    | with_reducible apply State.autoConfirm_wf
    | with_reducible apply outWf_next)

theorem State.trialFails_wf {s : State} {kind : Nat} (h_s : State.wf s = true) : State.wf (State.trialFails s kind) = true := by
  unfold State.trialFails
  repeat' (first
    | with_reducible assumption
    | with_reducible apply State.fwRecord_wf
    | with_reducible apply State.fwState_wf)

theorem State.endTrial_wf {s : State} {kind : Nat} {k : BootCheck} (h_s : State.wf s = true) : State.wf (State.endTrial s kind k) = true := by
  unfold State.endTrial
  repeat' (first
    | with_reducible assumption
    | with_reducible apply wf_ite
    | with_reducible apply State.endJobs_wf
    | with_reducible apply State.fwCommit_wf
    | with_reducible apply State.runImage_wf
    | with_reducible apply State.sendLoss_wf
    | with_reducible apply State.setReady_wf
    | with_reducible apply State.trialFails_wf)

theorem execTrialFailure_wf {k : BootCheck} {s : State} (h_s : State.wf s = true) : OutWf (execTrialFailure k s) := by
  unfold execTrialFailure
  repeat' (first
    | with_reducible assumption
    | with_reducible apply State.endTrial_wf
    | with_reducible apply outWf_next)

theorem State.slotFails_wf {s : State} {n : Nat} {okOther : Bool} (h_s : State.wf s = true) : State.wf (State.slotFails s n okOther) = true := by
  unfold State.slotFails
  repeat' (first
    | with_reducible assumption
    | with_reducible apply wf_ite
    | with_reducible apply State.fwCommit_wf
    | with_reducible apply State.fwRecord_wf
    | with_reducible apply State.fwState_wf
    | with_reducible apply State.setFw_wf)

theorem execBootFlashCheck_wf {okA okB : Bool} {s : State} (h_s : State.wf s = true) : OutWf (execBootFlashCheck okA okB s) := by
  unfold execBootFlashCheck
  repeat' (first
    | with_reducible assumption
    | with_reducible apply wf_ite
    | with_reducible apply State.slotFails_wf
    | with_reducible apply outWf_next)

theorem State.recoverImage_wf {s : State} {v : List Byte} {n : Nat} {k : BootCheck} (h_s : State.wf s = true) : State.wf (State.recoverImage s v n k) = true := by
  unfold State.recoverImage
  repeat' (first
    | with_reducible assumption
    | (with_reducible intro _; try beta_reduce)
    | with_reducible apply wf_ite
    | with_reducible apply State.bringUp_wf
    | with_reducible apply State.fwCommit_wf
    | with_reducible apply State.fwState_wf
    | with_reducible apply State.letGo_wf
    | with_reducible apply State.setFw_wf
    | with_reducible apply State.showContaining_wf
    | with_reducible apply State.showLoss_wf
    | with_reducible apply State.warmState_wf
    | with_reducible apply foldl_wf
    | with_reducible apply getD_wf
    | with_reducible apply fst_wf
    | with_reducible apply snd_wf
    | with_reducible apply parkWf_of
    | with_reducible apply foldl_park
    | with_reducible apply findSome_wf
    | with_reducible refine optWf_of (by assumption) ?_
    | with_reducible refine accWf_of (by assumption) ?_
    | with_reducible refine accFst_of (by assumption) ?_
    | with_reducible refine optFst_of (by assumption) ?_
    | with_reducible refine optFst_of2 (by assumption) ?_
    | with_reducible refine fstWf_of (by assumption) ?_
    | with_reducible refine sndWf_of (by assumption) ?_
    | with_reducible refine linesHere_of (by assumption) ?_
    | with_reducible refine linesWaiting_of (by assumption) ?_
    | with_reducible refine linesRefused_of (by assumption) ?_
    | with_reducible refine ranDone_of (by assumption) ?_
    | with_reducible refine ranWait_of (by assumption) ?_
    | with_reducible refine dvTo_of (by assumption) ?_
    | (extract_lets +onlyGivenNames x; refine carry (p := x.canon) ?_ ?_; (on_goal 1 => subst x); (on_goal 2 => clear_value x; intro hx))
    | (extract_lets +onlyGivenNames x; refine carry (p := x.1.canon) ?_ ?_; (on_goal 1 => subst x); (on_goal 2 => clear_value x; intro hx))
    | (extract_lets +onlyGivenNames x; clear_value x)
    | split
    | with_reducible apply wf_mk)

theorem State.recoverRecord_wf {s : State} {v : List Byte} {n : Nat} {k : BootCheck} (h_s : State.wf s = true) : State.wf (State.recoverRecord s v n k) = true := by
  unfold State.recoverRecord
  repeat' (first
    | with_reducible assumption
    | (with_reducible intro _; try beta_reduce)
    | with_reducible apply wf_ite
    | with_reducible apply State.fwCommit_wf
    | with_reducible apply State.fwRecord_wf
    | with_reducible apply State.fwResult_wf
    | with_reducible apply State.recoverImage_wf
    | with_reducible apply foldl_wf
    | with_reducible apply getD_wf
    | with_reducible apply fst_wf
    | with_reducible apply snd_wf
    | with_reducible apply parkWf_of
    | with_reducible apply foldl_park
    | with_reducible apply findSome_wf
    | with_reducible refine optWf_of (by assumption) ?_
    | with_reducible refine accWf_of (by assumption) ?_
    | with_reducible refine accFst_of (by assumption) ?_
    | with_reducible refine optFst_of (by assumption) ?_
    | with_reducible refine optFst_of2 (by assumption) ?_
    | with_reducible refine fstWf_of (by assumption) ?_
    | with_reducible refine sndWf_of (by assumption) ?_
    | with_reducible refine linesHere_of (by assumption) ?_
    | with_reducible refine linesWaiting_of (by assumption) ?_
    | with_reducible refine linesRefused_of (by assumption) ?_
    | with_reducible refine ranDone_of (by assumption) ?_
    | with_reducible refine ranWait_of (by assumption) ?_
    | with_reducible refine dvTo_of (by assumption) ?_
    | (extract_lets +onlyGivenNames x; refine carry (p := x.canon) ?_ ?_; (on_goal 1 => subst x); (on_goal 2 => clear_value x; intro hx))
    | (extract_lets +onlyGivenNames x; refine carry (p := x.1.canon) ?_ ?_; (on_goal 1 => subst x); (on_goal 2 => clear_value x; intro hx))
    | (extract_lets +onlyGivenNames x; clear_value x)
    | split
    | with_reducible apply wf_mk)

theorem State.recoveryStage_wf {s : State} {k : BootCheck} (h_s : State.wf s = true) : State.wf (State.recoveryStage s k) = true := by
  unfold State.recoveryStage
  repeat' (first
    | with_reducible assumption
    | (with_reducible intro _; try beta_reduce)
    | with_reducible apply wf_ite
    | with_reducible apply State.recoverRecord_wf
    | with_reducible apply State.recovery_wf
    | with_reducible apply foldl_wf
    | with_reducible apply getD_wf
    | with_reducible apply fst_wf
    | with_reducible apply snd_wf
    | with_reducible apply parkWf_of
    | with_reducible apply foldl_park
    | with_reducible apply findSome_wf
    | with_reducible refine optWf_of (by assumption) ?_
    | with_reducible refine accWf_of (by assumption) ?_
    | with_reducible refine accFst_of (by assumption) ?_
    | with_reducible refine optFst_of (by assumption) ?_
    | with_reducible refine optFst_of2 (by assumption) ?_
    | with_reducible refine fstWf_of (by assumption) ?_
    | with_reducible refine sndWf_of (by assumption) ?_
    | with_reducible refine linesHere_of (by assumption) ?_
    | with_reducible refine linesWaiting_of (by assumption) ?_
    | with_reducible refine linesRefused_of (by assumption) ?_
    | with_reducible refine ranDone_of (by assumption) ?_
    | with_reducible refine ranWait_of (by assumption) ?_
    | with_reducible refine dvTo_of (by assumption) ?_
    | (extract_lets +onlyGivenNames x; refine carry (p := x.canon) ?_ ?_; (on_goal 1 => subst x); (on_goal 2 => clear_value x; intro hx))
    | (extract_lets +onlyGivenNames x; refine carry (p := x.1.canon) ?_ ?_; (on_goal 1 => subst x); (on_goal 2 => clear_value x; intro hx))
    | (extract_lets +onlyGivenNames x; clear_value x)
    | split
    | with_reducible apply wf_mk)

theorem execRecoveryStage_wf {k : BootCheck} {s : State} (h_s : State.wf s = true) : OutWf (execRecoveryStage k s) := by
  unfold execRecoveryStage
  repeat' (first
    | with_reducible assumption
    | with_reducible apply State.recoveryStage_wf
    | with_reducible apply outWf_next)

theorem execReadyTimeout_wf {k : BootCheck} {s : State} (h_s : State.wf s = true) : OutWf (execReadyTimeout k s) := by
  unfold execReadyTimeout
  repeat' (first
    | with_reducible assumption
    | with_reducible apply wf_ite
    | with_reducible apply State.fwRecord_wf
    | with_reducible apply State.loadSettings_wf
    | with_reducible apply State.recovery_wf
    | with_reducible apply outWf_next)

theorem State.schedulerReset_wf {s : State} (h_s : State.wf s = true) : State.wf (State.schedulerReset s) = true := by
  unfold State.schedulerReset
  repeat' (first
    | with_reducible assumption
    | with_reducible apply State.endJobs_wf
    | with_reducible apply State.fwRecord_wf
    | with_reducible apply State.letGo_wf
    | with_reducible apply State.redrive_wf
    | with_reducible apply State.sendLoss_wf
    | with_reducible apply State.setPreg_wf
    | with_reducible apply wf_mk)

theorem State.processorReset_wf {s : State} {kind n : Nat} {k : BootCheck} (h_s : State.wf s = true) : State.wf (State.processorReset s kind n k) = true := by
  unfold State.processorReset
  repeat' (first
    | with_reducible assumption
    | with_reducible apply wf_ite
    | with_reducible apply State.controlFails_wf
    | with_reducible apply State.endTrial_wf
    | with_reducible apply State.fwCommit_wf
    | with_reducible apply State.fwRecord_wf
    | with_reducible apply State.holdBegins_wf
    | with_reducible apply State.schedulerReset_wf
    | with_reducible apply State.trialFails_wf
    | with_reducible apply State.warmReset_wf
    | (extract_lets +onlyGivenNames x; refine carry (p := x.canon) ?_ ?_; (on_goal 1 => subst x); (on_goal 2 => clear_value x; intro hx))
    | split)

theorem execControlProcessorReset_wf {kind n : Nat} {k : BootCheck} {s : State} (h_s : State.wf s = true) : OutWf (execControlProcessorReset kind n k s) := by
  unfold execControlProcessorReset
  repeat' (first
    | with_reducible assumption
    | with_reducible apply State.processorReset_wf
    | with_reducible apply outWf_next)

end Sys2Proof.Machine
end

