-- ==== Sys2Proof/Laws/WfFaults.lean ====
section
/-!
SUPPORT. Every operation of Machine/Faults.lean keeps the canonical form of memory and registers.
-/

namespace Sys2Proof.Machine

open Sys2Proof

theorem State.announceLoss_wf {s : State} (h_s : State.wf s = true) : State.wf (State.announceLoss s) = true := by
  unfold State.announceLoss
  repeat' (first
    | with_reducible assumption
    | (with_reducible intro _; try beta_reduce)
    | with_reducible apply State.dropPasses_wf
    | with_reducible apply State.modJob_wf
    | with_reducible apply State.reschedule_wf
    | with_reducible apply State.sendLoss_wf
    | with_reducible apply State.showContaining_wf
    | with_reducible apply State.showLoss_wf
    | with_reducible apply foldl_wf
    | split)

theorem State.coreFault_wf {s : State} {b slot checker : Nat} (h_s : State.wf s = true) : State.wf (State.coreFault s b slot checker) = true := by
  unfold State.coreFault
  repeat' (first
    | with_reducible assumption
    | with_reducible apply wf_ite
    | with_reducible apply State.contained_wf
    | with_reducible apply State.failSlot_wf
    | with_reducible apply State.remap_wf)

theorem State.scratchFault_wf {s : State} {b slot line : Nat} (h_s : State.wf s = true) : State.wf (State.scratchFault s b slot line) = true := by
  unfold State.scratchFault
  repeat' (first
    | with_reducible assumption
    | with_reducible apply wf_ite
    | with_reducible apply State.contained_wf
    | with_reducible apply State.coreFault_wf
    | with_reducible apply State.report_wf
    | with_reducible apply wf_mk)

theorem State.lineFault_wf {s : State} {line : Nat} (h_s : State.wf s = true) : State.wf (State.lineFault s line) = true := by
  unfold State.lineFault
  repeat' (first
    | with_reducible assumption
    | with_reducible apply State.report_wf
    | with_reducible apply State.setPoison_wf
    | with_reducible apply State.unitPoison_wf
    | (extract_lets +onlyGivenNames x; refine carry (p := x.canon) ?_ ?_; (on_goal 1 => subst x); (on_goal 2 => clear_value x; intro hx))
    | (extract_lets +onlyGivenNames x; clear_value x)
    | split)

theorem State.lineCorrected_wf {s : State} {line : Nat} (h_s : State.wf s = true) : State.wf (State.lineCorrected s line) = true := by
  unfold State.lineCorrected
  repeat' (first
    | with_reducible assumption
    | with_reducible apply State.report_wf
    | with_reducible apply State.count_wf
    | (extract_lets +onlyGivenNames x; clear_value x)
    | split)

theorem State.tableCorrected_wf {s : State} {line : Nat} (h_s : State.wf s = true) : State.wf (State.tableCorrected s line) = true := by
  unfold State.tableCorrected
  repeat' (first
    | with_reducible assumption
    | with_reducible apply State.report_wf)

theorem State.faultDetected_wf {s : State} {kind b slot checker line : Nat} (h_s : State.wf s = true) : State.wf (State.faultDetected s kind b slot checker line) = true := by
  unfold State.faultDetected
  repeat' (first
    | with_reducible assumption
    | with_reducible apply State.announceLoss_wf
    | with_reducible apply State.coreFault_wf
    | with_reducible apply State.lineFault_wf
    | with_reducible apply State.scratchFault_wf
    | with_reducible apply State.lineCorrected_wf
    | with_reducible apply State.tableCorrected_wf
    | split)

theorem execContainedFaultDetection_wf {kind bay slot checker line : Nat} {s : State} (h_s : State.wf s = true) : OutWf (execContainedFaultDetection kind bay slot checker line s) := by
  unfold execContainedFaultDetection
  repeat' (first
    | with_reducible assumption
    | with_reducible apply State.faultDetected_wf
    | with_reducible apply outWf_next)

theorem State.spareFails_wf {s : State} {b slot : Nat} (h_s : State.wf s = true) : State.wf (State.spareFails s b slot) = true := by
  unfold State.spareFails
  repeat' (first
    | with_reducible assumption
    | with_reducible apply wf_ite
    | with_reducible apply State.failSlot_wf
    | with_reducible apply State.report_wf)

theorem execSpareSlotFailure_wf {bay slot : Nat} {s : State} (h_s : State.wf s = true) : OutWf (execSpareSlotFailure bay slot s) := by
  unfold execSpareSlotFailure
  repeat' (first
    | with_reducible assumption
    | with_reducible apply State.spareFails_wf
    | with_reducible apply outWf_next)

theorem State.restorePegs_wf {s : State} {n : Nat} (h_s : State.wf s = true) : State.wf (State.restorePegs s n) = true := by
  unfold State.restorePegs
  repeat' (first
    | with_reducible assumption
    | (with_reducible intro _; try beta_reduce)
    | with_reducible apply wf_ite
    | with_reducible apply State.setPeg_wf
    | with_reducible apply foldl_wf
    | split)

theorem State.drainJob_wf {s : State} {n : Nat} (h_s : State.wf s = true) : State.wf (State.drainJob s n) = true := by
  unfold State.drainJob
  repeat' (first
    | with_reducible assumption
    | with_reducible apply State.answerJoin_wf
    | with_reducible apply State.modJob_wf
    | with_reducible apply State.putPreg_wf
    | with_reducible apply State.restorePegs_wf
    | (extract_lets +onlyGivenNames x; refine carry (p := x.canon) ?_ ?_; (on_goal 1 => subst x); (on_goal 2 => clear_value x; intro hx))
    | split)

theorem State.drainComplete_wf {s : State} (h_s : State.wf s = true) : State.wf (State.drainComplete s) = true := by
  unfold State.drainComplete
  repeat' (first
    | with_reducible assumption
    | (with_reducible intro _; try beta_reduce)
    | with_reducible apply wf_ite
    | with_reducible apply State.drainJob_wf
    | with_reducible apply State.modJob_wf
    | with_reducible apply State.putPreg_wf
    | with_reducible apply State.reloadCopies_wf
    | with_reducible apply State.remap_wf
    | with_reducible apply State.repairAll_wf
    | with_reducible apply foldl_wf
    | (extract_lets +onlyGivenNames x; refine carry (p := x.canon) ?_ ?_; (on_goal 1 => subst x); (on_goal 2 => clear_value x; intro hx))
    | with_reducible apply wf_mk)

theorem execDrainComplete_wf {s : State} (h_s : State.wf s = true) : OutWf (execDrainComplete s) := by
  unfold execDrainComplete
  repeat' (first
    | with_reducible assumption
    | with_reducible apply State.drainComplete_wf
    | with_reducible apply outWf_next)

theorem State.overrun_wf {s : State} {n : Nat} {ep : Episode} (h_s : State.wf s = true) : State.wf (State.overrun s n ep) = true := by
  unfold State.overrun
  repeat' (first
    | with_reducible assumption
    | with_reducible apply wf_ite
    | with_reducible apply State.announceLoss_wf
    | with_reducible apply State.episodeLine_wf
    | with_reducible apply State.modJob_wf
    | with_reducible apply State.report_wf
    | with_reducible apply State.sendContain_wf
    | (extract_lets +onlyGivenNames x; refine carry (p := x.canon) ?_ ?_; (on_goal 1 => subst x); (on_goal 2 => clear_value x; intro hx))
    | (extract_lets +onlyGivenNames x; clear_value x)
    | split)

theorem State.replayJob_wf {s : State} {n : Nat} (h_s : State.wf s = true) : State.wf (State.replayJob s n) = true := by
  unfold State.replayJob
  repeat' (first
    | with_reducible assumption
    | with_reducible apply wf_ite
    | with_reducible apply State.clearBay_wf
    | with_reducible apply State.count_wf
    | with_reducible apply State.overrun_wf
    | with_reducible apply State.setJob_wf
    | with_reducible apply State.showContaining_wf
    | split)

theorem execReplayLaunch_wf {s : State} (h_s : State.wf s = true) : OutWf (execReplayLaunch s) := by
  unfold execReplayLaunch
  repeat' (first
    | with_reducible assumption
    | (with_reducible intro _; try beta_reduce)
    | with_reducible apply State.replayJob_wf
    | with_reducible apply State.reschedule_wf
    | with_reducible apply foldl_wf
    | with_reducible apply outWf_next)

theorem State.mapPart_wf {s : State} {n slot part : Nat} {m : List Byte} {l : List RangeRec} (h_s : s.wf) : OptWf (s.mapPart n slot part m l) := by
  induction l generalizing s with
  | nil => exact optWf_some h_s
  | cons r l ih =>
    unfold State.mapPart
    exact optWf_ite optWf_none (ih (State.mapWeight_wf h_s))

theorem State.promoteEntry_wf {s : State} {e : Entry} (h_s : State.wf s = true) : State.wf (State.promoteEntry s e) = true := by
  unfold State.promoteEntry
  repeat' (first
    | with_reducible assumption
    | with_reducible apply wf_ite
    | with_reducible apply State.complete_wf
    | with_reducible apply State.mapPart_wf
    | with_reducible apply State.modJob_wf
    | with_reducible apply State.setPreg_wf
    | with_reducible apply State.showFree_wf
    | with_reducible refine optWf_of (by assumption) ?_
    | (extract_lets +onlyGivenNames x; clear_value x)
    | split)

theorem execPromote_wf {r : Ring} {s : State} (h_s : State.wf s = true) : OutWf (execPromote r s) := by
  unfold execPromote
  repeat' (first
    | with_reducible assumption
    | (with_reducible intro _; try beta_reduce)
    | with_reducible apply State.onEntry_wf
    | with_reducible apply State.promoteEntry_wf
    | with_reducible apply outWf_next)

theorem State.promoted_wf {s : State} {n : Nat} (h_s : State.wf s = true) : State.wf (State.promoted s n) = true := by
  unfold State.promoted
  repeat' (first
    | with_reducible assumption
    | with_reducible apply wf_ite
    | with_reducible apply State.completeLater_wf
    | with_reducible apply State.report_wf
    | with_reducible apply State.sendContain_wf
    | with_reducible apply State.setJob_wf
    | with_reducible apply State.showBank_wf
    | (extract_lets +onlyGivenNames x; clear_value x)
    | split)

theorem execPromoted_wf {s : State} (h_s : State.wf s = true) : OutWf (execPromoted s) := by
  unfold execPromoted
  repeat' (first
    | with_reducible assumption
    | (with_reducible intro _; try beta_reduce)
    | with_reducible apply State.promoted_wf
    | with_reducible apply foldl_wf
    | with_reducible apply outWf_next)

theorem State.sourceTimeout_wf {s : State} {kind id : Nat} (h_s : State.wf s = true) : State.wf (State.sourceTimeout s kind id) = true := by
  unfold State.sourceTimeout
  repeat' (first
    | with_reducible assumption
    | (with_reducible intro _; try beta_reduce)
    | with_reducible apply State.completeLater_wf
    | with_reducible apply State.fetchFails_wf
    | with_reducible apply State.loadEnd_wf
    | with_reducible apply State.modJob_wf
    | with_reducible apply State.showFree_wf
    | with_reducible apply State.unmapPage_wf
    | with_reducible apply foldl_wf
    | split)

theorem execFetchSourceTimeout_wf {kind id : Nat} {s : State} (h_s : State.wf s = true) : OutWf (execFetchSourceTimeout kind id s) := by
  unfold execFetchSourceTimeout
  repeat' (first
    | with_reducible assumption
    | with_reducible apply State.sourceTimeout_wf
    | with_reducible apply outWf_next)

theorem State.releaseRecord_wf {s : State} {slot : Nat} (h_s : State.wf s = true) : State.wf (State.releaseRecord s slot) = true := by
  unfold State.releaseRecord
  repeat' (first
    | with_reducible assumption
    | with_reducible apply wf_ite
    | with_reducible apply State.setPreg_wf
    | with_reducible apply wf_mk)

theorem execErrlogRelease_wf {v : Word} {s : State} (h_s : State.wf s = true) : OutWf (execErrlogRelease v s) := by
  unfold execErrlogRelease
  repeat' (first
    | with_reducible assumption
    | with_reducible apply State.releaseRecord_wf
    | with_reducible apply outWf_next)

theorem State.injectRecord_wf {s : State} {code : Nat} (h_s : State.wf s = true) : State.wf (State.injectRecord s code) = true := by
  unfold State.injectRecord
  repeat' (first
    | with_reducible assumption
    | with_reducible apply State.report_wf)

theorem execErrlogInjectRecord_wf {v : Word} {s : State} (h_s : State.wf s = true) : OutWf (execErrlogInjectRecord v s) := by
  unfold execErrlogInjectRecord
  repeat' (first
    | with_reducible assumption
    | with_reducible apply wf_ite
    | with_reducible apply State.injectRecord_wf
    | with_reducible apply outWf_next)

theorem State.injectContain_wf {s : State} (h_s : State.wf s = true) : State.wf (State.injectContain s) = true := by
  unfold State.injectContain
  repeat' (first
    | with_reducible assumption
    | with_reducible apply State.contained_wf)

theorem execErrlogInjectContain_wf {v : Word} {s : State} (h_s : State.wf s = true) : OutWf (execErrlogInjectContain v s) := by
  unfold execErrlogInjectContain
  repeat' (first
    | with_reducible assumption
    | with_reducible apply wf_ite
    | with_reducible apply State.injectContain_wf
    | with_reducible apply outWf_next)

theorem State.withdrawTier_wf {s : State} {t : Nat} (h_s : State.wf s = true) : State.wf (State.withdrawTier s t) = true := by
  unfold State.withdrawTier
  repeat' (first
    | with_reducible assumption
    | (with_reducible intro _; try beta_reduce)
    | with_reducible apply State.setTierState_wf
    | with_reducible apply State.showFree_wf
    | with_reducible apply fst_wf
    | with_reducible apply parkWf_of
    | (extract_lets +onlyGivenNames x; refine carry (p := x.canon) ?_ ?_; (on_goal 1 => subst x); (on_goal 2 => clear_value x; intro hx))
    | (extract_lets +onlyGivenNames x; refine carry (p := x.1.canon) ?_ ?_; (on_goal 1 => subst x); (on_goal 2 => clear_value x; intro hx))
    | (extract_lets +onlyGivenNames x; clear_value x)
    | with_reducible apply wf_mk)

theorem State.evacuated_wf {s : State} {t : Nat} (h_s : State.wf s = true) : State.wf (State.evacuated s t) = true := by
  unfold State.evacuated
  repeat' (first
    | with_reducible assumption
    | (with_reducible intro _; try beta_reduce)
    | with_reducible apply wf_ite
    | with_reducible apply State.announceLoss_wf
    | with_reducible apply State.evacuate_wf
    | with_reducible apply State.nextTraining_wf
    | with_reducible apply State.setTierState_wf
    | with_reducible apply State.startMove_wf
    | with_reducible apply State.withdrawTier_wf
    | with_reducible apply fst_wf
    | with_reducible apply snd_wf
    | with_reducible apply parkWf_of
    | (extract_lets +onlyGivenNames x; refine carry (p := x.canon) ?_ ?_; (on_goal 1 => subst x); (on_goal 2 => clear_value x; intro hx))
    | (extract_lets +onlyGivenNames x; refine carry (p := x.1.canon) ?_ ?_; (on_goal 1 => subst x); (on_goal 2 => clear_value x; intro hx))
    | (extract_lets +onlyGivenNames x; clear_value x)
    | split)

theorem execEvacuationComplete_wf {tier : Nat} {s : State} (h_s : State.wf s = true) : OutWf (execEvacuationComplete tier s) := by
  unfold execEvacuationComplete
  repeat' (first
    | with_reducible assumption
    | with_reducible apply State.evacuated_wf
    | with_reducible apply outWf_next)

theorem State.scrub_wf {s : State} {line found : Nat} (h_s : State.wf s = true) : State.wf (State.scrub s line found) = true := by
  unfold State.scrub
  repeat' (first
    | with_reducible assumption
    | with_reducible apply State.count_wf
    | with_reducible apply State.report_wf
    | with_reducible apply State.served_wf
    | with_reducible apply State.setPoison_wf
    | with_reducible apply parkWf_of
    | with_reducible refine optWf_of (by assumption) ?_
    | with_reducible refine optFst_of (by assumption) ?_
    | with_reducible refine optFst_of2 (by assumption) ?_
    | with_reducible refine fstWf_of (by assumption) ?_
    | with_reducible refine sndWf_of (by assumption) ?_
    | (extract_lets +onlyGivenNames x; refine carry (p := x.canon) ?_ ?_; (on_goal 1 => subst x); (on_goal 2 => clear_value x; intro hx))
    | (extract_lets +onlyGivenNames x; clear_value x)
    | split
    | with_reducible apply wf_mk)

theorem execScrubRead_wf {line found : Nat} {s : State} (h_s : State.wf s = true) : OutWf (execScrubRead line found s) := by
  unfold execScrubRead
  repeat' (first
    | with_reducible assumption
    | with_reducible apply outWf_ite
    | with_reducible apply outWf_fault
    | with_reducible apply State.scrub_wf
    | with_reducible apply parkWf_of
    | with_reducible apply outWf_next)

end Sys2Proof.Machine
end

