-- ==== Sys2Proof/Laws/WfEther.lean ====
section
/-!
SUPPORT. Every operation of Machine/Ether.lean keeps the canonical form of memory and registers.
-/

namespace Sys2Proof.Machine

open Sys2Proof

theorem State.echoRoom_wf {s : State} {port : Nat} (h_s : State.wf s = true) : OptWf (State.echoRoom s port) := by
  unfold State.echoRoom
  repeat' (first
    | with_reducible assumption
    | with_reducible apply optWf_some
    | with_reducible apply optWf_none
    | with_reducible apply optWf_ite
    | split
    | with_reducible apply wf_mk)

theorem State.arp_wf {s : State} {port : Nat} {b : List Byte} (h_s : State.wf s = true) : State.wf (State.arp s port b) = true := by
  unfold State.arp
  repeat' (first
    | with_reducible assumption
    | with_reducible apply wf_ite
    | with_reducible apply State.ethDrop_wf
    | with_reducible apply State.learn_wf
    | with_reducible apply State.sendEth_wf)

theorem State.echo4_wf {s : State} {port : Nat} {mac : List Byte} {p : IpPkt} (h_s : State.wf s = true) : State.wf (State.echo4 s port mac p) = true := by
  unfold State.echo4
  repeat' (first
    | with_reducible assumption
    | with_reducible apply wf_ite
    | with_reducible apply State.echoRoom_wf
    | with_reducible apply State.ethDrop_wf
    | with_reducible apply State.sendEth_wf
    | with_reducible refine optWf_of (by assumption) ?_
    | (extract_lets +onlyGivenNames x; clear_value x)
    | split)

theorem State.sendIcmp6_wf {s : State} {port : Nat} {mac src dst body : List Byte} {hop : Nat} (h_s : State.wf s = true) : State.wf (State.sendIcmp6 s port mac src dst body hop) = true := by
  unfold State.sendIcmp6
  repeat' (first
    | with_reducible assumption
    | with_reducible apply State.sendEth_wf)

theorem State.icmp6_wf {s : State} {port : Nat} {mac : List Byte} {p : IpPkt} (h_s : State.wf s = true) : State.wf (State.icmp6 s port mac p) = true := by
  unfold State.icmp6
  repeat' (first
    | with_reducible assumption
    | with_reducible apply wf_ite
    | with_reducible apply State.echoRoom_wf
    | with_reducible apply State.ethDrop_wf
    | with_reducible apply State.learn_wf
    | with_reducible apply State.sendIcmp6_wf
    | with_reducible refine optWf_of (by assumption) ?_
    | split)

theorem State.udp_wf {s : State} {port : Nat} {p : IpPkt} (h_s : State.wf s = true) : State.wf (State.udp s port p) = true := by
  unfold State.udp
  repeat' (first
    | with_reducible assumption
    | with_reducible apply wf_ite
    | with_reducible apply State.audioFrame_wf
    | with_reducible apply State.capSet_wf
    | with_reducible apply State.ethDrop_wf
    | with_reducible apply State.telemReq_wf)

theorem State.ip_wf {s : State} {port : Nat} {mac : List Byte} {p : IpPkt} (h_s : State.wf s = true) : State.wf (State.ip s port mac p) = true := by
  unfold State.ip
  repeat' (first
    | with_reducible assumption
    | with_reducible apply wf_ite
    | with_reducible apply State.echo4_wf
    | with_reducible apply State.ethDrop_wf
    | with_reducible apply State.icmp6_wf
    | with_reducible apply State.udp_wf)

theorem State.ethFrame_wf {s : State} {port : Nat} {f : List Byte} (h_s : State.wf s = true) : State.wf (State.ethFrame s port f) = true := by
  unfold State.ethFrame
  repeat' (first
    | with_reducible assumption
    | with_reducible apply wf_ite
    | with_reducible apply State.arp_wf
    | with_reducible apply State.count_wf
    | with_reducible apply State.count64_wf
    | with_reducible apply State.ethDrop_wf
    | with_reducible apply State.ip_wf
    | split)

theorem execEthFrameReceive_wf {port : Nat} {frame : List Byte} {s : State} (h_s : State.wf s = true) : OutWf (execEthFrameReceive port frame s) := by
  unfold execEthFrameReceive
  repeat' (first
    | with_reducible assumption
    | with_reducible apply State.ethFrame_wf
    | with_reducible apply outWf_next)

end Sys2Proof.Machine
end

