-- ==== Sys2Proof/Laws/WfRegFile.lean ====
section
/-!
SUPPORT. Every operation of Machine/RegFile.lean keeps the canonical form of memory and registers.
-/

namespace Sys2Proof.Machine

open Sys2Proof

theorem State.showCtrl_wf {s : State} {p : Page} (h_s : State.wf s = true) : State.wf (State.showCtrl s p) = true := by
  unfold State.showCtrl
  repeat' (first
    | with_reducible assumption
    | with_reducible apply State.setPreg_wf
    | (extract_lets +onlyGivenNames x; clear_value x)
    | split)

theorem State.ctrlWrite_wf {s : State} {p : Page} {v : Word} (h_s : State.wf s = true) : State.wf (State.ctrlWrite s p v) = true := by
  unfold State.ctrlWrite
  repeat' (first
    | with_reducible assumption
    | with_reducible apply wf_ite
    | with_reducible apply State.refuseReg_wf
    | with_reducible apply State.setPreg_wf
    | with_reducible apply State.showCtrl_wf
    | with_reducible apply State.unmapped_wf)

theorem State.rawIrqWrite_wf {s : State} {p : Page} {v : Word} (h_s : State.wf s = true) : State.wf (State.rawIrqWrite s p v) = true := by
  unfold State.rawIrqWrite
  repeat' (first
    | with_reducible assumption
    | with_reducible apply wf_ite
    | with_reducible apply State.rearm_wf
    | with_reducible apply State.setIrq_wf)

theorem State.vecWrite_wf {s : State} {p : Page} {v : Word} (h_s : State.wf s = true) : State.wf (State.vecWrite s p v) = true := by
  unfold State.vecWrite
  repeat' (first
    | with_reducible assumption
    | with_reducible apply wf_ite
    | with_reducible apply State.refuseReg_wf
    | with_reducible apply State.setPreg_wf
    | (extract_lets +onlyGivenNames x; clear_value x)
    | split)

theorem State.headerWrite_wf {s : State} {p : Page} {r : Nat} {v : Word} (h_s : State.wf s = true) : State.wf (State.headerWrite s p r v) = true := by
  unfold State.headerWrite
  repeat' (first
    | with_reducible assumption
    | with_reducible apply State.ctrlWrite_wf
    | with_reducible apply State.forceIrq_wf
    | with_reducible apply State.rawIrqWrite_wf
    | with_reducible apply State.setIrq_wf
    | with_reducible apply State.setPreg_wf
    | with_reducible apply State.vecWrite_wf
    | split)

theorem State.plainWrite_wf {s : State} {p : Page} {row : RegRow} {v : Word} (h_s : State.wf s = true) : State.wf (State.plainWrite s p row v) = true := by
  unfold State.plainWrite
  repeat' (first
    | with_reducible assumption
    | with_reducible apply wf_ite
    | with_reducible apply State.setPreg_wf
    | with_reducible apply State.txWrite_wf)

theorem State.txnCtrl_wf {s : State} {v : Word} (h_s : State.wf s = true) : State.wf (State.txnCtrl s v) = true := by
  unfold State.txnCtrl
  repeat' (first
    | with_reducible assumption
    | with_reducible apply wf_ite
    | with_reducible apply State.rollBack_wf
    | with_reducible apply State.txnBegin_wf
    | with_reducible apply State.txnCommit_wf
    | split)

theorem State.settingsCtrl_wf {s : State} {v : Word} (h_s : State.wf s = true) : State.wf (State.settingsCtrl s v) = true := by
  unfold State.settingsCtrl
  repeat' (first
    | with_reducible assumption
    | with_reducible apply State.settingsCommit_wf
    | with_reducible apply State.settingsDelete_wf
    | with_reducible apply State.settingsDiscard_wf
    | with_reducible apply State.settingsRead_wf
    | with_reducible apply State.settingsStage_wf
    | split)

theorem State.hdmaWrite_wf {s : State} {n o : Nat} {row : RegRow} {v : Word} (h_s : State.wf s = true) : State.wf (State.hdmaWrite s n o row v) = true := by
  unfold State.hdmaWrite
  repeat' (first
    | with_reducible assumption
    | (with_reducible intro _; try beta_reduce)
    | with_reducible apply wf_ite
    | with_reducible apply State.hdmaCfg_wf
    | with_reducible apply State.hdmaCtrl_wf
    | with_reducible apply State.hdmaTail_wf
    | with_reducible apply State.plainWrite_wf
    | with_reducible apply State.raise_wf
    | with_reducible apply State.setHReg_wf
    | with_reducible apply foldl_wf
    | (extract_lets +onlyGivenNames x; refine carry (p := x.canon) ?_ ?_; (on_goal 1 => subst x); (on_goal 2 => clear_value x; intro hx))
    | (extract_lets +onlyGivenNames x; clear_value x)
    | split)

theorem State.trainWrite_wf {s : State} {t : Nat} {v : Word} (h_s : State.wf s = true) : State.wf (State.trainWrite s t v) = true := by
  unfold State.trainWrite
  repeat' (first
    | with_reducible assumption
    | with_reducible apply wf_ite
    | with_reducible apply State.marginReq_wf
    | with_reducible apply State.retrain_wf)

theorem State.linkWrite_wf {s : State} {n : Nat} {v : Word} (h_s : State.wf s = true) : State.wf (State.linkWrite s n v) = true := by
  unfold State.linkWrite
  repeat' (first
    | with_reducible assumption
    | with_reducible apply wf_ite
    | with_reducible apply State.adaptReq_wf
    | with_reducible apply State.beginTest_wf
    | with_reducible apply State.linkRetrain_wf)

theorem State.ringBaseWrite_wf {s : State} {r : Nat} {row : RegRow} {v : Word} (h_s : State.wf s = true) : State.wf (State.ringBaseWrite s r row v) = true := by
  unfold State.ringBaseWrite
  repeat' (first
    | with_reducible assumption
    | with_reducible apply wf_ite
    | with_reducible apply State.plainWrite_wf
    | with_reducible apply State.refuseReg_wf)

theorem State.blockWrite_wf {s : State} {p : Page} {r : Nat} {row : RegRow} {v : Word} {k : BootCheck} (h_s : State.wf s = true) : State.wf (State.blockWrite s p r row v k) = true := by
  unfold State.blockWrite
  repeat' (first
    | with_reducible assumption
    | with_reducible apply wf_ite
    | with_reducible apply State.acfgWrite_wf
    | with_reducible apply State.acqArm_wf
    | with_reducible apply State.asqTail_wf
    | with_reducible apply State.cadenceLoad_wf
    | with_reducible apply State.hdmaWrite_wf
    | with_reducible apply State.holdWrite_wf
    | with_reducible apply State.injectContain_wf
    | with_reducible apply State.injectRecord_wf
    | with_reducible apply State.linkWrite_wf
    | with_reducible apply State.mediaSel_wf
    | with_reducible apply State.plainWrite_wf
    | with_reducible apply State.pwrGate_wf
    | with_reducible apply State.refuseReg_wf
    | with_reducible apply State.releaseRecord_wf
    | with_reducible apply State.ringBaseWrite_wf
    | with_reducible apply State.ringSel_wf
    | with_reducible apply State.rrcInvalidate_wf
    | with_reducible apply State.setPreg_wf
    | with_reducible apply State.settingsCtrl_wf
    | with_reducible apply State.trainWrite_wf
    | with_reducible apply State.txnCtrl_wf
    | with_reducible apply State.warmReset_wf
    | (extract_lets +onlyGivenNames x; clear_value x)
    | split)

theorem State.pageWrite_wf {s : State} {p : Page} {r : Nat} {v : Word} {k : BootCheck} (h_s : State.wf s = true) : State.wf (State.pageWrite s p r v k) = true := by
  unfold State.pageWrite
  repeat' (first
    | with_reducible assumption
    | with_reducible apply wf_ite
    | with_reducible apply State.blockWrite_wf
    | with_reducible apply State.headerWrite_wf
    | with_reducible apply State.unmapped_wf
    | split)

theorem State.doorbellWrite_wf {s : State} {c o : Nat} {v : Word} (h_s : State.wf s = true) : State.wf (State.doorbellWrite s c o v) = true := by
  unfold State.doorbellWrite
  repeat' (first
    | with_reducible assumption
    | with_reducible apply wf_ite
    | with_reducible apply State.cqArm_wf
    | with_reducible apply State.sqTail_wf
    | with_reducible apply State.unmapped_wf)

theorem State.regionWrite_wf {s : State} {x : Region} {off : Nat} {v : Word} (h_s : State.wf s = true) : State.wf (State.regionWrite s x off v) = true := by
  unfold State.regionWrite
  repeat' (first
    | with_reducible assumption
    | with_reducible apply State.doorbellWrite_wf
    | with_reducible apply State.pegIrq_wf
    | with_reducible apply State.setPeg_wf
    | with_reducible apply State.setReg_wf
    | with_reducible apply State.txWrite_wf
    | split)

theorem State.regWrite_wf {s : State} {off : Nat} {v : Word} {k : BootCheck} (h_s : State.wf s = true) : State.wf (State.regWrite s off v k) = true := by
  unfold State.regWrite
  repeat' (first
    | with_reducible assumption
    | with_reducible apply wf_ite
    | with_reducible apply State.pageWrite_wf
    | with_reducible apply State.regionWrite_wf
    | with_reducible apply State.unmapped_wf
    | split)

theorem execRegisterWrite_wf {off : Nat} {v : Word} {k : BootCheck} {s : State} (h_s : State.wf s = true) : OutWf (execRegisterWrite off v k s) := by
  unfold execRegisterWrite
  repeat' (first
    | with_reducible assumption
    | with_reducible apply State.regWrite_wf
    | with_reducible apply outWf_next
    | with_reducible apply outWf_fault
    | with_reducible apply outWf_ite)

theorem State.pageGet_wf {s : State} {p : Page} {r : Nat} (h_s : State.wf s = true) : SndWf (State.pageGet s p r) := by
  unfold State.pageGet
  repeat' (first
    | with_reducible assumption
    | (with_reducible intro _; try beta_reduce)
    | with_reducible apply wf_ite
    | with_reducible apply State.clockRead_wf
    | with_reducible apply State.setPreg_wf
    | with_reducible apply State.unmapped_wf
    | with_reducible apply fstWf_ite
    | with_reducible apply fstWf_mk
    | with_reducible apply sndWf_ite
    | with_reducible apply sndWf_mk
    | with_reducible apply parkWf_of
    | with_reducible refine optWf_of (by assumption) ?_
    | with_reducible refine optFst_of (by assumption) ?_
    | with_reducible refine optFst_of2 (by assumption) ?_
    | with_reducible refine fstWf_of (by assumption) ?_
    | with_reducible refine sndWf_of (by assumption) ?_
    | (extract_lets +onlyGivenNames x; refine carry (p := x.canon) ?_ ?_; (on_goal 1 => subst x); (on_goal 2 => clear_value x; intro hx))
    | (extract_lets +onlyGivenNames x; clear_value x)
    | split
    | with_reducible apply wf_mk)

theorem State.routeGet_wf {s : State} {off h : Nat} (h_s : State.wf s = true) : SndWf (State.routeGet s off h) := by
  unfold State.routeGet
  repeat' (first
    | with_reducible assumption
    | with_reducible apply wf_ite
    | with_reducible apply fstWf_ite
    | with_reducible apply fstWf_mk
    | with_reducible apply sndWf_ite
    | with_reducible apply sndWf_mk
    | with_reducible refine optWf_of (by assumption) ?_
    | with_reducible refine optFst_of (by assumption) ?_
    | with_reducible refine optFst_of2 (by assumption) ?_
    | with_reducible refine fstWf_of (by assumption) ?_
    | with_reducible refine sndWf_of (by assumption) ?_
    | split
    | with_reducible apply wf_mk)

theorem State.regRead_wf {s : State} {off : Nat} (h_s : State.wf s = true) : SndWf (State.regRead s off) := by
  unfold State.regRead
  split
  · exact sndWf_mk (State.unmapped_wf h_s)
  · split
    · exact State.pageGet_wf h_s
    · split
      · exact sndWf_mk (wf_ite (State.unmapped_wf h_s) h_s)
      · exact State.routeGet_wf h_s
      · exact sndWf_mk h_s
      · exact sndWf_mk (State.unmapped_wf h_s)

theorem State.readReg_wf {s : State} {off : Nat} (h_s : State.wf s = true) : State.wf (State.readReg s off) = true := by
  unfold State.readReg
  repeat' (first
    | with_reducible assumption
    | with_reducible apply wf_ite
    | with_reducible apply State.emit_wf
    | with_reducible apply State.regRead_wf
    | with_reducible apply snd_wf)

theorem execRegisterRead_wf {off : Nat} {s : State} (h_s : State.wf s = true) : OutWf (execRegisterRead off s) := by
  unfold execRegisterRead
  repeat' (first
    | with_reducible assumption
    | with_reducible apply State.readReg_wf
    | with_reducible apply outWf_next
    | with_reducible apply outWf_fault
    | with_reducible apply outWf_ite)

theorem State.bar2Write_wf {s : State} {a : Nat} {bs : List Byte} (h_s : State.wf s = true) : State.wf (State.bar2Write s a bs) = true := by
  unfold State.bar2Write
  repeat' (first
    | with_reducible assumption
    | (with_reducible intro _; try beta_reduce)
    | with_reducible apply wf_ite
    | with_reducible apply State.served_wf
    | with_reducible apply State.unmapped_wf
    | with_reducible apply State.writePa_wf
    | with_reducible apply foldl_wf)

theorem State.poisonToHost_wf {s : State} {line : Nat} (h_s : State.wf s = true) : State.wf (State.poisonToHost s line) = true := by
  unfold State.poisonToHost
  repeat' (first
    | with_reducible assumption
    | with_reducible apply State.report_wf)

theorem State.bar2Read_wf {s : State} {x a n : Nat} (h_s : State.wf s = true) : State.wf (State.bar2Read s x a n) = true := by
  unfold State.bar2Read
  repeat' (first
    | with_reducible assumption
    | (with_reducible intro _; try beta_reduce)
    | with_reducible apply wf_ite
    | with_reducible apply State.emit_wf
    | with_reducible apply State.poisonToHost_wf
    | with_reducible apply State.served_wf
    | with_reducible apply State.unmapped_wf
    | with_reducible apply foldl_wf)

theorem State.bar2_wf {s : State} {x n : Nat} {data : Option (List Byte)} (h_s : State.wf s = true) : State.wf (State.bar2 s x n data) = true := by
  unfold State.bar2
  repeat' (first
    | with_reducible assumption
    | with_reducible apply wf_ite
    | with_reducible apply State.bar2Read_wf
    | with_reducible apply State.bar2Write_wf
    | split)

theorem execBar2Access_wf {x n : Nat} {data : Option (List Byte)} {s : State} (h_s : State.wf s = true) : OutWf (execBar2Access x n data s) := by
  unfold execBar2Access
  repeat' (first
    | with_reducible assumption
    | with_reducible apply State.bar2_wf
    | with_reducible apply outWf_next
    | with_reducible apply outWf_fault
    | with_reducible apply outWf_ite)

end Sys2Proof.Machine
end

