-- ==== Sys2Proof/Laws/WfTick.lean ====
section
/-!
SUPPORT. Every operation of Machine/Tick.lean keeps the canonical form of memory and registers.
-/

namespace Sys2Proof.Machine

open Sys2Proof

theorem State.countUnit_wf {s : State} {lo : Nat} {on : Bool} (h_s : State.wf s = true) : State.wf (State.countUnit s lo on) = true := by
  unfold State.countUnit
  repeat' (first
    | with_reducible assumption
    | with_reducible apply wf_ite
    | with_reducible apply State.count64_wf)

theorem State.countTimes_wf {s : State} (h_s : State.wf s = true) : State.wf (State.countTimes s) = true := by
  unfold State.countTimes
  repeat' (first
    | with_reducible assumption
    | (with_reducible intro _; try beta_reduce)
    | with_reducible apply State.countUnit_wf
    | with_reducible apply foldl_wf)

theorem State.heartbeats_wf {s : State} (h_s : State.wf s = true) : State.wf (State.heartbeats s) = true := by
  unfold State.heartbeats
  repeat' (first
    | with_reducible assumption
    | (with_reducible intro _; try beta_reduce)
    | with_reducible apply wf_ite
    | with_reducible apply State.countWrap_wf
    | with_reducible apply State.useFree_wf
    | with_reducible apply foldl_wf
    | with_reducible apply foldl_wf
    | with_reducible apply foldl_park
    | split)

theorem State.tick_wf {s : State} (h_s : State.wf s = true) : State.wf (State.tick s) = true := by
  unfold State.tick
  repeat' (first
    | with_reducible assumption
    | with_reducible apply wf_ite
    | with_reducible apply State.countTimes_wf
    | with_reducible apply State.heartbeats_wf
    | with_reducible apply State.pump_wf
    | (extract_lets +onlyGivenNames x; refine carry (p := x.canon) ?_ ?_; (on_goal 1 => subst x); (on_goal 2 => clear_value x; intro hx))
    | (extract_lets +onlyGivenNames x; clear_value x)
    | split
    | with_reducible apply wf_mk)

end Sys2Proof.Machine
end

