-- ==== Sys2Proof/Laws/WfExec.lean ====
section
/-!
SUPPORT. Every command keeps the canonical form of memory and registers.
-/

namespace Sys2Proof.Machine

open Sys2Proof

theorem exec_wf (i : Instr) (s : State) (h : s.wf) : OutWf (exec i s) := by
  cases i with
  | passFormation => exact execPassFormation_wf h
  | formationExchangeComplete => exact execFormationExchangeComplete_wf h
  | passStart => exact execPassStart_wf h
  | barrierLineSend => exact execBarrierLineSend_wf h
  | commitBarrierComplete => exact execCommitBarrierComplete_wf h
  | creditWatchdogExpiry => exact execCreditWatchdogExpiry_wf h
  | coreNop => exact execCoreNop_wf h
  | copy => exact execCopy_wf h
  | gather => exact execGather_wf h
  | matmul => exact execMatmul_wf h
  | attn => exact execAttn_wf h
  | vectorOp => exact execVectorOp_wf h
  | quant => exact execQuant_wf h
  | prism => exact execPrism_wf h
  | topk => exact execTopk_wf h
  | pegWaitMet => exact execPegWaitMet_wf h
  | commandRetire => exact execCommandRetire_wf h
  | controlCoreHeartbeatStall => exact execControlCoreHeartbeatStall_wf h
  | progressMonitorExpiry => exact execProgressMonitorExpiry_wf h
  | bayRrcInv => exact execBayRrcInv_wf h
  | rrcInvDone => exact execRrcInvDone_wf h
  | recipeSwitch => exact execRecipeSwitch_wf h
  | stagingDescriptorStart => exact execStagingDescriptorStart_wf h
  | stagingInstall => exact execStagingInstall_wf h
  | attentionCutoff => exact execAttentionCutoff_wf h
  | scatter => exact execScatter_wf h
  | arrivalPegTarget => exact execArrivalPegTarget_wf h
  | returnRows => exact execReturnRows_wf h
  | exchangeGrant => exact execExchangeGrant_wf h
  | grantPegTarget => exact execGrantPegTarget_wf h
  | placementSwitch => exact execPlacementSwitch_wf h
  | mapPages => exact execMapPages_wf h
  | unmapPages => exact execUnmapPages_wf h
  | migrateHint => exact execMigrateHint_wf h
  | demandPromotionComplete => exact execDemandPromotionComplete_wf h
  | demandLate => exact execDemandLate_wf h
  | migrationMoveStart => exact execMigrationMoveStart_wf h
  | migrationMoveComplete => exact execMigrationMoveComplete_wf h
  | decayInterval => exact execDecayInterval_wf h
  | marginCheck => exact execMarginCheck_wf h
  | tierMarginReq => exact execTierMarginReq_wf h
  | tierRetrainReq => exact execTierRetrainReq_wf h
  | evacuationComplete => exact execEvacuationComplete_wf h
  | tierTrainingComplete => exact execTierTrainingComplete_wf h
  | scrubRead => exact execScrubRead_wf h
  | parkWrite => exact execParkWrite_wf h
  | parkComplete => exact execParkComplete_wf h
  | budgetRefill => exact execBudgetRefill_wf h
  | readDisturbRelocation => exact execReadDisturbRelocation_wf h
  | retentionAgeTick => exact execRetentionAgeTick_wf h
  | relocationCommit => exact execRelocationCommit_wf h
  | timeUnknownTimeout => exact execTimeUnknownTimeout_wf h
  | holdupCheck => exact execHoldupCheck_wf h
  | lifetimeCheckpoint => exact execLifetimeCheckpoint_wf h
  | settingsRead => exact execSettingsRead_wf h
  | settingsStage => exact execSettingsStage_wf h
  | settingsDelete => exact execSettingsDelete_wf h
  | settingsCommit => exact execSettingsCommit_wf h
  | settingsDiscard => exact execSettingsDiscard_wf h
  | commitCreditEarned => exact execCommitCreditEarned_wf h
  | settingsPrepareComplete => exact execSettingsPrepareComplete_wf h
  | fetch => exact execFetch_wf h
  | fetchPageArrival => exact execFetchPageArrival_wf h
  | broadcastEnd => exact execBroadcastEnd_wf h
  | swap => exact execSwap_wf h
  | swapExecute => exact execSwapExecute_wf h
  | weightLoad => exact execWeightLoad_wf h
  | promote => exact execPromote_wf h
  | promoted => exact execPromoted_wf h
  | weightStatus => exact execWeightStatus_wf h
  | glintSweepCheck => exact execGlintSweepCheck_wf h
  | ptpEventMessage => exact execPtpEventMessage_wf h
  | lockAcquired => exact execLockAcquired_wf h
  | referenceLossTimeout => exact execReferenceLossTimeout_wf h
  | holdoverExpiry => exact execHoldoverExpiry_wf h
  | portFailback => exact execPortFailback_wf h
  | cadenceInEdge => exact execCadenceInEdge_wf h
  | cadenceLoad => exact execCadenceLoad_wf h
  | cadenceAlarm => exact execCadenceAlarm_wf h
  | ethLinkChange => exact execEthLinkChange_wf h
  | ethFrameReceive => exact execEthFrameReceive_wf h
  | audioInFrame => exact execAudioInFrame_wf h
  | egressTick => exact execEgressTick_wf h
  | openStream => exact execOpenStream_wf h
  | streamActivation => exact execStreamActivation_wf h
  | parkStream => exact execParkStream_wf h
  | resumeStream => exact execResumeStream_wf h
  | closeStream => exact execCloseStream_wf h
  | closeComplete => exact execCloseComplete_wf h
  | parkList => exact execParkList_wf h
  | parkDelete => exact execParkDelete_wf h
  | mediaStreamSel => exact execMediaStreamSel_wf h
  | ringNop => exact execRingNop_wf h
  | jobCreate => exact execJobCreate_wf h
  | jobStart => exact execJobStart_wf h
  | jobDestroy => exact execJobDestroy_wf h
  | jobDestruction => exact execJobDestruction_wf h
  | clientCreate => exact execClientCreate_wf h
  | clientDestroy => exact execClientDestroy_wf h
  | run => exact execRun_wf h
  | runEnd => exact execRunEnd_wf h
  | runLimit => exact execRunLimit_wf h
  | preemptionRequest => exact execPreemptionRequest_wf h
  | preemptionEffective => exact execPreemptionEffective_wf h
  | lineRead => exact execLineRead_wf h
  | lineWrite => exact execLineWrite_wf h
  | pegInc => exact execPegInc_wf h
  | pegAccumulatorFlush => exact execPegAccumulatorFlush_wf h
  | readData => exact execReadData_wf h
  | ack => exact execAck_wf h
  | refuse => exact execRefuse_wf h
  | fenceComplete => exact execFenceComplete_wf h
  | windowEntryWrite => exact execWindowEntryWrite_wf h
  | windowDrainDone => exact execWindowDrainDone_wf h
  | pegCtrlWrite => exact execPegCtrlWrite_wf h
  | pegValueWrite => exact execPegValueWrite_wf h
  | flitReceive => exact execFlitReceive_wf h
  | ackTimeout => exact execAckTimeout_wf h
  | replayRetrain => exact execReplayRetrain_wf h
  | laneFailure => exact execLaneFailure_wf h
  | widthAck => exact execWidthAck_wf h
  | laneTest => exact execLaneTest_wf h
  | testLanes => exact execTestLanes_wf h
  | linkRetrain => exact execLinkRetrain_wf h
  | adapt => exact execAdapt_wf h
  | portDown => exact execPortDown_wf h
  | portTraining => exact execPortTraining_wf h
  | equalisationReadapt => exact execEqualisationReadapt_wf h
  | dedupRecordExpiry => exact execDedupRecordExpiry_wf h
  | routeEntryWrite => exact execRouteEntryWrite_wf h
  | routeEndpointWrite => exact execRouteEndpointWrite_wf h
  | levelChange => exact execLevelChange_wf h
  | dmaNop => exact execDmaNop_wf h
  | dmaCopy => exact execDmaCopy_wf h
  | interleave => exact execInterleave_wf h
  | deinterleave => exact execDeinterleave_wf h
  | bitplane => exact execBitplane_wf h
  | bitplaneInv => exact execBitplaneInv_wf h
  | dmaRetire => exact execDmaRetire_wf h
  | hdmaTail => exact execHdmaTail_wf h
  | hdmaCfg => exact execHdmaCfg_wf h
  | hdmaAbort => exact execHdmaAbort_wf h
  | hdmaStopped => exact execHdmaStopped_wf h
  | hdmaResume => exact execHdmaResume_wf h
  | hdmaSkip => exact execHdmaSkip_wf h
  | hdmaReset => exact execHdmaReset_wf h
  | pcieReadTimeout => exact execPcieReadTimeout_wf h
  | pcieHotReset => exact execPcieHotReset_wf h
  | d3hotEntry => exact execD3hotEntry_wf h
  | msixPendingSend => exact execMsixPendingSend_wf h
  | flr => exact execFlr_wf h
  | dbSqTail => exact execDbSqTail_wf h
  | hostAsqTail => exact execHostAsqTail_wf h
  | dbCqArm => exact execDbCqArm_wf h
  | hostAcqArm => exact execHostAcqArm_wf h
  | hostAcfgEnable => exact execHostAcfgEnable_wf h
  | completionBacklogDrain => exact execCompletionBacklogDrain_wf h
  | txnBegin => exact execTxnBegin_wf h
  | txnCommit => exact execTxnCommit_wf h
  | txnRollback => exact execTxnRollback_wf h
  | commitInstant => exact execCommitInstant_wf h
  | txnTimeout => exact execTxnTimeout_wf h
  | txnPersisted => exact execTxnPersisted_wf h
  | chipReset => exact execChipReset_wf h
  | chipHold => exact execChipHold_wf h
  | ringSel => exact execRingSel_wf h
  | blkIrqErrorRearm => exact execBlkIrqErrorRearm_wf h
  | blkIrqForce => exact execBlkIrqForce_wf h
  | registerWrite => exact execRegisterWrite_wf h
  | fwStage => exact execFwStage_wf h
  | fwStageComplete => exact execFwStageComplete_wf h
  | fwActivate => exact execFwActivate_wf h
  | activation => exact execActivation_wf h
  | fwConfirm => exact execFwConfirm_wf h
  | trialAutoConfirm => exact execTrialAutoConfirm_wf h
  | trialFailure => exact execTrialFailure_wf h
  | bootFlashCheck => exact execBootFlashCheck_wf h
  | recoveryStage => exact execRecoveryStage_wf h
  | readyTimeout => exact execReadyTimeout_wf h
  | controlProcessorReset => exact execControlProcessorReset_wf h
  | governorEvaluation => exact execGovernorEvaluation_wf h
  | modeChange => exact execModeChange_wf h
  | capHost => exact execCapHost_wf h
  | capSet => exact execCapSet_wf h
  | telemReq => exact execTelemReq_wf h
  | capLeaseExpiry => exact execCapLeaseExpiry_wf h
  | capUnacknowledged => exact execCapUnacknowledged_wf h
  | statusWord => exact execStatusWord_wf h
  | readVin => exact execReadVin_wf h
  | readIin => exact execReadIin_wf h
  | readPin => exact execReadPin_wf h
  | readTemperature1 => exact execReadTemperature1_wf h
  | readTemperature2 => exact execReadTemperature2_wf h
  | readTemperature3 => exact execReadTemperature3_wf h
  | pmbusRevision => exact execPmbusRevision_wf h
  | mfrId => exact execMfrId_wf h
  | mfrModel => exact execMfrModel_wf h
  | mfrSerial => exact execMfrSerial_wf h
  | mfrCapSet => exact execMfrCapSet_wf h
  | mfrCapLease => exact execMfrCapLease_wf h
  | mfrCapActive => exact execMfrCapActive_wf h
  | mfrThrottle => exact execMfrThrottle_wf h
  | alertResponse => exact execAlertResponse_wf h
  | pwrBrakeNAssert => exact execPwrBrakeNAssert_wf h
  | pwrBrakeNDeassert => exact execPwrBrakeNDeassert_wf h
  | droopDetect => exact execDroopDetect_wf h
  | droopStepDown => exact execDroopStepDown_wf h
  | thermalThreshold => exact execThermalThreshold_wf h
  | throttleStep => exact execThrottleStep_wf h
  | criticalLimit => exact execCriticalLimit_wf h
  | thermalTrip => exact execThermalTrip_wf h
  | flashTemperature => exact execFlashTemperature_wf h
  | pwrGate => exact execPwrGate_wf h
  | heartbeatLoss => exact execHeartbeatLoss_wf h
  | heartbeatReturn => exact execHeartbeatReturn_wf h
  | holdExpiry => exact execHoldExpiry_wf h
  | inputLow => exact execInputLow_wf h
  | inputLowRecovery => exact execInputLowRecovery_wf h
  | inputCurrent => exact execInputCurrent_wf h
  | supplyEvent => exact execSupplyEvent_wf h
  | containedFaultDetection => exact execContainedFaultDetection_wf h
  | haltReceive => exact execHaltReceive_wf h
  | drainComplete => exact execDrainComplete_wf h
  | replayLaunch => exact execReplayLaunch_wf h
  | lossReceive => exact execLossReceive_wf h
  | silentMemberTimeout => exact execSilentMemberTimeout_wf h
  | joinReceive => exact execJoinReceive_wf h
  | syncReceive => exact execSyncReceive_wf h
  | errlogRelease => exact execErrlogRelease_wf h
  | errlogInjectRecord => exact execErrlogInjectRecord_wf h
  | errlogInjectContain => exact execErrlogInjectContain_wf h
  | powerUp => exact execPowerUp_wf h
  | modResetNAssert => exact execModResetNAssert_wf h
  | modResetNDeassert => exact execModResetNDeassert_wf h
  | warmModuleReset => exact execWarmModuleReset_wf h
  | modPresentNBreak => exact execModPresentNBreak_wf h
  | hostPerstN => exact execHostPerstN_wf h
  | tapReset => exact execTapReset_wf h
  | jtagBypass => exact execJtagBypass_wf h
  | jtagIdcode => exact execJtagIdcode_wf h
  | jtagSamplePreload => exact execJtagSamplePreload_wf h
  | jtagExtest => exact execJtagExtest_wf h
  | jtagClamp => exact execJtagClamp_wf h
  | jtagHighz => exact execJtagHighz_wf h
  | mapComplete => exact execMapComplete_wf h
  | fetchSourceTimeout => exact execFetchSourceTimeout_wf h
  | spareSlotFailure => exact execSpareSlotFailure_wf h
  | retentionScanRead => exact execRetentionScanRead_wf h
  | d3hotExit => exact execD3hotExit_wf h
  | registerRead => exact execRegisterRead_wf h
  | bar2Access => exact execBar2Access_wf h

end Sys2Proof.Machine
end

