-- ==== Sys2Proof/Tests/Slice0.lean ====
section
/-!
SUPPORT. Small tests: well-formedness refuses what it should, the hypotheses of the statements can be met, and single commands against the spec's own numbers.
-/

namespace Sys2Proof.Tests

set_option Elab.async false

open Sys2Proof Sys2Proof.Machine

/-! ### Witnesses: states that meet the hypotheses of the statements -/

/-- A booted module, and one with a lit board and a job 0 that is serving. -/
def up : State := { State.reset with life := .up }
def k0 : BootCheck := ⟨0, true, true, true, true, [], false, true, [], []⟩

theorem wit_StepTakesFrontCommand : { up with pending := [Instr.promoted] }.pending = Instr.promoted :: [] ∧ up.pending = [] := by decide

theorem wit_TickAdvancesCounter : (up.pending = [] ∧ up.life ≠ .held ∧ up.life ≠ .down ∧ up.reqs = [] ∧ (up.now + 1).toNat % 4096 ≠ 0) ∧
    ({ up with now := 4094 }.now + 1).toNat % 4096 ≠ 0 ∧ { up with life := .held }.life = .held := by decide

theorem wit_EveryStepKeepsCanonicalForm : up.wf = true ∧ step { up with pending := [Instr.promoted] } = .next up := ⟨by decide +kernel, rfl⟩

theorem wit_MemoryReadsWhatWasStored : Memory.wf State.reset.mem = true ∧ Memory.wf (up.rawWrite 5 [1, 0, 2]).mem = true := by decide +kernel

theorem wit_RegisterReadsWhatWasStored : (up.setPreg .chip 0x108 1).wf = true := by decide +kernel

theorem wit_HoldAndLowPowerStopService : { up with pcie := { up.pcie with d3hot := true } }.wf = true := by decide +kernel

/-- Vector 2,047 pending and unmasked. -/
def msi : State := ((State.reset.setReg (0x10800 + 63 * 4) 0x80000000).setReg (0x20000 + 2047 * 16 + 12) 0)

theorem wit_PendingInterruptLeaves : (2047 < 2048 ∧ msi.pcie.linkUp = true ∧ wbit (msi.reg (0x10800 + 2047 / 32 * 4)) (2047 % 32) = true ∧
    wbit (msi.reg (0x20000 + 2047 * 16 + 12)) 0 = false) ∧ wbit (up.reg 0x10800) 0 = false := by decide +kernel

/-- Client 63 of job 0 with class 3 present, armed, its completion ring empty. -/
def cl : State := { up with clients := [(63, { classes := 8, armed := true, prod := 1 })] }

theorem wit_DoorbellsAndArms : (mget cl.clients 63 = some { classes := 8, armed := true, prod := 1 } ∧ bit ({ classes := 8 } : Client).classes 3 = true ∧
      wfield (63 : Word) 15 0 < 2 ^ ({ classes := 8 } : Client).sqLog) ∧
    wfield (0 : Word) 15 0 < up.asqSize ∧
    (∃ x, mget (mmod cl.clients 63 (fun y => { y with armed := true })) 63 = some x ∧ x.armed = true ∧ (mget cl.clients 63).isSome = true ∧ wbit (1 : Word) 0 = true ∧
      x.prod = ({ cl with clients := mmod cl.clients 63 (fun y => { y with armed := true }) } : State).clientCons x) ∧
    { up with admin := { prod := 0 } }.admin.prod = { up with admin := { prod := 0 } }.adminCons ∧ up.admin.prod ≠ up.adminCons := by
  refine ⟨by decide +kernel, by decide +kernel, ⟨{ classes := 8, armed := true, prod := 1 }, by decide +kernel⟩, by decide +kernel, by decide +kernel⟩

theorem wit_ResetPinsAndPower : (State.reset.life = .boot ∧ State.reset.resetN = false) ∧ ({ State.reset with resetN := true }.life = .boot ∧ { State.reset with resetN := true }.resetN = true) ∧
    ({ up with life := .down, input := false }.life = .down ∧ { up with life := .down, input := false }.input = false) ∧ up.life = .up ∧
    ({ up with life := .held }.life = .held ∧ { up with life := .held }.tripped = false) ∧ ({ up with tripped := true }.tripped = true ∧ { up with tripped := true }.input = true) := by decide

theorem wit_WarmResetsAndBoundaryScan : (up.life = .up ∧ (up.sendLoss.closeDeep true).txnState ≠ 1 ∧ (up.sendLoss.closeDeep true).txnState ≠ 3) ∧
    (up.setTxnState 1).life = .up ∧ ((up.setTxnState 1).sendLoss.closeDeep true).txnState = 1 ∧ ((up.setTxnState 3).sendLoss.closeDeep true).txnState = 3 ∧
    (0 : Word) ≠ 0x0000A501 ∧ up.input = true ∧ up.resetN = false ∧ { up with resetN := true, input := false }.resetN = true ∧ { up with input := false }.input = false := by decide +kernel

/-- SETTINGS_TYPE 0x1001 with LEN 256, and a value of it in the current copy. -/
def stg : State := (up.setPreg .settings 0x108 0x01001001).setPreg .settings 0x110 0x00010000
def stgR : State := stg.setSettings (fun k => { k with copyA := (SettingsCopy.make 1 0 [(0x1001, [7])]).marked })
def stgTx : State := (stg.setPreg .settings 0x008 4).setTxnState 1

theorem wit_SettingsStoreCommands : (stgR.settingsBusy = false ∧ typeReadable stgR.settingsType = true ∧ mget stgR.settings.records stgR.settingsType = some [7]) ∧
    (stg.settingsInTxn = false ∧ typeWritable stg.settingsType = true ∧ stg.settingsLen ≤ 256 ∧
      bodyBytes (applyStaged stg.settings.records (mset stg.settings.staged stg.settingsType (some (slice stg.settingsData 0 stg.settingsLen)))) ≤ 126904 ∧
      bodyBytes (applyStaged stg.settings.records (mset stg.settings.staged stg.settingsType none)) ≤ 126904) ∧
    (stgTx.settingsBusy = false ∧ stgTx.settingsInTxn = true ∧ typeWritable stgTx.settingsType = true ∧
      bodyBytes (applyStaged stgTx.settings.records (mset stgTx.settings.txnStaged stgTx.settingsType none)) ≤ 126904) ∧
    bodyBytes (applyStaged stg.settings.records stg.settings.staged) ≤ 126904 ∧
    (stg.settings.preparing = none ∧ stg.settings.fwWait = false ∧ stg.settings.txnWait = false ∧ stg.settings.plainWait = false ∧ stg.credits ≠ 0) ∧
    ((up.setPreg .settings 0x110 0).credits = 0) ∧ (up.putStat 0 true).settingsBusy = true := by decide +kernel

/-- A transaction open with one write staged, and one whose instant, tick 5, has come. -/
def txO : State := up.setTxnState 1
def txI : State := { (up.setTxnState 3).setPreg64 .txn 0x110 0x114 5 with now := 5 }

theorem wit_Transactions : (up.txnState ≠ 1 ∧ up.txnState ≠ 3) ∧ (txO.txnState = 1 ∧ txO.txn.full = false ∧ txO.firstBad = none ∧ txO.preg64 .txn 0x108 0x10C = 0) ∧
    (((txO.setPreg64 .txn 0x110 0x114 4096).setTxnState 3).settings.txnStaged = []) ∧
    ((txO.setSettings (fun k => { k with txnStaged := [(0x1001, none)] })).settings.txnStaged ≠ []) ∧
    ({ txI with now := 4 }.txnState = 3 ∧ { txI with now := 4 }.nowN < { txI with now := 4 }.txnInstant) ∧
    ((txO.setPreg .txn 0x118 0).txn.openAt + wfield ((txO.setPreg .txn 0x118 0).preg .txn 0x118) 15 0 * 24576 ≤ (txO.setPreg .txn 0x118 0).nowN) ∧
    (txI.txnState = 3 ∧ txI.txnInstant ≤ txI.nowN ∧ txI.firstBad = none ∧ (∀ e ∈ txI.txn.staged, txI.reg e.1 = e.2.2) ∧ txI.settings.txnStaged = []) ∧
    ({ (up.setTxnState 4) with txn := { persisting := true } }.markCopy.txnState = 4) ∧ (up.txn.persisting = false) ∧
    (txMask (winOff 0 0 0) = some (.window, 0xFFFFFFFF) ∧ wbit (up.preg .window 0x008) 2 = false ∧ wbit ((up.setPreg .window 0x008 4).preg .window 0x008) 2 = true) ∧
    (wbit ((up.setPreg .window 0x100 0x80).preg .window 0x100) 7 = true ∧ (up.draining.any (fun d => d.1 == 7)) = false) := by decide +kernel

/-- Requests of firmware: a staging record with no legal source, an activation of slot 1, and a confirmation of the slot that runs, on trial. -/
def fw (r : List (Nat × List Byte)) : State := (up.setPreg .settings 0x110 0x00010000).setSettings (fun k => { k with copyA := (SettingsCopy.make 1 0 r).marked })
def fwA : State := (fw [(0x1100, List.replicate 16 0)]).setBoot (fun b => { b with running := 1 })
def fwB : State := (fw [(0x1101, [1, 0, 0, 0])]).setBoot (fun b => { b with slotB := { st := 2 }, activate := some 1 })
def fwC : State := (fw [(0x1102, [0, 0, 0, 0])]).setBoot (fun b => { b with slotA := { b.slotA with st := 3 }, jobStart := some 0 })

/-- An image whose signature holds under the vendor's key, which the spec does not give, is assumed by no test: of the stated hypotheses of FW_STAGE the refused form is shown. -/
theorem wit_FirmwareAndProcessors : (fwA.fwRequest 0x1100 = some (List.replicate 16 0) ∧ fwA.fwMay = true ∧ (fwA.stageRecord (List.replicate 16 0)).2.2 = some 0 ∧
      fwA.stageRefusal (List.replicate 16 0) 0 true = some 5) ∧
    ((fw []).setFw 1 (fun f => { f with st := 1 })).stagingSlot = some 1 ∧
    (fwB.fwRequest 0x1101 = some [1, 0, 0, 0] ∧ (fwB.boot.slot 1).st = 2 ∧ fwB.boot.activate = some 1 ∧ fwB.fwMay = true ∧ fwB.jobNums = [] ∧ k0.imageB = true) ∧
    (fwC.fwRequest 0x1102 = some [0, 0, 0, 0] ∧ fwC.fwMay = true ∧ fwC.boot.running = 0 ∧ fwC.onTrial = true) ∧
    ({ fwC with now := 14745600000 }.boot.jobStart = some 0 ∧ 0 + 14745600000 ≤ { fwC with now := 14745600000 }.nowN) ∧
    ((fw [(0x1102, [0, 0, 0, 0])]).onTrial = false) ∧
    ((up.setBoot (fun b => { b with slotA := { st := 4, image := [1] }, slotB := { st := 4, image := [1] } })).boot.slotB.holds = true) ∧
    ({ State.reset with now := 737280000 }.life = .boot ∧ State.reset.boot.since + 737280000 ≤ { State.reset with now := 737280000 }.nowN) ∧
    (up.onTrial = false ∧ State.reset.life ≠ .up) := by decide +kernel

theorem wit_InterruptWordsOfAPage : up.wf = true ∧ Page.ofOffset 0x2018 = some (.cadence, 0x018) ∧ Page.ofOffset 0x2010 = some (.cadence, 0x010) ∧
    (∀ p, Page.ofOffset 0x201C ≠ some (p, 0x018)) ∧ (∀ p, Page.ofOffset 0x2014 ≠ some (p, 0x010)) := by
  refine ⟨by decide +kernel, by decide +kernel, by decide +kernel, fun p h => ?_, fun p h => ?_⟩
  · have e : Page.ofOffset 0x201C = some (.cadence, 0x01C) := by decide +kernel
    rw [e] at h; simp at h
  · have e : Page.ofOffset 0x2014 = some (.cadence, 0x014) := by decide +kernel
    rw [e] at h; simp at h

/-- HOST_ACFG with rings of 64 slots, vector 176; the rings lie in the host region. -/
def rings : State := ((up.setPreg64 .host 0x100 0x104 0x1010400000).setPreg64 .host 0x114 0x118 0x1010500000)

theorem wit_AdminRingsAndLevel : (wbit (0x80B00606 : Word) 31 = true ∧ wbit (up.preg .host 0x108) 31 = false ∧ up.acfgOk ((0x80000505 : Word) &&& 0x87FF1F1F) = false) ∧
    (up.anyJob = false ∧ wfield (up.preg .chip 0x114) 7 0 ≤ wfield (0x00010000 : Word) 23 16 ∧ wfield (0x00010000 : Word) 23 16 ≤ wfield (up.preg .chip 0x114) 15 8) ∧
    wfield (0 : Word) 23 16 < wfield (up.preg .chip 0x114) 7 0 ∧ up.admin.backlog = [] := by decide +kernel

theorem wit_RegisterAccesses : barOffset 0x3FFFFFF = false ∧ (barOffset 0x2100 = true ∧ State.reset.answers = true) ∧ { up with life := .held }.answers = false ∧
    (up.answers = true ∧ { up with life := .recovery }.serves 0x2100 = false) ∧
    (up.serves 0x2FFC = true ∧ Page.ofOffset 0x2FFC = some (.cadence, 0xFFC) ∧ Page.cadence.row 0xFFC = none) ∧
    (Page.ofOffset 0x202C = some (.cadence, 0x02C) ∧ Page.ofOffset 0x2014 = some (.cadence, 0x014)) ∧
    (up.serves 0x2104 = true ∧ mget { up with hiLatch := [(0x2104, 7)] }.hiLatch 0x2104 = some 7) := by decide +kernel

theorem wit_HostWindowOntoMemory : 2 ^ up.pcie.bar2Log < 2 ^ 36 + 1 ∧ (2 ^ 36 - 1 + 1 ≤ 2 ^ up.pcie.bar2Log ∧ up.answers = true ∧ { up with life := .held }.answers = false) ∧
    (up.bar2Target 8 + 4 ≤ bar2End ∧ up.bar2Target 8 + 4 ≤ logBase) ∧ (∀ l ∈ up.poison, l < 8 / 128 ∨ (8 + 4 - 1) / 128 < l) ∧
    bar2End ≤ (up.setPreg .host 0x120 0x1FF).bar2Target 0 ∧ (logBase ≤ (up.setPreg .host 0x120 0x40).bar2Target 0x10000000 ∧ (up.setPreg .host 0x120 0x40).bar2Target 0x10000000 + 4 ≤ logEnd) := by
  decide +kernel

/-! ### States with an entry in a ring -/

/-- An entry of Table 15-5: opcode, then fields by offset, width and value. -/
def ent (op : Nat) (fs : List (Nat × Nat × Nat)) : List Byte := fs.foldl (fun b f => putBytes b f.1 (leBytes f.2.1 f.2.2)) (leBytes 1 op ++ List.replicate 63 0)

/-- A booted and ready module with both admin rings in the host region. -/
def base : State := (((up.setPreg .chip 0x104 (wset (up.preg .chip 0x104) 0)).setPreg64 .host 0x100 0x104 0x1000000000).setPreg64 .host 0x118 0x11C 0x1000010000).setPreg .host 0x108 0x80000606

/-- One entry in the admin ring. -/
def adm (s : State) (e : List Byte) : State := (s.rawWrite 0x1000000000 e).setPreg .host 0x10C 1

/-- Job 0 is serving, its virtual pages 0 to 3 mapped writable to main-tier pages from 0x2000000000, CLASS 0b11. -/
def served0 (j : Job) : State :=
  { base with jobs := [(0, j)], tables := [(level3Key 0 0, 0)]
              leaves := (List.range 4).map (fun p => (vkey 0 p, { write := true, cls := 3, page := 0x200000 + p })) }
def job0 : Job := { phase := .serving, startCt := 0 }

/-- One entry in ring class 0 of client 0, a client of job 0. -/
def cli (s : State) (e : List Byte) : State :=
  ({ s with clients := [(0, { job := 0, classes := 15, tails := [(0, 1)], cqBase := 65536 })] } : State).rawWrite 0x2000000000 e

/-- The command takes the entry, and `p` holds of what it then meets. -/
def taken (s : State) (r : Ring) (op : Nat) (p : State → Entry → Bool) : Bool :=
  match s.takeEntry r op with
  | some (t, some e) => p t e
  | _ => false

theorem taken_meets {s : State} {r : Ring} {op : Nat} {p : State → Entry → Bool} (h : taken s r op p = true) :
    ∃ t e, s.takeEntry r op = some (t, some e) ∧ p t e = true := by
  unfold taken at h
  split at h
  · exact ⟨_, _, ‹_›, h⟩
  · cases h

theorem wit_TakingAnEntry : (base.ready = true ∧ (adm base (ent 0 [])).nextRing = some .admin ∧ ((adm base (ent 0 [])).headEntry .admin).isSome = true) ∧
    taken (adm base (ent 0 [])) .admin 0x00 (fun _ e => e.opcode == 0) = true ∧ (∀ op ∈ [0x00, 0x01, 0x02, 0x03, 0x04, 0x05, 0x10, 0x11, 0x12, 0x20, 0x21, 0x22, 0x30, 0x31, 0x32, 0x33,
      0x34, 0x35, 0x40, 0x50, 0x51, 0x52, 0x53, 0x54], (base.takeEntry .admin op).isNone = true ∧ (match (adm base (ent 0xFF [])).takeEntry .admin op with | some (_, none) => true | _ => false) = true) ∧
    headerBad ⟨.admin, ent 0 [(1, 1, 2)], 0⟩ 1 = some 1 ∧ headerBad ⟨.admin, ent 0 [(3, 1, 1)], 0⟩ 1 = some 3 := by decide +kernel

/-- CLIENT_CREATE of client 63 with class 0 for job 0. -/
def create : List Byte := ent 4 [(16, 1, 63), (17, 1, 0), (18, 1, 1), (19, 1, 6), (20, 1, 6), (24, 8, 0), (32, 8, 65536), (40, 8, 131072)]

theorem wit_EntriesForClients : taken (adm base (ent 0 [])) .admin 0x00 (fun _ e => reservedBad e.bytes [(16, 48)] == none) = true ∧
    taken (adm base (ent 0 [(63, 1, 1)])) .admin 0x00 (fun _ e => reservedBad e.bytes [(16, 48)] == some 63) = true ∧
    taken (adm base create) .admin 0x04 (fun t e => e.f 16 1 == 63 && t.job (e.f 17 1) == none) = true ∧
    taken (adm (served0 { job0 with phase := .loading }) create) .admin 0x04 (fun t e => e.f 18 1 == 1 && t.firmRange 0 (e.f 24 8) (64 * 2 ^ e.f 19 1) false &&
      t.firmRange 0 (e.f 32 8) (32 * 2 ^ e.f 20 1) true && t.firmRange 0 (e.f 40 8) 128 true && mget t.clients 63 == none &&
      (match t.writeVa 0 (e.f 32 8) (leBytes 32 0) with | .ok _ => true | _ => false)) = true ∧
    taken { adm base (ent 5 [(16, 1, 63)]) with clients := [(63, {})] } .admin 0x05 (fun t e => mget t.clients (e.f 16 1) == some {} && reservedBad e.bytes [(17, 47)] == none &&
      !t.streams.any (fun x => x.2.client == e.f 16 1)) = true ∧
    taken (adm base (ent 5 [(16, 1, 63)])) .admin 0x05 (fun t e => mget t.clients (e.f 16 1) == none) = true := by decide +kernel

/-! ### A manifest, a creation block and a placement bank that break no rule -/

/-- `n` zero bytes with fields set. -/
def rec_ (n : Nat) (fs : List (Nat × Nat × Nat)) : List Byte := fs.foldl (fun b f => putBytes b f.1 (leBytes f.2.1 f.2.2)) (List.replicate n 0)

/-- One layer, one common part of a page, one KIND 2 range of a page that stays in flash, one recipe, an expert residency section, a pass plan. -/
def man : List Byte := rec_ 1024 [(0, 4, 0x4D464E42), (4, 2, 1), (6, 2, 6), (8, 8, 7), (20, 2, 1), (22, 1, 1), (28, 2, 1), (30, 2, 1),
  (128, 2, 1), (132, 4, 256), (136, 4, 64), (140, 4, 1), (144, 2, 2), (148, 4, 384), (152, 4, 16), (156, 4, 1), (160, 2, 3), (164, 4, 512), (168, 4, 32), (172, 4, 1),
  (176, 2, 4), (180, 4, 640), (184, 4, 96), (188, 4, 1), (192, 2, 5), (196, 4, 768), (200, 4, 8), (204, 4, 2), (208, 2, 7), (212, 4, 896), (216, 4, 128), (220, 4, 1),
  (256, 2, 0xFFFF), (260, 4, 2), (264, 4, 1), (384, 4, 1), (390, 1, 2), (392, 2, 8), (394, 2, 1), (520, 4, 1), (531, 1, 2),
  (640, 8, 0x34000), (648, 8, 0x34080), (656, 8, 0x34100)]

/-- The block of a standby job of one member, the module itself. -/
def blk : List Byte := rec_ 4096 [(8, 8, 0x10000), (16, 4, 2), (20, 4, 1), (24, 8, 0x20000), (32, 2, 1), (34, 1, 1), (64, 8, 0x32000), (72, 8, 0x32000), (80, 8, 0x30000), (88, 1, 6), (90, 1, 255),
  (91, 1, 2), (96, 4, 24576), (100, 4, 4096), (104, 4, 24576), (108, 2, 1), (110, 2, 1), (116, 2, 8), (120, 2, 9), (122, 1, 1)]

/-- Bytes of memory that are not 0, from an address on. -/
def cells (a : Nat) (bs : List Byte) : List Host.Cell := (bs.zipIdx.filter (fun x => x.1 != 0)).map (fun x => (a + x.2, x.1))

theorem manifest_ok : manifestBad man = none := by decide +kernel

/-- The manifest in slot 0, committed, and the creation block in the host region; the module's own route entry valid for every job. -/
def made : State :=
  { (base.setReg (routeOff 0 + 4) 0x80FF0000) with
    mem := cells 0x1000100000 blk ++ cells (slotBase 0 + 20) (leBytes 4 1024) ++ cells (slotPage 0 1) man
    genSlots := [(0, { st := 2 })] }

/-- The same job, created, its four pages mapped writable, its pegs 0 to 9, its windows 0 to 3 and its placement bank in order. -/
def jobL : Job := { block := blk, manifest := man, level := { active := 2 } }
def bankBytes : List Byte :=
  rec_ 3264 [(0, 2, 1), (2, 2, 2), (4, 2, 1), (8, 2, 1), (10, 1, 2), (11, 1, 2), (12, 2, 4096), (14, 2, 2), (16, 2, 0), (18, 2, 2), (20, 2, 4), (22, 2, 2), (24, 1, 1),
    (32, 8, 0x33000), (2176, 1, 1), (2180, 4, 0), (2208, 1, 1), (2212, 4, 1024), (2240, 8, 0), (2256, 8, 0x10000)]
def startable : State :=
  let s := (List.range 10).foldl (fun s p => s.setReg (pegOff p 1) 0x48) (base.setReg (routeOff 0 + 4) 0x80FF0000)
  let s := (List.range 4).foldl (fun s w => ((s.setReg (winOff 0 w 0) 0x1D).setReg (winOff 0 w 4) 0x10000).setReg (winOff 0 w 6) 0x00100000) s
  { s with
    jobs := [(0, jobL)], tables := [(level3Key 0 0, 0)], mem := cells 0x2000032000 bankBytes
    leaves := (List.range 4).map (fun p => (vkey 0 p, { write := true, cls := 3, page := 0x200000 + p })) }

theorem wit_JobLife_create : taken (adm made (ent 1 [(16, 8, 0x1000100000)])) .admin 0x01 (fun t e =>
    let blk := t.readPa (e.f 16 8) 4096
    let m := t.slotManifest (getLE blk 89 1)
    let j : Job := { block := blk, manifest := m, myMember := getLE blk 112 2, priv := none, level := { active := getLE blk 91 1 } }
    t.job e.jobNum == none && e.f 16 8 % 4096 == 0 && inHostRegion (e.f 16 8) 4096 && reservedBad e.bytes [(24, 40)] == none && decide (getLE blk 89 1 ≤ 1) &&
      (t.gslot (getLE blk 89 1)).st == 2 && manifestBad m == none && getLE blk 90 1 == 255 && getLE blk 91 1 == 2 && getLE blk 92 1 == 0 && t.membersBad e.jobNum j == none) = true := by
  decide +kernel

theorem wit_JobLife_map : (match ((made.grantLines.setJob 0 jobL).needTable (level1Key 0)).mapRanges 0 jobL (manRanges man) with
    | some u => u.bankTrips 0 jobL == none
    | none => false) = true := by decide +kernel

theorem wit_JobLife_start : taken (adm startable (ent 2 [(16, 8, 24576)])) .admin 0x02 (fun t e => (t.job e.jobNum).any (fun j => j.phase == .loading && reservedBad e.bytes [(24, 40)] == none &&
    decide (t.nowN + 24576 ≤ e.f 16 8) && firstFail (t.blockChecks e.jobNum j) == none && t.recipeAreasBad e.jobNum j == none && initRecipesBad j.manifest == none)) = true := by decide +kernel

theorem wit_JobLife_placement : startable.placementBad 0 jobL = none := by decide +kernel

/-! ### Jobs and switches -/

/-- Job 0 serves (or is in the phase given), with one admin entry waiting; the manifest is the small one. -/
def run0 (j : Job) (e : List Byte) : State := adm (served0 { j with manifest := man, block := blk, level := { active := 2 } }) e

/-- What the admin entry of an opcode meets at job 0. -/
def meets (s : State) (op : Nat) (p : State → Entry → Job → Bool) : Bool := taken s .admin op (fun t e => (t.job e.jobNum).any (fun j => p t e j))

theorem wit_JobLife_ends :
    taken (run0 job0 (ent 1 [])) .admin 0x01 (fun t e => (t.job e.jobNum).isSome) = true ∧
    taken (adm base (ent 1 [])) .admin 0x01 (fun t e => t.job e.jobNum == none && !inHostRegion (e.f 16 8) 4096) = true ∧
    taken (adm { made with genSlots := [] } (ent 1 [(16, 8, 0x1000100000)])) .admin 0x01 (fun t e => t.job e.jobNum == none && e.f 16 8 % 4096 == 0 && inHostRegion (e.f 16 8) 4096 &&
      reservedBad e.bytes [(24, 40)] == none && decide (getLE (t.readPa (e.f 16 8) 4096) 89 1 ≤ 1) && (t.gslot (getLE (t.readPa (e.f 16 8) 4096) 89 1)).st != 2) = true ∧
    meets (run0 job0 (ent 2 [])) 0x02 (fun _ _ j => j.phase != .loading) = true ∧
    meets (run0 { job0 with phase := .loading } (ent 2 [])) 0x02 (fun t e j => j.phase == .loading && reservedBad e.bytes [(24, 40)] == none && decide (e.f 16 8 < t.nowN + 24576)) = true ∧
    meets (run0 job0 (ent 3 [])) 0x03 (fun _ e j => j.phase != .destroying && reservedBad e.bytes [(24, 40)] == none) = true ∧
    meets (run0 { job0 with phase := .destroying } (ent 3 [])) 0x03 (fun _ _ j => j.phase == .destroying) = true ∧
    taken (adm base (ent 3 [])) .admin 0x03 (fun t e => t.job e.jobNum == none) = true ∧
    ((served0 { job0 with phase := .destroying, destroy := some {}, suspended := true }).jobNums = [0] ∧
      (served0 {}).destroyDue { job0 with phase := .destroying, destroy := some {}, suspended := true } = true) ∧ base.jobNums = [] := by decide +kernel

/-- A placement bank in order is that of `wit_JobLife_placement`, whose check includes the bank's. -/
theorem wit_Switches : (∀ op ∈ [0x20, 0x21, 0x22], meets (run0 { job0 with phase := .loading } (ent op [])) op (fun _ _ j => j.phase != .serving) = true ∧
      meets (run0 job0 (ent op [(16, 1, 4)])) op (fun _ e j => j.phase == .serving && decide (3 < e.f 16 1)) = true) ∧
    meets (run0 job0 (ent 0x20 [])) 0x20 (fun t e j => j.phase == .serving && decide (e.f 16 1 < 2) && reservedBad e.bytes [(17, 7), (32, 32)] == none && j.recipe.pending == none && decide (e.f 24 8 < t.nowN + 24576)) = true ∧
    meets (run0 job0 (ent 0x20 [(24, 8, 24576)])) 0x20 (fun t e j => j.phase == .serving && decide (e.f 16 1 < 2) && reservedBad e.bytes [(17, 7), (32, 32)] == none && j.recipe.pending == none && decide (t.nowN + 24576 ≤ e.f 24 8) &&
      t.recipesBad e.jobNum j (e.f 16 1) == none) = true ∧
    meets (run0 job0 (ent 0x21 [])) 0x21 (fun t e j => j.phase == .serving && decide (e.f 16 1 < 2) && reservedBad e.bytes [(17, 7), (32, 32)] == none && j.placement.pending == none && decide (e.f 24 8 < t.nowN + 24576)) = true ∧
    meets (run0 job0 (ent 0x22 [(16, 1, 2)])) 0x22 (fun t e j => j.phase == .serving && decide (2 ≤ e.f 16 1 ∧ e.f 16 1 ≤ 3) && reservedBad e.bytes [(17, 7), (32, 32)] == none && j.level.pending == none && decide (e.f 24 8 < t.nowN + 24576)) = true ∧
    meets (run0 job0 (ent 0x22 [(16, 1, 3), (24, 8, 24576)])) 0x22 (fun t e j => j.phase == .serving && decide (2 ≤ e.f 16 1 ∧ e.f 16 1 ≤ 3) && reservedBad e.bytes [(17, 7), (32, 32)] == none && j.level.pending == none && decide (t.nowN + 24576 ≤ e.f 24 8)) = true := by decide +kernel

/-! ### Streams -/

/-- An open descriptor: G.711 at 8 kHz, frames of 20 samples, its rings at virtual 0 and 0x10000, LEAD 24,576, NEXT_OUT_CT 49,152. -/
def opn : List Byte := rec_ 128 [(18, 2, 16), (24, 8, 49152), (32, 4, 24576), (64, 8, 65536), (72, 1, 20), (73, 1, 20), (74, 1, 0x11), (75, 1, 0x11), (76, 2, 20), (78, 2, 20)]

/-- A stream of client 0 and job 0 in a state of Table 10-6. -/
def str (st : Nat) : Stream := { e := putBytes opn 0 (leBytes 1 st) }

/-- Job 0 serves, a client entry waits, streams stand in its table. -/
def runC (j : Job) (e : List Byte) (xs : List (Nat × Stream)) : State :=
  let s := cli (served0 { j with manifest := man }) e
  { s with streams := xs }

/-- What the client entry of an opcode meets. -/
def meetsC (s : State) (op : Nat) (p : State → Entry → Job → Bool) : Bool := taken s (.client 0 0) op (fun t e => (t.job e.job).any (fun j => p t e j))

/-- STREAM_OPEN reads the open descriptor at 0x20000. -/
def opening (d : List Byte) (xs : List (Nat × Stream)) : State := (runC job0 (ent 0x30 [(24, 8, 0x20000)]) xs).rawWrite 0x2000020000 d
def opens (s : State) (p : State → Stream → Job → Bool) : Bool :=
  meetsC s 0x30 (fun t e j => j.phase == .serving && decide (e.f 16 2 < 16384) && reservedBad e.bytes [(18, 6), (32, 32)] == none && e.f 24 8 % 128 == 0 && t.firmRange e.job (e.f 24 8) 128 false &&
    (match t.readVa e.job (e.f 24 8) 128 with | .ok bs => p t { e := bs } j | _ => false))
def openOk (t : State) (x : Stream) (j : Job) : Bool :=
  openBad j.manifest (wfield (t.preg (.eth x.port) 0x104) 13 0) x == none && t.firmRange 0 x.inBase (x.inStride * x.inCount) false && t.firmRange 0 x.outBase (x.outStride * x.outCount) true

/-- PARK, RESUME or CLOSE meets a stream of its job. -/
def onStream (st : Nat) (e : List Byte) (op : Nat) (p : State → Entry → Stream → Bool) : Bool :=
  meetsC (runC job0 e [(0, str st)]) op (fun t e j => j.phase == .serving && decide (e.f 16 2 < 16384) && (t.stream (e.f 16 2)).any (fun x => x.job == e.job && p t e x))

theorem wit_StreamLife_open : meetsC (runC { job0 with phase := .loading } (ent 0x30 []) []) 0x30 (fun _ _ j => j.phase != .serving) = true ∧
    opens (opening opn [(0, str 1)]) (fun t _ _ => (t.stream 0).isSome) = true ∧
    opens (opening (List.replicate 128 0) []) (fun t x j => t.stream 0 == none && (openBad j.manifest (wfield (t.preg (.eth x.port) 0x104) 13 0) x).isSome) = true ∧
    opens (opening (putBytes opn 24 (leBytes 8 1)) []) (fun t x j => openOk t x j && decide (x.nextOut < x.lead + t.nowN + 24576)) = true ∧
    opens (opening opn []) (fun t x j => openOk t x j && t.stream 0 == none && decide (x.lead + t.nowN + 24576 ≤ x.nextOut) && x.u 48 8 == 0) = true ∧
    opens (opening (putBytes opn 48 (leBytes 8 5)) []) (fun t x j => openOk t x j && t.stream 0 == none && decide (x.lead + t.nowN + 24576 ≤ x.nextOut) && x.u 48 8 != 0 && mget t.sets (x.u 48 8) == none) = true := by
  decide +kernel

theorem wit_StreamLife_park : (∀ st ∈ [1, 3], onStream st (ent 0x31 [(24, 8, 5)]) 0x31 (fun _ e x => reservedBad e.bytes [(19, 5), (32, 32)] == none && decide (e.f 18 1 ≤ 1) && e.f 24 8 != 0 && x.st == st) = true) ∧
    (∀ st ∈ [1, 3], onStream st (ent 0x32 [(24, 8, 49152)]) 0x32 (fun t e x => reservedBad e.bytes [(18, 6), (32, 32)] == none && x.st == st && !x.release && decide (x.lead + t.nowN + 24576 ≤ e.f 24 8) &&
      t.tailFrames (e.f 16 2) x job0 == 0) = true) ∧
    onStream 3 (ent 0x32 []) 0x32 (fun t e x => reservedBad e.bytes [(18, 6), (32, 32)] == none && x.st == 3 && decide (e.f 24 8 < x.lead + t.nowN + 24576)) = true ∧
    (∀ st ∈ [0, 1, 2, 3], onStream st (ent 0x33 []) 0x33 (fun _ e x => reservedBad e.bytes [(18, 46)] == none && x.close == none && x.st == st) = true) := by decide +kernel

/-- A ready egress frame of stream 0: SEQ 0, tick 0. -/
def ready : List Byte := rec_ 160 [(0, 1, 0x21)]
def egress (s : State) : State := ({ s with streams := [(0, { str 1 with out := [⟨0, 0, false⟩] })] } : State).rawWrite 0x2000010000 ready

theorem wit_StreamProgress : (({ str 4 with op := some (.client 0 0, 0, 0x30) } : Stream).st = 4 ∧ (runC job0 [] [(0, str 4)]).deepTails 0 = [] ∧ (str 1).st ≠ 4) ∧
    ((egress (served0 job0)).nowN = 0 ∧ (egress (served0 job0)).mediaStopped = false ∧ (egress (served0 job0)).mediaParked = false ∧
      (match (egress (served0 job0)).readVa 0 ((str 1).outBase + 0 % (str 1).outCount * (str 1).outStride) (32 + (str 1).outBytes) with | .ok bs => slotReady (str 1) 0 ⟨0, 0, false⟩ bs | _ => false) = true) ∧
    ((served0 job0).setPreg .media 0x100 (wset 0 30)).mediaStopped = true ∧ (str 5).st = 5 ∧ (runC job0 [] [(0, str 5)]).inAnyPass 0 0 = false := by decide +kernel

/-- An audio-in datagram of 20 µ-law samples, SEQ `q`. -/
def audio (q n : Nat) : List Byte := rec_ 52 [(0, 1, 0x11), (4, 4, q), (24, 2, 20), (26, 1, 20), (28, 2, n)]
def fits (p : List Byte) (x : Stream) (s : State) : Bool :=
  decide (32 ≤ p.length) && getLE p 0 1 == 0x11 && s.stream (getLE p 2 2) == some x && x.st == 1 && getLE p 8 8 == x.u 40 8 && x.bound && List.replicate 16 0 == slice x.e 80 16 && 0 == x.u 96 2 && 0 == x.port
def whole (p : List Byte) (x : Stream) : Bool :=
  getLE p 26 1 == x.u 72 1 && getLE p 28 2 == x.inSamples && getLE p 24 2 == x.inSamples * x.inCh * audioBytes x.inFmt && p.length == 32 + getLE p 24 2

theorem wit_AudioFramesReceived : ([] : List Byte).length < 32 ∧ (32 ≤ (audio 0 20).length ∧ getLE (audio 0 20) 0 1 = 0x11 ∧ base.stream 0 = none) ∧
    ((str 1).st = 1 ∧ getLE (putBytes (audio 0 20) 8 [1]) 8 8 ≠ (str 1).u 40 8) ∧
    (fits (audio 0 19) (str 1) (runC job0 [] [(0, str 1)]) = true ∧ getLE (audio 0 19) 28 2 ≠ (str 1).inSamples) ∧
    (fits (audio (2 ^ 32 - 1) 20) (str 1) (runC job0 [] [(0, str 1)]) = true ∧ whole (audio (2 ^ 32 - 1) 20) (str 1) = true ∧ 2 ^ 31 ≤ (getLE (audio (2 ^ 32 - 1) 20) 4 4 + 2 ^ 32 - (str 1).inNext) % 2 ^ 32) ∧
    (whole (audio 2 20) (str 1) = true ∧ (str 1).inCount ≤ (getLE (audio 2 20) 4 4 + 2 ^ 32 - (str 1).inNext) % 2 ^ 32) ∧
    (whole (audio 1 20) (str 1) = true ∧ (getLE (audio 1 20) 4 4 + 2 ^ 32 - (str 1).inNext) % 2 ^ 32 < (str 1).inCount ∧ mget ({ str 1 with inSlots := [(1, 1)] } : Stream).inSlots (getLE (audio 1 20) 4 4 % 2) = some 1 ∧
      mget (str 1).inSlots (getLE (audio 1 20) 4 4 % (str 1).inCount) ≠ some (getLE (audio 1 20) 4 4)) ∧
    (match (runC job0 [] [(0, str 1)]).writeVa 0 (0 % 2 * (str 1).inStride) (List.replicate 64 0 ++ (planar 4 1 20 ((audio 0 20).drop 32)).1.flatMap (leBytes 4)) with | .ok _ => true | _ => false) = true := by decide +kernel

/-! ### The deep tier -/

theorem wit_ParkSetsNamed : (∀ n ∈ [0, 4097], meets (run0 job0 (ent 0x34 [(40, 4, n)])) 0x34 (fun _ e j => j.phase == .serving && reservedBad e.bytes [(16, 8), (44, 20)] == none && decide (e.f 40 4 = 0 ∨ 4096 < e.f 40 4)) = true) ∧
    meets { run0 job0 (ent 0x34 [(40, 4, 1)]) with sets := [(5, ⟨List.replicate 64 0, [], []⟩)] } 0x34 (fun t e j => j.phase == .serving && reservedBad e.bytes [(16, 8), (44, 20)] == none && decide (0 < e.f 40 4 ∧ e.f 40 4 ≤ 4096) &&
      (match t.writeVa e.jobNum (e.f 24 8) (((t.sets.filter (fun x => decide (e.f 32 8 < x.1))).take (e.f 40 4)).map (fun x => slice x.2.record 0 64)).flatten with | .ok _ => true | _ => false)) = true ∧
    meets (run0 job0 (ent 0x35 [(24, 8, 5)])) 0x35 (fun t e j => j.phase == .serving && reservedBad e.bytes [(16, 8), (32, 32)] == none && mget t.sets (e.f 24 8) == none) = true ∧
    meets { run0 job0 (ent 0x35 [(24, 8, 5)]) with sets := [(5, ⟨[], [], []⟩)] } 0x35 (fun t e j => j.phase == .serving && reservedBad e.bytes [(16, 8), (32, 32)] == none && (mget t.sets (e.f 24 8)).isSome && t.streams.all (fun x => x.2.st != 4)) = true := by
  decide +kernel

theorem wit_WriteBudgetRefills : up.wf = true := by decide +kernel

/-- The deep tier is ready; block 0 is being refreshed. -/
def deep : State := base.setPreg .deep 0x100 0x820

theorem wit_FlashBlocks : (({ reads := 60000 } : Block).moving = 0 ∧ readLimit 0 ≤ ({ reads := 60000 } : Block).reads ∧ readLimit (2 ^ 48) = 400000) ∧ mget base.blocks 0 = none ∧ ({ reads := 59999 } : Block).reads < readLimit 0 ∧
    ({ base with blocks := [(0, { moving := 2 })] }.block 0).moving ≠ 0 ∧ ({ base with blocks := [(2 ^ 48, { moving := 1 })] }.block (2 ^ 48)).moving ≠ 0 ∧ blockPark 0 = false ∧ blockPark (2 ^ 48) = true ∧
    (∀ k < 3, base.packageTemp k < 90) ∧ (base.block 0).moving = 0 ∧ base.ptpTime = none ∧
    (wbit (deep.preg .deep 0x100) 11 = true ∧ mget { deep with blocks := [(0, {})] }.blocks 0 = some {} ∧ ({} : Block).scanned = false ∧ ({} : Block).moving = 0) := by decide +kernel

/-- A staging descriptor of page 0 of list (0, 0) of stream 0, for frame 0, park unit 5. -/
def stgD : Stage := { bay := 0, desc := rec_ 32 [(0, 4, 5)], issued := true, started := true }

theorem wit_StagingAndDeepChecks : (deep.deepReads = true ∧ earliest [{ stgD with started := false }] = some { stgD with started := false } ∧ deep.movesDue.any (fun m => m.kind == .demand && (deep.startMove m).isSome) = false ∧
      (mget [(5, 0)] (({ stgD with started := false } : Stage).ref % 2 ^ 29)).isSome = true ∧ mget deep.unitKeys 5 = none) ∧ base.deepReads = false ∧
    ({ deep with stages := [stgD] }.stages.find? (fun g => g.issued && g.started && g.seq == 0) = some stgD ∧ (str 1).job = stgD.key.job ∧ { deep with stages := [stgD] }.stageBad stgD true 0 = some 0x102 ∧
      { deep with unitKeys := [(5, 0)] }.stageBad stgD false 0 = some 0x103 ∧ (str 1).tailAt 0 = true ∧ (str 1).len = 0) ∧ pteState (pteMake 2 true 5 0) = 2 ∧ pteState 0 ≠ 2 ∧
    deep.stages.find? (fun g => g.issued && g.started && g.seq == 0) = none := by decide +kernel

/-! ### Memory tiers -/

/-- Every tier is trained. -/
def warm (s : State) : State := (List.range 10).foldl (fun s t => s.setPreg (tierPage t) 0x100 0x11) s
def tiers : State := warm base

/-- Whatever the free value, an empty die of the near tier has a page. -/
theorem free_page {s : State} (h : s.tablePages = []) (hu : s.usedPages = []) : ∃ p, s.freePageOf 8 = some p := by
  have h2 : tierPages 8 = 393215 + 1 := rfl
  simp only [State.freePageOf, h, hu, h2]
  unfold searchFrom
  simp [structPages]

theorem place_near {s : State} (h : s.tablePages = []) (hu : s.usedPages = []) (hr : (nearOrder 0 0 none).find? (s.hasRoom false) = some 8) : ∃ r, s.placeNew 0 2 0 = some r := by
  obtain ⟨p, hp⟩ := free_page h hu
  exact ⟨({ s.useFree with usedPages := sinsert s.usedPages p }, p), by simp [State.placeNew, State.placeEvict, State.placeOn, hr, hp]⟩

theorem wit_PagesMapped_place : ∃ r, tiers.placeNew 0 2 0 = some r := place_near (by decide +kernel) rfl (by decide +kernel)

/-- A free page of the near tier is found by MAP of one zeroed page of CLASS 0b10, whatever the free value. -/
theorem wit_PagesMapped_zero : ∃ t e u, (run0 job0 []).tables ≠ [] ∧
    ({ adm (warm { base with jobs := [(0, job0)] }) (ent 0x10 [(16, 8, 0), (24, 4, 1), (28, 1, 4)]) with tables := [] } : State).takeEntry .admin 0x10 = some (t, some e) ∧ t.job e.jobNum = some job0 ∧
    rangeBad e = none ∧ e.f 28 1 < 32 ∧ e.f 28 1 / 8 ≠ 3 ∧ reservedBad e.bytes [(30, 2), (40, 24)] = none ∧ e.f 29 1 = 0 ∧ t.mapped e.jobNum (e.f 16 8 / 65536) (e.f 24 4) = [] ∧
    t.classFits (e.f 28 1 / 2 % 4) (e.f 24 4) = true ∧ t.mapZero e.jobNum (bit (e.f 28 1) 0) (e.f 28 1 / 2 % 4) (e.f 28 1 / 8) (e.f 16 8 / 65536) (e.f 24 4) = some u := by
  obtain ⟨t, e, h, hp⟩ := taken_meets (s := { adm (warm { base with jobs := [(0, job0)] }) (ent 0x10 [(16, 8, 0), (24, 4, 1), (28, 1, 4)]) with tables := [] }) (r := .admin) (op := 0x10)
    (p := fun t e => t.job e.jobNum == some job0 && rangeBad e == none && e.f 28 1 == 4 && reservedBad e.bytes [(30, 2), (40, 24)] == none && e.f 29 1 == 0 && e.f 16 8 == 0 && e.f 24 4 == 1 &&
      t.mapped e.jobNum 0 1 == [] && t.classFits 2 1 && t.tablePages == [] && t.usedPages == [] && (nearOrder 0 0 none).find? (t.hasRoom false) == some 8) (by decide +kernel)
  simp only [Bool.and_eq_true, beq_iff_eq] at hp
  obtain ⟨⟨⟨⟨⟨⟨⟨⟨⟨⟨⟨h1, h2⟩, h3⟩, h4⟩, h5⟩, h6⟩, h7⟩, h8⟩, h9⟩, ht⟩, hu⟩, hr⟩ := hp
  obtain ⟨r, hpl⟩ := place_near ht hu hr
  refine ⟨t, e, (((r.1.clearPage r.2).served (r.2 * 65536) 65536).addTable e.jobNum 0).setLeaf e.jobNum 0 { write := false, cls := 2, affinity := 0, page := r.2 }, by decide +kernel, h, h1, h2, by omega, by omega, h4, h5, ?_, ?_, ?_⟩
  · rw [h6, h7]; exact h8
  · rw [h3, h7]; exact h9
  · rw [h3, h6, h7]; simp [State.mapZero, hpl, bit]

/-- A range of virtual pages `v` on. -/
def range_ (op v n : Nat) (fs : List (Nat × Nat × Nat)) : List Byte := ent op ([(16, 8, v * 65536), (24, 4, n)] ++ fs)

theorem wit_PagesMapped : (inPage 5 0x50000 = true ∧ inPage 5 0x60000 = false) ∧
    meets (run0 job0 (range_ 0x10 0 1 [])) 0x10 (fun t e _ => rangeBad e == none && e.f 29 1 == 0 && reservedBad e.bytes [(30, 2), (40, 24)] == none && !(t.mapped e.jobNum (e.f 16 8 / 65536) (e.f 24 4)).isEmpty) = true ∧
    meets (run0 job0 (range_ 0x10 8 1 [(28, 1, 4)])) 0x10 (fun t e _ => rangeBad e == none && (t.mapped e.jobNum (e.f 16 8 / 65536) (e.f 24 4)).isEmpty && !t.classFits (e.f 28 1 / 2 % 4) (e.f 24 4)) = true ∧
    meets (run0 job0 (range_ 0x10 8 1 [(29, 1, 1)])) 0x10 (fun t e j => rangeBad e == none && e.f 29 1 == 1 && !bit (e.f 28 1) 0 && (match mapSource j e with | .ok _ => true | .error _ => false) &&
      (t.mapped e.jobNum (e.f 16 8 / 65536) (e.f 24 4)).isEmpty && t.classFits (e.f 28 1 / 2 % 4) (e.f 24 4)) = true ∧
    (served0 job0).mapReady ⟨.admin, 0, 0, 0, 4⟩ = true ∧ (served0 job0).maps = [] ∧
    meets (run0 job0 (range_ 0x11 0 1 [])) 0x11 (fun _ e _ => rangeBad e == none && reservedBad e.bytes [(28, 36)] == none) = true ∧
    meets (run0 job0 (range_ 0x12 0 1 [(28, 1, 3)])) 0x12 (fun _ e _ => rangeBad e == none && decide (2 < e.f 28 1)) = true ∧
    meets (run0 job0 (range_ 0x12 0 4 [(28, 1, 1)])) 0x12 (fun t e _ => rangeBad e == none && reservedBad e.bytes [(29, 3), (40, 24)] == none && decide (e.f 24 4 ≤ (t.mapped e.jobNum (e.f 16 8 / 65536) (e.f 24 4)).length) &&
      (t.mapped e.jobNum (e.f 16 8 / 65536) (e.f 24 4)).all (fun v => (t.leafOf e.jobNum v).any (fun l => classAllows l.cls (e.f 28 1)))) = true := by decide +kernel

/-- A move of virtual page 9, which nothing maps, and a demand promotion of virtual page 0. -/
def mv (k : MoveKind) (v : Nat) (started : Bool) : Move := { job := 0, vpage := v, kind := k, dest := 1, deadline := 5, age := 0, started := started }
def moving (m : Move) : State := { served0 job0 with moves := [m] }
/-- Virtual page 0 lies in flash, in the weight region. -/
def flashLeaf (s : State) : State := { s with leaves := [(vkey 0 0, { cls := 3, page := 0x1000000 / 16 })] }

theorem wit_PagesMoved : base.mapMoves.preferMoves.keepFree.movesDue = [] ∧
    ((moving (mv .hint 9 false)).mapMoves.preferMoves.keepFree.movesDue.head? = some (mv .hint 9 false) ∧ ((moving (mv .hint 9 false)).mapMoves.preferMoves.keepFree.startMove (mv .hint 9 false)).isSome = true) ∧
    ((moving (mv .hint 0 true)).moves.find? (fun m => m.isOf 0 0 && m.started && m.kind != .demand) = some (mv .hint 0 true) ∧ (moving (mv .hint 0 true)).leafOf 0 0 = some { write := true, cls := 3, page := 0x200000 } ∧
      tierOf false (0x200000 * 65536) = some 1) ∧
    ((moving (mv .hint 9 true)).leafOf 0 9 = none ∧ base.moves = []) ∧
    ((moving (mv .demand 0 true)).moves.find? (fun m => m.isOf 0 0 && m.kind == .demand) = some (mv .demand 0 true)) ∧
    (deep.deepReads = true ∧ tierOf false (deepBase / 65536 * 65536) = some 2) ∧
    ((moving (mv .demand 0 false)).moves.find? (fun m => m.isOf 0 0 && m.kind == .demand) = some (mv .demand 0 false)) ∧
    (5 < { moving (mv .demand 0 false) with now := 6 }.nowN ∧ (mv .demand 0 false).late = false) := by decide +kernel

theorem wit_TierTraining : (tiers.tierState 9 = 1 ∧ base.tierState 0 = 0 ∧ (∀ x < 10, tiers.tierState x ≠ 2 ∧ tiers.tierState x ≠ 3)) ∧
    ((tiers.setTierState 0 3).tierState 1 = 1 ∧ (tiers.setTierState 0 3).tierState 0 = 3) ∧
    (inWindow (tiers.preg (tierPage 9) 0x104) 200 0 0 = false ∧ inWindow (calWord 50 0 1) 58 15 2 = true ∧ inWindow (calWord 50 0 1) 59 0 1 = false) ∧
    ((tiers.setTierState 9 2).tierState 9 = 2 ∧ (tiers.setTierState 9 2).tierUsed 9 = 0 ∧ (tiers.setTierState 9 2).trainQueue = [] ∧ [(9, true)].any (fun e => e.1 == 9 && e.2) = true) ∧
    ({ tiers with usedPages := [393216] }.tierUsed 9 = 1 ∧ tiers.moves = []) ∧ wfield (tiers.preg (tierPage 0) 0x108) 15 8 < 1 := by decide +kernel

/-! ### Parking, weights -/

/-- Stream 0 is parking with no page of its own, under key 5. -/
def parking : Stream := { str 2 with key := 5, op := some (.client 0 0, 0, 0x31) }
def jobP : Job := { job0 with manifest := man, block := blk }
def counts (s : State) (j : Job) (x : Stream) : Nat × Nat × Nat := parkCounts ((s.streamPages j x.job 0 x).map (fun g => (s.parkPageOf j x g.1 g.2.1 g.2.2.1, g.2.2.2)))

theorem wit_ParkingAStream : base.stream 0 = none ∧ ((str 1).st ≠ 2 ∧ { deep with flashTemp := [(0, 90)] }.flashHot = true) ∧
    (parking.st = 2 ∧ parking.plan = none ∧ base.inAnyPass 0 0 = false ∧ base.flashHot = false ∧ base.deepState ≠ 2 ∧ deep.deepState = 2 ∧ counts deep jobP parking = (0, 0, 0) ∧ deep.freeUnits ≠ 0 ∧
      counts deep jobP parking = (0, 0, 0) ∧ (0 : Nat) + jobP.arena.usedPen.length < jobP.penRecords ∧ deep.sets.length + deep.newSets < 262144 ∧ (0 : Int) ≤ deep.level) ∧
    ({ parking with plan := some { mode := 1 } }.plan = some { mode := 1 } ∧ parking.op = some (.client 0 0, 0, 0x31) ∧ parking.release = false ∧ parking.close = none) := by decide +kernel

/-- Slot 0 holds a manifest; a storage head fills it, slot page `p` being next. -/
def fman (m : List Byte) : State := { deep with mem := cells (slotBase 0 + 20) (leBytes 4 1024) ++ cells (slotPage 0 1) m }
def fet (todo : List Nat) (tries tree : Nat) : Fetch := { ring := .admin, cookie := 0, slot := 0, block := rec_ 512 [(256, 1, 2)], known := true, todo := todo, tries := tries, treeTries := tree }
/-- The common part with another ROOT: no page has both for its digest. -/
def manD : List Byte := putBytes man 288 [1]
/-- The common part with two pages and a tree page, slot page 4. -/
def manT : List Byte := putBytes (putBytes (putBytes man 264 [2]) 268 [4]) 272 [1]
def partT : Part := manPart manT 0

theorem fetch_page : (∀ m ∈ [man, manD], (fman m).deepState = 2 ∧ (fman m).flashHot = false ∧ (fman m).fetchDue (fet [2] 0 0) 2 = true ∧ (fet [2] 0 0).source = 2 ∧ treeOf ((fman m).slotManifest 0) 2 = none) ∧
    (partAt ((fman man).slotManifest 0) 2).map (fun x => (x.role, x.first, (fman man).storedLeaf 0 x (2 - x.first))) = some (0xFFFF, 2, List.replicate 32 0) ∧
    (partAt ((fman manD).slotManifest 0) 2).map (fun x => (x.role, x.first, (fman manD).storedLeaf 0 x (2 - x.first))) = some (0xFFFF, 2, 1 :: List.replicate 31 0) ∧ base.fetch = none := by decide +kernel

/-- A page that does not match: it has at most one of the two ROOTs. (The kernel cannot hash 64 KiB, so a page that matches is not shown.) -/
theorem wit_WeightFetches_page (data : List Byte) : ∃ m ∈ [man, manD], ∃ x, partAt ((fman m).slotManifest 0) 2 = some x ∧ leafDigest x.role (2 - x.first) (slice data 0 65536) ≠ (fman m).storedLeaf 0 x (2 - x.first) := by
  obtain ⟨-, h1, h2, -⟩ := fetch_page
  simp only [Option.map_eq_some_iff, Prod.mk.injEq] at h1 h2
  obtain ⟨x, hx, r1, f1, s1⟩ := h1
  obtain ⟨y, hy, r2, f2, s2⟩ := h2
  by_cases h : leafDigest 0xFFFF 0 (slice data 0 65536) = List.replicate 32 0
  · exact ⟨manD, by simp, y, hy, by rw [s2, r2, f2, Nat.sub_self, h]; decide⟩
  · exact ⟨man, by simp, x, hx, by rw [s1, r1, f1, Nat.sub_self]; exact h⟩

set_option maxRecDepth 100000 in
theorem wit_WeightFetches_tree : ((fman manT).fetchDue (fet [4] 0 0) 4 = true ∧ (treeOf ((fman manT).slotManifest 0) 4).map (·.tree) = some 4 ∧ (fman manT).treeOk 0 { partT with root := List.replicate 32 0 } = false) ∧
    ((∃ q ∈ [5], partT.tree + 1 ≤ q) ∧ partT.treePages = 1) ∧
    (fman manT).treeOk 0 { partT with root := sha256 (treePrefix 1 0xFFFF 0 ++ List.replicate 64 0) } = true := by decide +kernel

/-- FETCH of slot 0 at RATE 24, the fetch block at 0x1000100000. -/
def fetching (f : Option Fetch) : State := { adm (base.rawWrite 0x1000100000 (rec_ 512 [(256, 1, 2)])) (ent 0x50 [(17, 1, 24), (24, 8, 0x1000100000)]) with fetch := f }
def fetchOk (t : State) (e : Entry) : Bool := decide (e.f 16 1 ≤ 1 ∧ 0 < e.f 17 1 ∧ e.f 17 1 ≤ 24) && reservedBad e.bytes [(18, 6)] == none && inHostRegion (e.f 24 8) 512 && reservedBad e.bytes [(32, 32)] == none &&
  fetchBlockBad (t.readPa (e.f 24 8) 512) == none

theorem wit_WeightFetches_entries : taken (fetching none) .admin 0x50 (fun t e => fetchOk t e && t.fetch == none && t.gslotCode (e.f 16 1) != 1 && t.gslotCode (e.f 16 1) != 3) = true ∧
    taken (fetching (some (fet [] 0 0))) .admin 0x50 (fun t e => fetchOk t e && t.fetch.isSome) = true ∧ ({ fet [] 0 0 with block := rec_ 512 [(256, 1, 4)] } : Fetch).source = 4 ∧
    taken (adm base (ent 0x54 [(16, 1, 2)])) .admin 0x54 (fun _ e => decide (1 < e.f 16 1)) = true ∧
    taken { adm base (ent 0x54 []) with genSlots := [(0, { st := 2 })] } .admin 0x54 (fun t e => reservedBad e.bytes [(17, 47)] == none && (t.gslot (e.f 16 1)).st == 2) = true ∧
    taken (adm base (ent 0x54 [])) .admin 0x54 (fun t e => reservedBad e.bytes [(17, 47)] == none && (t.gslot (e.f 16 1)).st != 2) = true := by decide +kernel

/-- Layer 0's weights are one KIND 0 range of the common part; slot 0 holds the same model. -/
def manW : List Byte := putBytes man 531 [0]
def swapped (m : List Byte) (e : List Byte) : State :=
  let s := warm (adm (served0 { job0 with manifest := manW, block := blk }) e)
  { s with mem := s.mem ++ cells (slotBase 0 + 20) (leBytes 4 1024) ++ cells (slotPage 0 1) m, genSlots := [(0, { st := 2 })] }
def swapBase (t : State) (e : Entry) (j : Job) : Bool :=
  j.phase == .serving && decide (e.f 16 1 < manLayers j.manifest ∧ e.f 17 1 ≤ 1 ∧ e.f 18 1 ≤ 3) && reservedBad e.bytes [(19, 5), (32, 32)] == none && (t.gslot (e.f 17 1)).st == 2 &&
    manTag (t.slotManifest (e.f 17 1)) == manTag j.manifest
def swapSame (t : State) (e : Entry) (j : Job) : Bool :=
  sameRanges (layerRecords j.manifest (e.f 16 1)) (layerRecords (t.slotManifest (e.f 17 1)) (e.f 16 1)) && sameRanges (j.swapRanges j.manifest (e.f 16 1)) (j.swapRanges (t.slotManifest (e.f 17 1)) (e.f 16 1))
def swapN (t : State) (e : Entry) (j : Job) : Nat := (swapPages (t.slotManifest (e.f 17 1)) (e.f 17 1) (j.swapRanges (t.slotManifest (e.f 17 1)) (e.f 16 1))).length

theorem wit_WeightSwapsAndLoads_swap : meets { swapped manW (ent 0x51 []) with swaps := [{ ring := .admin, cookie := 0, job := 0, layer := 0, slot := 0, effective := 0 }] } 0x51 (fun t e j => swapBase t e j &&
      t.swaps.any (fun x => x.job == e.jobNum && x.layer == e.f 16 1)) = true ∧
    meets { swapped manW (ent 0x51 []) with genSlots := [] } 0x51 (fun t e j => j.phase == .serving && t.swaps.isEmpty && (t.gslot (e.f 17 1)).st != 2) = true ∧
    meets (swapped man (ent 0x51 [])) 0x51 (fun t e j => swapBase t e j && t.swaps.isEmpty && !swapSame t e j) = true ∧
    meets (swapped manW (ent 0x51 [])) 0x51 (fun t e j => swapBase t e j && swapSame t e j && decide (e.f 24 8 < t.nowN + 24576 + stagingCt (swapN t e j))) = true ∧
    meets (swapped manW (ent 0x51 [(24, 8, 24657)])) 0x51 (fun t e j => swapBase t e j && swapSame t e j && swapN t e j == 1 && decide (t.nowN + 24576 + stagingCt 1 ≤ e.f 24 8) && decide (1 + 786432 ≤ t.dramFree) &&
      !manPrivileged j.manifest (e.f 16 1)) = true ∧
    (served0 job0).dramFree < 786432 ∧ { now := 5 : State }.nowN < 6 := by decide +kernel

/-- A load of one page of range 0 from a host address, its digest at virtual 0. -/
def wl : WLoad := { ring := .admin, cookie := 0, job := 0, bytes := ent 0x52 [(24, 4, 1), (48, 8, 3 * 2 ^ 62)] }

theorem wit_WeightSwapsAndLoads_load : meets (run0 job0 (ent 0x52 [(24, 4, 1), (40, 8, 0), (48, 8, 3 * 2 ^ 62)])) 0x52 (fun t e j => decide (e.f 16 4 < secCount j.manifest 3) && decide (2 ≤ (manRange j.manifest (e.f 16 4)).kind) &&
      decide (e.f 20 4 + e.f 24 4 ≤ (manRange j.manifest (e.f 16 4)).pages) && reservedBad e.bytes [(30, 2), (36, 4)] == none && adBitsOk (e.f 48 8) && decide (2 ≤ adSpace (e.f 48 8)) && reservedBad e.bytes [(56, 8)] == none &&
      (match t.transRange e.jobNum (e.f 40 8) (32 * e.f 24 4) false with | .bad _ _ _ => false | _ => true)) = true ∧
    ((match (served0 job0).readVa wl.job (wl.digests + 32 * wl.pos) 32 with | .ok d => d.length == 32 | _ => false) = true ∧ adSpace wl.source = 3 ∧ wl.count ≤ wl.pos + 1) ∧
    (adSpace ({ wl with bytes := ent 0x52 [(24, 4, 1)] } : WLoad).source = 0 ∧ (match (served0 job0).readVa 0 0 256 with | .ok d => getLE d 0 1 == 0 | _ => false) = true) := by decide +kernel

set_option maxRecDepth 100000 in
theorem wit_GlintSweepAndPromotion : (isWeight 0x200000 = false ∧ isWeight (slotPage 0 2 / 65536) = true ∧ base.homes = [] ∧ base.holders 0x200000 = [] ∧ (base.gslot 0).st ≠ 2) ∧
    (mget { fman man with homes := [(0x200000, slotPage 0 2 / 65536)] }.homes 0x200000).isSome = true ∧ ((fman man).partOf (slotPage 0 2 / 65536)).isSome = true ∧
    ({ fman man with homes := [(0x200000, slotPage 0 2 / 65536)] } : State).onlyStaged 0x200000 = false ∧
    ({ fman man with swaps := [{ ring := .admin, cookie := 0, job := 0, layer := 0, slot := 0, effective := 0, shadow := true, pages := [(9, slotPage 0 2 / 65536, 0x200000)] }] } : State).onlyStaged 0x200000 = true ∧
    ((fman manT).deepState = 2 ∧ (fman manT).lostPages = [] ∧ pageSlot (slotPage 0 2 / 65536) = 0 ∧ treeOf ((fman manT).slotManifest 0) 2 = none ∧ (partAt ((fman manT).slotManifest 0) 2).isSome = true ∧
      (treeOf ((fman manT).slotManifest 0) 4).map (·.tree) = some 4) ∧
    meets (run0 { job0 with phase := .loading } (ent 0x53 [])) 0x53 (fun _ _ j => j.phase != .serving) = true ∧ jobL.standby = true ∧ base.jobs = [] := by decide +kernel

/-! ### Passes and the cores -/

theorem wit_PassLabels : ({ lastLabel := some 7, block := blk } : Job).relabel = none ∧ 0 < ({ block := blk } : Job).passCt ∧ ({} : Job).lastLabel = none := by decide +kernel

/-- Job 0 serves with its block, windows and pegs. -/
def jobR (j : Job) : Job := { j with phase := .serving, block := blk, manifest := man, priv := some 0 }
def running (j : Job) : State := { startable with jobs := [(0, jobR j)] }
/-- A pass whose barrier is out, of SEQ `q`, its base `b`. -/
def psB (q b : Nat) : Pass := { seq := q, barrierSent := true, barrierBase := b, start := some 0 }

theorem wit_PassesFormedAndStarted : (∀ n ∈ base.jobNums, False) ∧ (running {}).jobNums = [0] ∧ (running {}).formationDue 0 (jobR { formAt := some 0 }) = true ∧
    reached ((running {}).pegValue (jobR {}).formPeg) ((0 + (jobR {}).formPeers) % 2 ^ 32) = false ∧
    (reached ((running {}).pegValue (jobR {}).formPeg) ((4294967294 + (jobR {}).formPeers) % 2 ^ 32) = true ∧ (running {}).pegValue (jobR {}).formPeg ≠ (4294967294 + (jobR {}).formPeers) % 2 ^ 32) ∧
    ((running {}).pegValue (jobR {}).formPeg = (4294967295 + (jobR {}).formPeers) % 2 ^ 32 ∧ (match (running {}).bitmaps 0 (jobR {}) 0 (jobR {}).formPeers with | .ok b => b.length == 1 | _ => false) = true) ∧
    ((jobR { formed := some { start := some 0 } }).executing = none ∧ (running {}).faultCt = none ∧ (jobR {}).halts 0 = false ∧ (jobR {}).ended 0 = false ∧ (jobR {}).suspended = false ∧ (jobR {}).lossWait = []) ∧
    (running {}).nowN < 1 := by decide +kernel

theorem wit_PassesCommitted : ((jobR { formed := some {} }).formed.isSome = true ∧ { running {} with holder := some (.pass 0) }.baysQuiet 0 = true ∧ ({ begun := true } : Pass).barrierSent = false ∧ (jobR {}).halts 0 = false) ∧
    (running {}).holder ≠ some (.pass 0) ∧ (psB 0 0).barrierSent = true ∧ reached ((running {}).pegValue (jobR {}).barrierPeg) (((psB 0 0).barrierBase + (jobR {}).members) % 2 ^ 32) = false ∧
    ((jobR {}).members = 1 ∧ reached ((running {}).pegValue (jobR {}).barrierPeg) ((4294967294 + 1) % 2 ^ 32) = true ∧ (running {}).pegValue (jobR {}).barrierPeg ≠ (4294967294 + 1) % 2 ^ 32) ∧
    ((running {}).pegValue (jobR {}).barrierPeg = (4294967295 + 1) % 2 ^ 32 ∧
      (match (running {}).barrierLines 0 (jobR {}) 0 1 with | .ok ls => ls.all (fun l => getLE l 0 8 == 0 && getLE l 8 8 == 0) && ls.length == 1 | _ => false) = true ∧
      (match (running {}).barrierLines 0 (jobR {}) 1 1 with | .ok ls => ls.findIdx? (fun l => getLE l 0 8 != 1 || getLE l 8 8 != 0) == some 0 | _ => false) = true) := by decide +kernel

/-- RUN of client 0. -/
def runE (start limit : Nat) : State := runC job0 (ent 0x40 [(32, 8, start), (40, 4, limit)]) []
/-- A run that holds, or waits for, the cores. -/
def rn (n : Nat) : Run := { uid := n, heldFrom := some 0, limit := 24576 }
def held (h : Option Holder) : State := { base with holder := h, runs := [rn 1] }

theorem wit_CoresShared : meetsC (runE 24576 24575) 0x40 (fun _ e j => j.phase == .serving && decide (e.f 24 8 < 2 ^ 52 ∧ e.f 40 4 < 24576)) = true ∧
    meetsC (runE 24575 24576) 0x40 (fun t e j => j.phase == .serving && decide (24576 ≤ e.f 40 4) && reservedBad e.bytes [(44, 20)] == none && decide (e.f 32 8 < t.nowN + 24576)) = true ∧
    meetsC (runE 24576 24576) 0x40 (fun t e j => j.phase == .serving && decide (24576 ≤ e.f 40 4) && reservedBad e.bytes [(44, 20)] == none && decide (t.nowN + 24576 ≤ e.f 32 8) && !j.suspended) = true ∧
    ((held none).holder = none ∧ (held none).faultCt = none ∧ (held none).best.isSome = true ∧ (held none).preempting = none) ∧
    ((held none).best.any (fun b => decide (b.2.headD 4 < (held none).unitClass (.pass 5))) = true ∧ (held none).best.any (fun b => decide ((held none).unitClass (.run 1) ≤ b.2.headD 4)) = true ∧ (Holder.pass 5).steady = false) ∧
    ({ base with ccHeld := [(0, 0, [])] }.baysQuiet 0 = false ∧ (base.tailDone 0 = true ∧ base.baysQuiet 0 = true) ∧ base.best = none) ∧
    (base.preemptReady = true ∧ { base with cores := [(0, { q := [[]], started := true })] }.preemptReady = false) ∧
    ((held (some (.run 1))).runs.find? (fun r => r.uid == 1) = some (rn 1) ∧ (rn 1).held + ((held none).nowN - (rn 1).heldFrom.getD 0) < (rn 1).limit ∧ (rn 1).limit ≤ (rn 1).held + ({ base with now := 24576 }.nowN - (rn 1).heldFrom.getD 0)) := by
  decide +kernel

/-! ### Power -/

/-- A management message of a type, from the peer that ETH_MGMT_PEER0 names. -/
def mg (typ w l : Nat) : MgmtIn := ⟨List.replicate 15 0 ++ [1], 0, rec_ 32 [(0, 4, 0x52575042), (4, 1, 1), (5, 1, typ), (12, 2, w), (14, 2, l)]⟩
def peered : State := up.setPreg (.eth 0) 0x180 1

theorem wit_PmbusReads : up.governed = true ∧ State.reset.governed = false := by decide +kernel

theorem wit_CapsAndModes : (up.life = .up ∧ pec ([0xB4, 0xD0] ++ leBytes 2 0) = BitVec.ofNat 8 (pec ([0xB4, 0xD0] ++ leBytes 2 0)).toNat ∧ pec ([0xB4, 0xD0] ++ leBytes 2 2800) ≠ pec ([0xB4, 0xD0] ++ leBytes 2 1200)) ∧
    (0 < 1199 ∧ 1199 < 1200 ∧ 2800 < 2801 ∧ 3600 < 3601) ∧ (mgmtOk 1 (mg 1 2800 3600).msg = true ∧ peered.mgmtPeer 0 (mg 1 0 0).addr = true ∧ getLE (mg 1 2800 3600).msg 12 2 = 2800 ∧ getLE (mg 1 2800 3600).msg 14 2 = 3600) ∧
    getLE (mg 1 2801 0).msg 12 2 = 2801 ∧ mgmtOk 1 (mg 3 0 0).msg = false ∧ up.mgmtPeer 0 (mg 1 0 0).addr = false ∧ mgmtOk 3 (mg 3 0 0).msg = true ∧
    ((up.pw (fun p => { p with smbus := { watts := 1200, expiry := some 0 } })).power.smbus.expiry = some 0 ∧ up.nowN ≤ 0 ∧ 0 < { up with now := 1 }.nowN ∧ up.power.eth.expiry = none) ∧
    ((up.pw (fun p => { p with unacked := some 0 })).power.unacked = some 0 ∧ up.nowN < 0 + 24576 ∧ 0 + 24576 ≤ { up with now := 24576 }.nowN) ∧
    (wfield (up.preg .pwr 0x104) 1 0 = up.pwrMode ∧ wfield ((up.setPreg .pwr 0x104 2).preg .pwr 0x104) 1 0 = 2 ∧ (2 : Nat) ≠ (up.setPreg .pwr 0x104 2).pwrMode) := by decide +kernel

/-- Sensor 32, a regulator, at a temperature. -/
def hotS (v : Nat) : State := up.pw (fun p => { p with sensors := [(32, v)] })

theorem wit_BrakeDroopAndHeat : ((up.pw (fun p => { p with brake := true })).power.brake = true ∧ up.power.brake = false ∧ State.reset.life ≠ .up) ∧ (∀ b < 16, up.absent b = false) ∧
    (up.governed = true ∧ up.point 15 ≠ 15 ∧ State.reset.governed = false) ∧ ((sensorLimits 59).2.1 = 125 ∧ (sensorLimits 15).2.2 = 110 ∧ (sensorLimits 75).2.2 = 100) ∧
    (32 ∈ ((List.range 60).filter (fun n => (sensorBays n).contains 0)).filter (fun n => decide ((sensorLimits n).1 ≤ (hotS 115).sensor n)) ∧ mget (hotS 115).power.downAt 0 = none) ∧
    (mget ((hotS 115).pw (fun p => { p with downAt := [(0, 0)] })).power.downAt 0 = some 0 ∧ (hotS 115).nowN < 0 + 24576) := by decide +kernel

theorem wit_HoldGateAndSupply : ((wbit (0x10000 : Word) 16 = true ∧ wbit (up.preg .pwr 0x118) 16 = false ∧ (!(served0 job0).jobs.isEmpty) = true) ∧ up.jobs = [] ∧ up.fetch = none ∧ up.openWindow (some 0) = false) ∧
    (up.governed = true ∧ (up.pw (fun p => { p with hold := some 0 })).governed = false ∧ up.nowN < 0 + 49152000 ∧ 0 + 49152000 ≤ { up with now := 49152000 }.nowN ∧ up.power.hold = none) ∧
    (up.power.inputLow = false ∧ (up.pw (fun p => { p with inputLow := true })).power.inputLow = true) ∧ ({ up with life := .down, tripped := true }.life = .down ∧ { up with life := .held }.life = .held ∧ up.life ≠ .down ∧ up.life ≠ .held) := by decide +kernel

/-! ### DMA -/

/-- A descriptor of Table 14-3: opcode, flags, LEN. -/
def dma (op flags len : Nat) : List Byte := rec_ 64 [(0, 1, op), (1, 1, flags), (16, 8, if op = 0 then 0 else 3 * 2 ^ 62), (32, 4, len)]
/-- Host channel 0 of job 0 holds a descriptor, in a state. -/
def hch (d : List Byte) (x : Chan) (st : Nat) : State := { served0 job0 with chans := [(0, { x with q := [d] })] }.setHReg 0 8 (BitVec.ofNat 32 st)
/-- Bay channel 0 of bay 0 is free, and a run of job 0 holds the cores. -/
def bch : State := { served0 job0 with runs := [rn 1], holder := some (.run 1) }

theorem wit_DmaDescriptorsRun : (∀ op ∈ [0x00, 0x01, 0x10, 0x11, 0x18, 0x19], ((hch (dma op 0 1) {} 1).hostFetch 0).chan (.host 0) ≠ {} ∧ dOp (((hch (dma op 0 1) {} 1).hostFetch 0).chan (.host 0)).head = op) ∧
    dmaListed 2 = false ∧ (bch.absent 0 = false ∧ bch.holder.bind bch.holderJob = some 0 ∧ (bch.chan (.bay 0 0)).q = [] ∧ bch.heldHead (.bayDma 0 0) = none) ∧
    (16 ≤ ({ bch with chans := [(1000, { q := List.replicate 16 (dma 0 0 0) })] }.chan (.bay 0 0)).q.length ∧ base.holder.bind base.holderJob = none) ∧
    ((base.chan (.host 0)).q = [] ∧ (hch (dma 1 0 1) {} 1).chanState (.host 0) = 1 ∧ (hch (dma 1 0 1) {} 3).chanState (.host 0) = 3) ∧
    ((dmaCause true (fun _ => false) 0 (dma 2 0 1)).isSome = true ∧ dmaCause true (fun _ => false) 0 (dma 0 0 0) = none ∧ dTotal (dma 0 0 0) = 0) ∧
    (dmaCause true (fun _ => true) 0 (putBytes (dma 0 1 0) 8 [1]) = none ∧ dFlag (dma 0 1 0) 0 = true ∧ reached (base.pegValue 0) (cWaitTarget (putBytes (dma 0 1 0) 8 [1])) = false) ∧
    (dmaCause true (fun _ => true) 0 (dma 1 0 1) = none ∧ 0 < dTotal (dma 1 0 1) ∧ base.preempting = none) ∧
    ((hch (dma 1 0 1) { done := true } 2).chan (.host 0)).done = true ∧ (∀ f ∈ [0, 2, 34, 4], (dFlag (dma 0 f 0) 1, dFlag (dma 0 f 0) 2, dFlag (dma 0 f 0) 5) = (bit f 1, bit f 2, bit f 5)) := by decide +kernel

theorem wit_HostDmaChannels : (2 ^ wfield ((base.setHReg 0 0 (BitVec.ofNat 32 (6 * 65536))).hReg 0 0) 20 16 ≤ wfield (64 : Word) 15 0 ∧ wfield (63 : Word) 15 0 < 2 ^ wfield ((base.setHReg 0 0 (BitVec.ofNat 32 (6 * 65536))).hReg 0 0) 20 16) ∧
    (∀ st ∈ [0, 1, 2, 3, 4, 5, 6, 7, 8, 9], (hch (dma 0 0 0) {} st).hState 0 = st) ∧ ((hch [] {} 6).hHead 0 = (hch [] {} 6).hTail 0) ∧
    (((base.setHReg 0 0 (BitVec.ofNat 32 (6 * 65536 + 1))).setHReg 0 0x24 0x10).ringOk 0 = true ∧ (base.setHReg 0 0 1).ringOk 0 = false) ∧
    ((hch (dma 0 0 0) {} 6).chan (.host 0)).started = false ∧ (hch (dma 0 0 0) {} 5).reqs = [] ∧ adSpace (dSrc (dma 1 0 0)) = 3 ∧ (base.job (wfield (0 : Word) 10 8)) = none := by decide +kernel

/-! ### Core queues -/

/-- A descriptor of Table 02-7: opcode, flags, WAIT_TARGET. -/
def cmd (op flags target : Nat) : List Byte := rec_ 64 [(0, 1, op), (1, 1, flags), (8, 4, target)]
/-- Core 0 of bay 0 holds it for job 0; pegs 0 to 9 are the job's. -/
def cored (d : List Byte) (c : CoreQ) : State := { running {} with runs := [rn 1], holder := some (.run 1), cores := [(0, { c with q := [d], job := some 0 })] }

theorem wit_CoreCommandsIssued : (bch.holder.bind bch.holderJob = some 0 ∧ bch.absent 15 = false ∧ (bch.core 15 15).q.length < 64 ∧ bch.underRemap 15 15 = false ∧ bch.ccHeld = []) ∧
    64 ≤ ({ bch with cores := [(0, { q := List.replicate 64 (cmd 0 0 0) })] }.core 0 0).q.length ∧ (bch.setPreg (.bay 0) 0x100 (wset (bch.preg (.bay 0) 0x100) 16)).absent 0 = true ∧ base.holder.bind base.holderJob = none ∧
    (∀ op ∈ [0x00, 0x01, 0x02, 0x10, 0x18, 0x20, 0x28, 0x30, 0x38], cOp (cmd op 0 0) = op ∧ opListed op = true) ∧ opListed 0x39 = false ∧ (∃ x, ((List.range 16).filter (fun x => x != 0))[(0 * 16 + dealUnit 0 0 (cmd 0 0 0)) % 15]? = some x) := by
  refine ⟨by decide +kernel, by decide +kernel, by decide +kernel, by decide +kernel, by decide +kernel, by decide +kernel, 1, by decide +kernel⟩

theorem wit_CoreHeadsAndRetirement : ((base.core 0 0).q = [] ∧ (cored (cmd 0 0 0) {}).core 0 0 = { q := [cmd 0 0 0], job := some 0 } ∧ (cored (cmd 0 0 0) {}).withdrawn 0 = false ∧ (cored (cmd 0 0 0) {}).preempting = none) ∧
    ((cored (cmd 0 0 0) {}).legal1 0 0 (cmd 0 0 0) = none ∧ ((cored (cmd 0 0 0) {}).legal1 0 0 (cmd 0x39 0 0)).isSome = true) ∧
    (match (cored (cmd 0 0 0) {}).runCmd 0 0 0 (cmd 0 0 0) with | .done _ _ => true | _ => false) = true ∧ ((cored (cmd 0 7 0) { executed := true }).core 0 0).executed = true ∧
    (({ st := 3 } : CoreQ).st = 3 ∧ ({} : CoreQ).st ≠ 3 ∧ (cored (cmd 0 0 0) {}).slotOf 0 15 = 15) ∧ mget base.rrcInv 0 = none ∧ mget { base with rrcInv := [(0, 1)] }.rrcInv 0 = some 1 ∧
    ((cored (cmd 0 0 0) {}).bayBusy 0 = true ∧ (cored (cmd 0 0 0) {}).bayBusy 1 = false ∧ base.watched (.core 0 0) = false ∧ base.quiesced (.core 0 0) = false) ∧
    (({ base with cores := [(0, { waitFrom := some 0 })], now := 2048 }.core 0 0).waitFrom = some 0 ∧ 0 + 2048 ≤ { base with now := 2048 }.nowN) ∧
    (UnitId.dovetail 0, 0, 0, [0]) ∈ { base with unitHeld := [(.dovetail 0, 0, 0, [0])] }.unitHeld ∧ { base with unitHeld := [(.dovetail 0, 0, 0, [0])], now := 2048 }.watched (.dovetail 0) = true := by decide +kernel

theorem wit_WaitIsSignedDifference : (∀ x ∈ [0x7FFFFFFF, 1, 0, 0x80000001, 0xFFFFFFFF], (cored (cmd 0 1 x) {}).legal1 0 0 (cmd 0 1 x) = none ∧ cWaitEn (cmd 0 1 x) = true ∧ cWaitTarget (cmd 0 1 x) = x ∧
      (cored (cmd 0 1 x) {}).pegValue (cWaitPeg (cmd 0 1 x)) = 0) ∧
    ((0 - 0x7FFFFFFF : Word).toInt < 0 ∧ (0 - 1 : Word).toInt < 0 ∧ 0 ≤ (0 - 0 : Word).toInt ∧ 0 ≤ (0 - 0x80000001 : Word).toInt ∧ 0 ≤ (0 - 0xFFFFFFFF : Word).toInt) := by decide +kernel

theorem wit_Bb16ScaleIsSmallest : (1 ≤ 0xFD ∧ 0xFD < 0xFE) ∧ ([Machine.Num.fin false 3 0].any Machine.Num.nonFinite = false ∧ (([Machine.Num.fin false 3 0].map Machine.Num.abs).foldl Machine.Num.max .zero).isZero = false ∧
    1 < (quantBlock 6 [Machine.Num.fin false 3 0]).1 ∧ 1 < (quantBlock 7 [Machine.Num.fin false 3 0]).1) := by decide +kernel

/-! ### Cadence -/

/-- A lock state, a reference and a source. -/
def cad (st ref src : Nat) : State := (up.setPreg .cadence 0x108 (BitVec.ofNat 32 (ref * 512 + st))).setPreg .cadence 0x10C (BitVec.ofNat 32 src)

theorem wit_CadenceLock : (wfield (up.preg .cadence 0x118) 6 0 ≠ 127 ∧ (cad 0 0 0).cadState = 0 ∧ (cad 2 1 1).cadState = 2 ∧ (cad 2 1 1).cadRef = 1) ∧
    ((up.now - 24576).toInt = -24576 ∧ (up.now - 24577).toInt.natAbs = 24577 ∧ (cad 2 1 1).slewOnly = false ∧ { cad 2 1 1 with jobs := [(0, {})] }.slewOnly = true ∧ (cad 2 1 1).stepPending = false ∧
      (up.setPreg .cadence 0x108 (wset 2 11)).stepPending = true) ∧
    ((cad 1 3 3).cadState = 1 ∧ 16 ≤ ({ good := 16 } : Cadence).good ∧ ((cad 1 3 3).enterLock 2).cadRef = 3 ∧ ((cad 1 1 1).enterLock 2).cadRef = 1 ∧ wbit (((cad 1 1 1).enterLock 2).preg .cadence 0x108) 8 = false) ∧
    (((cad 2 2 2).setPtpOk 0 false).cadRef ≠ 1 ∧ ((cad 2 1 1).setPtpOk 0 false).cadSource ≠ 4 ∧ ((cad 2 1 4).setPtpOk 0 false).cadSource = 4 ∧ ((((cad 2 1 4).setPtpOk 1 true).setPtpOk 0 false).refOf 4) = 2) ∧
    ((cad 3 0 1).cadState = 3 ∧ 600 ≤ { cad 3 0 1 with cad := { holdFrom := some 0 }, now := 14745600000 }.holdAge ∧ (cad 3 0 1).holdAge < 600) ∧
    ((cad 2 2 4).cadSource = 4 ∧ (cad 2 2 4).cadRef = 2 ∧ mget { cad 2 2 4 with cad := { validFrom := [(0, 0)] } }.cad.validFrom 0 = some 0 ∧ 0 + 245760000 ≤ { up with now := 245760000 }.nowN) := by decide +kernel

/-- Ethernet port 0 is on, its link up. -/
def eth : State := (up.setPreg (.eth 0) 0x100 1).setPreg (.eth 0) 0x00C 0x21
def frame (typ : List Byte) (n : Nat) : List Byte := List.replicate 6 0xFF ++ List.replicate 6 0 ++ typ ++ List.replicate n 0

theorem wit_CadenceInAlarmsAndPorts : (up.cadSource ≠ 3 ∧ (cad 1 0 3).cadSource = 3 ∧ (cad 1 0 3).cad.load = none ∧ (up.anyJob = false ∧ (served0 job0).anyJob = true)) ∧
    (wbit ((up.setPreg .cadence 0x140 0x4000).preg .cadence 0x140) 14 = true ∧ up.preg64 .cadence (0x180 + 8 * 14) (0x184 + 8 * 14) ≤ up.nowN) ∧
    (eth.life = .up ∧ wbit (eth.preg (.eth 0) 0x100) 0 = true ∧ eth.ethOn 0 = true ∧ (up.setPreg (.eth 0) 0x00C 0).ethOn 0 = false) ∧
    (([] : List Byte).length < 14 ∧ getBE (frame [0x88, 0x08] 0) 12 2 = 0x8808 ∧ getLE (frame [0x08, 0x06] 0) 0 1 % 2 = 1 ∧ getLE (List.replicate 14 (0 : Byte)) 0 1 % 2 = 0) ∧
    (eth.untag 0 (frame [0x81, 0x00] 4) = none ∧ (eth.untag 0 (frame [0x88, 0xF7] 4)).any (fun r => decide ((r.drop 2).length ≤ wfield (eth.preg (.eth 0) 0x104) 13 0) && getBE r 0 2 == 0x88F7) = true ∧
      (eth.untag 0 (frame [0x08, 0x06] 4)).any (fun r => getBE r 0 2 == 0x0806) = true ∧ wfield ((eth.setPreg (.eth 0) 0x104 3).preg (.eth 0) 0x104) 13 0 < ((frame [0x08, 0x06] 4).drop 14).length) ∧
    (ipv6 (0x60 :: List.replicate 39 0)).isSome = true ∧ (ipv4 (rec_ 20 [(0, 1, 0x45), (3, 1, 20), (8, 1, 64), (9, 1, 17), (10, 2, 0xDA7A)])).isSome = true := by decide +kernel

/-! ### Fabric -/

/-- A packet of a type from this module to itself, job 0, window 0. -/
def pk (t : Nat) : Packet := { typ := t, shared := false, src := 0, srcJob := 0, dst := 0, slice := 0, epoch := 0, seq := 0, window := 0, peg := 0, offset := 0, inc := 1, reason := 3, line := [] }
def fab : State := running {}

theorem wit_FabricRequests : (∀ t ∈ [tLineRead, tLineWrite, tPegInc, tReadData, tAck, tRefuse], pktKnown (pk t) = true) ∧ pktKnown (pk 7) = false ∧ pktCrc (pk tLineRead) ≠ pktCrc (pk tLineRead) + 1 ∧
    (fab.dupOf (pk tLineRead) matches .fresh) = true ∧ ({ fab with dedup := [(0, { answered := [(0, 0)] })] }.dupOf (pk tLineRead) matches .repeated 0) = true ∧
    ({ fab with dedup := [(0, { applying := [0] })] }.dupOf (pk tLineRead) matches .drop) = true ∧ (fab.jobOfSlice 0).isSome = true ∧ fab.jobOfSlice 1 = none ∧ fab.routed 0 0 = true ∧ fab.routed 1 0 = false ∧
    (∀ t ∈ [tLineRead, tLineWrite, tPegInc], firstFail (fab.ingressChecks 0 (jobR {}) (fab.win 0 0) (pk t)) = none) ∧ firstFail (fab.ingressChecks 0 (jobR {}) (fab.win 0 9) (pk tLineRead)) = some 2 ∧
    ((fab.win 0 0).target = 0 ∧ (fab.win 0 0).segmented = false ∧ (jobR {}).containHas (pk tLineWrite) = false) ∧ (match fab.winRead 0 0 0 128 with | .ok _ => true | _ => false) = true ∧
    (match fab.writeVa 0 ((fab.win 0 0).base + 0) (fab.lineToStore 0 (jobR {}) (fab.win 0 0) (pk tLineWrite)) with | .ok _ => true | _ => false) = true ∧
    fab.accums = [] ∧ [(⟨0, 0, 5, []⟩ : Accum)].find? (fun (a : Accum) => a.port == 0 && a.peg == 0) = some ⟨0, 0, 5, []⟩ ∧ mget fab.dedup 0 = none ∧
    (0 + 2457600 ≤ { fab with now := 2457600 }.nowN ∧ fab.nowN < 0 + 2457600) := by decide +kernel

/-- A request that is out, of a unit and a type; `pk t` answers it. -/
def outR (u : UnitId) (t : Nat) : Req := { unit := u, job := 0, pkt := pk t }
def sentR (u : UnitId) (t : Nat) : State := { fab with reqs := [outR u t] }

theorem wit_FabricAnswers : fab.matched (pk tAck) = none ∧ (sentR .fetch tLineRead).matched (pk tReadData) = some (outR .fetch tLineRead) ∧ (sentR .sched tLineWrite).matched (pk tAck) = some (outR .sched tLineWrite) ∧
    (∀ u ∈ [UnitId.fetch, .weights, .core 0 0], (sentR u tLineRead).matched (pk tRefuse) = some (outR u tLineRead)) ∧ (sentR .sched tPegInc).matched (pk tRefuse) = some (outR .sched tPegInc) ∧ fab.fences = [] ∧
    (fab.fenceError { unit := .sched, job := 0, dst := none, waits := [], error := some 3 } = some 3 ∧ fab.fenceError { unit := .sched, job := 0, dst := none, waits := [] } = none) ∧
    [wl].find? (fun (l : WLoad) => l.job == 0) = some wl := by decide +kernel

/-! ### Faults -/

theorem wit_FaultsDetected : (base.slotState 15 15 = 1 ∧ base.slotState 0 16 = 0 ∧ base.spareSlot 0 = some 16) ∧ mget base.scratchErrs 0 = none ∧
    (mget { base with scratchErrs := [(0, 0)] }.scratchErrs 0 = some 0 ∧ 0 + 2123366400000 ≤ { base with now := 2123366400000 }.nowN ∧ base.nowN < 0 + 2123366400000) ∧
    ((place false 0 matches .near 0) = true ∧ (place false (0x1000000 * 65536 / 128 * 128 / 16) matches .main _) = true ∧ (base.setPoison 0).holder = none ∧ (bch.setPoison 0).holder.bind (bch.setPoison 0).holderJob = some 0) ∧
    ((memPage false 0).isSome = true ∧ memPage false deepBase = none) ∧ (wbit (0x80000000 : Word) 31 = true ∧ wbit (0 : Word) 31 = false ∧ wfield (5 : Word) 15 0 ∈ [5] ∧ wfield (5 : Word) 15 0 ∉ base.fatalSlots) ∧
    (base.loads[0]? = none ∧ { base with loads := [wl] }.loads[0]? = some wl ∧ ({ promoting := some { } } : Job).promoting = some {} ∧ job0.promoting = none) := by decide +kernel

/-- A containment line of a kind, DISCARD set or not. -/
def line_ (k d : Nat) : List Byte := rec_ 128 [(0, 1, k), (1, 1, d), (24, 8, 9), (32, 2, 1)]
/-- The job in an episode, on a state. -/
def epS (j : Job) : Job := jobR { j with episode := some { seq := 0, e := 0, drained := true } }

theorem wit_ContainmentBetweenMembers : (∀ k ∈ [1, 2, 3, 4], getLE (line_ k 1) 0 1 = k) ∧ clDiscard (line_ 1 1) = true ∧ clDiscard (line_ 1 0) = false ∧ (jobR {}).takesHalts = true ∧ (jobR { suspended := true }).takesHalts = false ∧
    (clEndpoint (line_ 3 1) ∈ (jobR { lossWait := [1] }).lossWait ∧ clEndpoint (line_ 3 1) ∉ (jobR {}).lossWait ∧ (jobR {}).standby = false ∧ (jobR { lossWait := [1] }).drainedNow = true ∧ (jobR { episode := some {} }).drainedNow = false) ∧
    (({ syncFrom := some 9 } : Job).syncFrom = some (clEvent (line_ 4 0)) ∧ (jobR {}).syncFrom ≠ some (clEvent (line_ 4 0))) ∧
    (fab.awaits 1 = false ∧ { sentR .sched tLineWrite with now := 245760 }.awaits 0 = true ∧ 245760 ≤ { sentR .sched tLineWrite with now := 245760 }.silence 0) ∧
    ((epS {}).episode.isSome = true ∧ fab.nowN < 0 + 13824 ∧ 0 + 13824 ≤ { fab with now := 13824 }.nowN ∧ fab.faultCt = none ∧ (jobR { executing := some { start := some 0 } }).executing.any (fun p => p.seq == 0 && decide (p.start.getD 0 ≤ fab.nowN)) = true) ∧
    (fab.drainable = [] ∧ (running { episode := some {} }).drainable = [0]) := by decide +kernel

/-! ### Links -/

/-- Port 0 is up at four lanes and level 2, with a state of its own. -/
def lk (p : Port) : State := { (up.setPreg (.link 0) 0x100 0x2043).setPreg (.link 0) 0x104 3 with ports := [(0, p)] }
/-- A flit of a kind and SEQ, its CRC field as given. -/
def fl (k q crc w : Nat) : FlitIn := ⟨0, putBytes (List.replicate 264 0) 0 (leBytes 8 (k * 4096 + q + crc * 2 ^ 48)), w⟩
def goodFl (k q w : Nat) : FlitIn := fl k q (flitCrc (fl k q 0 0).bytes) w

set_option maxRecDepth 100000 in
theorem wit_LinkFlits : up.portUp 0 = false ∧ (lk {}).portUp 0 = true ∧ (flitOf ⟨2, [], 0⟩).good = false ∧ ((lk { nakAt := some 0 }).port 0).nakAt = some 0 ∧ (lk {}).nowN < 0 + 99 ∧ ((lk {}).port 0).nakAt = none ∧
    (∀ x ∈ [goodFl 1 0 0, goodFl 2 0 0, goodFl 2 0 2, goodFl 0 0 0, goodFl 0 4095 0, goodFl 0 1 0], (flitOf x).good = true ∧ (flitOf x).corrected = false ∧ (flitOf x).nak = false) ∧
    ((flitOf (goodFl 2 0 2)).kind = 2 ∧ (flitOf (goodFl 2 0 2)).width = 2 ∧ (lk {}).portWidth 0 = 4) ∧ ((flitOf (goodFl 0 0 0)).seq = ((lk {}).port 0).expect) ∧
    (2048 ≤ ((flitOf (goodFl 0 4095 0)).seq + 4096 - 0) % 4096 ∧ 0 < ((flitOf (goodFl 0 1 0)).seq + 4096 - 0) % 4096) ∧
    (((lk { unacked := [(5, [])] }).port 0).unacked = [(5, [])] ∧ (5 + 4096 - 5) % 4096 < 2048 ∧ 2048 ≤ (4 + 4096 - 5) % 4096 ∧ 0 + 99 ≤ { lk {} with now := 99 }.nowN) ∧ ((lk { replays := 8 }).port 0).replays = 8 ∧
    ((lk { newWidth := some 2 }).port 0).newWidth = some 2 := by decide +kernel

theorem wit_LinkPortsAndLanes : (0 ∈ ((lk { healthy := [0, 1] }).port 0).healthy ∧ 2 ∉ ((lk { healthy := [0, 1] }).port 0).healthy ∧ ((lk { healthy := [0, 1] }).port 0).healthy.length < 4) ∧
    (wbit ((lk {}).preg (.link 0) 0x104) 1 = true ∧ ((lk {}).port 0).testDue ≤ (lk {}).nowN ∧ ((lk { testing := some 0 }).port 0).testing = some 0 ∧ (lk {}).nowN < 0 + 2457600 ∧ 0 + 2457600 ≤ { lk {} with now := 2457600 }.nowN) ∧
    (inWindow ((lk {}).preg (.link 0) 0x10C) 0 0 0 = true ∧ inWindow ((lk {}).preg (.link 0) 0x10C) 200 0 0 = false ∧ ((lk { adapt := true }).port 0).adapt = true) ∧
    ((lk {}).linkState 0 = 3 ∧ (up.setPreg (.link 0) 0x100 2).linkState 0 = 2 ∧ (up.setPreg (.link 0) 0x104 1).portEn 0 = true ∧ up.portEn 17 = false) ∧
    (widthFor [] 4 = 0 ∧ widthFor ([0, 1, 2, 3].filter (fun l => l < 4)) ((lk {}).maxWidth 0) = 4) ∧
    (min (wfield (up.preg .route 0x108) 15 8) 0 < max (wfield (up.preg .route 0x108) 7 0) 1 ∧ max (wfield (up.preg .route 0x108) 7 0) 0 ≤ min (wfield (up.preg .route 0x108) 15 8) 255) := by decide +kernel

/-! ### Experts -/

/-- The pass of job 0 holds the cores; its placement bank is the one in order. -/
def expS (p : Pass) : State := ({ running { executing := some p } with holder := some (.pass 0) } : State).setPreg .route 0x104 0

theorem wit_ExpertRows : (∀ j, fab.holder ≠ some (.pass j)) ∧ (cOp (cmd 1 0 0) = 1 ∧ cOp (cmd 2 0 0) = 2 ∧ dvLayer (cmd 1 0 0) = 0) ∧ ((expS {}).passNow 0).isSome = true ∧ (expS {}).absent 0 = false ∧ ((expS {}).dove 0).q.length < 16 ∧
    (16 ≤ ({ expS {} with doves := [(0, { q := List.replicate 16 (cmd 1 0 0) })] }.dove 0).q.length ∧ ((mget ({ scatterBays := [(0, 1)] } : Pass).scatterBays 0).getD 0) ≠ 0) ∧
    (match (expS {}).bank 0 0 0, (expS {}).layerInfo 0 0 (expS {}).endpoint 0 0 with
      | .ok bk, .ok below => !reached ((expS {}).pegValue (bk.arrivalPeg 0)) (0 + arrivalTarget bk.sources below (bk.exchange 0) false) && bk.instances.any (fun w => repEndpoint w == (expS {}).endpoint && repSlot w == 0) &&
          !bk.exchange 0 && reached ((expS {}).pegValue (bk.arrivalPeg 0)) (4294967295 + arrivalTarget bk.sources below (bk.exchange 0) false) &&
          (match (expS {}).countsOf 0 bk 0 0 0 false bk.sources with | .ok (some cs) => cs == [0] | _ => false) && reached ((expS {}).pegValue bk.grantPeg) 0
      | _, _ => false) = true ∧ (expS {}).doves = [] ∧ ({ expS {} with doves := [(0, { q := [cmd 1 0 0], phase := 2 })] }.dove 0).phase = 2 := by
  refine ⟨nofun, ?_⟩
  decide +kernel

/-! ### Well-formed and ill-formed commands -/

def d64 : List Byte := List.replicate 64 0
def fl0 : FlitIn := ⟨0, List.replicate 264 0, 0⟩

theorem test_records_refused : (∀ r ∈ [Ring.client 64 0, .client 0 4], r.wf = false) ∧ (Ring.client 63 3).wf = true ∧ (∀ c ∈ [DmaChan.host 64, .bay 16 0, .bay 0 16], c.wf = false) ∧ (DmaChan.bay 15 15).wf = true ∧
    (∀ p ∈ [{ pk 1 with src := 1024 }, { pk 1 with srcJob := 8 }, { pk 1 with dst := 1024 }, { pk 1 with slice := 64 }, { pk 1 with epoch := 256 }, { pk 1 with seq := 2 ^ 32 }, { pk 1 with window := 4096 },
      { pk 1 with peg := 32768 }, { pk 1 with offset := 2 ^ 40 }, { pk 1 with inc := 65536 }, { pk 1 with reason := 4096 }, { pk 1 with line := [0] }, pk 16], p.wf = false) ∧
    ({ pk 15 with line := List.replicate 128 0 } : Packet).wf = true ∧ ({ k0 with tiers := List.replicate 11 (0, 0, 0, 0, 0) } : BootCheck).wf = false := by decide +kernel

/-- A command of every row, well formed. -/
theorem test_well_formed_1 : ∀ i ∈ ([
    .passFormation, .formationExchangeComplete, .passStart, .barrierLineSend 0 0, .commitBarrierComplete, .creditWatchdogExpiry 0, .coreNop 0 0 d64, .copy 0 0 d64, .gather 0 0 d64, .matmul 0 0 d64,
    .attn 0 0 d64, .vectorOp 0 0 d64, .quant 0 0 d64, .prism 0 0 d64, .topk 0 0 d64, .pegWaitMet 0 0, .commandRetire 0 0, .controlCoreHeartbeatStall 0, .progressMonitorExpiry 0, .bayRrcInv 0 0,
    .rrcInvDone 0, .recipeSwitch .admin, .stagingDescriptorStart, .stagingInstall 0 false, .attentionCutoff, .scatter 0 d64, .arrivalPegTarget 0 0 0 0 0 0 0 0, .returnRows 0 d64, .exchangeGrant 0 0 0,
    .grantPegTarget 0, .placementSwitch .admin, .mapPages .admin, .unmapPages .admin, .migrateHint .admin, .demandPromotionComplete 0 0 false, .demandLate 0 0, .migrationMoveStart,
    .migrationMoveComplete 0 0 false, .decayInterval, .marginCheck 0 0 0 0 false false, .tierMarginReq 0, .tierRetrainReq 0, .evacuationComplete 0, .tierTrainingComplete 0 0 0 0 0 0, .scrubRead 0 0,
    .parkWrite 0, .parkComplete 0, .budgetRefill, .readDisturbRelocation 0 0, .retentionAgeTick, .relocationCommit 0 false false, .timeUnknownTimeout, .holdupCheck false, .lifetimeCheckpoint,
    .settingsRead, .settingsStage, .settingsDelete, .settingsCommit, .settingsDiscard, .commitCreditEarned] : List Instr), i.wf = true := by decide +kernel
theorem test_well_formed_2 : ∀ i ∈ ([
    .settingsPrepareComplete false, .fetch .admin, .fetchPageArrival 0 0 [] false, .broadcastEnd, .swap .admin, .swapExecute 0 0, .weightLoad .admin, .promote .admin, .promoted, .weightStatus .admin,
    .glintSweepCheck 0 false none, .ptpEventMessage 0 ⟨0, 0, false⟩ 0 0, .lockAcquired, .referenceLossTimeout 1, .holdoverExpiry, .portFailback, .cadenceInEdge, .cadenceLoad 0, .cadenceAlarm 0,
    .ethLinkChange 0 0, .ethFrameReceive 0 [], .audioInFrame 0 (List.replicate 16 0) 0 [], .egressTick 0, .openStream .admin, .streamActivation 0, .parkStream .admin, .resumeStream .admin,
    .closeStream .admin, .closeComplete 0, .parkList .admin, .parkDelete .admin, .mediaStreamSel 0, .ringNop .admin, .jobCreate .admin, .jobStart .admin, .jobDestroy .admin, .jobDestruction,
    .clientCreate .admin, .clientDestroy .admin, .run .admin, .runEnd, .runLimit, .preemptionRequest, .preemptionEffective, .lineRead 0 (pk 1) 0, .lineWrite 0 (pk 1) 0, .pegInc 0 (pk 1) 0,
    .pegAccumulatorFlush 0 0, .readData (pk 1) 0, .ack (pk 1) 0, .refuse (pk 1) 0, .fenceComplete, .windowEntryWrite 0 0 0 0, .windowDrainDone 0, .pegCtrlWrite 0 0, .pegValueWrite 0 0,
    .flitReceive 0 fl0, .ackTimeout 0, .replayRetrain 0, .laneFailure 0 0] : List Instr), i.wf = true := by decide +kernel
theorem test_well_formed_3 : ∀ i ∈ ([
    .widthAck 0, .laneTest 0 [], .testLanes 0, .linkRetrain 0, .adapt 0, .portDown 0, .portTraining 0 0 0 0 [] 0 0 0, .equalisationReadapt 0 0 0 0 [], .dedupRecordExpiry 0, .routeEntryWrite 0 0 0,
    .routeEndpointWrite 0, .levelChange .admin, .dmaNop (.host 0) d64, .dmaCopy (.host 0) d64 0 false, .interleave (.host 0) d64 0 false, .deinterleave (.host 0) d64 0 false,
    .bitplane (.host 0) d64 0 false, .bitplaneInv (.host 0) d64 0 false, .dmaRetire (.host 0), .hdmaTail 0 0, .hdmaCfg 0 0, .hdmaAbort 0, .hdmaStopped 0, .hdmaResume 0, .hdmaSkip 0, .hdmaReset 0,
    .pcieReadTimeout 0, .pcieHotReset false, .d3hotEntry, .msixPendingSend 0, .flr k0, .dbSqTail 0 0 0, .hostAsqTail 0, .dbCqArm 0 0, .hostAcqArm 0, .hostAcfgEnable 0, .completionBacklogDrain .admin,
    .txnBegin, .txnCommit, .txnRollback, .commitInstant, .txnTimeout, .txnPersisted, .chipReset 0 k0, .chipHold 0, .ringSel 0, .blkIrqErrorRearm 0, .blkIrqForce 0 0, .registerWrite 0 0 k0, .fwStage,
    .fwStageComplete false false, .fwActivate, .activation k0, .fwConfirm, .trialAutoConfirm, .trialFailure k0, .bootFlashCheck false false, .recoveryStage k0, .readyTimeout k0,
    .controlProcessorReset 0 0 k0] : List Instr), i.wf = true := by decide +kernel
theorem test_well_formed_4 : ∀ i ∈ ([
    .governorEvaluation 0 0 0 [] [] [] [], .modeChange, .capHost 0, .capSet 0 (mg 1 0 0), .telemReq 0 (mg 1 0 0), .capLeaseExpiry 0, .capUnacknowledged, .statusWord, .readVin, .readIin, .readPin,
    .readTemperature1, .readTemperature2, .readTemperature3, .pmbusRevision, .mfrId, .mfrModel, .mfrSerial, .mfrCapSet 0 0, .mfrCapLease 0 0, .mfrCapActive, .mfrThrottle, .alertResponse,
    .pwrBrakeNAssert, .pwrBrakeNDeassert, .droopDetect 0, .droopStepDown 0, .thermalThreshold 0 0, .throttleStep 0, .criticalLimit 0 0, .thermalTrip 0 0, .flashTemperature 0 0, .pwrGate 0,
    .heartbeatLoss, .heartbeatReturn, .holdExpiry, .inputLow 0, .inputLowRecovery, .inputCurrent 0 [], .supplyEvent 0 0, .containedFaultDetection 0 0 0 0 0, .haltReceive 0 (List.replicate 128 0),
    .drainComplete, .replayLaunch, .lossReceive 0 (List.replicate 128 0), .silentMemberTimeout 0, .joinReceive 0 (List.replicate 128 0), .syncReceive 0 (List.replicate 128 0), .errlogRelease 0,
    .errlogInjectRecord 0, .errlogInjectContain 0, .powerUp k0, .modResetNAssert, .modResetNDeassert k0, .warmModuleReset k0, .modPresentNBreak, .hostPerstN, .tapReset, .jtagBypass, .jtagIdcode] : List Instr), i.wf = true := by decide +kernel
theorem test_well_formed_5 : ∀ i ∈ ([
    .jtagSamplePreload [] [], .jtagExtest, .jtagClamp, .jtagHighz, .mapComplete, .fetchSourceTimeout 0 0, .spareSlotFailure 0 0, .retentionScanRead 0 0, .d3hotExit, .registerRead 0,
    .bar2Access 0 0 none] : List Instr), i.wf = true := by decide +kernel

/-- One ill-formed command for every check, at the first value beyond its range: refused. -/
theorem test_ill_formed_1 : ∀ i ∈ ([
    .barrierLineSend 8 0, .coreNop 16 0 d64, .coreNop 0 16 d64, .coreNop 0 0 (List.replicate 63 0), .copy 16 0 d64, .copy 0 16 d64, .copy 0 0 (List.replicate 63 0), .gather 16 0 d64, .gather 0 16 d64,
    .gather 0 0 (List.replicate 63 0), .matmul 16 0 d64, .matmul 0 16 d64, .matmul 0 0 (List.replicate 63 0), .attn 16 0 d64, .attn 0 16 d64, .attn 0 0 (List.replicate 63 0), .vectorOp 16 0 d64,
    .vectorOp 0 16 d64, .vectorOp 0 0 (List.replicate 63 0), .quant 16 0 d64, .quant 0 16 d64, .quant 0 0 (List.replicate 63 0), .prism 16 0 d64, .prism 0 16 d64, .prism 0 0 (List.replicate 63 0),
    .topk 16 0 d64, .topk 0 16 d64, .topk 0 0 (List.replicate 63 0), .pegWaitMet 16 0, .pegWaitMet 0 16, .commandRetire 16 0, .commandRetire 0 16, .controlCoreHeartbeatStall 16,
    .progressMonitorExpiry 16, .bayRrcInv 16 0, .bayRrcInv 0 256, .rrcInvDone 16, .recipeSwitch (.client 64 0), .scatter 16 d64, .scatter 0 (List.replicate 63 0), .arrivalPegTarget 16 0 0 0 0 0 0 0,
    .arrivalPegTarget 0 16 0 0 0 0 0 0, .returnRows 16 d64, .returnRows 0 (List.replicate 63 0), .exchangeGrant 16 0 0, .grantPegTarget 16, .placementSwitch (.client 64 0), .mapPages (.client 64 0),
    .unmapPages (.client 64 0), .migrateHint (.client 64 0), .demandPromotionComplete 8 0 false, .demandLate 8 0, .migrationMoveComplete 8 0 false, .marginCheck 10 0 0 0 false false,
    .tierMarginReq 10, .tierRetrainReq 10, .evacuationComplete 10, .tierTrainingComplete 10 0 0 0 0 0, .parkWrite 16384, .parkComplete 16384] : List Instr), i.wf = false := by decide +kernel
theorem test_ill_formed_2 : ∀ i ∈ ([
    .fetch (.client 64 0), .swap (.client 64 0), .swapExecute 8 0, .weightLoad (.client 64 0), .promote (.client 64 0), .weightStatus (.client 64 0), .ptpEventMessage 2 ⟨0, 0, false⟩ 0 0,
    .ptpEventMessage 0 ⟨128, 0, false⟩ 0 0, .ptpEventMessage 0 ⟨0, 3, false⟩ 0 0, .referenceLossTimeout 0, .referenceLossTimeout 4, .cadenceAlarm 15, .ethLinkChange 2 0, .ethFrameReceive 2 [],
    .audioInFrame 2 (List.replicate 16 0) 0 [], .audioInFrame 0 (List.replicate 15 0) 0 [], .egressTick 16384, .openStream (.client 64 0), .streamActivation 16384, .parkStream (.client 64 0),
    .resumeStream (.client 64 0), .closeStream (.client 64 0), .closeComplete 16384, .parkList (.client 64 0), .parkDelete (.client 64 0), .mediaStreamSel 16384, .ringNop (.client 64 0),
    .jobCreate (.client 64 0), .jobStart (.client 64 0), .jobDestroy (.client 64 0), .clientCreate (.client 64 0), .clientDestroy (.client 64 0), .run (.client 64 0), .lineRead 19 (pk 1) 0,
    .lineRead 0 (pk 16) 0, .lineRead 0 (pk 1) (2 ^ 32), .lineWrite 19 (pk 1) 0, .lineWrite 0 (pk 16) 0, .lineWrite 0 (pk 1) (2 ^ 32), .pegInc 19 (pk 1) 0, .pegInc 0 (pk 16) 0,
    .pegInc 0 (pk 1) (2 ^ 32), .pegAccumulatorFlush 19 0, .pegAccumulatorFlush 0 32768, .readData (pk 16) 0, .readData (pk 1) (2 ^ 32), .ack (pk 16) 0, .ack (pk 1) (2 ^ 32), .refuse (pk 16) 0,
    .refuse (pk 1) (2 ^ 32), .windowEntryWrite 8 0 0 0, .windowEntryWrite 0 4096 0 0, .windowEntryWrite 0 0 8 0, .windowDrainDone 8, .pegCtrlWrite 32768 0, .pegValueWrite 32768 0, .flitReceive 18 fl0,
    .flitReceive 0 { fl0 with rs := 3 }, .flitReceive 0 ⟨0, [], 0⟩, .ackTimeout 18] : List Instr), i.wf = false := by decide +kernel
theorem test_ill_formed_3 : ∀ i ∈ ([
    .replayRetrain 18, .laneFailure 18 0, .widthAck 18, .laneTest 18 [], .testLanes 18, .linkRetrain 18, .adapt 18, .portDown 18, .portTraining 18 0 0 0 [] 0 0 0, .equalisationReadapt 18 0 0 0 [],
    .dedupRecordExpiry 1024, .routeEntryWrite 1024 0 0, .routeEntryWrite 0 2 0, .levelChange (.client 64 0), .dmaNop (.host 64) d64, .dmaNop (.host 0) (List.replicate 63 0),
    .dmaCopy (.host 64) d64 0 false, .dmaCopy (.host 0) (List.replicate 63 0) 0 false, .interleave (.host 64) d64 0 false, .interleave (.host 0) (List.replicate 63 0) 0 false,
    .deinterleave (.host 64) d64 0 false, .deinterleave (.host 0) (List.replicate 63 0) 0 false, .bitplane (.host 64) d64 0 false, .bitplane (.host 0) (List.replicate 63 0) 0 false,
    .bitplaneInv (.host 64) d64 0 false, .bitplaneInv (.host 0) (List.replicate 63 0) 0 false, .dmaRetire (.host 64), .hdmaTail 64 0, .hdmaCfg 64 0, .hdmaAbort 64, .hdmaStopped 64, .hdmaResume 64,
    .hdmaSkip 64, .hdmaReset 64, .pcieReadTimeout 64, .msixPendingSend 2048, .flr { k0 with slotId := 64 }, .dbSqTail 64 0 0, .dbSqTail 0 4 0, .dbCqArm 64 0, .completionBacklogDrain (.client 64 0),
    .chipReset 0 { k0 with slotId := 64 }, .blkIrqErrorRearm 0x4000000, .blkIrqErrorRearm 2, .blkIrqForce 0x4000000 0, .blkIrqForce 2 0, .registerWrite 0x4000000 0 k0, .registerWrite 2 0 k0,
    .registerWrite 0 0 { k0 with slotId := 64 }, .activation { k0 with slotId := 64 }, .trialFailure { k0 with slotId := 64 }, .recoveryStage { k0 with slotId := 64 },
    .readyTimeout { k0 with slotId := 64 }, .controlProcessorReset 0 0 { k0 with slotId := 64 }, .governorEvaluation 65536 0 0 [] [] [] [], .governorEvaluation 0 65536 0 [] [] [] [],
    .governorEvaluation 0 0 65536 [] [] [] [], .capSet 2 (mg 1 0 0), .capSet 0 { mg 1 0 0 with addr := [] }, .capSet 0 { mg 1 0 0 with sport := 65536 }] : List Instr), i.wf = false := by decide +kernel
theorem test_ill_formed_4 : ∀ i ∈ ([
    .telemReq 2 (mg 1 0 0), .telemReq 0 { mg 1 0 0 with addr := [] }, .telemReq 0 { mg 1 0 0 with sport := 65536 }, .mfrCapSet 65536 0, .mfrCapSet 0 256, .mfrCapLease 65536 0, .mfrCapLease 0 256,
    .droopDetect 16, .droopStepDown 16, .thermalThreshold 77 0, .throttleStep 16, .criticalLimit 77 0, .thermalTrip 77 0, .flashTemperature 16 0, .inputLow 65536, .inputCurrent 65536 [],
    .supplyEvent 65536 0, .containedFaultDetection 0 16 0 0 0, .containedFaultDetection 0 0 17 0 0, .haltReceive 8 (List.replicate 128 0), .haltReceive 0 (List.replicate 127 0),
    .lossReceive 8 (List.replicate 128 0), .lossReceive 0 (List.replicate 127 0), .silentMemberTimeout 1024, .joinReceive 8 (List.replicate 128 0), .joinReceive 0 (List.replicate 127 0),
    .syncReceive 8 (List.replicate 128 0), .syncReceive 0 (List.replicate 127 0), .powerUp { k0 with slotId := 64 }, .modResetNDeassert { k0 with slotId := 64 },
    .warmModuleReset { k0 with slotId := 64 }, .spareSlotFailure 16 0, .spareSlotFailure 0 17, .registerRead 0x4000000, .registerRead 2] : List Instr), i.wf = false := by decide +kernel

/-! ### Single points against the spec's own numbers -/

/-- R104–R107, the worked example of chapter 3 (Table 03-4): the scale code 0x7E and the packed elements. -/
def exampleBlock : List Machine.Num := [0x3F666666, 0xC02CCCCD, 0x3D4CCCCD, 0x40533333, 0xBECCCCCD, 0x400C0000, 0, 0xC0A33333, 0x4019999A, 0x3F19999A, 0xBF99999A, 0x40800000, 0xBE4CCCCD, 0x3F400000, 0x4039999A, 0xC0666666].map (fmt32.decode false)
theorem test_bb16_block : (quantBlock 6 exampleBlock).1 = 0x7E ∧ packCodes 6 (quantBlock 6 exampleBlock).2.1 = [0xD2, 0x60, 0x49, 0xF0, 0x15, 0x6B, 0x20, 0xE5] := by decide +kernel

/-- R97, the worked example of chapter 3: the step partial 0x401C_0000. -/
theorem test_step_partial : stepPartial 32 (matOp 5 false 1 32 true ([0xB7, 0x01] ++ List.replicate 126 0 ++ [0x7F])) (matOp 5 false 32 1 false ([0x46, 0x0D] ++ List.replicate 126 0 ++ [0x7C])) 0 0 0 = 0x401C0000 := by
  decide +kernel

/-- R289's SHA-256 on "abc" (FIPS 180-4). -/
theorem test_sha256 : getLE ((sha256 [0x61, 0x62, 0x63]).reverse) 0 32 = 0xBA7816BF8F01CFEA414140DE5DAE2223B00361A396177A9CB410FF61F20015AD := by decide +kernel

/-- R577, the worked example of chapter 19: slot 37 with no endpoint, then with endpoint 67. -/
theorem test_identity : { up with slotId := 37 }.identity = 0x194003FF ∧ (({ up with slotId := 37 } : State).setPreg .route 0x104 (0x80000000 + 67)).identity = 0x19400043 := by decide +kernel

/-- R338 and R341, the worked examples of chapters 10 and 14: slot strides of 1,408 B and 1,024 B. -/
theorem test_strides : ({ str 1 with e := putBytes (putBytes opn 72 [0x11]) 76 (leBytes 2 320) } : Stream).inStride = 1408 ∧ ({ str 1 with e := putBytes (putBytes opn 73 [0x21]) 78 (leBytes 2 240) } : Stream).outStride = 1024 := by decide +kernel

/-- R470, R472: a NOP entry of the admin ring posts its record with the entry's COOKIE. -/
theorem test_ring_nop : (match exec (.ringNop .admin) (adm base (ent 0 [(8, 8, 0x1234)])) with | .next t => getLE (t.readPa 0x1000010020 32) 8 8 == 0x1234 | _ => false) = true := by decide +kernel

/-- No row of the table gives bits: no word spells a command. -/
theorem test_no_word_spells : decodeTableWord 8 0 = none ∧ up.withFetchWord 8 0 = up := ⟨rfl, rfl⟩

end Sys2Proof.Tests
end

section
/-!
# Stored register words and the host's register accesses

O7 is the reading rule of one stored word. O18 follows REGISTER_WRITE and REGISTER_READ through the module's own
order of tests: the offset, whether the function answers, whether the page is served, the page's row, the header, the
gated bay.
-/

namespace Sys2Proof.Machine

open Sys2Proof

/-! ### One stored word -/

theorem State.regsBut_setReg (s : State) (o : Nat) (v : Word) : RegsBut s (s.setReg o v) [o] := fun _ h =>
  State.reg_setReg_ne v (List.ne_of_not_mem_cons h)

theorem State.silent_setReg (s : State) (o : Nat) (v : Word) : Silent s (s.setReg o v) := s.setReg_out o v

/-- Settles O7: the register file is a map in canonical form, so a word stored at the Reset value is deleted and reads as
the Reset value again. -/
theorem registerReadsWhatWasStored : Obligations.RegisterReadsWhatWasStored := fun s o v h =>
  ⟨State.reg_setReg_same o v (keysRise_regs h), s.regsBut_setReg o v, s.setReg_rest o v, s.silent_setReg o v⟩

/-! ### From the command to the page (R15–R17, R460, R495) -/

section Access
variable {s : State} {off r : Nat} {v : Word} {k : BootCheck} {p : Page}

theorem exec_registerWrite : exec (.registerWrite off v k) s = execRegisterWrite off v k s := rfl

theorem exec_registerRead : exec (.registerRead off) s = execRegisterRead off s := rfl

theorem exec_registerWrite_badOffset (hb : barOffset off = false) :
    exec (.registerWrite off v k) s = .fault (.badRegisterAccess off) := by
  simp [exec_registerWrite, execRegisterWrite, hb]

theorem exec_registerRead_badOffset (hb : barOffset off = false) :
    exec (.registerRead off) s = .fault (.badRegisterAccess off) := by
  simp [exec_registerRead, execRegisterRead, hb]

theorem exec_registerWrite_of_barOffset (hb : barOffset off = true) :
    exec (.registerWrite off v k) s = .next (s.regWrite off v k) := by
  simp [exec_registerWrite, execRegisterWrite, hb]

theorem exec_registerRead_of_barOffset (hb : barOffset off = true) :
    exec (.registerRead off) s = .next (s.readReg off) := by
  simp [exec_registerRead, execRegisterRead, hb]

theorem State.regWrite_of_not_answers (ha : s.answers = false) : s.regWrite off v k = s := by
  simp [State.regWrite, ha]

theorem State.readReg_of_not_answers (ha : s.answers = false) : s.readReg off = s := by
  simp [State.readReg, ha]

/-- A read that is answered returns the word and leaves the state that `regRead` gives. -/
theorem State.readReg_of_regRead {w : Word} {t : State} (ha : s.answers = true) (h : s.regRead off = (w, t)) :
    s.readReg off = t.emit (.readWord off w) := by
  simp [State.readReg, ha, h]

theorem State.regWrite_of_not_serves (ha : s.answers = true) (hs : s.serves off = false) :
    s.regWrite off v k = s.unmapped := by
  simp [State.regWrite, ha, hs]

theorem State.regRead_of_not_serves (hs : s.serves off = false) : s.regRead off = (0, s.unmapped) := by
  simp [State.regRead, hs]

theorem State.regWrite_of_page (ha : s.answers = true) (hs : s.serves off = true) (hp : Page.ofOffset off = some (p, r)) :
    s.regWrite off v k = s.pageWrite p r v k := by
  simp [State.regWrite, ha, hs, hp]

theorem State.regRead_of_page (hs : s.serves off = true) (hp : Page.ofOffset off = some (p, r)) :
    s.regRead off = s.pageGet p r := by
  simp [State.regRead, hs, hp]

/-- A write to a register of a served page is that page's write. -/
theorem exec_registerWrite_of_page (hb : barOffset off = true) (ha : s.answers = true) (hs : s.serves off = true)
    (hp : Page.ofOffset off = some (p, r)) : exec (.registerWrite off v k) s = .next (s.pageWrite p r v k) := by
  rw [exec_registerWrite_of_barOffset hb, State.regWrite_of_page ha hs hp]

/-- A read of a register of a served page returns what that page's read gives. -/
theorem exec_registerRead_of_page {w : Word} {t : State} (hb : barOffset off = true) (ha : s.answers = true)
    (hs : s.serves off = true) (hp : Page.ofOffset off = some (p, r)) (h : s.pageGet p r = (w, t)) :
    exec (.registerRead off) s = .next (t.emit (.readWord off w)) := by
  rw [exec_registerRead_of_barOffset hb, State.readReg_of_regRead ha ((State.regRead_of_page hs hp).trans h)]

/-! ### Within a page (R15, R17, R464, R465, R529) -/

theorem State.pageWrite_reserved (hr : p.row r = none) : s.pageWrite p r v k = s.unmapped := by
  simp [State.pageWrite, hr]

theorem State.pageGet_reserved (hr : p.row r = none) : s.pageGet p r = (0, s.unmapped) := by
  simp [State.pageGet, hr]

theorem State.pageWrite_header {row : RegRow} (hr : p.row r = some row) (hh : r < 0x30) :
    s.pageWrite p r v k = s.headerWrite p r v := by
  simp [State.pageWrite, hr, hh]

theorem State.pageWrite_gated (hr : (p.row r).isSome = true) (hh : 0x30 ≤ r) (hg : s.pageGated p = true) :
    s.pageWrite p r v k = s := by
  obtain ⟨row, hrow⟩ := Option.isSome_iff_exists.1 hr
  simp [State.pageWrite, hrow, Nat.not_lt.2 hh, hg]

/-- BLK_ERR_MASK stands in every page's header. -/
theorem Page.row_errMask (p : Page) : p.row 0x02C = some (regRW 0x02C 0xFFFF) := rfl

/-- BLK_IRQ_EN stands in every page's header. -/
theorem Page.row_irqEn (p : Page) : p.row 0x014 = some (regRW 0x014 (maskBits (p.irqBits - 1) 0)) := rfl

theorem State.pageWrite_errMask : s.pageWrite p 0x02C v k = s.setPreg p 0x02C (v &&& 0xFFFF) :=
  State.pageWrite_header p.row_errMask (by decide)

theorem State.pageWrite_irqEn :
    s.pageWrite p 0x014 v k = s.setIrq p (s.preg p 0x010) (v &&& maskBits (p.irqBits - 1) 0) :=
  State.pageWrite_header p.row_irqEn (by decide)

/-! ### The latch of a 64-bit pair (R16) -/

section Latch
variable {row : RegRow} (hr : p.row r = some row) (hrc : row.rc = 0) (hc : p.clockReg r = none)
include hr hrc hc

/-- A read of a low half that changes nothing itself arms the latch with the high half as it reads now. -/
theorem State.pageGet_low {h : Nat} (hg : s.pageGated p = false) (hh : p.hiOf r = some h) :
    s.pageGet p r = (s.pageRead p r, { s with hiLatch := mset s.hiLatch (p.base + h) (s.pageRead p h) }) := by
  simp [State.pageGet, hr, hrc, hc, hg, hh]

/-- A read of a high half takes the armed latch, whatever the register holds now. -/
theorem State.pageGet_latched {lo : Nat} {w : Word} (hh : p.hiOf r = none) (hl : p.loOf r = some lo)
    (hw : mget s.hiLatch (p.base + r) = some w) :
    s.pageGet p r = (w, { s with hiLatch := mdel s.hiLatch (p.base + r) }) := by
  simp [State.pageGet, hr, hrc, hc, hh, hl, hw]

end Latch

/-- CADENCE_COUNT_LO returns the low half of the count and latches the high half of the same count. -/
theorem State.pageGet_cadenceCountLo : s.pageGet .cadence 0x100 =
    (lo32 s.nowN, { s with hiLatch := mset s.hiLatch 0x2104 (hi32 s.nowN) }) :=
  State.pageGet_low (row := regRO 0x100) (h := 0x104) rfl rfl rfl rfl (by decide)

/-- CADENCE_COUNT_HI takes the latched high half. -/
theorem State.pageGet_cadenceCountHi {w : Word} (hw : mget s.hiLatch 0x2104 = some w) :
    s.pageGet .cadence 0x104 = (w, { s with hiLatch := mdel s.hiLatch 0x2104 }) :=
  State.pageGet_latched (row := regRO 0x104) (lo := 0x100) rfl rfl rfl (by decide) (by decide) hw

end Access

/-- Settles O18: each clause is the access followed to the test that decides it, one named case for each clause. -/
theorem registerAccesses : Obligations.RegisterAccesses := by
  refine ⟨?offset, ?answers, ?served, ?reserved, ?header, ?gated, ?countLo, ?countHi⟩
  case offset =>
    exact fun s off v k hb => ⟨exec_registerWrite_badOffset hb, exec_registerRead_badOffset hb⟩
  case answers =>
    intro s off v k hb ha
    rw [exec_registerWrite_of_barOffset hb, exec_registerRead_of_barOffset hb, State.regWrite_of_not_answers ha,
      State.readReg_of_not_answers ha]
    exact ⟨rfl, rfl⟩
  case served =>
    intro s off v k hb ha hs
    rw [exec_registerWrite_of_barOffset hb, exec_registerRead_of_barOffset hb, State.regWrite_of_not_serves ha hs,
      State.readReg_of_regRead ha (State.regRead_of_not_serves hs)]
    exact ⟨rfl, rfl⟩
  case reserved =>
    intro s off v k p r hb ha hs hp hr
    rw [exec_registerWrite_of_page hb ha hs hp, State.pageWrite_reserved hr]
    exact ⟨rfl, exec_registerRead_of_page hb ha hs hp (State.pageGet_reserved hr)⟩
  case header =>
    intro s off v k p hb ha hs
    constructor <;> intro hp <;> rw [exec_registerWrite_of_page hb ha hs hp]
    · rw [State.pageWrite_errMask]
    · rw [State.pageWrite_irqEn]
  case gated =>
    intro s off v k p r hb ha hs hp hh hr hg
    rw [exec_registerWrite_of_page hb ha hs hp, State.pageWrite_gated hr hh hg]
  case countLo =>
    exact fun s ha hs => exec_registerRead_of_page (by decide) ha hs rfl State.pageGet_cadenceCountLo
  case countHi =>
    exact fun s w ha hs hw => exec_registerRead_of_page (by decide) ha hs rfl (State.pageGet_cadenceCountHi hw)

end Sys2Proof.Machine
end

section
/-!
# Core command queues, the control core, and what a core fault finds

The control core writes a command into a logical core's queue (O48). The head command of the queue is checked, waits on its
peg, starts, runs and retires (O49, O59). The control core's own events and the credit watchdog stand with them. The last
part is the fault of a slot in a bay whose spare is already due to another core (O54).
-/

namespace Sys2Proof.Machine

open Sys2Proof

/-! ### The wait condition (R57) -/

theorem reached_iff_toInt_nonneg (v t : Word) : reached v.toNat t.toNat = true ↔ 0 ≤ (v - t).toInt := by
  have hv := v.isLt
  have ht := t.isLt
  rw [reached, decide_eq_true_iff, BitVec.toInt_eq_toNat_cond, BitVec.toNat_sub]
  split <;> omega

/-- A peg's VALUE is a register word, so the test of a wait on it is the signed test of that word. -/
theorem State.reached_pegValue_iff (s : State) (p : Nat) (t : Word) :
    reached (s.pegValue p) t.toNat = true ↔ 0 ≤ (BitVec.ofNat 32 (s.pegValue p) - t).toInt := by
  rw [State.pegValue, BitVec.ofNat_toNat, BitVec.setWidth_eq, reached_iff_toInt_nonneg]

/-! ### The head of a queue (R47, R55, R56, R82) -/

/-- Command `d` of job `job` is the head of the queue of core `l` of bay `b`, and nothing stops the queue. -/
structure State.HeadAt (s : State) (b l : Nat) (c : CoreQ) (job : Nat) (d : List Byte) (q : List (List Byte)) : Prop where
  core : s.core b l = c
  queue : c.q = d :: q
  holds : c.job = some job
  running : c.halted = false
  pending : c.executed = false
  present : s.withdrawn b = false

/-- The state in which the head command has just started: the scratchpad is this job's, the queue shows the start. -/
def State.headStarted (s : State) (b l job : Nat) (c : CoreQ) : State :=
  ((if c.prevJob = some job then s else s.zeroScratch b (s.slotOf b l)).fillScratch b (s.slotOf b l) job).putCore b l
    { c with started := true, st := 2, prevJob := some job, waitFrom := c.waitFrom.map (fun _ => s.nowN) }

section Head
variable {s : State} {b l job : Nat} {c : CoreQ} {d : List Byte} {q : List (List Byte)}

theorem State.headStep_idle (hc : s.core b l = c)
    (h : c.q = [] ∨ c.job = none ∨ c.halted = true ∨ c.executed = true ∨ s.withdrawn b = true) : s.headStep b l = s := by
  subst hc
  cases hq : (s.core b l).q with
  | nil => simp [State.headStep, hq]
  | cons d q =>
    cases hj : (s.core b l).job with
    | none => simp [State.headStep, hq, hj]
    | some job =>
      have hstop : ((s.core b l).halted || (s.core b l).executed || s.withdrawn b) = true := by
        simpa [hq, hj, or_assoc] using h
      simp only [State.headStep, hq, hj, hstop, ↓reduceIte]

theorem State.headStep_started (h : s.HeadAt b l c job d q) (hs : c.started = true) :
    s.headStep b l = s.runHead b l job d := by
  obtain ⟨rfl, hq, hj, hh, he, hw⟩ := h
  simp [State.headStep, hq, hj, hh, he, hw, hs]

theorem State.headStep_illegal {code : Nat} (h : s.HeadAt b l c job d q) (hs : c.started = false)
    (hp : s.preempting = none) (hl : s.legal1 b job d = some code) :
    s.headStep b l = s.illegalCmd b l job d code := by
  obtain ⟨rfl, hq, hj, hh, he, hw⟩ := h
  simp [State.headStep, hq, hj, hh, he, hw, hs, hp, hl]

theorem State.headStep_waits (h : s.HeadAt b l c job d q) (hs : c.started = false) (hp : s.preempting = none)
    (hl : s.legal1 b job d = none) (hw : cWaitEn d = true) (hr : reached (s.pegValue (cWaitPeg d)) (cWaitTarget d) = false) :
    s.headStep b l = s.putCore b l { c with st := 3 } := by
  obtain ⟨rfl, hq, hj, hh, he, hw'⟩ := h
  simp [State.headStep, hq, hj, hh, he, hw', hs, hp, hl, hw, hr]

theorem State.headStep_starts (h : s.HeadAt b l c job d q) (hs : c.started = false) (hp : s.preempting = none)
    (hl : s.legal1 b job d = none)
    (hr : cWaitEn d = false ∨ reached (s.pegValue (cWaitPeg d)) (cWaitTarget d) = true) :
    s.headStep b l = (s.headStarted b l job c).runHead b l job d := by
  obtain ⟨rfl, hq, hj, hh, he, hw⟩ := h
  have hgo : (cWaitEn d && !reached (s.pegValue (cWaitPeg d)) (cWaitTarget d)) = false := by
    obtain h | h := hr <;> simp [h]
  by_cases hprev : (s.core b l).prevJob = some job <;>
    simp [State.headStep, State.headStarted, hq, hj, hh, he, hw, hs, hp, hl, hgo, hprev] <;> rfl

theorem State.runHead_of_done {t : State} {tr : Trouble} (h : s.runCmd b l job d = .done t tr) :
    s.runHead b l job d = (t.trouble job (cRecipe d) tr).putCore b l
      { (t.trouble job (cRecipe d) tr).core b l with executed := true, lines := [], waitPage := none, st := 2 } := by
  rw [State.runHead, h]

/-- COPY's work hands its one input on (R68). -/
theorem cmdOut_copy {x : List Byte} {e : Eff} {r : Option Recipe} (h : cOp d = 1) : cmdOut d e r [x] = (x, {}) := by
  simp [cmdOut, h]

/-! ### Retirement (R55, R58) -/

theorem exec_commandRetire_of_executed (hq : (s.core b l).q = d :: q) (he : (s.core b l).executed = true) :
    exec (.commandRetire b l) s = .next (s.retireHead b l d) := by
  show execCommandRetire b l s = .next _
  simp [execCommandRetire, hq, he]

theorem exec_commandRetire_of_not_executed (h : (s.core b l).q = [] ∨ (s.core b l).executed = false) :
    exec (.commandRetire b l) s = .next s := by
  show execCommandRetire b l s = .next s
  cases hq : (s.core b l).q with
  | nil => simp [execCommandRetire, hq]
  | cons d q =>
    have he : (s.core b l).executed = false := by simpa [hq] using h
    simp [execCommandRetire, hq, he]

theorem State.retireHead_eq {u v t : State} (hq : (s.core b l).q = d :: q)
    (hu : u = if cSignalEn d = true then s.pegLocal (cSignalPeg d) (cSignalInc d) else s)
    (hv : v = if cNotify d = true then { u with notes := u.notes ++ [(b, cTag d)] } else u)
    (ht : t = v.count64 (.core b (v.slotOf b l)) 0x120 0x124 1) :
    s.retireHead b l d = ((t.putCore b l
      { s.core b l with
        q := q, head := ((s.core b l).head + 1) % 64, started := false, executed := false
        waitFrom := (s.core b l).waitFrom.map (fun _ => t.nowN), st := if q.isEmpty then 1 else 2 }).headStep b l).release b l := by
  subst hu hv ht
  rw [State.retireHead, hq]
  rfl

end Head

/-! ### A met wait (R56) -/

section PegWait
variable {s : State} {b k : Nat}

theorem exec_pegWaitMet_core (hk : k < 16) :
    exec (.pegWaitMet b k) s = .next (if (s.core b k).st == 3 then s.headStep b k else s) := by
  show Host.Outcome.next (s.pegMet b k) = _
  rw [State.pegMet, if_pos hk]

theorem exec_pegWaitMet_waiting (hk : k < 16) (h3 : (s.core b k).st = 3) :
    exec (.pegWaitMet b k) s = .next (s.headStep b k) := by
  rw [exec_pegWaitMet_core hk, h3]
  rfl

theorem exec_pegWaitMet_notWaiting (hk : k < 16) (h3 : (s.core b k).st ≠ 3) : exec (.pegWaitMet b k) s = .next s := by
  rw [exec_pegWaitMet_core hk, if_neg (by simpa using h3)]

theorem exec_pegWaitMet_bayDma (hk : k < 16) : exec (.pegWaitMet b (32 + k)) s = .next (s.dmaWork (.bay b k) 0 false) := by
  show Host.Outcome.next (s.pegMet b (32 + k)) = _
  rw [State.pegMet, if_neg (by omega), if_neg (by omega), if_pos (by omega), Nat.add_sub_cancel_left]

theorem exec_pegWaitMet_hostDma (hk : k < 64) : exec (.pegWaitMet b (64 + k)) s = .next (s.dmaWork (.host k) 0 false) := by
  show Host.Outcome.next (s.pegMet b (64 + k)) = _
  rw [State.pegMet, if_neg (by omega), if_neg (by omega), if_neg (by omega), if_pos (by omega), Nat.add_sub_cancel_left]

theorem exec_pegWaitMet_other (hk : (16 < k ∧ k < 32) ∨ (48 ≤ k ∧ k < 64) ∨ 128 ≤ k) : exec (.pegWaitMet b k) s = .next s := by
  show Host.Outcome.next (s.pegMet b k) = _
  rw [State.pegMet, if_neg (by omega), if_neg (by omega), if_neg (by omega), if_neg (by omega)]

end PegWait

/-! ### The remote read cache's invalidation (R53) -/

section Invalidation
variable {s : State} {b m : Nat}

theorem exec_bayRrcInv (hb : b < 16) : exec (.bayRrcInv b m) s =
    .next (({ s with rrcInv := mset s.rrcInv b (Nat.lor ((mget s.rrcInv b).getD 0) (m % 256)) } : State).setPreg (.bay b) 0x154 1) := by
  show Host.Outcome.next (if b < 16 then s.rrcInvalidate b m else s) = _
  rw [if_pos hb]
  rfl

theorem exec_rrcInvDone_none (h : mget s.rrcInv b = none) : exec (.rrcInvDone b) s = .next s := by
  show Host.Outcome.next (s.rrcInvDone b) = _
  rw [State.rrcInvDone, h]

theorem exec_rrcInvDone_some (h : mget s.rrcInv b = some m) : exec (.rrcInvDone b) s =
    .next (((({ s with
      rrc := s.rrc.filter (fun (e : Nat × List Byte) => !(rrcBayOf e.1 == b && bit m (rrcJobOf e.1)))
      rrcInv := mdel s.rrcInv b } : State).staleReads (fun x j => x == b && bit m j)).setPreg (.bay b) 0x154 0).irq (.bay b) 3) := by
  show Host.Outcome.next (s.rrcInvDone b) = _
  rw [State.rrcInvDone, h]

end Invalidation

/-! ### A failed control core (R44, R543) -/

/-- The record of a control core that fails, found by `checker`; `job` is the job whose work stood in the bay. -/
def State.controlRecord (s : State) (b checker : Nat) (job : Option Nat) : ErrRec :=
  { code := 0x0003, sev := 0, key := hwKey b 0x1F 0x1F 0x1F, detail := hwDetail 0 0 checker (s.baysUp - 1), job := job }

section ControlCore
variable {s : State} {b k : Nat}

theorem State.controlFails_noBay (h : 16 ≤ b ∨ s.withdrawn b = true) : s.controlFails b k = s := by
  obtain h | h := h <;> simp [State.controlFails, h]

/-- With no work in the bay the failure is a record. -/
theorem State.controlFails_idle (hb : b < 16) (hw : s.withdrawn b = false) (hi : s.bayBusy b = false) :
    s.controlFails b k =
      ((({ s with boot := { s.boot with jobStart := none } } : State).report (.bay b) (s.controlRecord b k none)).withdrawBay b) := by
  have hi' : ({ s with boot := { s.boot with jobStart := none } } : State).bayBusy b = false := hi
  simp [State.controlFails, Nat.not_le.mpr hb, hw, hi']
  rfl

/-- With work in the bay the failure is a contained fault. -/
theorem State.controlFails_busy (hb : b < 16) (hw : s.withdrawn b = false) (hi : s.bayBusy b = true) :
    s.controlFails b k =
      ((({ s with boot := { s.boot with jobStart := none } } : State).contained (.bay b)
        (s.controlRecord b k (s.holder.bind s.holderJob))).withdrawBay b) := by
  have hi' : ({ s with boot := { s.boot with jobStart := none } } : State).bayBusy b = true := hi
  simp [State.controlFails, Nat.not_le.mpr hb, hw, hi']
  rfl

theorem exec_controlCoreHeartbeatStall : exec (.controlCoreHeartbeatStall b) s = .next (s.controlFails b 5) := rfl

theorem exec_progressMonitorExpiry_idle (h : s.bayBusy b = false) : exec (.progressMonitorExpiry b) s = .next s := by
  show Host.Outcome.next (if s.bayBusy b then s.controlFails b 4 else s) = _
  rw [h]
  rfl

theorem exec_progressMonitorExpiry_busy (h : s.bayBusy b = true) :
    exec (.progressMonitorExpiry b) s = .next (s.controlFails b 4) := by
  show Host.Outcome.next (if s.bayBusy b then s.controlFails b 4 else s) = _
  rw [h]
  rfl

theorem exec_progressMonitorExpiry_noBay (h : 16 ≤ b ∨ s.withdrawn b = true) : exec (.progressMonitorExpiry b) s = .next s := by
  cases hi : s.bayBusy b with
  | false => exact exec_progressMonitorExpiry_idle hi
  | true => rw [exec_progressMonitorExpiry_busy hi, State.controlFails_noBay h]

end ControlCore

/-! ### The credit watchdog (R30, R31) -/

section Watchdog
variable {s : State} {x o b : Nat} {p : Page}

theorem exec_creditWatchdogExpiry (hp : Page.ofOffset x = some (p, o)) :
    exec (.creditWatchdogExpiry x) s = .next (s.watchdog p) := by
  show execCreditWatchdogExpiry x s = _
  rw [execCreditWatchdogExpiry, hp]

theorem State.watchdog_quiet (h : s.quiesced p = true ∨ s.watched p = false) : s.watchdog p = s := by
  obtain h | h := h <;> simp [State.watchdog, h]

/-- The deep tier's queues and fabric egress have no watchdog. -/
theorem State.watched_unwatched (h : p = .deep ∨ p = .chip ∨ ∃ n, p = .link n) : s.watched p = false := by
  obtain rfl | rfl | ⟨n, rfl⟩ := h <;> rfl

theorem State.watchdog_expires (hw : s.watched p = true) (hq : s.quiesced p = false) :
    s.watchdog p = s.contained p
      { code := 0x0004, sev := 3, source := watchSource p, key := s.watchKey p, detail := hwDetail 0 0 5 s.baysUp
        job := s.holder.bind s.holderJob } := by
  simp [State.watchdog, hw, hq]

theorem State.watched_core {slot l t : Nat} (hl : l < 16) (hs : s.slotOf b l = slot) (hf : (s.core b l).waitFrom = some t)
    (ht : t + 2048 ≤ s.nowN) : s.watched (.core b slot) = true := by
  have hcore : l ∈ s.coresOf b slot := by simp [State.coresOf, hl, hs]
  have hstall : s.coreStalled b l = true := by simp [State.coreStalled, hf, ht]
  exact List.any_eq_true.mpr ⟨l, hcore, hstall⟩

theorem State.heldFor_of_mem {u : UnitId} {job t : Nat} {d : List Byte} (hm : (u, job, t, d) ∈ s.unitHeld)
    (ht : t + 2048 ≤ s.nowN) : s.heldFor u = true :=
  List.any_eq_true.mpr ⟨_, hm, by simp [ht]⟩

/-- What is held for a bay channel counts for the bay's DMA engine. -/
theorem State.watched_of_heldFor {u : UnitId}
    (hu : (p = .dovetail b ∧ u = .dovetail b) ∨ (∃ n, n < 16 ∧ p = .baydma b ∧ u = .bayDma b n)) (h : s.heldFor u = true) :
    s.watched p = true := by
  obtain ⟨rfl, rfl⟩ | ⟨n, hn, rfl, rfl⟩ := hu
  · exact h
  · exact List.any_eq_true.mpr ⟨n, List.mem_range.mpr hn, h⟩

end Watchdog

/-! ### Writing a command into a queue (R42, R43, R54, R55) -/

/-- The nine rows that write a command to a core, each for a descriptor of its own opcode, end in `t`. -/
def IssueRows (s t : State) (b l : Nat) (d : List Byte) : Prop :=
  (cOp d = 0 ∨ opListed (cOp d) = false → exec (.coreNop b l d) s = .next t) ∧
  (cOp d = 0x01 → exec (.copy b l d) s = .next t) ∧
  (cOp d = 0x02 → exec (.gather b l d) s = .next t) ∧
  (cOp d = 0x10 → exec (.matmul b l d) s = .next t) ∧
  (cOp d = 0x18 → exec (.attn b l d) s = .next t) ∧
  (cOp d = 0x20 → exec (.vectorOp b l d) s = .next t) ∧
  (cOp d = 0x28 → exec (.quant b l d) s = .next t) ∧
  (cOp d = 0x30 → exec (.prism b l d) s = .next t) ∧
  (cOp d = 0x38 → exec (.topk b l d) s = .next t)

section Issue
variable {s t : State} {b l job op : Nat} {d : List Byte}

theorem State.issueOp_same (h : cOp d = op) : s.issueOp op b l d = s.issue b l d := if_pos (by simpa using h)
theorem State.issueOp_ne (h : cOp d ≠ op) : s.issueOp op b l d = s := if_neg (by simpa using h)

theorem exec_coreNop : exec (.coreNop b l d) s = .next (if cOp d == opNop || !opListed (cOp d) then s.issue b l d else s) := rfl
theorem exec_copy : exec (.copy b l d) s = .next (s.issueOp 0x01 b l d) := rfl
theorem exec_gather : exec (.gather b l d) s = .next (s.issueOp 0x02 b l d) := rfl
theorem exec_matmul : exec (.matmul b l d) s = .next (s.issueOp 0x10 b l d) := rfl
theorem exec_attn : exec (.attn b l d) s = .next (s.issueOp 0x18 b l d) := rfl
theorem exec_vectorOp : exec (.vectorOp b l d) s = .next (s.issueOp 0x20 b l d) := rfl
theorem exec_quant : exec (.quant b l d) s = .next (s.issueOp 0x28 b l d) := rfl
theorem exec_prism : exec (.prism b l d) s = .next (s.issueOp 0x30 b l d) := rfl
theorem exec_topk : exec (.topk b l d) s = .next (s.issueOp 0x38 b l d) := rfl

/-- Every row writes its own opcode's descriptor by the same operation. -/
theorem issueRows_of_issue (h : s.issue b l d = t) : IssueRows s t b l d := by
  subst h
  have own : ∀ op, cOp d = op → Host.Outcome.next (s.issueOp op b l d) = (.next (s.issue b l d) : Host.Outcome State Fault Refusal) :=
    fun op hop => congrArg _ (State.issueOp_same hop)
  refine ⟨fun hop => ?_, own 0x01, own 0x02, own 0x10, own 0x18, own 0x20, own 0x28, own 0x30, own 0x38⟩
  rw [exec_coreNop, if_pos (by simpa [opNop] using hop)]

theorem State.receiving_present (h : s.absent b = false) (u : Nat) : s.receiving b u = some b := by
  simp [State.receiving, h]

/-- The bays that present cores, in ascending order. -/
def State.presentBays (s : State) : List Nat := (List.range 16).filter (fun x => !s.absent x)

theorem State.receiving_absent (h : s.absent b = true) (hup : s.presentBays ≠ []) (u : Nat) :
    s.receiving b u = s.presentBays[(((List.range b).filter (fun x => s.absent x)).length * 16 + u) % s.presentBays.length]? := by
  have hne : s.presentBays.isEmpty = false := by simpa using hup
  simp only [State.presentBays] at hne ⊢
  simp only [State.receiving, h, hne, Bool.not_true, Bool.false_eq_true, ↓reduceIte]

theorem State.receiving_none (hb : b < 16) (h : ∀ x, x < 16 → s.absent x = true) (u : Nat) : s.receiving b u = none := by
  have hup : (List.range 16).filter (fun x => !s.absent x) = [] :=
    List.filter_eq_nil_iff.mpr fun x hx => by simp [h x (List.mem_range.mp hx)]
  simp [State.receiving, h b hb, hup]

/-- WITHDRAW_UNIT of the job that holds the cores: what is dealt to another bay when one presents no cores (R43). -/
def State.dealKind (s : State) : Nat := ((s.holder.bind s.holderJob).bind s.job).elim 0 (fun j => manWithdrawUnit j.manifest)

theorem State.issue_of_receiving {x : Nat} (hj : s.holder.bind s.holderJob = some job) (hb : b < 16) (hl : l < 16)
    (hx : s.receiving b (dealUnit s.dealKind l d) = some x) : s.issue b l d = s.issueAt x l job d := by
  simp only [State.dealKind, hj, Option.bind_some] at hx
  simp [State.issue, hj, Nat.not_le.mpr hb, Nat.not_le.mpr hl, hx]

theorem State.issue_present (hj : s.holder.bind s.holderJob = some job) (hb : b < 16) (hl : l < 16) (ha : s.absent b = false) :
    s.issue b l d = s.issueAt b l job d :=
  State.issue_of_receiving hj hb hl (State.receiving_present ha _)

theorem State.issue_noHolder (hj : s.holder.bind s.holderJob = none) : s.issue b l d = s := by
  simp [State.issue, hj]

theorem State.issue_noCore (h : 16 ≤ b ∨ 16 ≤ l) : s.issue b l d = s := by
  unfold State.issue
  split
  · rfl
  · rw [if_pos (by simpa using h)]

theorem State.issue_noBay (h : ∀ x, x < 16 → s.absent x = true) : s.issue b l d = s := by
  by_cases hb : b < 16
  · unfold State.issue
    split
    · rfl
    · simp only [State.receiving_none hb h, ite_self]
  · exact State.issue_noCore (.inl (Nat.not_lt.mp hb))

/-- The work of a bay that presents no cores is written as if to the bay it is dealt to (R43). -/
theorem State.issue_dealt {x : Nat} (hb : b < 16) (ha : s.absent b = true) (hup : s.presentBays ≠ [])
    (hx : s.presentBays[(((List.range b).filter (fun x => s.absent x)).length * 16 + dealUnit s.dealKind l d) % s.presentBays.length]? = some x) :
    s.issue b l d = s.issue x l d := by
  have hmem : x ∈ s.presentBays := List.mem_of_getElem? hx
  obtain ⟨hx16, hxa⟩ : x < 16 ∧ s.absent x = false := by simpa [State.presentBays] using hmem
  by_cases hl : l < 16
  · cases hj : s.holder.bind s.holderJob with
    | none => rw [State.issue_noHolder hj, State.issue_noHolder hj]
    | some job =>
      rw [State.issue_of_receiving hj hb hl ((State.receiving_absent ha hup _).trans hx), State.issue_present hj hx16 hl hxa]
  · rw [State.issue_noCore (.inr (Nat.not_lt.mp hl)), State.issue_noCore (.inr (Nat.not_lt.mp hl))]

/-- Whether the control core holds a descriptor: no credit, or one of that core held already (R42, R54). -/
theorem State.issueAt_held
    (h : 64 ≤ (s.core b l).q.length ∨ s.underRemap b l = true ∨ ∃ x ∈ s.ccHeld, x.1 = coreKey b l) :
    s.issueAt b l job d = { s with
      ccHeld := s.ccHeld ++ [(coreKey b l, job, slice d 0 64)]
      cores := mset s.cores (coreKey b l) { s.core b l with waitFrom := some ((s.core b l).waitFrom.getD s.nowN) } } := by
  refine if_pos ?_
  obtain h | h | ⟨x, hx, hk⟩ := h
  · simp [State.noCredit, h]
  · simp [State.noCredit, h]
  · exact Bool.or_eq_true_iff.mpr (.inr (List.any_eq_true.mpr ⟨x, hx, by simpa using hk⟩))

theorem State.issueAt_credit (hq : (s.core b l).q.length < 64) (hr : s.underRemap b l = false)
    (hh : ∀ x ∈ s.ccHeld, x.1 ≠ coreKey b l) : s.issueAt b l job d = s.noteFirst.enqueue b l job d := by
  have hany : s.ccHeld.any (fun x => x.1 == coreKey b l) = false := by simpa using hh
  refine if_neg ?_
  simp [State.noCredit, hr, hany, Nat.not_le.mpr hq]

/-- Noting the run's first command leaves every queue as it is. -/
@[simp] theorem State.core_noteFirst : s.noteFirst.core b l = s.core b l := by
  unfold State.noteFirst
  split <;> rfl

theorem State.enqueue_eq {u : State}
    (hu : u = (s.count64 (.bay b) 0x128 0x12C 1).putCore b l
      { s.core b l with q := (s.core b l).q ++ [slice d 0 64], tail := ((s.core b l).tail + 1) % 64, job := some job }) :
    s.enqueue b l job d = if (s.core b l).q.isEmpty then u.headStep b l else u := by
  subst hu
  rfl

end Issue


/-- Settles O59: the model's test is the sign of the 32-bit difference, and the head's two cases are that test's. -/
theorem waitIsSignedDifference : Obligations.WaitIsSignedDifference := by
  refine ⟨reached_iff_toInt_nonneg, ?_⟩
  intro s b l job d q c t hc hq hj hh he hw hs hp hl hwait ht
  have hat : s.HeadAt b l c job d q := ⟨hc, hq, hj, hh, he, hw⟩
  have hsign := s.reached_pegValue_iff (cWaitPeg d) t
  rw [← ht] at hsign
  constructor
  · intro hneg
    exact State.headStep_waits hat hs hp hl hwait (Bool.eq_false_iff.mpr fun hr => absurd (hsign.mp hr) (Int.not_le.mpr hneg))
  · intro hpos
    exact State.headStep_starts hat hs hp hl (.inr (hsign.mpr hpos))

/-- Settles O49: each clause is one of the rules above, one named case for each clause. -/
theorem coreHeadsAndRetirement : Obligations.CoreHeadsAndRetirement := by
  refine ⟨?head, ?done, ?copy, ?retires, ?notDue, ?waitMet, ?waitTargets, ?invBegins, ?invEnds, ?stallIdle, ?noBay,
    ?progressBusy, ?stallBusy, ?watchdog⟩
  case head =>
    intro s b l c hc
    refine ⟨State.headStep_idle hc, fun d q job hq hj hh he hw => ?_⟩
    have hat : s.HeadAt b l c job d q := ⟨hc, hq, hj, hh, he, hw⟩
    exact ⟨State.headStep_started hat, fun hs hp => ⟨fun code => State.headStep_illegal hat hs hp, fun hl =>
      ⟨State.headStep_waits hat hs hp hl, State.headStep_starts hat hs hp hl⟩⟩⟩
  case done => exact fun s t b l job d tr => State.runHead_of_done
  case copy => exact fun d x e r => cmdOut_copy
  case retires =>
    intro s u v t b l d q hq he hu hv ht
    rw [exec_commandRetire_of_executed hq he, State.retireHead_eq hq hu hv ht]
  case notDue => exact fun s b l => exec_commandRetire_of_not_executed
  case waitMet =>
    intro s t b l job c d q hl hc h3 hq hj hh he hs hw hp hlegal hr ht
    subst hc ht
    rw [exec_pegWaitMet_waiting hl h3, State.headStep_starts ⟨rfl, hq, hj, hh, he, hw⟩ hs hp hlegal (.inr hr)]
    rfl
  case waitTargets =>
    exact fun s b k => ⟨exec_pegWaitMet_waiting, exec_pegWaitMet_notWaiting, rfl, exec_pegWaitMet_bayDma,
      exec_pegWaitMet_hostDma, exec_pegWaitMet_other⟩
  case invBegins => exact fun s b m => exec_bayRrcInv
  case invEnds => exact fun s b => ⟨exec_rrcInvDone_none, fun m => exec_rrcInvDone_some⟩
  case stallIdle =>
    intro s b k r hb hw hi hr hk
    subst hr hk
    rw [exec_controlCoreHeartbeatStall, State.controlFails_idle hb hw hi, State.controlRecord]
  case noBay =>
    intro s b
    refine ⟨fun h => ?_, fun h => ?_⟩
    · rw [exec_controlCoreHeartbeatStall, State.controlFails_noBay h]
    · exact h.elim exec_progressMonitorExpiry_idle exec_progressMonitorExpiry_noBay
  case progressBusy =>
    intro s b r hb hw hi hr
    rw [exec_progressMonitorExpiry_busy hi, State.controlFails_busy hb hw hi, hr, State.controlRecord]
  case stallBusy =>
    intro s b r hb hw hi hr
    rw [exec_controlCoreHeartbeatStall, State.controlFails_busy hb hw hi, hr, State.controlRecord]
  case watchdog =>
    intro s x o p hp
    rw [exec_creditWatchdogExpiry hp]
    refine ⟨fun h => congrArg _ (State.watchdog_quiet ?_), ?_, ?_, fun hw hq => congrArg _ (State.watchdog_expires hw hq)⟩
    · obtain h | h | h | h | h := h
      · exact .inr (State.watched_unwatched (.inl h))
      · exact .inr (State.watched_unwatched (.inr (.inl h)))
      · exact .inr (State.watched_unwatched (.inr (.inr h)))
      · exact .inl h
      · exact .inr h
    · rintro b slot l t rfl
      exact State.watched_core
    · intro b u job t d hu hm ht
      exact State.watched_of_heldFor hu (State.heldFor_of_mem hm ht)

/-- Settles O48: the nine rows write by one operation, so each clause is a case of that operation. -/
theorem coreCommandsIssued : Obligations.CoreCommandsIssued := by
  refine ⟨?credit, ?held, ?dealt, ?nothing, ?otherOpcode⟩
  case credit =>
    intro s t u b l job d c hj hb hl ha hc hq hr hh hu ht
    subst hc
    refine issueRows_of_issue ?_
    rw [State.issue_present hj hb hl ha, State.issueAt_credit hq hr hh, State.enqueue_eq (by simpa using hu), State.core_noteFirst]
    obtain ⟨hne, rfl⟩ | ⟨hnil, rfl⟩ := ht
    · exact if_neg (by simpa using hne)
    · exact if_pos (by simpa using hnil)
  case held =>
    intro s t b l job d hj hb hl ha hheld ht
    refine issueRows_of_issue ?_
    rw [State.issue_present hj hb hl ha, State.issueAt_held hheld, ht]
  case dealt =>
    intro s b l x kind d up hb ha hup hne hkind hx
    subst hup hkind
    have hsame : s.issue b l d = s.issue x l d := State.issue_dealt hb ha hne hx
    simp only [exec_coreNop, exec_copy, exec_gather, exec_matmul, exec_attn, exec_vectorOp, exec_quant, exec_prism, exec_topk,
      State.issueOp, hsame, and_self]
  case nothing =>
    intro s t b l d h ht
    subst ht
    refine issueRows_of_issue ?_
    obtain h | h | h | h := h
    · exact State.issue_noHolder h
    · exact State.issue_noCore (.inl h)
    · exact State.issue_noCore (.inr h)
    · exact State.issue_noBay h
  case otherOpcode =>
    intro s b l d
    have other : ∀ op, cOp d ≠ op → Host.Outcome.next (s.issueOp op b l d) = (.next s : Host.Outcome State Fault Refusal) :=
      fun op hop => congrArg _ (State.issueOp_ne hop)
    exact ⟨other 0x01, other 0x02, other 0x10, other 0x18, other 0x20, other 0x28, other 0x30, other 0x38⟩

/-! ### Two slots of one bay fail before the remap phase (R40) -/

/-- The record of a core fault of slot `k` of bay `b`, found by `checker`, when `spare` is the slot left to take its logical core. -/
def State.slotFaultRecord (s : State) (b k checker : Nat) (spare : Option Nat) : ErrRec :=
  let l := ((List.range 16).find? (fun i => s.slotOf b i == k)).getD 0x1F
  let d := (s.core b l).q.headD []
  { code := if spare.isSome then 0x0001 else 0x0002, sev := 3, source := (Page.core b k).source b, key := hwKey b k l (spare.getD 0x1F)
    detail := hwDetail (cTag d) (cOp d) checker ((s.failSlot b k).baysUp - b2n spare.isNone), job := s.coreJob b l }

/-- The slot fails as a contained fault, and a module with no job remaps at once. -/
def State.slotFault (s : State) (b k checker : Nat) (spare : Option Nat) : State :=
  let u := (s.failSlot b k).contained (.core b k) (s.slotFaultRecord b k checker spare)
  if u.jobs.isEmpty then u.remap else u

/-- While the remap of another core of the bay is due, the bay's spare is not this core's (R40). -/
theorem exec_coreFault {s : State} {b k checker line : Nat} (hb : b < 16) (hk : k < 17) (ha : s.slotState b k = 1) :
    exec (.containedFaultDetection 0 b k checker line) s =
      .next (s.slotFault b k checker (if s.remapDue b then none else s.spareSlot b)) := by
  show Host.Outcome.next (s.coreFault b k checker) = _
  rw [State.coreFault, if_neg (by simp [Nat.not_le.mpr hb, Nat.not_le.mpr hk, ha])]
  rfl

/-- A job stands on the module, a settings copy is being prepared, and slot 0 of bay 0 has had its core fault; its logical core
has not moved to the spare yet. -/
def firstSlotFailed : State :=
  ({ State.reset with jobs := [(0, {})], settings := { preparing := some {} } } : State).coreFault 0 0 0

theorem firstSlotFailed_remapDue : firstSlotFailed.remapDue 0 = true := by decide +kernel

theorem firstSlotFailed_spareSlot : firstSlotFailed.spareSlot 0 = some 16 := by decide +kernel

theorem firstSlotFailed_active : firstSlotFailed.slotState 0 1 = 1 := by decide +kernel

/-- The first-error capture of the slot's CORE page holds the code in its upper half: 0x0001 with a spare, 0x0002 without. -/
theorem firstSlotFailed_errorCode :
    (firstSlotFailed.slotFault 0 1 0 (some 16)).preg (.core 0 1) 0x020 = 0x00010000 ∧
    (firstSlotFailed.slotFault 0 1 0 none).preg (.core 0 1) 0x020 = 0x00020000 := by
  decide +kernel

/-- What O54's first clause says: the spare is whatever slot is healthy and unmapped. -/
theorem exec_coreFault_of_faultsDetected (h : Obligations.FaultsDetected) {s : State} {b k c l : Nat} (hb : b < 16) (hk : k < 17)
    (ha : s.slotState b k = 1) : exec (.containedFaultDetection 0 b k c l) s = .next (s.slotFault b k c (s.spareSlot b)) :=
  h.1 s _ b k c l _ hb hk ha rfl rfl

/-- Refutes O54: the first clause gives a core fault of an active slot the code 0x0001 whenever the bay has a healthy unmapped
slot. In `firstSlotFailed` that slot is due to the core of slot 0, so the model faults slot 1 with no spare, code 0x0002. -/
theorem not_faultsDetected : ¬ Obligations.FaultsDetected := by
  intro h
  have hclause := exec_coreFault_of_faultsDetected (c := 0) (l := 0) h (by decide) (by decide) firstSlotFailed_active
  have hmodel := exec_coreFault (checker := 0) (line := 0) (by decide) (by decide) firstSlotFailed_active
  rw [firstSlotFailed_spareSlot] at hclause
  rw [firstSlotFailed_remapDue, if_pos rfl] at hmodel
  have hsame := Host.Outcome.next.inj (hclause.symm.trans hmodel)
  obtain ⟨hspare, hnone⟩ := firstSlotFailed_errorCode
  rw [hsame, hnone] at hspare
  exact absurd hspare (by decide)

end Sys2Proof.Machine
end

section
/-!
# Number formats: the scale of a BB16 block

The scale code of a BB16 block is found by a search upwards over the UE5M3 codes. O60 says that UE5M3 values rise with their
codes, so that this search is for the smallest value, and what the search can end with.
-/

namespace Sys2Proof.Machine

/-! ### UE5M3 values rise with their codes (R88) -/

theorem Num.lt_fin_sameExponent (m n : Nat) (e : Int) : Num.lt (.fin false m e) (.fin false n e) = decide (m < n) := by
  simp [Num.lt, Num.mantAt]

theorem Num.lt_fin_nextExponent (m n : Nat) (e : Int) :
    Num.lt (.fin false m e) (.fin false n (e + 1)) = decide (m < 2 * n) := by
  have hmin : min e (e + 1) = e := min_eq_left (by omega)
  have hshift : (e + 1 - e).toNat = 1 := by omega
  simp only [Num.lt, Num.mantAt, hmin, hshift, sub_self, Int.toNat_zero, Bool.false_eq_true, ↓reduceIte, decide_eq_decide]
  omega

/-- Between the zero scale and the NaN, code `c` has the significand `8 + c % 8` at the exponent of its binade `c / 8`. -/
theorem ue5m3_eq_fin {c : Nat} (h1 : 1 ≤ c) (hc : c ≤ 0xFE) :
    ue5m3 c = .fin false (8 + c % 8) ((c / 8 : Nat) - 16 - 3) := by
  rw [ue5m3, if_neg (by omega), if_neg (by omega)]

/-- The next code is the next significand of the same binade, or the first one of the next binade. -/
theorem ue5m3_lt_succ {c : Nat} (h1 : 1 ≤ c) (hc : c < 0xFE) : Num.lt (ue5m3 c) (ue5m3 (c + 1)) = true := by
  rw [ue5m3_eq_fin h1 (by omega), ue5m3_eq_fin (by omega) hc]
  by_cases hlast : c % 8 = 7
  · have hbinade : (((c + 1) / 8 : Nat) : Int) - 16 - 3 = ((c / 8 : Nat) - 16 - 3) + 1 := by omega
    rw [hbinade, Num.lt_fin_nextExponent, decide_eq_true_iff]
    omega
  · have hbinade : (c + 1) / 8 = c / 8 := by omega
    rw [hbinade, Num.lt_fin_sameExponent, decide_eq_true_iff]
    omega

/-! ### The search for the scale code (R106) -/

/-- The scale of code `k` reaches `amax`: amax ≤ EMAX × s, compared exactly. -/
def bbScaleFits (fmt : Nat) (amax : Num) (k : Nat) : Bool := Num.le amax ((qEmax fmt).mul (ue5m3 k))

/-- The search takes the first code that fits among the `fuel` codes from `c` up. -/
theorem bbScaleFrom_eq_find? (fmt : Nat) (amax : Num) (fuel c : Nat) :
    bbScaleFrom fmt amax fuel c = ((List.range' c fuel).find? (bbScaleFits fmt amax)).getD 0xFE := by
  induction fuel generalizing c with
  | zero => rfl
  | succ fuel ih =>
    rw [bbScaleFrom, ih, List.range'_succ, List.find?_cons, bbScaleFits]
    cases Num.le amax ((qEmax fmt).mul (ue5m3 c))
    case false => rfl
    case true => rfl

/-- The search over all the codes of R106 ends at the first one that fits, or at 0xFE when none does. -/
theorem bbScaleFrom_one_cases (fmt : Nat) (amax : Num) {c : Nat} (h : c = bbScaleFrom fmt amax 254 1) :
    (bbScaleFits fmt amax c = true ∧ 1 ≤ c ∧ c ≤ 0xFE ∧ ∀ k, 1 ≤ k → k < c → bbScaleFits fmt amax k = false) ∨
    (c = 0xFE ∧ ∀ k, 1 ≤ k → k ≤ 0xFE → bbScaleFits fmt amax k = false) := by
  rw [bbScaleFrom_eq_find?] at h
  cases hfind : (List.range' 1 254).find? (bbScaleFits fmt amax) with
  | none =>
    rw [hfind] at h
    have hnone := List.find?_range'_eq_none.1 hfind
    exact .inr ⟨h, fun k h1 hk => by simpa using hnone k h1 (by omega)⟩
  | some i =>
    rw [hfind] at h
    subst h
    obtain ⟨hfits, hmem, hbefore⟩ := List.find?_range'_eq_some.1 hfind
    obtain ⟨h1, hlt⟩ := List.mem_range'_1.1 hmem
    exact .inl ⟨hfits, h1, by simpa using Nat.le_of_lt_succ hlt, fun k hk1 hk => by simpa using hbefore k hk1 hk⟩

/-- The scale code of a block in a BB16 format, of finite elements that are not all zero is the one the search finds. -/
theorem quantBlock_fst_of_isMX_eq_false {fmt : Nat} {xs : List Num} (hmx : isMX fmt = false) (hfin : xs.any Num.nonFinite = false)
    (hne : ((xs.map Num.abs).foldl Num.max .zero).isZero = false) :
    (quantBlock fmt xs).1 = bbScaleFrom fmt ((xs.map Num.abs).foldl Num.max .zero) 254 1 := by
  simp [quantBlock, hfin, hne, hmx]

/-- Settles O60: the code is the search's, and the search ends at the first code that fits or, when none fits, at 0xFE. -/
theorem bb16ScaleIsSmallest : Obligations.Bb16ScaleIsSmallest := by
  refine ⟨fun c => ue5m3_lt_succ, rfl, rfl, ?code⟩
  case code =>
    intro fmt c xs amax hfmt hfin hamax hne hc
    have hmx : isMX fmt = false := by obtain rfl | rfl := hfmt <;> rfl
    subst hamax
    rw [quantBlock_fst_of_isMX_eq_false hmx hfin hne] at hc
    obtain ⟨hfits, h1, hle, hbefore⟩ | ⟨rfl, hnone⟩ := bbScaleFrom_one_cases _ _ hc
    · exact ⟨h1, hle, hbefore, .inl hfits⟩
    · exact ⟨by decide, le_rfl, fun k h1 hk => hnone k h1 hk.le, .inr ⟨rfl, hnone⟩⟩

end Sys2Proof.Machine
end

section
/-!
# Switches of a job's recipe bank, placement bank and level

RECIPE_SWITCH, PLACEMENT_SWITCH and LEVEL_CHANGE are one operation on three quantities of a job. Its outcomes are proved once,
for any quantity, and each clause of O23 is that rule for one of the three.
-/

namespace Sys2Proof.Machine

open Sys2Proof

/-- When the ring gives a legal entry with the command's operation code, the command is its operation on that entry. -/
theorem State.onEntry_of_takeEntry {s t : State} {r : Ring} {op : Nat} {e : Entry} (f : State → Entry → State)
    (h : s.takeEntry r op = some (t, some e)) : s.onEntry r op f = f t e := by
  simp only [State.onEntry, h]

/-! ### The outcomes of a switch entry (R136, R474, Table 04-5; the order of the refusals is log 259) -/

/-- The switch that an accepted entry leaves pending: the value at byte 16, the effective count at byte 24. -/
def Entry.pendingSwitch (e : Entry) : Switch := { ring := e.ring, cookie := e.cookie, value := e.f 16 1, effective := e.f 24 8 }

section SwitchEntry
variable {s : State} {e : Entry} {get : Job → Banked} {put : Job → Banked → Job} {legal : Nat → Bool}
  {bad : State → Nat → Job → Nat → Option Nat} {j : Job} (hj : s.job e.jobNum = some j)
include hj

theorem State.switchEntry_notServing (hp : j.phase ≠ .serving) : s.switchEntry e get put legal bad = s.complete e stJob := by
  simp [State.switchEntry, hj, hp]

variable (hp : j.phase = .serving)
include hp

/-- The value stands at byte 16 of the entry. -/
theorem State.switchEntry_illegal (hv : legal (e.f 16 1) = false) :
    s.switchEntry e get put legal bad = s.complete e stInvalid 16 := by
  simp [State.switchEntry, hj, hp, hv]

variable (hv : legal (e.f 16 1) = true) (hr : reservedBad e.bytes [(17, 7), (32, 32)] = none) (hn : (get j).pending = none)
include hv hr hn

theorem State.switchEntry_late (hc : e.f 24 8 < s.nowN + 24576) :
    s.switchEntry e get put legal bad = s.complete e stLate := by
  simp [State.switchEntry, hj, hp, hv, hr, hn, hc]

theorem State.switchEntry_pending (hc : s.nowN + 24576 ≤ e.f 24 8) (hb : bad s e.jobNum j (e.f 16 1) = none) :
    s.switchEntry e get put legal bad =
      (s.setJob e.jobNum (put j { get j with pending := some e.pendingSwitch })).showBank e.jobNum := by
  simp [State.switchEntry, Entry.pendingSwitch, hj, hp, hv, hr, hn, Nat.not_lt.2 hc, hb]

end SwitchEntry

/-! ### The three switches -/

section Commands
variable {s t : State} {r : Ring} {e : Entry}

theorem exec_recipeSwitch (h : s.takeEntry r 0x20 = some (t, some e)) : exec (.recipeSwitch r) s =
    .next (t.switchEntry e (·.recipe) (fun j b => { j with recipe := b }) (· < 2) State.recipesBad) :=
  congrArg _ (State.onEntry_of_takeEntry _ h)

theorem exec_placementSwitch (h : s.takeEntry r 0x21 = some (t, some e)) : exec (.placementSwitch r) s =
    .next (t.switchEntry e (·.placement) (fun j b => { j with placement := b }) (· < 2)
      (fun s n j v => s.bankBad n j (j.bankVa v) s.endpoint)) :=
  congrArg _ (State.onEntry_of_takeEntry _ h)

theorem exec_levelChange (h : s.takeEntry r 0x22 = some (t, some e)) : exec (.levelChange r) s =
    .next (t.switchEntry e (·.level) (fun j b => { j with level := b }) (fun v => 2 ≤ v && v ≤ 3) (fun _ _ _ _ => none)) :=
  congrArg _ (State.onEntry_of_takeEntry _ h)

end Commands

/-- A command that is a switch entry's operation on an entry of job `j` has the outcomes of Table 04-5. -/
theorem switchCommand_outcomes {x : Host.Outcome State Fault Refusal} {t : State} {e : Entry} {j : Job} {get : Job → Banked}
    {put : Job → Banked → Job} {legal : Nat → Bool} {bad : State → Nat → Job → Nat → Option Nat}
    (hx : x = .next (t.switchEntry e get put legal bad)) (hj : t.job e.jobNum = some j) :
    (j.phase ≠ .serving → x = .next (t.complete e stJob)) ∧
    (j.phase = .serving → legal (e.f 16 1) = false → x = .next (t.complete e stInvalid 16)) ∧
    (j.phase = .serving → legal (e.f 16 1) = true → reservedBad e.bytes [(17, 7), (32, 32)] = none → (get j).pending = none →
      (e.f 24 8 < t.nowN + 24576 → x = .next (t.complete e stLate)) ∧
      (t.nowN + 24576 ≤ e.f 24 8 → bad t e.jobNum j (e.f 16 1) = none →
        x = .next ((t.setJob e.jobNum (put j { get j with pending := some e.pendingSwitch })).showBank e.jobNum))) := by
  subst hx
  refine ⟨fun hp => ?notServing, fun hp hv => ?illegal, fun hp hv hr hn => ⟨fun hc => ?late, fun hc hb => ?pending⟩⟩
  case notServing => rw [State.switchEntry_notServing hj hp]
  case illegal => rw [State.switchEntry_illegal hj hp hv]
  case late => rw [State.switchEntry_late hj hp hv hr hn hc]
  case pending => rw [State.switchEntry_pending hj hp hv hr hn hc hb]

/-- Settles O23: each switch is the one operation on its own quantity, so its clauses are that operation's outcomes with the
quantity's own test of a legal value. -/
theorem switches : Obligations.Switches := by
  refine ⟨?recipe, ?placement, ?level⟩
  case recipe =>
    intro s t r e j h hj
    obtain ⟨notServing, illegal, taken⟩ := switchCommand_outcomes (exec_recipeSwitch h) hj
    exact ⟨notServing, fun hp hv => illegal hp (decide_eq_false (Nat.not_lt.2 hv)), fun hp hv => taken hp (decide_eq_true hv)⟩
  case placement =>
    intro s t r e j h hj
    obtain ⟨notServing, illegal, taken⟩ := switchCommand_outcomes (exec_placementSwitch h) hj
    exact ⟨notServing, fun hp hv => illegal hp (decide_eq_false (Nat.not_lt.2 hv)), fun hp hv => taken hp (decide_eq_true hv)⟩
  case level =>
    intro s t r e j h hj
    obtain ⟨notServing, illegal, taken⟩ := switchCommand_outcomes (exec_levelChange h) hj
    refine ⟨notServing, fun hp hv => illegal hp (by simp [hv]), fun hp hlo hhi hr hn => ?_⟩
    obtain ⟨late, pending⟩ := taken hp (by simp [hlo, hhi]) hr hn
    exact ⟨late, fun hc => pending hc rfl⟩

end Sys2Proof.Machine
end

section
/-!
# Staging of parked pages, the hold-up check and the lifetime checkpoint

STAGING_DESCRIPTOR_START and STAGING_INSTALL each have one equation for each outcome; the clauses of O30 are these equations and
the ones of the three commands that follow them.
-/

namespace Sys2Proof.Machine

open Sys2Proof

/-! ### The start of a staging read (R166, R235, R255) -/

/-- A demand promotion that could start comes before the descriptor: its deadline is not later (log 265). -/
def State.promotionAhead (s : State) (g : Stage) : Bool :=
  s.movesDue.any (fun m => m.kind == .demand && (g.deadline == 0 || decide (m.deadline ≤ g.deadline)) && (s.startMove m).isSome)

/-- The issued descriptor of `g`'s SEQ is marked as started. -/
def State.markStarted (s : State) (g : Stage) : State :=
  { s with stages := s.stages.map (fun (h : Stage) => if h.seq == g.seq && h.issued then { h with started := true } else h) }

section Start
variable {s : State} {g : Stage}

theorem exec_stagingDescriptorStart : exec .stagingDescriptorStart s = .next s.stageStart := rfl

theorem State.stageStart_of_not_deepReads (hd : s.deepReads = false) : s.stageStart = s := by
  simp [State.stageStart, hd]

theorem State.stageStart_of_nextStage_none (hn : s.nextStage = none) : s.stageStart = s := by
  simp [State.stageStart, hn]

/-- With a descriptor to serve, the order of deadlines decides, and then whether its unit is in use. -/
theorem State.stageStart_of_nextStage (hd : s.deepReads = true) (hn : s.nextStage = some g) :
    s.stageStart = if s.promotionAhead g then s
      else if (mget s.unitKeys (g.ref % 2 ^ 29)).isSome then (s.markStarted g).flashRead (unitLa (g.ref % 2 ^ 29)) (4096 * g.width)
      else s.markStarted g := by
  rw [State.stageStart, hd, hn]
  rfl

end Start

/-! ### The end of a staging read (R166, R173, R174, R255) -/

section Install
variable {s : State} {seq : Nat} {ok : Bool} {g : Stage} {j : Job} {x : Stream}

theorem exec_stagingInstall : exec (.stagingInstall seq ok) s = .next (s.stageInstall seq ok) := rfl

theorem State.stageInstall_of_not_started (hf : s.stages.find? (fun g => g.issued && g.started && g.seq == seq) = none) :
    s.stageInstall seq ok = s := by
  simp [State.stageInstall, hf]

variable (hf : s.stages.find? (fun g => g.issued && g.started && g.seq == seq) = some g) (hj : s.job g.key.job = some j)
  (hx : s.stream g.key.stream = some x)
include hf hj hx

/-- The stream was closed, belongs to another job by now, or its entry was changed: only the frame is given back. -/
theorem State.stageInstall_of_stale (h : g.dropped = true ∨ x.job ≠ g.key.job ∨ pteState (s.pte g.key x j.hg g.page) ≠ 2) :
    s.stageInstall seq ok = s.stageGone g true := by
  have hstale : (g.dropped || x.job != g.key.job || pteState (s.pte g.key x j.hg g.page) != 2) = true := by
    simpa [or_assoc] using h
  simp [State.stageInstall, hf, hj, hx, hstale]

variable (hjob : x.job = g.key.job) (hpte : pteState (s.pte g.key x j.hg g.page) = 2) (hdrop : g.dropped = false)
include hjob hpte hdrop

theorem State.stageInstall_of_stageWrite {u : State} (hok : s.stageBad g ok x.len = none) (hu : s.stageWrite g j = .ok u) :
    s.stageInstall seq ok =
      ((u.setPte g.key x j.hg g.page (pteMake 1 true (ptePen (s.pte g.key x j.hg g.page)) g.frame)).stageGone g false).stepScribes := by
  simp [State.stageInstall, hf, hj, hx, hjob, hpte, hdrop, hok, hu]

theorem State.stageInstall_of_stageBad {code : Nat} {v : State} (hbad : s.stageBad g ok x.len = some code)
    (htail : x.tailAt g.page = false)
    (hv : v = (s.storedState code g.key (slice g.desc 0 16) (unitLa (g.ref % 2 ^ 29))).irq (.scribe g.bay) 2) :
    s.stageInstall seq ok =
      ((((v.setPte g.key x j.hg g.page (pteMake 3 false (ptePen (s.pte g.key x j.hg g.page)) 0)).degrade g.key.stream).penOnlyPage
        g.key g.page).stageGone g true).stepScribes := by
  simp [State.stageInstall, hf, hj, hx, hjob, hpte, hdrop, hbad, htail, hv]

end Install

/-! ### ATTENTION_CUTOFF, HOLDUP_CHECK and LIFETIME_CHECKPOINT (R167, R268, R270) -/

section Checks
variable {s : State}

theorem exec_attentionCutoff : exec .attentionCutoff s = .next s.stepScribes := rfl

/-- The interrupt comes with the fall of HOLDUP_OK alone. -/
theorem exec_holdupCheck {t : State} {ok : Bool} (ht : t = s.setPreg .deep 0x100 (wassign (s.preg .deep 0x100) 9 ok)) :
    exec (.holdupCheck ok) s = .next (if wbit (s.preg .deep 0x100) 9 = true ∧ ok = false then t.irq .deep 4 else t) := by
  show Host.Outcome.next (s.holdupCheck ok) = _
  simp [State.holdupCheck, ht]

theorem exec_lifetimeCheckpoint : exec .lifetimeCheckpoint s = .next s.checkpointNow := rfl

end Checks

/-- Settles O30: each clause is one of the equations above, one named case for each clause. -/
theorem stagingAndDeepChecks : Obligations.StagingAndDeepChecks := by
  refine ⟨?start, ?noStart, ?installed, ?failed, ?stale, ?notStarted, fun _ => exec_attentionCutoff, fun _ _ _ => exec_holdupCheck,
    fun _ => exec_lifetimeCheckpoint⟩
  case start =>
    rintro s t g ahead hd hn hahead rfl
    have hstart := State.stageStart_of_nextStage hd hn
    rw [State.promotionAhead, ← hahead] at hstart
    refine ⟨fun ha => ?ahead, fun ha hu => ?inUse, fun ha hu => ?free⟩
    case ahead => rw [exec_stagingDescriptorStart, hstart, if_pos ha]
    case inUse =>
      rw [exec_stagingDescriptorStart, hstart, ha, if_neg Bool.false_ne_true, if_pos hu]
      rfl
    case free =>
      rw [exec_stagingDescriptorStart, hstart, ha, if_neg Bool.false_ne_true, hu]
      rfl
  case noStart =>
    rintro s (hd | hnone)
    · rw [exec_stagingDescriptorStart, State.stageStart_of_not_deepReads hd]
    · rw [exec_stagingDescriptorStart, State.stageStart_of_nextStage_none (congrArg earliest hnone)]
  case installed =>
    rintro s u seq g j x _ hf hj hx hjob rfl hpte hdrop hok hu
    rw [exec_stagingInstall, State.stageInstall_of_stageWrite hf hj hx hjob hpte hdrop hok hu]
  case failed =>
    rintro s v seq ok g j x _ code hf hj hx hjob rfl hpte hdrop hbad htail hv
    rw [exec_stagingInstall, State.stageInstall_of_stageBad hf hj hx hjob hpte hdrop hbad htail hv]
  case stale =>
    intro s seq ok g j x hf hj hx h
    rw [exec_stagingInstall, State.stageInstall_of_stale hf hj hx h]
  case notStarted =>
    intro s seq ok hf
    rw [exec_stagingInstall, State.stageInstall_of_not_started hf]

end Sys2Proof.Machine
end

section
/-!
# Expert rows: what a dovetail port is handed, a slot's work and the grants

O58 follows SCATTER and RETURN to the port that takes them, and the pegs that reach a target to the work, the grant lines
or the granted rows that wait on them. Each operation is taken here to the test that decides it.
-/

namespace Sys2Proof.Machine

open Sys2Proof

theorem State.holder_of_passNow {s : State} {n : Nat} {p : Pass} (hp : s.passNow n = some p) : s.holder = some (.pass n) := by
  unfold State.passNow at hp
  split at hp
  · next h => exact beq_iff_eq.mp h
  · cases hp

/-! ### Handing a descriptor to a port (R186, R187) -/

/-- A port takes a descriptor in pass `p`: a RETURN at a bay that presents cores, another at the port that the pass fixed for
its layer, which has had none. -/
def State.dvTakes (s : State) (p : Pass) (b : Nat) (d : List Byte) : Prop :=
  if cOp d = 2 then s.absent b = false else (mget p.scatterBays (dvLayer d)).getD b = b ∧ dvLayer d ∉ p.scattered

section Push
variable {s : State} {b n : Nat} {d : List Byte} {p : Pass}

theorem State.dvTakes_of_return (hd : cOp d = 2) : s.dvTakes p b d ↔ s.absent b = false := by
  simp [State.dvTakes, hd]

theorem State.dvTakes_of_not_return (hd : cOp d ≠ 2) :
    s.dvTakes p b d ↔ (mget p.scatterBays (dvLayer d)).getD b = b ∧ dvLayer d ∉ p.scattered := by
  simp [State.dvTakes, hd]

/-- The model's own test says whether the port takes the descriptor. -/
theorem State.dvTakes_iff : s.dvTakes p b d ↔
    (if cOp d == 2 then !s.absent b
      else (mget p.scatterBays (dvLayer d)).getD b == b && !p.scattered.contains (dvLayer d)) = true := by
  by_cases hd : cOp d = 2
  · simp [State.dvTakes_of_return hd, hd]
  · simp [State.dvTakes_of_not_return hd, hd]

theorem State.dvPush_of_no_pass (hh : ∀ j, s.holder ≠ some (.pass j)) : s.dvPush b d = s := by
  unfold State.dvPush
  split
  · next j hj => exact absurd hj (hh j)
  · rfl

theorem State.dvPush_of_not_taken (hp : s.passNow n = some p) (h : 16 ≤ b ∨ 16 ≤ (s.dove b).q.length ∨ ¬ s.dvTakes p b d) :
    s.dvPush b d = s := by
  rw [State.dvTakes_iff, Bool.not_eq_true] at h
  simp only [State.dvPush, State.holder_of_passNow hp, hp]
  rw [if_pos]
  simpa [or_assoc] using h

/-- A SCATTER also marks its layer as handed over. -/
theorem State.dvPush_of_taken (hp : s.passNow n = some p) (hb : b < 16) (hq : (s.dove b).q.length < 16)
    (ht : s.dvTakes p b d) : s.dvPush b d =
      ((if cOp d = 1 then s.modPass n (fun p => { p with scattered := sinsert p.scattered (dvLayer d) }) else s).putDove b
        { s.dove b with q := (s.dove b).q ++ [slice d 0 64], job := n }).dvStep b := by
  rw [State.dvTakes_iff] at ht
  simp only [State.dvPush, State.holder_of_passNow hp, hp]
  rw [ht, if_neg (by simp [hb, hq])]
  simp only [beq_iff_eq]

theorem exec_scatter_of_return (hd : cOp d = 2) : exec (.scatter b d) s = .next s := by
  show Host.Outcome.next (if cOp d == 2 then s else s.dvPush b d) = _
  simp [hd]

theorem exec_scatter_of_not_return (hd : cOp d ≠ 2) : exec (.scatter b d) s = .next (s.dvPush b d) := by
  show Host.Outcome.next (if cOp d == 2 then s else s.dvPush b d) = _
  simp [hd]

theorem exec_returnRows_of_return (hd : cOp d = 2) : exec (.returnRows b d) s = .next (s.dvPush b d) := by
  show Host.Outcome.next (if cOp d == 2 then s.dvPush b d else s) = _
  simp [hd]

theorem exec_returnRows_of_not_return (hd : cOp d ≠ 2) : exec (.returnRows b d) s = .next s := by
  show Host.Outcome.next (if cOp d == 2 then s.dvPush b d else s) = _
  simp [hd]

/-- A push that changes nothing makes SCATTER change nothing, whatever the opcode. -/
theorem exec_scatter_of_dvPush_eq (h : cOp d ≠ 2 → s.dvPush b d = s) : exec (.scatter b d) s = .next s := by
  by_cases hd : cOp d = 2
  · exact exec_scatter_of_return hd
  · rw [exec_scatter_of_not_return hd, h hd]

theorem exec_returnRows_of_dvPush_eq (h : cOp d = 2 → s.dvPush b d = s) : exec (.returnRows b d) s = .next s := by
  by_cases hd : cOp d = 2
  · rw [exec_returnRows_of_return hd, h hd]
  · exact exec_returnRows_of_not_return hd

end Push

/-! ### A slot's work at its arrival target (R199–R202) -/

section Work
variable {s : State} {b k sl la tag ix dst st n : Nat} {p : Pass} {j : Job} {bk : Bank} {below : List (Bool × Nat × Bool)}

theorem exec_arrivalPegTarget : exec (.arrivalPegTarget b k sl la tag ix dst st) s = .next (s.buildWork b k sl la tag ix dst st) := rfl

theorem State.buildWork_of_no_pass (hh : ∀ j, s.holder ≠ some (.pass j)) : s.buildWork b k sl la tag ix dst st = s := by
  unfold State.buildWork
  split
  · next j hj => exact absurd hj (hh j)
  · rfl

/-- A bank's instances of a layer, one of them at slot `sl` of this module. -/
def State.servesSlot (s : State) (bk : Bank) (sl : Nat) : Bool :=
  bk.instances.any (fun w => repEndpoint w == s.endpoint && repSlot w == sl)

/-- The slot's arrival peg has reached the layer's target. -/
def State.arrived (s : State) (p : Pass) (bk : Bank) (below : List (Bool × Nat × Bool)) (sl : Nat) (ex half : Bool) : Bool :=
  reached (s.pegValue (bk.arrivalPeg sl)) (p.baseOf (bk.arrivalPeg sl) + arrivalTarget bk.sources below ex half)

/-- The wait of a slot's first chunk: its done peg, once it has served a layer below. -/
def Pass.doneWait (p : Pass) (bk : Bank) (below : List (Bool × Nat × Bool)) (sl : Nat) : Option (Nat × Nat) :=
  if servedBelow below = 0 then none else some (bk.donePeg sl, (p.baseOf (bk.donePeg sl) + servedBelow below) % 2 ^ 32)

variable (hp : s.passNow n = some p) (hj : s.job n = some j) (hbk : s.bank n p.placementBank la = .ok bk)
  (hbelow : s.layerInfo n p.placementBank s.endpoint sl la = .ok below)
include hp hj hbk hbelow

theorem State.buildWork_of_not_due
    (h : s.arrived p bk below sl (bk.exchange la) false = false ∨ 16 ≤ b ∨ s.absent b = true ∨ s.servesSlot bk sl = false) :
    s.buildWork b k sl la tag ix dst st = s := by
  have htest : (!s.servesSlot bk sl || decide (16 ≤ b) || s.absent b ||
      !s.arrived p bk below sl (bk.exchange la) false) = true := by
    rcases h with h | h | h | h <;> simp [h]
  simp only [State.buildWork, State.holder_of_passNow hp, hp, hj, hbk, hbelow]
  exact if_pos htest

variable {cs : List Nat} (harr : s.arrived p bk below sl (bk.exchange la) false = true) (hb : b < 16) (ha : s.absent b = false)
  (hserves : s.servesSlot bk sl = true) (hcs : s.countsOf n bk sl la p.label (bk.exchange la) bk.sources = .ok (some cs))
  {rows : List (Nat × Nat × Nat)} {step c : Nat} (hrows : rows = compacted (bk.exchange la) bk.exchCap cs)
  (hstep : step = max 1 (manStep j.manifest la)) (hc : c = (mget p.chunks (sl * 256 + la)).getD 0)
include harr hb ha hserves hcs hrows hstep hc

/-- With every source's count in, the number of chunks and the chunks handed over so far decide what comes next. -/
theorem State.buildWork_of_countsOf : s.buildWork b k sl la tag ix dst st =
    if manTrips j.manifest la < ceilDiv rows.length step then s.dvFault b n 9 (emptyReturn tag 0 sl la)
    else if max 1 (ceilDiv rows.length step) ≤ c then s
    else
      let u := s.modPass n (fun p => { p with chunks := mset p.chunks (sl * 256 + la) (c + 1) })
      if rows = [] then u.dvPush b (emptyReturn tag dst sl la)
      else u.gatherChunk b k n bk sl (bk.exchange la) tag ix dst st step (p.doneWait bk below sl) rows c := by
  have htest : ¬ (!s.servesSlot bk sl || decide (16 ≤ b) || s.absent b ||
      !s.arrived p bk below sl (bk.exchange la) false) = true := by
    simp [harr, hb, ha, hserves]
  subst hrows hstep hc
  simp only [State.buildWork, State.holder_of_passNow hp, hp, hj, hbk, hbelow]
  refine (if_neg htest).trans ?_
  simp only [hcs, List.isEmpty_iff]
  rfl

theorem State.buildWork_of_too_many_chunks (h : manTrips j.manifest la < ceilDiv rows.length step) :
    s.buildWork b k sl la tag ix dst st = s.dvFault b n 9 (emptyReturn tag 0 sl la) := by
  rw [State.buildWork_of_countsOf hp hj hbk hbelow harr hb ha hserves hcs hrows hstep hc, if_pos h]

variable (hm : ceilDiv rows.length step ≤ manTrips j.manifest la)
include hm

theorem State.buildWork_of_all_chunks (h : max 1 (ceilDiv rows.length step) ≤ c) : s.buildWork b k sl la tag ix dst st = s := by
  rw [State.buildWork_of_countsOf hp hj hbk hbelow harr hb ha hserves hcs hrows hstep hc, if_neg (Nat.not_lt.mpr hm), if_pos h]

variable {u : State} (hu : u = s.modPass n (fun p => { p with chunks := mset p.chunks (sl * 256 + la) (c + 1) }))
include hu

theorem State.buildWork_of_no_rows (hnil : rows = []) (h0 : c = 0) :
    s.buildWork b k sl la tag ix dst st = u.dvPush b (emptyReturn tag dst sl la) := by
  rw [State.buildWork_of_countsOf hp hj hbk hbelow harr hb ha hserves hcs hrows hstep hc, if_neg (Nat.not_lt.mpr hm),
    if_neg (by omega), if_pos hnil, hu]

theorem State.buildWork_of_rows (hne : rows ≠ []) (h : c < ceilDiv rows.length step) :
    s.buildWork b k sl la tag ix dst st =
      u.gatherChunk b k n bk sl (bk.exchange la) tag ix dst st step (p.doneWait bk below sl) rows c := by
  rw [State.buildWork_of_countsOf hp hj hbk hbelow harr hb ha hserves hcs hrows hstep hc, if_neg (Nat.not_lt.mpr hm),
    if_neg (by omega), if_neg hne, hu]

end Work

/-! ### Grants (R213) -/

/-- One source's grant line of queue `q` and, behind a fence, the increment of its grant peg. -/
def State.sendGrant (s : State) (n q sl la label : Nat) (bk : Bank) (g : (Nat × Nat) × Nat) : State :=
  (s.sendReq dovetailEngine n (pktWrite (bk.source g.2) bk.grantWin (q * 128) 0 (grantLine g.1.1 g.1.2 (bk.queueEpoch sl) la label))).fence
    dovetailEngine n (some (bk.source g.2)) [pktInc (bk.source g.2) bk.grantWin bk.grantPeg 1 0]

section Grants
variable {s : State} {b sl la n : Nat} {p : Pass} {bk : Bank} {below : List (Bool × Nat × Bool)} {x : Nat × Nat}

theorem exec_exchangeGrant : exec (.exchangeGrant b sl la) s = .next (s.grantRows b sl la) := rfl

theorem State.grantRows_of_no_pass (hh : ∀ j, s.holder ≠ some (.pass j)) : s.grantRows b sl la = s := by
  unfold State.grantRows
  split
  · next j hj => exact absurd hj (hh j)
  · rfl

variable (hp : s.passNow n = some p) (hbk : s.bank n p.placementBank la = .ok bk)
  (hbelow : s.layerInfo n p.placementBank s.endpoint sl la = .ok below)
  (hx : (bk.instances.zipIdx).find? (fun x => repEndpoint x.1 == s.endpoint && repSlot x.1 == sl) = some x)
include hp hbk hbelow hx

theorem State.grantRows_of_not_due (h : bk.exchange la = false ∨ s.arrived p bk below sl true true = false) :
    s.grantRows b sl la = s := by
  have htest : (!bk.exchange la || decide (16 ≤ b) || s.absent b || !s.arrived p bk below sl true true) = true := by
    rcases h with h | h <;> simp [h]
  simp only [State.grantRows, State.holder_of_passNow hp, hp, hbk, hbelow, hx]
  exact if_pos htest

theorem State.grantRows_of_countsOf {cs : List Nat} (hex : bk.exchange la = true) (harr : s.arrived p bk below sl true true = true)
    (hb : b < 16) (ha : s.absent b = false) (hcs : s.countsOf n bk sl la p.label true bk.sources = .ok (some cs)) :
    s.grantRows b sl la = ((grantsOf bk.exchCap 0 cs).zipIdx).foldl (fun s g => s.sendGrant n x.2 sl la p.label bk g) s := by
  have htest : ¬ (!bk.exchange la || decide (16 ≤ b) || s.absent b || !s.arrived p bk below sl true true) = true := by
    simp [hex, harr, hb, ha]
  simp only [State.grantRows, State.holder_of_passNow hp, hp, hbk, hbelow, hx]
  refine (if_neg htest).trans ?_
  simp only [hcs]
  rfl

end Grants

section Taking
variable {s : State} {b : Nat}

theorem exec_grantPegTarget : exec (.grantPegTarget b) s = .next (s.takeGrants b) := rfl

theorem State.takeGrants_of_not_waiting (h : (s.dove b).q = [] ∨ (s.dove b).phase ≠ 2) : s.takeGrants b = s := by
  simp only [State.takeGrants]
  split
  · next d q p hq hp =>
    have hphase : (s.dove b).phase ≠ 2 := h.resolve_left (by simp [hq])
    simp [hphase]
  · rfl

/-- A SCATTER waits for one grant of every queue of the exchange layers below and of its own layer. -/
theorem State.takeGrants_of_waiting {d : List Byte} {q : List (List Byte)} {p : Pass} {bk : Bank} {below : List (Bool × Nat × Bool)}
    (hq : (s.dove b).q = d :: q) (hphase : (s.dove b).phase = 2) (hp : s.passNow (s.dove b).job = some p)
    (hbk : s.bank (s.dove b).job p.placementBank (dvLayer d) = .ok bk)
    (hbelow : s.layerInfo (s.dove b).job p.placementBank s.endpoint 0 (dvLayer d) = .ok below) {g : Nat}
    (hg : g = p.baseOf bk.grantPeg + (((below.filter (·.1)).map (·.2.1)).foldl (· + ·) 0 + bk.instances.length)) :
    s.takeGrants b =
      if reached (s.pegValue bk.grantPeg) g = true then
        (s.dvEnd b (s.dove b).job d (s.grantRun b (s.dove b).job p bk d)).dvStep b
      else s := by
  subst hg
  simp only [State.takeGrants, hq, hp, hphase, hbk, hbelow, bne_self_eq_false, Bool.false_eq_true, if_false]

end Taking

/-- Settles O58: each clause is an operation followed to the test that decides it, one named case for each clause. -/
theorem expertRows : Obligations.ExpertRows := by
  refine ⟨?noPass, ?otherOpcode, ?handed, ?work, ?grants, ?notWaiting, ?granted⟩
  case noPass =>
    intro s b k sl la tag ix dst st d hh
    refine ⟨exec_scatter_of_dvPush_eq fun _ => State.dvPush_of_no_pass hh,
      exec_returnRows_of_dvPush_eq fun _ => State.dvPush_of_no_pass hh, ?_, ?_⟩
    · rw [exec_arrivalPegTarget, State.buildWork_of_no_pass hh]
    · rw [exec_exchangeGrant, State.grantRows_of_no_pass hh]
  case otherOpcode => exact fun _ _ _ => ⟨exec_scatter_of_return, exec_returnRows_of_not_return⟩
  case handed =>
    rintro s b n d p _ _ hp rfl
    refine ⟨fun hb hq hbay hnew => ⟨fun h1 => ?scatter, fun h1 h2 => ?reserved⟩, fun hb hq ha h2 => ?returned, fun h => ?full,
      fun h => ?otherPort, fun ha => ?absent⟩
    case scatter =>
      have h2 : cOp d ≠ 2 := by omega
      rw [exec_scatter_of_not_return h2, State.dvPush_of_taken hp hb hq ((State.dvTakes_of_not_return h2).mpr ⟨hbay, hnew⟩), if_pos h1]
    case reserved =>
      rw [exec_scatter_of_not_return h2, State.dvPush_of_taken hp hb hq ((State.dvTakes_of_not_return h2).mpr ⟨hbay, hnew⟩), if_neg h1]
    case returned =>
      rw [exec_returnRows_of_return h2, State.dvPush_of_taken hp hb hq ((State.dvTakes_of_return h2).mpr ha), if_neg (by omega)]
    case full =>
      have hpush : s.dvPush b d = s := State.dvPush_of_not_taken hp (h.imp_right Or.inl)
      exact ⟨exec_scatter_of_dvPush_eq fun _ => hpush, exec_returnRows_of_dvPush_eq fun _ => hpush⟩
    case otherPort =>
      refine exec_scatter_of_dvPush_eq fun h2 => State.dvPush_of_not_taken hp (.inr (.inr ?_))
      rw [State.dvTakes_of_not_return h2]
      exact fun ⟨hbay, hnew⟩ => h.elim (· hbay) hnew
    case absent =>
      refine exec_returnRows_of_dvPush_eq fun h2 => State.dvPush_of_not_taken hp (.inr (.inr ?_))
      simp [State.dvTakes_of_return h2, ha]
  case work =>
    rintro s b k sl la tag ix dst st n tg p j bk below _ hp hj hbk hbelow rfl
    refine ⟨fun h => ?notDue, ?due⟩
    case notDue => rw [exec_arrivalPegTarget, State.buildWork_of_not_due hp hj hbk hbelow h]
    case due =>
      rintro cs rows step c w u harr hb ha hserves hcs hrows hstep hc hu rfl
      simp only [exec_arrivalPegTarget, Host.Outcome.next.injEq]
      exact ⟨State.buildWork_of_too_many_chunks hp hj hbk hbelow harr hb ha hserves hcs hrows hstep hc, fun hm =>
        ⟨State.buildWork_of_no_rows hp hj hbk hbelow harr hb ha hserves hcs hrows hstep hc hm hu,
          State.buildWork_of_rows hp hj hbk hbelow harr hb ha hserves hcs hrows hstep hc hm hu,
          State.buildWork_of_all_chunks hp hj hbk hbelow harr hb ha hserves hcs hrows hstep hc hm⟩⟩
  case grants =>
    intro s b sl la n p bk below x _ hp hbk hbelow hx
    refine ⟨fun h => ?notDue, fun cs hex harr hb ha hcs => ?due⟩
    case notDue => rw [exec_exchangeGrant, State.grantRows_of_not_due hp hbk hbelow hx h]
    case due =>
      rw [exec_exchangeGrant, State.grantRows_of_countsOf hp hbk hbelow hx hex harr hb ha hcs]
      rfl
  case notWaiting =>
    intro s b h
    rw [exec_grantPegTarget, State.takeGrants_of_not_waiting h]
  case granted =>
    intro s b g d q p bk below hq hphase hp hbk hbelow hg
    rw [exec_grantPegTarget, State.takeGrants_of_waiting hq hphase hp hbk hbelow hg]
    exact ⟨fun hreach => by rw [if_pos hreach], fun hreach => by rw [if_neg (by simp [hreach])]⟩

end Sys2Proof.Machine
end

section
/-!
# Memory and registers in canonical form

The memory and the register file are maps with one form for equal contents. The reset state has it (O3, O4), every step
keeps it (O5), and a store of bytes changes the bytes stored and no other (O6).
-/

namespace Sys2Proof.Machine

open Sys2Proof

/-- Settles O4: both maps of the reset state are empty. -/
theorem resetIsCanonical : Obligations.ResetIsCanonical := rfl

/-- An empty map of bytes reads 0 everywhere. -/
theorem State.byte_reset (a : Nat) : State.reset.byte a = 0 := rfl

/-- The reset state is a BSL-VM96 with no register word listed, so every offset reads its Reset column. -/
theorem State.reg_reset (o : Nat) : State.reset.reg o = resetWord false o := rfl

/-- Settles O3: the maps of memory and registers are empty at reset, and every other field stands at its default. -/
theorem resetValues : Obligations.ResetValues :=
  ⟨rfl, rfl, rfl, State.byte_reset, State.reg_reset, rfl, rfl, rfl, rfl, rfl⟩

/-- A step keeps the form, with a command at the front of the queue and without one. -/
theorem step_wf {s : State} (h : s.wf) : OutWf (step s) := by
  unfold step
  split
  case h_1 => exact outWf_next (State.tick_wf h)
  case h_2 c rest _ => exact exec_wf c _ (wf_mk s h)

/-- Settles O5: a step is the tick of the idle module or one command, and each keeps the form. -/
theorem everyStepKeepsCanonicalForm : Obligations.EveryStepKeepsCanonicalForm := fun _ t h ht => step_wf h t ht

theorem State.byte_rawWrite_inside {s : State} {a i : Nat} {bs : List Byte} (h : Memory.wf s.mem) (hi : i < bs.length) :
    (s.rawWrite a bs).byte (a + i) = bs.getD i 0 := putBytesAt_inside h hi

theorem State.memBut_rawWrite (s : State) (a : Nat) (bs : List Byte) : MemBut s (s.rawWrite a bs) a bs.length := fun _ hx =>
  congrArg (·.getD 0) (putBytesAt_outside hx)

/-- Settles O6: a store is a byte written after a byte, and memory is a map in canonical form, so a zero stored is deleted
and reads 0 again. -/
theorem memoryReadsWhatWasStored : Obligations.MemoryReadsWhatWasStored := fun s a bs h =>
  ⟨memory_putBytesAt a bs h, fun _ hi => State.byte_rawWrite_inside h hi, s.memBut_rawWrite a bs⟩

end Sys2Proof.Machine
end

section
/-!
# Mapping and unmapping of pages, and migration hints

MAP, UNMAP and MIGRATE_HINT take an entry of a ring and work on its range of pages; MAP_COMPLETE completes the oldest map that
is ready. There is one equation for each outcome, and the clauses of O32 are these equations.
-/

namespace Sys2Proof.Machine

open Sys2Proof

/-! ### A page cleared (R223, R226) -/

/-- A map restricted to the keys that satisfy `p` holds there what it held, and nothing elsewhere. -/
theorem mget_filter_key {α : Type} (m : List (Nat × α)) (p : Nat → Bool) (k : Nat) :
    mget (m.filter (fun e => p e.1)) k = if p k then mget m k else none := by
  induction m with
  | nil => simp [mget]
  | cons e m ih =>
    obtain ⟨j, v⟩ := e
    by_cases hjk : j = k
    · subst hjk
      cases hp : p j <;> simp [mget, hp, ih]
    · cases hp : p j <;> simp [mget, hp, hjk, ih]

theorem State.byte_clearPage (s : State) (page a : Nat) : (s.clearPage page).byte a = if inPage page a then 0 else s.byte a := by
  show (mget (s.mem.filter (fun c => !inPage page c.1)) a).getD 0 = _
  rw [mget_filter_key s.mem (fun a => !inPage page a)]
  cases inPage page a <;> rfl

/-- The first page of a zero-source map, and the pages after it. -/
theorem State.mapZero_succ {s : State} {job vp cls aff n : Nat} {write : Bool} {r : State × Nat} (h : s.placeNew vp cls aff = some r) :
    s.mapZero job write cls aff vp (n + 1) = ((((r.1.clearPage r.2).served (r.2 * 65536) 65536).addTable job vp).setLeaf job vp
      { write := write, cls := cls, affinity := aff, page := r.2 }).mapZero job write cls aff (vp + 1) n := by
  rw [State.mapZero, h]
  rfl

/-! ### MAP (R223, R224, R287) -/

section Map
variable {s : State} {r : Ring} {e : Entry} {j : Job}

theorem exec_mapPages {t : State} (h : s.takeEntry r 0x10 = some (t, some e)) : exec (.mapPages r) s = .next (t.map_ e) :=
  congrArg _ (State.onEntry_of_takeEntry _ h)

/-- The fields of a MAP entry that hold for either source are legal, and its job is `j`. -/
structure State.MapsFor (s : State) (e : Entry) (j : Job) : Prop where
  job : s.job e.jobNum = some j
  range : rangeBad e = none
  flags : e.f 28 1 < 32
  affinity : e.f 28 1 / 8 ≠ 3
  reserved : reservedBad e.bytes [(30, 2), (40, 24)] = none

/-- The map waits from now on for its pages to be where their class wants them. -/
def State.mapWaits (s : State) (e : Entry) : State :=
  ({ s with maps := s.maps ++ [⟨e.ring, e.cookie, e.jobNum, e.f 16 8 / 65536, e.f 24 4⟩] } : State).showFree

theorem field_cls (n : Nat) : field n 2 1 = n / 2 % 4 := by simp [field]

theorem field_affinity {n : Nat} (h : n < 32) : field n 4 3 = n / 8 := by
  have : n / 8 < 4 := by omega
  simp [field, Nat.mod_eq_of_lt this]

variable (hm : s.MapsFor e j)
include hm

/-! A zero source: what is mapped already and the room decide. -/

theorem State.map_zero_of_mapped (h0 : e.f 29 1 = 0) (hmap : s.mapped e.jobNum (e.f 16 8 / 65536) (e.f 24 4) ≠ []) :
    s.map_ e = s.complete e stInvalid 16 := by
  obtain ⟨hj, hr, hfl, haff, hres⟩ := hm
  simp [State.map_, hj, hr, hres, h0, field_affinity hfl, haff, Nat.div_eq_of_lt hfl, hmap]

theorem State.map_zero_of_not_classFits (h0 : e.f 29 1 = 0) (hmap : s.mapped e.jobNum (e.f 16 8 / 65536) (e.f 24 4) = [])
    (hfit : s.classFits (e.f 28 1 / 2 % 4) (e.f 24 4) = false) : s.map_ e = s.complete e stRoom := by
  obtain ⟨hj, hr, hfl, haff, hres⟩ := hm
  simp [State.map_, hj, hr, hres, h0, field_cls, field_affinity hfl, haff, Nat.div_eq_of_lt hfl, hmap, hfit]

theorem State.map_zero_of_mapZero {u : State} (h0 : e.f 29 1 = 0) (hmap : s.mapped e.jobNum (e.f 16 8 / 65536) (e.f 24 4) = [])
    (hfit : s.classFits (e.f 28 1 / 2 % 4) (e.f 24 4) = true)
    (hu : s.mapZero e.jobNum (bit (e.f 28 1) 0) (e.f 28 1 / 2 % 4) (e.f 28 1 / 8) (e.f 16 8 / 65536) (e.f 24 4) = some u) :
    s.map_ e = u.mapWaits e := by
  obtain ⟨hj, hr, hfl, haff, hres⟩ := hm
  simp [State.map_, hj, hr, hres, h0, field_cls, field_affinity hfl, haff, Nat.div_eq_of_lt hfl, hmap, hfit, hu, State.mapWaits]

/-- A weight range is read-only and always finds a place: the pages of its part in the weight region. -/
theorem State.map_weight {first : Nat} (h1 : e.f 29 1 = 1) (hro : bit (e.f 28 1) 0 = false) (hsrc : mapSource j e = .ok first)
    (hmap : s.mapped e.jobNum (e.f 16 8 / 65536) (e.f 24 4) = []) (hfit : s.classFits (e.f 28 1 / 2 % 4) (e.f 24 4) = true) :
    s.map_ e = (s.mapWeight e.jobNum (e.f 28 1 / 2 % 4) (e.f 28 1 / 8) (slotBase j.genSlot / 65536 + first)
      (e.f 16 8 / 65536) (e.f 24 4)).mapWaits e := by
  obtain ⟨hj, hr, hfl, haff, hres⟩ := hm
  simp [State.map_, hj, hr, hres, h1, hro, hsrc, field_cls, field_affinity hfl, haff, Nat.div_eq_of_lt hfl, hmap, hfit, State.mapWaits]

end Map

/-! ### MAP_COMPLETE (R223) -/

section MapComplete
variable {s : State}

theorem exec_mapComplete : exec .mapComplete s = .next s.mapComplete := rfl

theorem State.mapComplete_of_ready {w : MapWait} (h : s.maps.find? s.mapReady = some w) :
    s.mapComplete = ({ s with maps := s.maps.erase w } : State).completeLater w.ring 0x10 w.cookie stDone := by
  rw [State.mapComplete, h]

theorem State.mapComplete_of_none_ready (h : ∀ w ∈ s.maps, s.mapReady w = false) : s.mapComplete = s := by
  have hnone : s.maps.find? s.mapReady = none := List.find?_eq_none.2 fun w hw => by simp [h w hw]
  rw [State.mapComplete, hnone]

end MapComplete

/-! ### UNMAP and MIGRATE_HINT (R225, R232) -/

section Range
variable {s t : State} {r : Ring} {e : Entry}

theorem exec_unmapPages (h : s.takeEntry r 0x11 = some (t, some e)) : exec (.unmapPages r) s = .next (t.unmap e) :=
  congrArg _ (State.onEntry_of_takeEntry _ h)

theorem exec_migrateHint (h : s.takeEntry r 0x12 = some (t, some e)) : exec (.migrateHint r) s = .next (t.hint e) :=
  congrArg _ (State.onEntry_of_takeEntry _ h)

variable (hj : (s.job e.jobNum).isSome = true) (hr : rangeBad e = none)
include hj hr

theorem State.unmap_of_legal (hres : reservedBad e.bytes [(28, 36)] = none) :
    s.unmap e = ((s.mapped e.jobNum (e.f 16 8 / 65536) (e.f 24 4)).foldl (fun s vp => s.unmapPage e.jobNum vp) s).showFree.complete e
      stDone := by
  obtain ⟨j, hj⟩ := Option.isSome_iff_exists.1 hj
  simp [State.unmap, hj, hr, hres]

theorem State.hint_of_noTier (ht : 2 < e.f 28 1) : s.hint e = s.complete e stInvalid 28 := by
  obtain ⟨j, hj⟩ := Option.isSome_iff_exists.1 hj
  simp [State.hint, hj, hr, ht]

/-- The whole range is mapped and every page's class allows the target: one move asked for each page. -/
theorem State.hint_of_allowed (ht : e.f 28 1 ≤ 2) (hres : reservedBad e.bytes [(29, 3), (40, 24)] = none)
    (hall : e.f 24 4 ≤ (s.mapped e.jobNum (e.f 16 8 / 65536) (e.f 24 4)).length)
    (hcls : ∀ v ∈ s.mapped e.jobNum (e.f 16 8 / 65536) (e.f 24 4), ∃ l, s.leafOf e.jobNum v = some l ∧ classAllows l.cls (e.f 28 1) = true) :
    s.hint e = ((s.mapped e.jobNum (e.f 16 8 / 65536) (e.f 24 4)).foldl
      (fun s v => s.queueMove e.jobNum v .hint (e.f 28 1) (e.f 32 8)) s).complete e stDone := by
  obtain ⟨j, hj⟩ := Option.isSome_iff_exists.1 hj
  simp only [State.hint, hj, hr, hres, Nat.not_lt.2 ht, Nat.not_lt.2 hall, Option.isNone_some, Bool.false_eq_true, if_false,
    Option.orElse_none]
  rw [if_neg]
  intro hany
  obtain ⟨v, hv, hbad⟩ := List.any_eq_true.1 hany
  obtain ⟨l, hl, hallow⟩ := hcls v hv
  simp [hl, hallow] at hbad

end Range

/-- Settles O32: each clause is one of the equations above, one named case for each clause. -/
theorem pagesMapped : Obligations.PagesMapped := by
  refine ⟨?zeroPage, ?map, fun _ _ h => ?ready, fun _ h => ?noneReady, ?unmap, ?hint⟩
  case zeroPage =>
    refine fun s job cls aff vp n write r h => ⟨State.mapZero_succ h, fun a ha => ?_, fun a ha => ?_⟩ <;>
      rw [State.byte_clearPage, ha] <;> rfl
  case map =>
    intro s t r e j h hj hr hfl haff hres
    have hm : t.MapsFor e j := ⟨hj, hr, hfl, haff, hres⟩
    rw [exec_mapPages h]
    refine ⟨fun h0 hmap => ?mapped, fun h0 hmap hfit => ?noRoom, fun u h0 hmap hfit hu => ?zero, ?weight⟩
    case mapped => rw [State.map_zero_of_mapped hm h0 hmap]
    case noRoom => rw [State.map_zero_of_not_classFits hm h0 hmap hfit]
    case zero =>
      rw [State.map_zero_of_mapZero hm h0 hmap hfit hu]
      rfl
    case weight =>
      rintro first _ h1 hro hsrc hmap hfit rfl
      rw [State.map_weight hm h1 hro hsrc hmap hfit]
      rfl
  case ready => rw [exec_mapComplete, State.mapComplete_of_ready h]
  case noneReady => rw [exec_mapComplete, State.mapComplete_of_none_ready h]
  case unmap =>
    intro s t r e h hj hr hres
    rw [exec_unmapPages h, State.unmap_of_legal hj hr hres]
  case hint =>
    intro s t r e h hj hr
    rw [exec_migrateHint h]
    exact ⟨fun ht => by rw [State.hint_of_noTier hj hr ht],
      fun ht hres hall hcls => by rw [State.hint_of_allowed hj hr ht hres hall hcls]⟩

end Sys2Proof.Machine
end

section
/-!
# The migration engine: starts, completions, late promotions, decay

The engine's commands each pick a move of the queue and then start it, finish it, abandon it or mark it. One equation stands
for each way the pick and the move's own tests can go, and the clauses of O33 are these equations.
-/

namespace Sys2Proof.Machine

open Sys2Proof

/-! ### The start of a move (R229, R232, R233) -/

section Start
variable {s : State}

theorem exec_migrationMoveStart : exec .migrationMoveStart s = .next s.moveStart := rfl

/-- The search for a move to start, in the state `t` where the moves that waiting maps, prefer-near ranges and the room kept
free call for have joined the queue. -/
theorem State.moveStart_eq {t : State} (ht : t = s.mapMoves.preferMoves.keepFree) :
    s.moveStart = (t.movesDue.findSome? t.startMove).getD t := by
  rw [State.moveStart, ← ht]

theorem State.moveStart_of_none_starts {t : State} (ht : t = s.mapMoves.preferMoves.keepFree)
    (h : ∀ m ∈ t.movesDue, t.startMove m = none) : s.moveStart = t := by
  have hnone : t.movesDue.findSome? t.startMove = none := List.findSome?_eq_none_iff.2 h
  rw [State.moveStart_eq ht, hnone, Option.getD_none]

theorem State.moveStart_of_head_starts {t u : State} {m : Move} {rest : List Move} (ht : t = s.mapMoves.preferMoves.keepFree)
    (hdue : t.movesDue = m :: rest) (hu : t.startMove m = some u) : s.moveStart = u := by
  have hfirst : t.movesDue.findSome? t.startMove = some u := by rw [hdue, List.findSome?_cons_of_isSome (by simp [hu]), hu]
  rw [State.moveStart_eq ht, hfirst, Option.getD_some]

/-- A page that must be copied takes the destination that `placeMove` found; its leaves read MSTATE copying. -/
theorem State.startMove_of_placed {m : Move} {l : Leaf} {t : State} {p : Nat} (hl : s.leafOf m.job m.vpage = some l)
    (hcopy : s.demoteFree l m.dest = none) (hstable : l.mstate = 0) (hturn : s.demandWaits m = false)
    (hstaged : m.dest ≠ 2 ∨ s.stagedBy l.page = false) (hp : s.placeMove m l = some (t, p))
    (hroom : s.inFlight (dieOf s.isH (p * 65536)) < 64) :
    s.startMove m = some (({ t with
      moves := t.moves.map (fun (x : Move) => if x.isOf m.job m.vpage then { x with started := true, page := p } else x) } : State).eachLeaf
        l.page
      (fun l => { l with mstate := 1 })).showMigrate := by
  have hmay : (m.dest == 2 && s.stagedBy l.page) = false := by
    obtain h | h := hstaged <;> simp [h]
  have hnow : (l.mstate != 0 || s.demandWaits m || (m.dest == 2 && s.stagedBy l.page)) = false := by simp [hstable, hturn, hmay]
  simp only [State.startMove, hl, hcopy, hnow, hp, Bool.false_eq_true, if_false]
  exact if_neg (Nat.not_le.2 hroom)

end Start

/-! ### The end of a move (R229, R230, R235, R296) -/

section Finish
variable {s : State} {m : Move} {l : Leaf} {ok : Bool}

/-- The page of leaf `l` comes to rest on the move's destination, and the units that wait for it go on. -/
def State.moveLands (s : State) (m : Move) (l : Leaf) : State :=
  ((({ s with moves := s.moves.filter (fun x => !x.isOf m.job m.vpage) } : State).shift l m.page).showMigrate).landedAll (s.holders l.page)

theorem State.finishMove_of_unmapped (h : s.leafOf m.job m.vpage = none) : s.finishMove m ok = s.abandonMove m := by
  rw [State.finishMove, h]

theorem State.finishMove_of_not_deep (hl : s.leafOf m.job m.vpage = some l) (ht : tierOf s.isH (l.page * 65536) ≠ some 2) :
    s.finishMove m ok = s.moveLands m l := by
  have hdeep : (tierOf s.isH (l.page * 65536) == some 2) = false := beq_eq_false_iff_ne.2 ht
  simp [State.finishMove, State.moveLands, hl, hdeep]

/-- What is read from flash is counted in DEEP_READ, beside the STATE that says whether the tier can be read (R270). -/
theorem State.deepReads_flashRead (s : State) (la n : Nat) : (s.flashRead la n).deepReads = s.deepReads := by
  have hstat : (s.flashRead la n).preg .deep 0x100 = s.preg .deep 0x100 :=
    (State.reg_setReg_ne _ (by decide)).trans (State.reg_setReg_ne _ (by decide))
  rw [State.deepReads, State.deepState, hstat]
  rfl

/-- A promotion from the deep tier reads its page from flash, and lands where the page verifies. -/
theorem State.finishMove_of_deep {u : State} (hl : s.leafOf m.job m.vpage = some l) (ht : tierOf s.isH (l.page * 65536) = some 2)
    (hr : s.deepReads = true) (hu : u = s.flashRead (l.page * 65536 - deepBase) 65536)
    (hok : (if isWeight l.page then u.weightOk l.page ok else ok) = true) : s.finishMove m ok = u.moveLands m l := by
  subst hu
  have hstillReads := (s.deepReads_flashRead (l.page * 65536 - deepBase) 65536).trans hr
  have hverified : (if isWeight l.page then !(s.flashRead (l.page * 65536 - deepBase) 65536).weightOk l.page ok else !ok) = false := by
    cases hw : isWeight l.page <;> simpa [hw] using hok
  simp [State.finishMove, State.moveLands, hl, ht, hr, hstillReads, hverified]

end Finish

section Complete
variable {s : State} {job vp : Nat} {ok : Bool}

theorem exec_migrationMoveComplete_of_none (h : s.moves.find? (fun m => m.isOf job vp && m.started && m.kind != .demand) = none) :
    exec (.migrationMoveComplete job vp ok) s = .next s := by
  show Host.Outcome.next (s.moveComplete job vp ok) = _
  rw [State.moveComplete, h]

theorem exec_migrationMoveComplete_of_some {m : Move}
    (h : s.moves.find? (fun m => m.isOf job vp && m.started && m.kind != .demand) = some m) :
    exec (.migrationMoveComplete job vp ok) s = .next (s.finishMove m ok) := by
  show Host.Outcome.next (s.moveComplete job vp ok) = _
  rw [State.moveComplete, h]

section Demand
variable {m : Move} (h : s.moves.find? (fun m => m.isOf job vp && m.kind == .demand) = some m)
include h

theorem exec_demandPromotionComplete_of_started (hs : m.started = true) :
    exec (.demandPromotionComplete job vp ok) s = .next (s.finishMove m ok) := by
  show Host.Outcome.next (s.demandComplete job vp ok) = _
  simp [State.demandComplete, h, hs]

/-- A promotion that no mover had taken, and whose turn it is, is started and then finished. -/
theorem exec_demandPromotionComplete_of_turn {t : State} {n : Move} (hs : m.started = false)
    (hturn : s.movesDue.find? (fun x => x.kind == .demand && (s.startMove x).isSome) = some m) (ht : s.startMove m = some t)
    (hn : t.moves.find? (fun m => m.isOf job vp && m.kind == .demand) = some n) :
    exec (.demandPromotionComplete job vp ok) s = .next (t.finishMove n ok) := by
  show Host.Outcome.next (s.demandComplete job vp ok) = _
  simp [State.demandComplete, h, hs, hturn, ht, hn]

end Demand
end Complete

/-! ### Late promotions and the decay of counters (R231, R235) -/

section Late
variable {s : State} {job vp : Nat}

theorem exec_demandLate_of_passed {m : Move} (hm : m ∈ s.moves) (hof : m.isOf job vp = true) (hk : m.kind = .demand)
    (hl : m.late = false) (hd : m.deadline < s.nowN) : exec (.demandLate job vp) s =
      .next (({ s with moves := s.moves.map (fun (m : Move) => if m.isOf job vp then { m with late := true } else m) } : State).irq .migrate 2) := by
  have hany : s.moves.any (fun m => m.isOf job vp && m.kind == .demand && !m.late && decide (m.deadline < s.nowN)) = true :=
    List.any_eq_true.2 ⟨m, hm, by simp [hof, hk, hl, hd]⟩
  show execDemandLate job vp s = _
  rw [execDemandLate, if_pos hany]

theorem exec_demandLate_of_late (h : ∀ m ∈ s.moves, m.isOf job vp = true → m.late = true) : exec (.demandLate job vp) s = .next s := by
  have hnone : ¬ s.moves.any (fun m => m.isOf job vp && m.kind == .demand && !m.late && decide (m.deadline < s.nowN)) = true := by
    rw [List.any_eq_true]
    rintro ⟨m, hm, hlate⟩
    simp only [Bool.and_eq_true, Bool.not_eq_true'] at hlate
    obtain ⟨⟨⟨hof, -⟩, hl⟩, -⟩ := hlate
    simp [h m hm hof] at hl
  show execDemandLate job vp s = _
  rw [execDemandLate, if_neg hnone]

/-- The last step of a decay: every access count is halved, the bytes short of a count stay, and zeros are not listed. -/
theorem exec_decayInterval {t : State} (ht : t = (s.leaves.foldl (fun s e => s.decayPage e.1 e.2) s).keepFree) :
    exec .decayInterval s = .next { t with
      counters := (t.counters.map (fun e => (e.1, e.2 / 4096 / 2 * 4096 + e.2 % 4096))).filter (fun e => e.2 != 0) } := by
  subst ht
  rfl

end Late

/-- Settles O33: each clause is one of the equations above, one named case for each clause. -/
theorem pagesMoved : Obligations.PagesMoved := by
  refine ⟨?noneStarts, ?starts, ?placed, ?landed, ?unmapped, ?noMove, ?demandLanded, ?deepLanded, ?turn, ?late, ?lateOnce,
    fun _ _ => exec_decayInterval⟩
  case noneStarts =>
    intro s t ht h
    rw [exec_migrationMoveStart, State.moveStart_of_none_starts ht h]
  case starts =>
    intro s t u m rest ht hdue hu
    rw [exec_migrationMoveStart, State.moveStart_of_head_starts ht hdue hu]
  case placed => exact fun s m l t p => State.startMove_of_placed
  case landed =>
    intro s job vp ok m l hm hl ht
    rw [exec_migrationMoveComplete_of_some hm, State.finishMove_of_not_deep hl ht]
    rfl
  case unmapped =>
    intro s job vp ok m hm hl
    rw [exec_migrationMoveComplete_of_some hm, State.finishMove_of_unmapped hl]
  case noMove => exact fun s job vp ok => exec_migrationMoveComplete_of_none
  case demandLanded =>
    intro s job vp ok m l hm hs hl ht
    rw [exec_demandPromotionComplete_of_started hm hs, State.finishMove_of_not_deep hl ht]
    rfl
  case deepLanded =>
    intro s u job vp ok m l hm hs hl ht hr hu hok
    rw [exec_demandPromotionComplete_of_started hm hs, State.finishMove_of_deep hl ht hr hu hok]
    rfl
  case turn => exact fun s t job vp ok m n h => exec_demandPromotionComplete_of_turn h
  case late => exact fun s job vp m => exec_demandLate_of_passed
  case lateOnce => exact fun s job vp => exec_demandLate_of_late

end Sys2Proof.Machine
end

section
/-!
# Margin checks, retraining and withdrawal of a memory tier

A tier's STATE decides what each command does with it: available (1), evacuating (2) or training (3). One equation stands for
each command in the state it names and one for every other state; the clauses of O34 are these equations.
-/

namespace Sys2Proof.Machine

open Sys2Proof

section Tier
variable {s : State} {t : Nat}

theorem exec_tierMarginReq : exec (.tierMarginReq t) s = .next (s.marginReq t) := rfl

theorem exec_tierRetrainReq : exec (.tierRetrainReq t) s = .next (s.retrain t false) := rfl

theorem exec_marginCheck {temp volt load : Nat} {pass ns : Bool} :
    exec (.marginCheck t temp volt load pass ns) s = .next (s.marginCheck t temp volt load pass ns) := rfl

theorem exec_evacuationComplete : exec (.evacuationComplete t) s = .next (s.evacuated t) := rfl

theorem exec_tierTrainingComplete {temp volt load rep low : Nat} :
    exec (.tierTrainingComplete t temp volt load rep low) s = .next (s.trained t temp volt load rep low) := rfl

/-! ### A tier that is not in the state named -/

theorem State.marginReq_of_not_available (h : 10 ≤ t ∨ s.tierState t ≠ 1) : s.marginReq t = s := by
  have hno : ¬ (t < 10 ∧ s.tierState t = 1) := fun ⟨ht, h1⟩ => h.elim (Nat.not_le.2 ht) (· h1)
  simp [State.marginReq, hno]

theorem State.retrain_of_not_available {ns : Bool} (h : 10 ≤ t ∨ s.tierState t ≠ 1) : s.retrain t ns = s := by
  simp [State.retrain, h]

theorem State.evacuated_of_not_evacuating (h : s.tierState t ≠ 2) : s.evacuated t = s := by
  simp [State.evacuated, h]

theorem State.trained_of_not_training {temp volt load rep low : Nat} (h : s.tierState t ≠ 3) :
    s.trained t temp volt load rep low = s := by
  simp [State.trained, h]

/-! ### An available tier: requests and margin checks (R240–R242) -/

/-- A tier is evacuating or training. -/
def State.anyRetrains (s : State) : Bool := (List.range 10).any (fun x => s.tierState x == 2 || s.tierState x == 3)

theorem State.anyRetrains_iff : s.anyRetrains = true ↔ ∃ x, x < 10 ∧ (s.tierState x = 2 ∨ s.tierState x = 3) := by
  simp [State.anyRetrains]

theorem State.anyRetrains_eq_false_iff : s.anyRetrains = false ↔ ∀ x, x < 10 → s.tierState x ≠ 2 ∧ s.tierState x ≠ 3 := by
  simp [State.anyRetrains]

/-- The tier stands in the queue of retrainings, once. -/
def State.queueTraining (s : State) (t : Nat) (withdraw : Bool) : State :=
  { s with trainQueue := if s.trainQueue.any (fun e => e.1 == t) then s.trainQueue else s.trainQueue ++ [(t, withdraw)] }

section Available
variable (ht : t < 10) (h1 : s.tierState t = 1)
include ht h1

theorem State.marginReq_of_available : s.marginReq t = s.setPreg (tierPage t) 0x100 (wset (s.preg (tierPage t) 0x100) 0) := by
  simp [State.marginReq, ht, h1]

/-- The evacuation begins unless another tier retrains. -/
theorem State.retrain_of_available (ns : Bool) :
    s.retrain t ns = if (s.queueTraining t ns).anyRetrains then s.queueTraining t ns else (s.queueTraining t ns).evacuate t := by
  simp only [State.retrain, Nat.not_le.2 ht, h1]
  rfl

/-- Whether the check passes, it clears MARGIN, and IN_WINDOW where the conditions lie outside the record's window. -/
theorem State.marginCheck_of_available {u v : State} {temp volt load : Nat} {pass ns : Bool}
    (hu : u = s.setPreg (tierPage t) 0x100 (wclear (s.preg (tierPage t) 0x100) 0))
    (hv : v = (if inWindow (u.preg (tierPage t) 0x104) temp volt load = true then u
      else (u.setPreg (tierPage t) 0x104 (wclear (u.preg (tierPage t) 0x104) 8)).irq (tierPage t) 3)) :
    s.marginCheck t temp volt load pass ns = if pass then
      ({ v.setPreg (tierPage t) 0x104 (calWord temp volt load) with calStored := mset v.calStored t (calWord temp volt load) } : State).fwCommit []
      else v.retrain t ns := by
  subst hu hv
  simp only [State.marginCheck, Nat.not_le.2 ht, h1]
  rfl

end Available

/-! ### An evacuating tier (R224, R242) -/

/-- A move that takes a page off an evacuating tier is under way or can start. -/
def State.evacuationGoesOn (s : State) : Bool :=
  s.moves.any (fun m => m.kind == .evacuate && (m.started || (s.startMove m).isSome))

/-- A lane of the tier failed with no spare left in its channel. -/
def State.toBeWithdrawn (s : State) (t : Nat) : Bool := s.trainQueue.any (fun e => e.1 == t && e.2)

section Evacuating
variable (ht : t < 10) (h2 : s.tierState t = 2)
include ht h2

theorem State.evacuated_of_used (hused : s.tierUsed t ≠ 0) :
    s.evacuated t = if s.toBeWithdrawn t && !s.evacuationGoesOn then s.announceLoss else s := by
  simp only [State.evacuated, Nat.not_le.2 ht, h2, bne_iff_ne.2 hused, bne_self_eq_false, decide_false, Bool.or_self,
    Bool.false_eq_true, if_true, if_false]
  rfl

theorem State.evacuated_of_empty (hused : s.tierUsed t = 0) : s.evacuated t =
    if s.toBeWithdrawn t then
      (if 786432 < (s.withdrawTier t).gonePages then (s.withdrawTier t).announceLoss else s.withdrawTier t).nextTraining
    else s.setTierState t 3 := by
  simp only [State.evacuated, Nat.not_le.2 ht, h2, hused, bne_self_eq_false, decide_false, Bool.or_self, Bool.false_eq_true,
    if_false]
  rfl

end Evacuating

/-! ### A tier that has trained (R239, R242) -/

theorem State.trained_of_training {u v : State} {temp volt load rep low : Nat} (ht : t < 10) (h3 : s.tierState t = 3)
    (hu : u = ({ s.setPreg (tierPage t) 0x104 (calWord temp volt load) with
      calStored := mset s.calStored t (calWord temp volt load)
      trainQueue := s.trainQueue.filter (fun e => e.1 != t) } : State).setPreg (tierPage t) 0x108 (BitVec.ofNat 32 (rep % 256 * 256 + low % 256)))
    (hv : v = (if wfield (s.preg (tierPage t) 0x108) 15 8 < rep % 256 then u.irq (tierPage t) 2 else u)) :
    s.trained t temp volt load rep low = (((v.fwCommit []).setTierState t 1).showFree).nextTraining := by
  subst hu hv
  simp only [State.trained, Nat.not_le.2 ht, h3]
  rfl

end Tier

/-- Settles O34: each clause is one of the equations above, one named case for each clause. -/
theorem tierTraining : Obligations.TierTraining := by
  refine ⟨fun s t ht h1 => ?request, fun s t h => ?notAvailable, ?retrain, ?check, fun s t ht h2 h0 hout => ?trains, ?withdrawn,
    fun s t h => ?notEvacuating, fun s t ht h2 hused => ⟨fun h => ?waits, fun hout hstuck => ?lost⟩, ?trained,
    fun s t temp volt load rep low h => ?notTraining⟩
  case request => rw [exec_tierMarginReq, State.marginReq_of_available ht h1]
  case notAvailable =>
    rw [exec_tierMarginReq, exec_tierRetrainReq, State.marginReq_of_not_available h, State.retrain_of_not_available h]
    exact ⟨rfl, rfl⟩
  case retrain =>
    rintro s u t ht h1 hu
    obtain rfl : u = s.queueTraining t false := hu
    rw [exec_tierRetrainReq, State.retrain_of_available ht h1]
    exact ⟨fun h => by rw [State.anyRetrains_eq_false_iff.2 h, if_neg Bool.false_ne_true], fun h => by rw [if_pos (State.anyRetrains_iff.2 h)]⟩
  case check =>
    intro s u v t temp volt load ns ht h1 hu hv
    rw [exec_marginCheck, exec_marginCheck, State.marginCheck_of_available ht h1 hu hv, State.marginCheck_of_available ht h1 hu hv,
      if_pos rfl, if_neg Bool.false_ne_true]
    exact ⟨rfl, rfl⟩
  case trains =>
    have hno : s.toBeWithdrawn t = false := hout
    rw [exec_evacuationComplete, State.evacuated_of_empty ht h2 h0, hno, if_neg Bool.false_ne_true]
  case withdrawn =>
    intro s u t ht h2 h0 hout hu
    obtain rfl : u = s.withdrawTier t := hu
    have hgone : s.toBeWithdrawn t = true := hout
    rw [exec_evacuationComplete, State.evacuated_of_empty ht h2 h0, if_pos hgone, apply_ite State.nextTraining]
    rfl
  case notEvacuating => rw [exec_evacuationComplete, State.evacuated_of_not_evacuating h]
  case waits =>
    have hstay : (s.toBeWithdrawn t && !s.evacuationGoesOn) = false := by
      obtain hout | hgo := h
      · rw [show s.toBeWithdrawn t = false from hout, Bool.false_and]
      · rw [show s.evacuationGoesOn = true from hgo, Bool.not_true, Bool.and_false]
    rw [exec_evacuationComplete, State.evacuated_of_used ht h2 hused, hstay, if_neg Bool.false_ne_true]
  case lost =>
    have hloss : (s.toBeWithdrawn t && !s.evacuationGoesOn) = true := by
      rw [show s.toBeWithdrawn t = true from hout, show s.evacuationGoesOn = false from hstuck]
      rfl
    rw [exec_evacuationComplete, State.evacuated_of_used ht h2 hused, if_pos hloss]
  case trained =>
    intro s u v t temp volt load rep low ht h3 hu hv
    rw [exec_tierTrainingComplete, State.trained_of_training ht h3 hu hv]
  case notTraining => rw [exec_tierTrainingComplete, State.trained_of_not_training h]

end Sys2Proof.Machine
end

section
/-!
# The write budget's refill

BUDGET_REFILL sets LEVEL once, so O28 is what setting LEVEL does (`State.setLevel_spec`), with the new value inside the signed
64-bit range.
-/

namespace Sys2Proof.Machine

open Sys2Proof

theorem exec_budgetRefill (s : State) :
    exec .budgetRefill s = .next (s.setLevel (min (s.level + (s.budgetRate * 1000 : Nat)) s.budgetDepth)) := by
  rw [Nat.cast_mul]
  rfl

theorem le_signed (v : Nat) : -(2 : Int) ^ 63 ≤ signed 64 v := by
  unfold signed
  split <;> omega

/-- LEVEL is a signed 64-bit count. -/
theorem State.le_level (s : State) : -(2 : Int) ^ 63 ≤ s.level := le_signed _

theorem field_lt_two_pow (x hi lo : Nat) : field x hi lo < 2 ^ (hi + 1 - lo) := Nat.mod_lt _ (Nat.two_pow_pos _)

/-- DEPTH has 11 bits and counts GiB. -/
theorem State.budgetDepth_lt (s : State) : s.budgetDepth < 2 ^ 63 := by
  have h : wfield (s.preg .deep 0x104) 22 12 < 2 ^ (22 + 1 - 12) := field_lt_two_pow _ _ _
  unfold State.budgetDepth gib
  omega

/-- Settles O28: the level refilled lies between the old one and DEPTH, so it is a signed 64-bit count and LEVEL holds it. -/
theorem writeBudgetRefills : Obligations.WriteBudgetRefills := by
  intro s h
  have hdepth : (s.budgetDepth : Int) < 2 ^ 63 := by exact_mod_cast s.budgetDepth_lt
  have hlow := s.le_level
  obtain ⟨hlevel, hstat, hregs, hrest, hout⟩ :=
    State.setLevel_spec h (min (s.level + (s.budgetRate * 1000 : Nat)) s.budgetDepth) (by omega) (by omega)
  refine ⟨_, exec_budgetRefill s, hlevel, ?exhausted, fun i hi h8 => ?others, fun o ho hp => ?regs, hrest, hout⟩
  case exhausted => rw [hstat, hlevel, wbit_wassign _ _ (by decide), if_pos rfl]
  case others => rw [hstat, wbit_wassign _ _ hi, if_neg h8]
  case regs =>
    simp only [List.mem_cons, List.not_mem_nil, or_false, not_or] at ho
    obtain ⟨hs, hl, hh, hraw⟩ := ho
    exact hregs o (by simp [levelRegs, hs, hl, hh]) hraw hp

end Sys2Proof.Machine
end

section
/-!
# Erase blocks of the flash: relocation, refresh, ageing and the retention scan

One equation for each outcome of READ_DISTURB_RELOCATION, RELOCATION_COMMIT, RETENTION_AGE_TICK, TIME_UNKNOWN_TIMEOUT and
RETENTION_SCAN_READ; the clauses of O29 are these equations.
-/

namespace Sys2Proof.Machine

open Sys2Proof

section Blocks
variable {s : State} {k ecc : Nat} {b : Block}

theorem State.block_of_mget (h : mget s.blocks k = some b) : s.block k = b := by
  simp [State.block, h]

/-! ### READ_DISTURB_RELOCATION (R262) -/

theorem exec_readDisturbRelocation_of_none (h : mget s.blocks k = none) : exec (.readDisturbRelocation k ecc) s = .next s := by
  show execReadDisturbRelocation k ecc s = _
  simp [execReadDisturbRelocation, h]

theorem exec_readDisturbRelocation_of_worn (h : mget s.blocks k = some b) (hmove : b.moving = 0)
    (hworn : readLimit k ≤ b.reads ∨ 70 < ecc) : exec (.readDisturbRelocation k ecc) s = .next (s.setBlock k { b with moving := 1 }) := by
  show execReadDisturbRelocation k ecc s = _
  simp [execReadDisturbRelocation, State.block_of_mget h, h, hmove, hworn]

theorem exec_readDisturbRelocation_of_sound (h : mget s.blocks k = some b) (hreads : b.reads < readLimit k) (hecc : ecc ≤ 70) :
    exec (.readDisturbRelocation k ecc) s = .next s := by
  show execReadDisturbRelocation k ecc s = _
  simp [execReadDisturbRelocation, State.block_of_mget h, Nat.not_le.2 hreads, Nat.not_lt.2 hecc]

/-! ### RELOCATION_COMMIT (R261, R265, R526) -/

/-- The block's old place is read, what is programmed is charged to its region, and the block begins again. -/
def State.blockMoved (s : State) (k : Nat) : State :=
  let n := Config.blockBytes k
  let s' := (s.blockRead k n).count .deep (if (s.block k).moving = 1 then 0x154 else 0x158) 1
  (if blockPark k then (s'.count64 .deep 0x120 0x124 n).programOther n else s'.count64 .deep 0x128 0x12C n).setBlock k
    { scanned := (s.block k).scanned }

/-- A retired block is counted, and the wear shown. -/
def State.wearAfter (s : State) (retired : Bool) : State := (if retired then s.count .deep 0x150 1 else s).showWear

variable {retired low : Bool}

theorem exec_relocationCommit : exec (.relocationCommit k retired low) s = .next (s.relocated k retired low) := rfl

theorem State.relocated_of_idle (h : (s.block k).moving = 0 ∨ 90 ≤ s.packageTemp k) : s.relocated k retired low = s := by
  simp [State.relocated, h]

theorem State.relocated_of_moving (hmove : (s.block k).moving ≠ 0) (hcold : s.packageTemp k < 90) :
    s.relocated k retired low = if low && blockPark k then
      ({ (s.blockMoved k).wearAfter retired with sparesLow := true } : State).showReady else (s.blockMoved k).wearAfter retired := by
  simp only [State.relocated, beq_false_of_ne hmove, Nat.not_le.2 hcold, decide_false, Bool.or_self, Bool.false_eq_true, if_false, beq_iff_eq]
  rfl

/-! ### RETENTION_AGE_TICK and TIME_UNKNOWN_TIMEOUT (R263, R264) -/

theorem exec_retentionAgeTick : exec .retentionAgeTick s = .next s.second := rfl

theorem exec_timeUnknownTimeout_of_known (h : s.ptpTime.isSome = true) : exec .timeUnknownTimeout s = .next s := by
  show execTimeUnknownTimeout s = _
  rw [execTimeUnknownTimeout, if_pos h]

theorem exec_timeUnknownTimeout_of_unknown (h : s.ptpTime = none) : exec .timeUnknownTimeout s =
    .next ({ s with blocks := s.blocks.map (fun (e : Nat × Block) => (e.1, { e.2 with scanned := false })) }.setPreg .deep 0x100
      (wassign (wset (s.preg .deep 0x100) 10) 11 (!s.blocks.isEmpty))) := by
  show execTimeUnknownTimeout s = _
  rw [execTimeUnknownTimeout, h, if_neg (by decide)]

/-! ### RETENTION_SCAN_READ (R264) -/

/-- The block is read whole and marked; above half the correction capability its refresh begins. -/
def State.blockScanned (s : State) (k ecc : Nat) : State :=
  (s.blockRead k (Config.blockBytes k)).setBlock k
    { (s.blockRead k (Config.blockBytes k)).block k with scanned := true, moving := if 50 < ecc then 2 else 0 }

theorem exec_retentionScanRead_of_unscanned (hscan : wbit (s.preg .deep 0x100) 11 = true) (h : mget s.blocks k = some b)
    (hnew : b.scanned = false) (hmove : b.moving = 0) : exec (.retentionScanRead k ecc) s = .next
      (if (s.blockScanned k ecc).blocks.all (fun e => e.2.scanned) then
        (s.blockScanned k ecc).setPreg .deep 0x100 (wclear ((s.blockScanned k ecc).preg .deep 0x100) 11)
      else s.blockScanned k ecc) := by
  show Host.Outcome.next (s.scanRead k ecc) = _
  simp only [State.scanRead, hscan, h, State.block_of_mget h, hnew, hmove, Bool.not_true, Option.isNone_some, Bool.or_self, beq_self_eq_true,
    Bool.true_and, decide_eq_true_eq, Bool.false_eq_true, if_false]
  rfl

end Blocks

/-- Settles O29: each clause is one of the equations above, one named case for each clause. -/
theorem flashBlocks : Obligations.FlashBlocks := by
  refine ⟨?worn, ?unlisted, ?sound, ?moved, ?idle, fun s => ⟨_, rfl, exec_retentionAgeTick⟩, ?unknown, ?known, ?scanned⟩
  case worn => exact fun s k ecc b => exec_readDisturbRelocation_of_worn
  case unlisted => exact fun s k ecc => exec_readDisturbRelocation_of_none
  case sound => exact fun s k ecc b => exec_readDisturbRelocation_of_sound
  case moved =>
    rintro s _ v w k retired low hmove hcold rfl hv hw
    obtain rfl : v = s.blockMoved k := hv
    obtain rfl : w = (s.blockMoved k).wearAfter retired := hw
    rw [exec_relocationCommit, State.relocated_of_moving hmove hcold]
    refine ⟨fun h => ?enough, fun hlow hpark => ?short⟩
    case enough => rw [if_neg (by simpa [or_iff_not_imp_left] using h)]
    case short => rw [hlow, hpark, Bool.and_self, if_pos rfl]
  case idle =>
    intro s k retired low h
    rw [exec_relocationCommit, State.relocated_of_idle h]
  case unknown => exact fun s => exec_timeUnknownTimeout_of_unknown
  case known => exact fun s => exec_timeUnknownTimeout_of_known
  case scanned =>
    rintro s t k ecc b hscan h hnew hmove ht
    obtain rfl : t = s.blockScanned k ecc := ht
    exact exec_retentionScanRead_of_unscanned hscan h hnew hmove

end Sys2Proof.Machine
end

section
/-!
# The settings store: its commands, its credits and the end of a prepare

Each of the five commands is the busy test and then one equation for each outcome; the store serves one of what waits. The clauses
of O13 are these equations.
-/

namespace Sys2Proof.Machine

open Sys2Proof

section Settings
variable {s : State}

theorem exec_settingsRead : exec .settingsRead s = .next s.settingsRead := rfl
theorem exec_settingsStage : exec .settingsStage s = .next s.settingsStage := rfl
theorem exec_settingsDelete : exec .settingsDelete s = .next s.settingsDelete := rfl
theorem exec_settingsCommit : exec .settingsCommit s = .next s.settingsCommit := rfl
theorem exec_settingsDiscard : exec .settingsDiscard s = .next s.settingsDiscard := rfl

/-! ### The busy test (R276) -/

theorem State.settingsCmd_of_busy (f : State → State) (h : s.settingsBusy = true) : s.settingsCmd f = s.putPreg .settings 0x100 15 8 7 :=
  if_pos h

theorem State.settingsCmd_of_idle (f : State → State) (h : s.settingsBusy = false) : s.settingsCmd f = f s := by
  simp [State.settingsCmd, h]

theorem exec_settings_of_busy (h : s.settingsBusy = true) {i : Instr}
    (hi : i ∈ [Instr.settingsRead, .settingsStage, .settingsDelete, .settingsCommit, .settingsDiscard]) :
    exec i s = .next (s.putPreg .settings 0x100 15 8 7) := by
  have hcmd (f : State → State) : Host.Outcome.next (φ := Fault) (ρ := Refusal) (s.settingsCmd f) = .next (s.putPreg .settings 0x100 15 8 7) :=
    congrArg _ (State.settingsCmd_of_busy f h)
  simp only [List.mem_cons, List.not_mem_nil, or_false] at hi
  obtain rfl | rfl | rfl | rfl | rfl := hi <;> exact hcmd _

/-! ### Adding to a staged set (R276, R277) -/

/-- The body of a copy with this set of entries fits the store. -/
def State.bodyFits (s : State) (entries : List (Nat × Option (List Byte))) : Prop :=
  bodyBytes (applyStaged s.settings.records entries) ≤ 126904

section Add
variable {v : Option (List Byte)}

theorem State.addStaged_of_plain (ht : s.settingsInTxn = false) (hfit : s.bodyFits (mset s.settings.staged s.settingsType v)) :
    s.addStaged v = (s.setSettings (fun k => { k with staged := mset s.settings.staged s.settingsType v })).settingsResult 0 := by
  simp only [State.addStaged, ht, Bool.false_eq_true, if_false]
  exact if_neg (Nat.not_lt.2 hfit)

theorem State.addStaged_of_txn {t : State} (ht : s.settingsInTxn = true) (hfit : s.bodyFits (mset s.settings.txnStaged s.settingsType v))
    (hu : t = s.setSettings (fun k => { k with txnStaged := mset k.txnStaged s.settingsType v })) :
    s.addStaged v = (t.setPreg .txn 0x104 (wset (t.preg .txn 0x104) 17)).settingsResult 0 := by
  subst hu
  simp only [State.addStaged, ht, if_true]
  exact if_neg (Nat.not_lt.2 hfit)

end Add

/-! ### The five commands with none in progress (R275–R277) -/

section Idle
variable (hb : s.settingsBusy = false)
include hb

theorem State.settingsRead_of_held {v : List Byte} (hty : typeReadable s.settingsType = true)
    (hv : mget s.settings.records s.settingsType = some v) : s.settingsRead =
      (((List.range 64).foldl (fun s i => s.setPreg .settings (0x200 + 4 * i) (BitVec.ofNat 32 (getLE v (4 * i) 4))) s).putPreg
        .settings 0x108 24 16 v.length).settingsResult 0 := by
  simp only [State.settingsRead, State.settingsCmd_of_idle _ hb, hty, hv, Bool.not_true, Bool.false_eq_true, if_false]

theorem State.settingsStage_of_writable (hty : typeWritable s.settingsType = true) (hlen : s.settingsLen ≤ 256) :
    s.settingsStage = s.addStaged (some (slice s.settingsData 0 s.settingsLen)) := by
  simp only [State.settingsStage, State.settingsCmd_of_idle _ hb, hty, Nat.not_lt.2 hlen, Bool.not_true, Bool.false_eq_true, if_false]

theorem State.settingsDelete_of_writable (hty : typeWritable s.settingsType = true) : s.settingsDelete = s.addStaged none := by
  simp only [State.settingsDelete, State.settingsCmd_of_idle _ hb, hty, Bool.not_true, Bool.false_eq_true, if_false]

theorem State.settingsCommit_of_fits (ht : s.settingsInTxn = false) (hfit : s.bodyFits s.settings.staged) :
    s.settingsCommit = ((s.putStat 0 true).setSettings (fun k => { k with plainWait := true })).serveStore := by
  simp only [State.settingsCommit, State.settingsCmd_of_idle _ hb, ht, Bool.false_eq_true, if_false]
  exact if_neg (Nat.not_lt.2 hfit)

theorem State.settingsDiscard_of_plain (ht : s.settingsInTxn = false) :
    s.settingsDiscard = (s.setSettings (fun k => { k with staged := [] })).settingsResult 0 := by
  simp only [State.settingsDiscard, State.settingsCmd_of_idle _ hb, ht, Bool.false_eq_true, if_false]

end Idle

/-! ### What the store serves (R275, R277) -/

theorem State.serveStore_of_preparing (h : s.settings.preparing.isSome = true) : s.serveStore = s.showWait := if_pos h

/-- The order among what waits, with no change of firmware's own (log 199). -/
theorem State.serveStore_of_free (hp : s.settings.preparing = none) (hf : s.settings.fwWait = false) :
    s.serveStore = (if s.credits = 0 then s else if s.settings.txnWait then s.spendTxnCredit
      else if s.settings.plainWait then s.spendCredit else s).showWait := by
  simp only [State.serveStore, hp, hf, Option.isSome_none, Bool.false_eq_true, if_false]

/-! ### Credits and the end of a prepare (R273, R275, R277) -/

theorem exec_commitCreditEarned : exec .commitCreditEarned s = .next s.creditEarned := rfl

theorem exec_settingsPrepareComplete {ok : Bool} : exec (.settingsPrepareComplete ok) s = .next (s.prepareComplete ok) := rfl

theorem State.prepareComplete_of_none {ok : Bool} (h : s.settings.preparing = none) : s.prepareComplete ok = s := by
  rw [State.prepareComplete, h]

section Prepared
variable {c : SettingsCopy} (hc : s.settings.preparing = some c)
include hc

theorem State.prepareComplete_of_txn (ht : s.settings.inTxn = true) (ok : Bool) :
    s.prepareComplete ok = if ok then s.putPrepared.putStat 1 true else s.dropPrepare.serveStore := by
  simp only [State.prepareComplete, hc, ht, if_true]

theorem State.prepareComplete_of_plain (ht : s.settings.inTxn = false) (ok : Bool) : s.prepareComplete ok =
    if ok then ((s.markCopy.setSettings (fun k => { k with staged := [] })).settingsResult 0).serveStore
    else (s.dropPrepare.settingsResult 5).serveStore := by
  simp only [State.prepareComplete, hc, ht, Bool.false_eq_true, if_false]

end Prepared
end Settings

/-- Settles O13: each clause is one of the equations above, one named case for each clause. -/
theorem settingsStoreCommands : Obligations.SettingsStoreCommands := by
  refine ⟨⟨?read, ?stage, ?delete, ?inTxn, ?commit, fun s => ⟨State.serveStore_of_preparing, fun hp hf => ?serve⟩, ?discard,
    fun s h i => exec_settings_of_busy h⟩, fun s => exec_commitCreditEarned, ?prepared, ?preparedInTxn, ?noPrepare⟩
  case read =>
    intro s v hb hty hv
    rw [exec_settingsRead, State.settingsRead_of_held hb hty hv]
  case stage =>
    intro s hb ht hty hlen hfit
    rw [exec_settingsStage, State.settingsStage_of_writable hb hty hlen, State.addStaged_of_plain ht hfit]
    rfl
  case delete =>
    intro s hb ht hty hfit
    rw [exec_settingsDelete, State.settingsDelete_of_writable hb hty, State.addStaged_of_plain ht hfit]
    rfl
  case inTxn =>
    intro s v t hb ht hty hfit hu
    have hadd := State.addStaged_of_txn ht hfit hu
    refine ⟨?staged, ?deleted⟩
    case staged =>
      rintro rfl hlen
      rw [exec_settingsStage, State.settingsStage_of_writable hb hty hlen, hadd]
    case deleted =>
      rintro rfl
      rw [exec_settingsDelete, State.settingsDelete_of_writable hb hty, hadd]
  case commit =>
    rintro s _ hb ht hfit rfl
    rw [exec_settingsCommit, State.settingsCommit_of_fits hb ht hfit]
  case serve =>
    rw [State.serveStore_of_free hp hf]
    refine ⟨?nothing, fun hcr htxn => ?txn, fun hcr htxn hplain => ?plain⟩
    case nothing =>
      rintro (hcr | ⟨htxn, hplain⟩)
      · rw [if_pos hcr]
      · simp only [htxn, hplain, Bool.false_eq_true, if_false, ite_self]
    case txn => rw [if_neg hcr, if_pos htxn]
    case plain => rw [if_neg hcr, htxn, if_neg Bool.false_ne_true, if_pos hplain]
  case discard =>
    intro s hb ht
    rw [exec_settingsDiscard, State.settingsDiscard_of_plain hb ht]
    rfl
  case prepared =>
    intro s c hc ht
    rw [exec_settingsPrepareComplete, exec_settingsPrepareComplete, State.prepareComplete_of_plain hc ht,
      State.prepareComplete_of_plain hc ht, if_pos rfl, if_neg Bool.false_ne_true]
    exact ⟨rfl, rfl⟩
  case preparedInTxn =>
    intro s c hc ht
    rw [exec_settingsPrepareComplete, exec_settingsPrepareComplete, State.prepareComplete_of_txn hc ht,
      State.prepareComplete_of_txn hc ht, if_pos rfl, if_neg Bool.false_ne_true]
    exact ⟨rfl, rfl⟩
  case noPrepare =>
    intro s ok h
    rw [exec_settingsPrepareComplete, State.prepareComplete_of_none h]

end Sys2Proof.Machine
end

section
/-!
# Parking a stream

PARK_WRITE leaves a stream alone, ends its park with NOT_PARKED, or charges and writes it; PARK_COMPLETE commits what was written.
The clauses of O31 are the equations of these outcomes.
-/

namespace Sys2Proof.Machine

open Sys2Proof

section Park
variable {s : State} {n : Nat} {x : Stream} {j : Job}

theorem exec_parkWrite : exec (.parkWrite n) s = .next (s.parkWrite n) := rfl

theorem exec_parkComplete : exec (.parkComplete n) s = .next (s.parkComplete n) := rfl

theorem State.parkWrite_of_free (h : s.stream n = none) : s.parkWrite n = s := by
  rw [State.parkWrite, h]

theorem State.parkComplete_of_free (h : s.stream n = none) : s.parkComplete n = s := by
  rw [State.parkComplete, h]

theorem State.parkComplete_of_no_plan (hx : s.stream n = some x) (h : x.plan = none) : s.parkComplete n = s := by
  rw [State.parkComplete, hx]
  simp only [h]

/-! ### What a park needs (R256, R257, R259) -/

/-- Units of the full mode, units of the penumbra mode and new records of the stream's park. -/
def State.parkNeeds (s : State) (j : Job) (n : Nat) (x : Stream) : Nat × Nat × Nat :=
  parkCounts ((s.streamPages j x.job n x).map (fun g => (s.parkPageOf j x g.1 g.2.1 g.2.2.1, g.2.2.2)))

/-- LEVEL after so many units are charged. -/
def State.levelLess (s : State) (units : Nat) : Int := s.level - ((units * 4096 : Nat) : Int)

/-- The full mode: LEVEL leaves RESERVE. -/
def State.parkFull (s : State) (c : Nat × Nat × Nat) : Bool := decide ((s.budgetReserve : Int) ≤ s.levelLess c.1)

/-- The sets, the job's records or the units do not hold the park, the deep tier is not ready, or the budget has room for neither mode. -/
def State.parkRefused (s : State) (j : Job) (x : Stream) (c : Nat × Nat × Nat) : Bool :=
  !((decide (s.sets.length + s.newSets < 262144) || (mget s.sets x.key).isSome) &&
      decide (c.2.2 + j.arena.usedPen.length < j.penRecords) && decide (c.1 ≤ s.freeUnits)) ||
    s.deepState != 2 || (!s.parkFull c && decide (s.levelLess c.2.1 < 0))

theorem State.parkRefused_iff {c : Nat × Nat × Nat} : s.parkRefused j x c = true ↔
    s.deepState ≠ 2 ∨ s.freeUnits < c.1 ∨ j.penRecords ≤ c.2.2 + j.arena.usedPen.length ∨
      (262144 ≤ s.sets.length + s.newSets ∧ mget s.sets x.key = none) ∨
      (s.levelLess c.1 < s.budgetReserve ∧ s.levelLess c.2.1 < 0) := by
  simp only [State.parkRefused, State.parkFull, Bool.or_eq_true, Bool.and_eq_true, Bool.not_eq_true', Bool.and_eq_false_iff,
    Bool.or_eq_false_iff, decide_eq_false_iff_not, decide_eq_true_eq, bne_iff_ne, Option.isSome_eq_false_iff, Option.isNone_iff_eq_none,
    Nat.not_lt, Nat.not_le, Int.not_le]
  simp only [or_comm, or_left_comm]

/-- The park is charged to LEVEL, and one of the penumbra mode counted. -/
def State.parkCharged (s : State) (c : Nat × Nat × Nat) (full : Bool) : State :=
  let a := s.setLevel (s.level - ((if full then c.1 * 4096 else c.2.1 * 4096 : Nat) : Int))
  if full then a else a.count .deep 0x15C 1

/-- The units and packs of the park, written after its charge. -/
def State.parkWritten (s : State) (j : Job) (n : Nat) (x : Stream) : Parker :=
  let full := s.parkFull (s.parkNeeds j n x)
  (s.parkCharged (s.parkNeeds j n x) full).parkPlan j x full (s.streamPages j x.job n x)

/-- The plan stands with the stream until PARK_COMPLETE. -/
def Parker.planned (q : Parker) (n : Nat) (full : Bool) : State :=
  q.s.modStream n (fun x => { x with plan := some { mode := if full then 1 else 2, pages := q.pages } })

/-! ### PARK_WRITE (R256, R259, R334) -/

section Write
variable (hx : s.stream n = some x) (hj : s.job x.job = some j)
include hx hj

theorem State.parkWrite_of_waits (h : x.st ≠ 2 ∨ x.plan.isSome = true ∨ s.inAnyPass x.job n = true ∨ s.flashHot = true) :
    s.parkWrite n = s := by
  have hwait : (x.st != 2 || x.plan.isSome || s.inAnyPass x.job n || s.flashHot) = true := by simpa [or_assoc] using h
  simp only [State.parkWrite, hx, hj, hwait, if_true]

variable (hst : x.st = 2) (hplan : x.plan = none) (hpass : s.inAnyPass x.job n = false) (hhot : s.flashHot = false)
include hst hplan hpass hhot

/-- A stream whose turn it is: the test of what the park needs, and then whether its units found a place. -/
theorem State.parkWrite_of_ready : s.parkWrite n =
    if s.parkRefused j x (s.parkNeeds j n x) then s.notParked n x
    else if (s.parkWritten j n x).short then s.notParked n x
    else ((s.parkWritten j n x).planned n (s.parkFull (s.parkNeeds j n x))).showFree := by
  have hgo : (x.st != 2 || x.plan.isSome || s.inAnyPass x.job n || s.flashHot) = false := by simp [hst, hplan, hpass, hhot]
  simp only [State.parkWrite, hx, hj, hgo, Bool.false_eq_true, if_false]
  rfl

end Write

/-! ### PARK_COMPLETE (R256, R257, R334) -/

/-- Pages of one kind in a plan. -/
def ParkPlan.ofKind (pl : ParkPlan) (k : Nat) : Nat := (pl.pages.filter (fun g => g.2.1 == k)).length

/-- The units that a plan names, and the second unit of each pair. -/
def State.planUnits (s : State) (pl : ParkPlan) : List Nat :=
  ((pl.pages.filter (fun g => g.2.1 != 4)).map (fun g => g.2.2.1 % 2 ^ 29)).foldl
    (fun us u => if s.secondUnit (u + 1) then sinsert (sinsert us u) (u + 1) else sinsert us u) []

/-- The set that a plan commits. -/
def State.planSet (s : State) (j : Job) (x : Stream) (pl : ParkPlan) : ParkSet where
  record := setRecord x.key (manTag j.manifest) x.len j.layers j.hg pl.mode (pl.ofKind 0 + pl.ofKind 1) (pl.ofKind 2 + pl.ofKind 3)
    (s.ptpTime.getD 0) (s.planUnits pl).length (pl.ofKind 4)
  pages := pl.pages.foldl (fun m g => mset m g.1 (if g.2.1 ≤ 1 then 0 else if g.2.1 ≤ 3 then 1 else 2, g.2.2.1)) []
  units := s.planUnits pl

/-- The page table entry that a plan gives a page: deep, penumbra only, or none. -/
def ParkPlan.entry (pl : ParkPlan) (k : ListKey) (p : Nat) : Nat :=
  match mget (pl.pages.map (fun g => (g.1, g.2))) (pagePlace k.layer k.group p) with
  | some (kd, _, pn) => if kd ≤ 1 then pteMake 2 true pn 0 else pteMake 3 false pn 0
  | none => 0

/-- The stream is parked: its pages without a full unit are counted, the references of the others kept. -/
def Stream.parkedBy (x : Stream) (pl : ParkPlan) : Stream :=
  let lossy := pl.ofKind 2 + pl.ofKind 3 + pl.ofKind 4
  let y : Stream := { x.put 104 4 lossy with
    plan := none, op := none, woken := false
    refs := (pl.pages.filter (fun g => decide (g.2.1 ≤ 1))).foldl (fun m g => mset m g.1 g.2.2.1) [] }
  (y.put 0 1 3).put 3 1 (Nat.lor (x.u 3 1) (b2n (decide (0 < lossy))))

theorem State.parkComplete_of_plan {pl : ParkPlan} {r : Ring} {c : Nat} (hx : s.stream n = some x) (hj : s.job x.job = some j)
    (hplan : x.plan = some pl) (hop : x.op = some (r, c, 0x31)) (hrel : x.release = false) (hclose : x.close = none) :
    s.parkComplete n = ((((s.freeFrames j x.job n x pl.entry).setStream n (x.parkedBy pl)).commitSet x.key (s.planSet j x pl)).completeLater
      r 0x31 c stParked (leBytes 1 pl.mode ++ leBytes 3 0 ++ leBytes 4 (pl.ofKind 0 + pl.ofKind 1) ++
        leBytes 4 (pl.ofKind 2 + pl.ofKind 3))).issueStages.showFree := by
  rw [State.parkComplete, hx]
  simp only [hplan, hj, hop, hrel, hclose, Bool.false_and, Bool.false_eq_true, if_false, Option.isSome_none]
  rfl

end Park

/-- Settles O31: each clause is one of the equations above, one named case for each clause. -/
theorem parkingAStream : Obligations.ParkingAStream := by
  refine ⟨fun s n h => ?free, ?waits, ?refused, ?admitted, ?complete, ?noPlan⟩
  case free =>
    rw [exec_parkWrite, exec_parkComplete, State.parkWrite_of_free h, State.parkComplete_of_free h]
    exact ⟨rfl, rfl⟩
  case waits =>
    intro s n x j hx hj h
    rw [exec_parkWrite, State.parkWrite_of_waits hx hj h]
  case refused =>
    rintro s n x j _ hx hj hst hplan hpass hhot rfl h
    have href : s.parkRefused j x (s.parkNeeds j n x) = true := State.parkRefused_iff.2 h
    rw [exec_parkWrite, State.parkWrite_of_ready hx hj hst hplan hpass hhot, if_pos href]
  case admitted =>
    rintro s _ _ _ n x j _ full q hx hj hst hplan hpass hhot rfl hdeep hunits hpens hsets hfull hbudget rfl rfl hq rfl
    have hok : s.parkRefused j x (s.parkNeeds j n x) = false := by
      rw [← Bool.not_eq_true, State.parkRefused_iff]
      rintro (h | h | h | ⟨h, -⟩ | ⟨hl, hp⟩)
      · exact h hdeep
      · exact Nat.not_le.2 h hunits
      · exact Nat.not_lt.2 h hpens
      · exact Nat.not_lt.2 h hsets
      · rw [hfull, decide_eq_true_eq] at hbudget
        exact hbudget.elim (Int.not_le.2 hl) (Int.not_le.2 hp)
    obtain rfl : full = s.parkFull (s.parkNeeds j n x) := hfull
    obtain rfl : q = s.parkWritten j n x := hq
    rw [exec_parkWrite, State.parkWrite_of_ready hx hj hst hplan hpass hhot, hok, if_neg Bool.false_ne_true]
    rfl
  case complete =>
    rintro s u _ _ n c x _ pl j r kind _ set hx hplan hj hop hrel hclose rfl rfl hrecord hpages hunits hu rfl rfl rfl
    obtain rfl : set = s.planSet j x pl := by
      cases set
      subst hrecord hpages hunits
      rfl
    obtain rfl : u = s.freeFrames j x.job n x pl.entry := hu
    rw [exec_parkComplete, State.parkComplete_of_plan hx hj hplan hop hrel hclose]
    rfl
  case noPlan =>
    intro s n x hx h
    rw [exec_parkComplete, State.parkComplete_of_no_plan hx h]

end Sys2Proof.Machine
end

section
/-!
# Fetching a weight image, and WEIGHT_STATUS

FETCH takes an entry and leaves a fetch standing; FETCH_PAGE_ARRIVAL with load 0 takes the page that is due into the slot, asks for
it again, or ends the fetch. There is one equation for each outcome, and the clauses of O35 are these equations.
-/

namespace Sys2Proof.Machine

open Sys2Proof

/-! ### FETCH (R292, R294) -/

section FetchEntry
variable {s t : State} {r : Ring} {e : Entry}

theorem exec_fetch (h : s.takeEntry r 0x50 = some (t, some e)) : exec (.fetch r) s = .next (t.fetchEntry e) :=
  congrArg _ (State.onEntry_of_takeEntry _ h)

/-- The fields of a FETCH entry and the fetch block that it names are legal. -/
structure State.FetchLegal (s : State) (e : Entry) : Prop where
  slot : e.f 16 1 ≤ 1
  ratePos : 0 < e.f 17 1
  rateMax : e.f 17 1 ≤ 24
  reserved : reservedBad e.bytes [(18, 6)] = none
  region : inHostRegion (e.f 24 8) 512 = true
  rest : reservedBad e.bytes [(32, 32)] = none
  block : fetchBlockBad (s.readPa (e.f 24 8) 512) = none

/-- The slot is FETCHING and the fetch stands with its block and rate. -/
def State.fetchBegins (s : State) (e : Entry) : State :=
  { s.setGslot (e.f 16 1) { s.gslot (e.f 16 1) with st := 1 } with
    fetch := some { ring := e.ring, cookie := e.cookie, slot := e.f 16 1, block := s.readPa (e.f 24 8) 512, rate := e.f 17 1,
                    was := (s.gslot (e.f 16 1)).st } }

/-- A legal entry: whether a fetch stands, and then the slot's state, decide. -/
theorem State.fetchEntry_of_legal (h : s.FetchLegal e) : s.fetchEntry e =
    if s.fetch.isSome then s.complete e stBusy
    else if s.gslotCode (e.f 16 1) == 1 || s.gslotCode (e.f 16 1) == 3 then s.complete e stSlot
    else s.fetchBegins e := by
  obtain ⟨hslot, hpos, hmax, hres, hregion, hrest, hblock⟩ := h
  simp only [State.fetchEntry, Nat.not_lt.2 hslot, Nat.pos_iff_ne_zero.1 hpos, Nat.not_lt.2 hmax, hres, hregion, hrest, hblock, if_false,
    Bool.not_true, Bool.false_eq_true, Option.orElse_none]
  rfl

theorem State.fetchEntry_of_standing (h : s.FetchLegal e) (hf : s.fetch.isSome = true) : s.fetchEntry e = s.complete e stBusy := by
  rw [State.fetchEntry_of_legal h, if_pos hf]

theorem State.fetchEntry_of_free (h : s.FetchLegal e) (hf : s.fetch = none) (h1 : s.gslotCode (e.f 16 1) ≠ 1)
    (h3 : s.gslotCode (e.f 16 1) ≠ 3) : s.fetchEntry e = s.fetchBegins e := by
  have hfree : ¬(s.gslotCode (e.f 16 1) == 1 || s.gslotCode (e.f 16 1) == 3) = true := by simp [h1, h3]
  rw [State.fetchEntry_of_legal h, hf, if_neg (by decide), if_neg hfree]

end FetchEntry

/-! ### A page of the fetch arrives (R291–R293, R526) -/

section FetchPage
variable {s : State} {f : Fetch} {x : Part} {p : Nat} {data : List Byte}

theorem exec_fetchPageArrival_fetch {ok : Bool} : exec (.fetchPageArrival 0 p data ok) s = .next (s.fetchArrival p data ok) := rfl

theorem State.fetchArrival_of_idle {ok : Bool} (h : s.fetch = none ∨ s.deepState ≠ 2 ∨ s.flashHot = true) :
    s.fetchArrival p data ok = s := by
  unfold State.fetchArrival
  split
  · rfl
  · next f hf =>
    have hwait : (!s.fetchDue f p || s.deepState != 2 || s.flashHot) = true := by
      rcases h with h | h | h
      · simp [h] at hf
      · simp [h]
      · simp [h]
    rw [if_pos hwait]

/-- The fetch reads storage over Ethernet, its manifest is in the slot, and page `p` may be taken. -/
structure State.FetchTakes (s : State) (f : Fetch) (p : Nat) : Prop where
  stands : s.fetch = some f
  due : s.fetchDue f p = true
  ready : s.deepState = 2
  cool : s.flashHot = false
  source : f.source = 2
  known : f.known = true

theorem State.fetchArrival_of_takes (h : s.FetchTakes f p) : s.fetchArrival p data true = s.fetchBody f p data := by
  obtain ⟨hf, hdue, hready, hcool, hsource, hknown⟩ := h
  have hbytes : s.fetchBytes f p data = (s, some data) := by simp [State.fetchBytes, hsource]
  simp [State.fetchArrival, hf, hdue, hready, hcool, hbytes, hknown]

theorem State.fetchFails_digest : s.fetchFails f stFailedDigest =
    (({ s with fetch := none } : State).setGslot f.slot {}).completeLater f.ring 0x50 f.cookie stFailedDigest := by
  simp [State.fetchFails, State.fetchEnd]

/-- A part page: its leaf digest decides (R291). -/
theorem State.fetchBody_part (htree : treeOf (s.slotManifest f.slot) p = none) (hpart : partAt (s.slotManifest f.slot) p = some x) :
    s.fetchBody f p data =
      if leafDigest x.role (p - x.first) (slice data 0 65536) = s.storedLeaf f.slot x (p - x.first) then
        ((s.putSlotPage f.slot p data).pushPage f p).fetchStep f (f.todo.filter (· != p))
      else s.fetchRetry f 0x201 x.role (p - x.first) f.todo := by
  simp only [State.fetchBody, htree, hpart, bne_iff_ne, ite_not]

theorem State.fetchRetry_again {code role i : Nat} {again : List Nat} (h : f.tries < 3) : s.fetchRetry f code role i again =
    { s.weightError code role i with
      fetch := some { f with todo := again, tries := f.tries + 1, got := [], lines := f.lines.filter (fun y => !again.contains y.1) } } := by
  rw [State.fetchRetry, if_neg (Nat.not_le.2 h)]

theorem State.fetchRetry_fails {code role i : Nat} {again : List Nat} (h : 3 ≤ f.tries) :
    s.fetchRetry f code role i again = (s.weightError code role i).fetchFails f stFailedDigest := by
  rw [State.fetchRetry, if_pos h]

/-- A page of the part's tree area is still awaited. -/
def Part.treeAwaited (x : Part) (todo : List Nat) : Bool :=
  !(todo.filter (fun q => decide (x.tree ≤ q) && decide (q < x.tree + x.treePages))).isEmpty

theorem Part.treeAwaited_iff {todo : List Nat} : x.treeAwaited todo = true ↔ ∃ q ∈ todo, x.tree ≤ q ∧ q < x.tree + x.treePages := by
  simp [Part.treeAwaited]

/-- A tree page is written; with the last of its tree, the tree decides (R291). -/
theorem State.fetchBody_tree (htree : treeOf (s.slotManifest f.slot) p = some x) : s.fetchBody f p data =
    if x.treeAwaited (f.todo.filter (· != p)) then (s.putSlotPage f.slot p data).fetchStep f (f.todo.filter (· != p))
    else if !(s.putSlotPage f.slot p data).treeOk f.slot x then (s.putSlotPage f.slot p data).treeRetry f x (f.todo.filter (· != p))
    else ((List.range x.treePages).foldl (fun s i => s.pushPage f (x.tree + i)) (s.putSlotPage f.slot p data)).fetchStep
      { f with treeTries := 0 } (f.todo.filter (· != p)) := by
  simp only [State.fetchBody, htree]
  rfl

/-- Pages of a tree that are at fault. -/
def State.treeFaults (s : State) (slot : Nat) (x : Part) : List Nat :=
  ((List.range x.treePages).map (x.tree + ·)).filter (s.treePageBad slot x)

theorem State.treeRetry_again {todo : List Nat} (h : f.treeTries < 3) : s.treeRetry f x todo =
    { s.weightError 0x205 x.role ((s.treeFaults f.slot x).headD x.tree - x.tree) with
      fetch := some { f with
        todo := s.treeFaults f.slot x ++ todo, tries := 0, treeTries := f.treeTries + 1, got := []
        lines := f.lines.filter (fun y => !(s.treeFaults f.slot x).contains y.1) } } := by
  simp only [State.treeRetry, if_neg (Nat.not_le.2 h)]
  rfl

theorem State.treeRetry_fails {todo : List Nat} (h : 3 ≤ f.treeTries) : s.treeRetry f x todo =
    (s.weightError 0x205 x.role ((s.treeFaults f.slot x).headD x.tree - x.tree)).fetchFails f stFailedDigest := by
  simp only [State.treeRetry, if_pos h]
  rfl

/-- The last page commits the image (R253, R294). -/
theorem State.fetchStep_nil : s.fetchStep f [] =
    let t := (({ s with fetch := none } : State).setGslot f.slot { st := 2, repair := slice f.block 256 256 }).completeLater f.ring 0x50
      f.cookie stDone
    { t with lostPages := t.lostPages.filter (fun p => pageSlot p != f.slot) } := rfl

end FetchPage

/-! ### BROADCAST_END (R295) -/

section BroadcastEnd
variable {s : State}

theorem exec_broadcastEnd : exec .broadcastEnd s = .next s.broadcastEnd := rfl

theorem State.broadcastEnd_of_broadcast {f : Fetch} (hf : s.fetch = some f) (hs : f.source = 4) :
    s.broadcastEnd = { s with fetch := some { f with gap := true } } := by
  simp [State.broadcastEnd, hf, hs]

theorem State.broadcastEnd_of_idle (hf : s.fetch = none) : s.broadcastEnd = s := by
  rw [State.broadcastEnd, hf]

end BroadcastEnd

/-! ### WEIGHT_STATUS (R283; the zeros are log 81) -/

section Status
variable {s t : State} {r : Ring} {e : Entry}

theorem exec_weightStatus (h : s.takeEntry r 0x54 = some (t, some e)) : exec (.weightStatus r) s = .next (t.weightStatus e) :=
  congrArg _ (State.onEntry_of_takeEntry _ h)

theorem State.weightStatus_of_noSlot (h : 1 < e.f 16 1) : s.weightStatus e = s.complete e stInvalid 16 := by
  rw [State.weightStatus, if_pos h]

/-- The header of page 0 that WEIGHT_STATUS reads: there is none but in a READY slot. -/
def State.statusHeader (s : State) (k : Nat) : List Byte := if (s.gslot k).st == 2 then s.readPa (slotBase k) 64 else []

theorem State.weightStatus_of_slot (h : e.f 16 1 ≤ 1) (hres : reservedBad e.bytes [(17, 47)] = none) :
    s.weightStatus e = s.complete e stDone 0 (leBytes 4 (s.gslotCode (e.f 16 1)) ++
      leBytes 4 (getLE (s.statusHeader (e.f 16 1)) 16 4) ++ leBytes 8 (getLE (s.statusHeader (e.f 16 1)) 8 8)) := by
  rw [State.weightStatus, if_neg (Nat.not_lt.2 h), hres]
  rfl

theorem State.statusHeader_of_ready {k : Nat} (h : (s.gslot k).st = 2) : s.statusHeader k = s.readPa (slotBase k) 64 :=
  if_pos (beq_iff_eq.2 h)

theorem State.statusHeader_of_not_ready {k : Nat} (h : (s.gslot k).st ≠ 2) : s.statusHeader k = [] :=
  if_neg (mt beq_iff_eq.1 h)

end Status

/-- Settles O35: each clause is one of the equations above, one named case for each clause. -/
theorem weightFetches : Obligations.WeightFetches := by
  refine ⟨?fetch, fun _ _ _ _ h => ?idle, ?part, ?tree, fun _ _ => ⟨_, rfl, State.fetchStep_nil⟩, fun _ _ hf hs => ?gap, fun _ hf => ?noFetch,
    ?status⟩
  case fetch =>
    intro s t r e h hslot hpos hmax hres hregion hrest hblock
    have hlegal : t.FetchLegal e := ⟨hslot, hpos, hmax, hres, hregion, hrest, hblock⟩
    rw [exec_fetch h]
    refine ⟨fun hf => ?standing, fun hf h1 h3 => ?free⟩
    case standing => rw [State.fetchEntry_of_standing hlegal hf]
    case free =>
      rw [State.fetchEntry_of_free hlegal hf h1 h3]
      rfl
  case idle => rw [exec_fetchPageArrival_fetch, State.fetchArrival_of_idle h]
  case part =>
    intro s f x p data hf hdue hready hcool hsource hknown htree hpart
    rw [exec_fetchPageArrival_fetch, State.fetchArrival_of_takes ⟨hf, hdue, hready, hcool, hsource, hknown⟩,
      State.fetchBody_part htree hpart]
    refine ⟨fun hd => ?matching, fun hd ht => ?again, fun hd ht => ?fails⟩
    case matching => rw [if_pos hd]
    case again => rw [if_neg hd, State.fetchRetry_again ht]
    case fails => rw [if_neg hd, State.fetchRetry_fails ht, State.fetchFails_digest]
  case tree =>
    rintro s _ f x p data bad _ hf hdue hready hcool hsource hknown htree rfl rfl hbad
    obtain rfl : bad = (s.putSlotPage f.slot p data).treeFaults f.slot x := hbad
    rw [exec_fetchPageArrival_fetch, State.fetchArrival_of_takes ⟨hf, hdue, hready, hcool, hsource, hknown⟩, State.fetchBody_tree htree]
    refine ⟨fun hleft => ?morePages, fun hlast => ?lastPage⟩
    case morePages => rw [if_pos (Part.treeAwaited_iff.2 hleft)]
    case lastPage =>
      have hdone : ¬x.treeAwaited (f.todo.filter (· != p)) = true := by
        rw [Part.treeAwaited_iff]
        rintro ⟨q, hq, hlo, hhi⟩
        exact (hlast q hq).elim (Nat.not_lt.2 hlo) (Nat.not_le.2 hhi)
      rw [if_neg hdone]
      refine ⟨fun hok => ?root, fun hok ht => ?again, fun hok ht => ?fails⟩
      case root => rw [hok, Bool.not_true, if_neg Bool.false_ne_true]
      case again => rw [hok, Bool.not_false, if_pos rfl, State.treeRetry_again ht]
      case fails => rw [hok, Bool.not_false, if_pos rfl, State.treeRetry_fails ht, State.fetchFails_digest]
  case gap => rw [exec_broadcastEnd, State.broadcastEnd_of_broadcast hf hs]
  case noFetch => rw [exec_broadcastEnd, State.broadcastEnd_of_idle hf]
  case status =>
    intro s t r e h
    rw [exec_weightStatus h]
    refine ⟨fun hk => ?noSlot, fun hk hres => ?slot⟩
    case noSlot => rw [State.weightStatus_of_noSlot hk]
    case slot =>
      rw [State.weightStatus_of_slot hk hres]
      refine ⟨fun hst => ?ready, fun hst => ?notReady⟩
      case ready => rw [State.statusHeader_of_ready hst]
      case notReady =>
        rw [State.statusHeader_of_not_ready hst]
        rfl

end Sys2Proof.Machine
end

section
/-!
# Swaps of a layer's weights, and weight loads

SWAP and WEIGHT_LOAD take an entry and leave a swap or a load standing; SWAP_EXECUTE carries a staged swap out, and
FETCH_PAGE_ARRIVAL with load `i + 1` takes a page of the load `i`. There is one equation for each outcome, and the clauses of O36 are
these equations.
-/

namespace Sys2Proof.Machine

open Sys2Proof

/-! ### SWAP (R302, R303, R305; a second swap is log 149) -/

/-- The range records of the slot's image that the swap of `j`'s layer takes. -/
def State.swapIts (s : State) (e : Entry) (j : Job) : List RangeRec := j.swapRanges (s.slotManifest (e.f 17 1)) (e.f 16 1)

/-- Their pages in the slot. -/
def State.swapTakes (s : State) (e : Entry) (j : Job) : List (Nat × Nat × Nat) :=
  swapPages (s.slotManifest (e.f 17 1)) (e.f 17 1) (s.swapIts e j)

/-- The pages with no resident copy, and those among them that lie in the near tier only. -/
def State.swapFresh (s : State) (e : Entry) (j : Job) : List (Nat × Nat × Nat) :=
  (s.swapTakes e j).filter (fun g => (s.residentOf g.2.1).isNone)
def State.swapNear (s : State) (e : Entry) (j : Job) : List (Nat × Nat × Nat) := (s.swapFresh e j).filter (fun g =>
  (s.swapIts e j).any (fun r => r.cls == 2 && decide (r.va / 65536 ≤ g.1) && decide (g.1 < r.va / 65536 + r.pages)))

/-- The recipe bank that the entry names, if any. -/
def Entry.swapBank (e : Entry) : Option Nat := if bit (e.f 18 1) 0 then some (b2n (bit (e.f 18 1) 1)) else none

/-- The swap that an accepted entry leaves standing. -/
def State.swapOf (s : State) (e : Entry) (j : Job) : Swap where
  ring := e.ring
  cookie := e.cookie
  job := e.jobNum
  layer := e.f 16 1
  slot := e.f 17 1
  bank := e.swapBank
  effective := e.f 24 8
  shadow := manPrivileged j.manifest (e.f 16 1)
  pages := s.swapTakes e j

/-! The tests of an entry whose fields are legal, in the model's order. -/

def State.swapStands (s : State) (e : Entry) : Bool := s.swaps.any (fun x => x.job == e.jobNum && x.layer == e.f 16 1)

def State.swapSlotBad (s : State) (e : Entry) (j : Job) : Bool :=
  (s.gslot (e.f 17 1)).st != 2 || manTag (s.slotManifest (e.f 17 1)) != manTag j.manifest ||
    manLayers (s.slotManifest (e.f 17 1)) != manLayers j.manifest

def State.swapDiffers (s : State) (e : Entry) (j : Job) : Bool :=
  !sameRanges (layerRecords j.manifest (e.f 16 1)) (layerRecords (s.slotManifest (e.f 17 1)) (e.f 16 1)) ||
    !sameRanges (j.swapRanges j.manifest (e.f 16 1)) (s.swapIts e j)

/-- The first count at which every page can be staged. -/
def State.swapReady (s : State) (e : Entry) (j : Job) : Nat := s.nowN + 24576 + stagingCt (s.swapTakes e j).length

def State.swapCrowded (s : State) (e : Entry) (j : Job) : Bool :=
  decide (s.dramFree < (s.swapFresh e j).length + 786432) || decide (s.nearFree < (s.swapNear e j).length)

def State.swapTooLarge (s : State) (e : Entry) (j : Job) : Bool :=
  !manPrivileged j.manifest (e.f 16 1) && decide (16384 < (s.swapTakes e j).length)

/-- The bank that the entry names has a failing entry. -/
def State.swapRecipeBad (s : State) (e : Entry) (j : Job) : Option Nat := e.swapBank.bind (s.recipesBad e.jobNum j)

section SwapEntry
variable {s t : State} {r : Ring} {e : Entry} {j : Job}

theorem exec_swap (h : s.takeEntry r 0x51 = some (t, some e)) : exec (.swap r) s = .next (t.swapEntry e) :=
  congrArg _ (State.onEntry_of_takeEntry _ h)

theorem State.swapSlotBad_iff : s.swapSlotBad e j = true ↔ (s.gslot (e.f 17 1)).st ≠ 2 ∨
    manTag (s.slotManifest (e.f 17 1)) ≠ manTag j.manifest ∨ manLayers (s.slotManifest (e.f 17 1)) ≠ manLayers j.manifest := by
  simp [State.swapSlotBad, or_assoc]

theorem State.swapDiffers_iff : s.swapDiffers e j = true ↔
    sameRanges (layerRecords j.manifest (e.f 16 1)) (layerRecords (s.slotManifest (e.f 17 1)) (e.f 16 1)) = false ∨
      sameRanges (j.swapRanges j.manifest (e.f 16 1)) (s.swapIts e j) = false := by
  simp [State.swapDiffers]

theorem State.swapCrowded_iff : s.swapCrowded e j = true ↔
    s.dramFree < (s.swapFresh e j).length + 786432 ∨ s.nearFree < (s.swapNear e j).length := by
  simp [State.swapCrowded]

theorem State.swapTooLarge_iff : s.swapTooLarge e j = true ↔
    manPrivileged j.manifest (e.f 16 1) = false ∧ 16384 < (s.swapTakes e j).length := by
  simp [State.swapTooLarge]

theorem State.swapCrowded_eq_false (hdram : (s.swapFresh e j).length + 786432 ≤ s.dramFree) (hnear : (s.swapNear e j).length ≤ s.nearFree) :
    s.swapCrowded e j = false := by
  simp [State.swapCrowded, hdram, hnear]

theorem State.swapTooLarge_eq_false (h : manPrivileged j.manifest (e.f 16 1) = true ∨ (s.swapTakes e j).length ≤ 16384) :
    s.swapTooLarge e j = false := by
  rcases h with h | h <;> simp [State.swapTooLarge, h]

/-- The fields of a SWAP entry are legal, and its job `j` serves. -/
structure State.SwapLegal (s : State) (e : Entry) (j : Job) : Prop where
  job : s.job e.jobNum = some j
  serving : j.phase = .serving
  layer : e.f 16 1 < manLayers j.manifest
  slot : e.f 17 1 ≤ 1
  flags : e.f 18 1 ≤ 3
  reserved : reservedBad e.bytes [(19, 5), (32, 32)] = none

theorem State.swapEntry_of_legal (h : s.SwapLegal e j) : s.swapEntry e =
    if s.swapStands e then s.complete e stBusy
    else if s.swapSlotBad e j then s.complete e stSlot
    else if s.swapDiffers e j then s.complete e stMismatch
    else if e.f 24 8 < s.swapReady e j then s.complete e stLate
    else if s.swapCrowded e j then s.complete e stRoom
    else if s.swapTooLarge e j then s.complete e stSize
    else match s.swapRecipeBad e j with
      | some i => s.complete e stInvalid i
      | none => ({ s with swaps := s.swaps ++ [s.swapOf e j] } : State).stageSwap (s.swapOf e j) j := by
  obtain ⟨hj, hserving, hlayer, hslot, hflags, hres⟩ := h
  have hphase : ¬(j.phase != .serving) = true := by simp [hserving]
  rw [State.swapEntry, hj]
  simp only [if_neg hphase, Nat.not_le.2 hlayer, Nat.not_lt.2 hslot, Nat.not_lt.2 hflags, hres, if_false]
  rfl

variable (h : s.SwapLegal e j)
include h

theorem State.swapEntry_of_stands (hs : s.swapStands e = true) : s.swapEntry e = s.complete e stBusy := by
  rw [State.swapEntry_of_legal h, if_pos hs]

variable (hfree : s.swapStands e = false)
include hfree

theorem State.swapEntry_of_slotBad (hs : s.swapSlotBad e j = true) : s.swapEntry e = s.complete e stSlot := by
  simp only [State.swapEntry_of_legal h, hfree, hs, Bool.false_eq_true, if_false, if_true]

variable (hslot : s.swapSlotBad e j = false)
include hslot

theorem State.swapEntry_of_differs (hs : s.swapDiffers e j = true) : s.swapEntry e = s.complete e stMismatch := by
  simp only [State.swapEntry_of_legal h, hfree, hslot, hs, Bool.false_eq_true, if_false, if_true]

variable (hsame : s.swapDiffers e j = false)
include hsame

theorem State.swapEntry_of_late (hs : e.f 24 8 < s.swapReady e j) : s.swapEntry e = s.complete e stLate := by
  simp only [State.swapEntry_of_legal h, hfree, hslot, hsame, hs, Bool.false_eq_true, if_false, if_true]

variable (hready : s.swapReady e j ≤ e.f 24 8)
include hready

theorem State.swapEntry_of_crowded (hs : s.swapCrowded e j = true) : s.swapEntry e = s.complete e stRoom := by
  simp only [State.swapEntry_of_legal h, hfree, hslot, hsame, Nat.not_lt.2 hready, hs, Bool.false_eq_true, if_false, if_true]

variable (hroom : s.swapCrowded e j = false)
include hroom

theorem State.swapEntry_of_tooLarge (hs : s.swapTooLarge e j = true) : s.swapEntry e = s.complete e stSize := by
  simp only [State.swapEntry_of_legal h, hfree, hslot, hsame, Nat.not_lt.2 hready, hroom, hs, Bool.false_eq_true, if_false, if_true]

variable (hsize : s.swapTooLarge e j = false)
include hsize

theorem State.swapEntry_of_recipeBad {i : Nat} (hs : s.swapRecipeBad e j = some i) : s.swapEntry e = s.complete e stInvalid i := by
  simp only [State.swapEntry_of_legal h, hfree, hslot, hsame, Nat.not_lt.2 hready, hroom, hsize, hs, Bool.false_eq_true, if_false]

theorem State.swapEntry_of_accepted (hs : s.swapRecipeBad e j = none) :
    s.swapEntry e = ({ s with swaps := s.swaps ++ [s.swapOf e j] } : State).stageSwap (s.swapOf e j) j := by
  simp only [State.swapEntry_of_legal h, hfree, hslot, hsame, Nat.not_lt.2 hready, hroom, hsize, hs, Bool.false_eq_true, if_false]

end SwapEntry

/-! ### SWAP_EXECUTE (R304) -/

section SwapExecute
variable {s : State} {job layer : Nat} {x : Swap} {j : Job}

theorem exec_swapExecute : exec (.swapExecute job layer) s = .next (s.swapExecute job layer) := rfl

/-- Every leaf of the swap points at its staged page, the job has the swap's bank, and the swap counts as executed by the next pass. -/
def State.swapDone (s : State) (job layer : Nat) (x : Swap) (j : Job) : State :=
  let u := (x.pages.foldl (fun s g => s.repoint job g.1 g.2.2) s).modJob job (fun j => j.withBank x.bank)
  ({ u with swaps := u.swaps.map (fun (y : Swap) => if y.job == job && y.layer == layer then { y with executed := some j.nextSeq } else y) } :
    State).showFree

variable (hx : s.swaps.find? (fun x => x.job == job && x.layer == layer && x.executed.isNone) = some x) (hj : s.job job = some j)
  (hstaged : x.staged = true)
include hx hj hstaged

theorem State.swapExecute_of_early (h : s.nowN < x.effective) : s.swapExecute job layer = s := by
  simp [State.swapExecute, hx, hj, hstaged, h]

theorem State.swapExecute_of_due (h : x.effective ≤ s.nowN) (hplace : x.shadow = false) (hexec : j.executing = none)
    (hformed : j.formed = none) : s.swapExecute job layer = s.swapDone job layer x j := by
  simp [State.swapExecute, hx, hj, hstaged, Nat.not_lt.2 h, hplace, hexec, hformed, State.swapDone]

end SwapExecute

/-! ### WEIGHT_LOAD (R307) -/

section LoadEntry
variable {s t : State} {r : Ring} {e : Entry} {j : Job}

theorem exec_weightLoad (h : s.takeEntry r 0x52 = some (t, some e)) : exec (.weightLoad r) s = .next (t.weightLoad e) :=
  congrArg _ (State.onEntry_of_takeEntry _ h)

/-- The fields of a WEIGHT_LOAD entry are legal for its job `j`, and its source is no address of the module's own. -/
structure State.LoadLegal (s : State) (e : Entry) (j : Job) : Prop where
  job : s.job e.jobNum = some j
  range : e.f 16 4 < secCount j.manifest 3
  kind : 2 ≤ (manRange j.manifest (e.f 16 4)).kind
  pages : e.f 20 4 + e.f 24 4 ≤ (manRange j.manifest (e.f 16 4)).pages
  countPos : 0 < e.f 24 4
  countMax : e.f 24 4 ≤ 65536
  reserved : reservedBad e.bytes [(30, 2), (36, 4)] = none
  digestsVa : e.f 40 8 < 2 ^ 52
  digests : ∀ a b c, s.transRange e.jobNum (e.f 40 8) (32 * e.f 24 4) false ≠ .bad a b c
  sourceBits : adBitsOk (e.f 48 8) = true
  source : 2 ≤ adSpace (e.f 48 8)
  tail : reservedBad e.bytes [(56, 8)] = none

theorem State.weightLoad_of_legal (h : s.LoadLegal e j) : s.weightLoad e =
    { s with loads := s.loads ++ [{ ring := e.ring, cookie := e.cookie, job := e.jobNum, bytes := e.bytes }] } := by
  obtain ⟨hj, hrange, hkind, hpages, hpos, hmax, hres, hva, hdig, hbits, hsource, htail⟩ := h
  have hspace : adSpace (e.f 48 8) ≠ 1 ∧ adSpace (e.f 48 8) ≠ 0 := by omega
  have hbelow : e.f 40 8 < 4503599627370496 := hva
  cases htrans : s.transRange e.jobNum (e.f 40 8) (32 * e.f 24 4) false with
  | bad a b c => exact absurd htrans (hdig a b c)
  | _ => simp [State.weightLoad, hj, Nat.not_le.2 hrange, Nat.not_lt.2 hkind, Nat.not_lt.2 hpages, Nat.pos_iff_ne_zero.1 hpos,
      Nat.not_lt.2 hmax, hres, htrans, Nat.not_le.2 hbelow, hbits, hspace, htail]

end LoadEntry

/-! ### A page of a load arrives (R288, R307) -/

section LoadPage
variable {s : State} {i page : Nat} {data dig desc : List Byte} {w : WLoad} {j : Job}

theorem exec_fetchPageArrival_load {ok : Bool} : exec (.fetchPageArrival (i + 1) page data ok) s = .next (s.loadArrival i data ok) := rfl

theorem State.loadAux_of_address (hdig : s.readVa w.job (w.digests + 32 * w.pos) 32 = .ok dig) (hs : adSpace w.source ≠ 0) :
    s.loadAux w = .ok (dig, []) := by
  simp [State.loadAux, hdig, Acc.bind, hs]

theorem State.loadAux_of_descriptor (hdig : s.readVa w.job (w.digests + 32 * w.pos) 32 = .ok dig) (hs : adSpace w.source = 0)
    (hdesc : s.readVa w.job w.source 256 = .ok desc) : s.loadAux w = .ok (dig, desc) := by
  simp [State.loadAux, hdig, Acc.bind, hs, hdesc]

theorem State.loadArrival_of_badSource {ok : Bool} (hw : s.loads[i]? = some w) (hj : s.job w.job = some j)
    (haux : s.loadAux w = .ok (dig, desc)) (hs : adSpace w.source = 0) (hcode : getLE desc 0 1 = 0 ∨ 4 < getLE desc 0 1) :
    s.loadArrival i data ok = s.loadEnd w stFailedSource := by
  have hbad : (decide (adSpace w.source = 0) && (decide (getLE desc 0 1 = 0) || decide (4 < getLE desc 0 1) ||
      (decide (getLE desc 0 1 = 1) && (s.otherSlotPage j w.role w.index).isNone))) = true := by
    rcases hcode with h | h <;> simp [hs, h]
  simp only [State.loadArrival, hw, haux, hj, hbad, if_true]

/-- The load reads host memory: its next page there, and the virtual page of the range that it is written to. -/
def State.loadHost (s : State) (w : WLoad) : List Byte := slice (s.readHost (adLocal w.source + w.pos * 65536) 65536) 0 65536
def WLoad.target (w : WLoad) (j : Job) : Nat := (manRange j.manifest w.range).va / 65536 + w.first + w.pos

/-- The page of `vp` is a loaded page that counts as clean. -/
def State.markLoaded (s : State) (w : WLoad) (vp : Nat) (dig : List Byte) : State :=
  let u := { s with loaded := mset s.loaded (vkey w.job vp) (dig, w.role, w.index) }
  match u.leafOf w.job vp with
  | some l => { u with cleanAt := mset u.cleanAt l.page u.commits }
  | none => u

variable (hw : s.loads[i]? = some w) (hj : s.job w.job = some j) (haux : s.loadAux w = .ok (dig, desc)) (hs : adSpace w.source = 3)
include hw hj haux hs

theorem State.loadArrival_of_badDigest (hd : leafDigest w.role w.index (s.loadHost w) ≠ dig) :
    s.loadArrival i data true = (s.weightError 0x201 w.role w.index).loadEnd w stFailedDigest := by
  have hbytes : s.loadBytes w j desc data = (s, some (s.readHost (adLocal w.source + w.pos * 65536) 65536)) := by simp [State.loadBytes, hs]
  rw [State.loadHost] at hd
  simp [State.loadArrival, hw, haux, hj, hs, hbytes, hd]

theorem State.loadArrival_of_last {t : State} (hd : leafDigest w.role w.index (s.loadHost w) = dig)
    (ht : s.loadInto w.job (w.target j) (s.loadHost w) = some t) (hlast : w.count ≤ w.pos + 1) :
    s.loadArrival i data true = (t.markLoaded w (w.target j) dig).loadEnd w stDone := by
  have hbytes : s.loadBytes w j desc data = (s, some (s.readHost (adLocal w.source + w.pos * 65536) 65536)) := by simp [State.loadBytes, hs]
  rw [State.loadHost] at hd ht
  rw [WLoad.target] at ht
  simp only [State.loadArrival, hw, haux, hj, hs, OfNat.ofNat_ne_zero, decide_false, Bool.false_and, Bool.false_eq_true, if_false, hbytes,
    Bool.not_true, hd, bne_self_eq_false, Bool.or_self, ht, ge_iff_le, hlast, if_true]
  rfl

end LoadPage

/-- Settles O36: each clause is one of the equations above, one named case for each clause. -/
theorem weightSwapsAndLoads : Obligations.WeightSwapsAndLoads := by
  refine ⟨?swap, ?execute, ?load, ?page, ?badSource⟩
  case swap =>
    intro s t r e j m rs bank pages fresh near h hj hserving hlayer hslot hflags hres hm hrs hpages hfresh hnear hbank
    subst m rs pages fresh near bank
    have hlegal : t.SwapLegal e j := ⟨hj, hserving, hlayer, hslot, hflags, hres⟩
    rw [exec_swap h]
    refine ⟨fun hs => ?stands, fun hfree hs => ?slot, fun hfree hst htag hlayers => ?sameModel⟩
    case stands => rw [State.swapEntry_of_stands hlegal hs]
    case slot => rw [State.swapEntry_of_slotBad hlegal hfree (State.swapSlotBad_iff.2 hs)]
    case sameModel =>
      have hgood : t.swapSlotBad e j = false := by simp [State.swapSlotBad, hst, htag, hlayers]
      refine ⟨fun hs => ?differs, fun hrecords hranges => ?sameRanges⟩
      case differs => rw [State.swapEntry_of_differs hlegal hfree hgood (State.swapDiffers_iff.2 hs)]
      case sameRanges =>
        have hsame : t.swapDiffers e j = false := by simp [State.swapDiffers, State.swapIts, hrecords, hranges]
        refine ⟨fun hs => ?late, fun hready => ⟨fun hs => ?room, fun hdram hnear hpriv hs => ?size, fun i hdram hnear hsize hs => ?recipe⟩,
          fun _ hready hdram hnear hsize hs hx => ?accepted⟩
        case late => rw [State.swapEntry_of_late hlegal hfree hgood hsame hs]
        case room => rw [State.swapEntry_of_crowded hlegal hfree hgood hsame hready (State.swapCrowded_iff.2 hs)]
        case size =>
          rw [State.swapEntry_of_tooLarge hlegal hfree hgood hsame hready (State.swapCrowded_eq_false hdram hnear)
            (State.swapTooLarge_iff.2 ⟨hpriv, hs⟩)]
        case recipe =>
          rw [State.swapEntry_of_recipeBad hlegal hfree hgood hsame hready (State.swapCrowded_eq_false hdram hnear)
            (State.swapTooLarge_eq_false hsize) hs]
        case accepted =>
          subst hx
          rw [State.swapEntry_of_accepted hlegal hfree hgood hsame hready (State.swapCrowded_eq_false hdram hnear)
            (State.swapTooLarge_eq_false hsize) hs]
          rfl
  case execute =>
    intro s job layer x j hx hj hstaged
    rw [exec_swapExecute]
    refine ⟨fun h => ?early, fun _ _ h hplace hexec hformed ht hu => ?due⟩
    case early => rw [State.swapExecute_of_early hx hj hstaged h]
    case due =>
      subst hu ht
      rw [State.swapExecute_of_due hx hj hstaged h hplace hexec hformed]
      rfl
  case load =>
    intro s t r e j h hj hrange hkind hpages hpos hmax hres hva hdig hbits hsource htail
    rw [exec_weightLoad h, State.weightLoad_of_legal ⟨hj, hrange, hkind, hpages, hpos, hmax, hres, hva, hdig, hbits, hsource, htail⟩]
  case page =>
    intro s i page data bs dig w j hw hdig hs hbs hj
    subst bs
    have haux : s.loadAux w = .ok (dig, []) := State.loadAux_of_address hdig (by omega)
    rw [exec_fetchPageArrival_load]
    refine ⟨fun hd => ?badDigest, fun t _ _ hd hvp ht hlast hu => ?last⟩
    case badDigest => rw [State.loadArrival_of_badDigest hw hj haux hs hd]
    case last =>
      subst hu hvp
      rw [State.loadArrival_of_last hw hj haux hs hd ht hlast]
      rfl
  case badSource =>
    intro s i page data dig desc w j ok hw hdig hs hdesc hj hcode
    rw [exec_fetchPageArrival_load, State.loadArrival_of_badSource hw hj (State.loadAux_of_descriptor hdig hs hdesc) hs hcode]

end Sys2Proof.Machine
end

section
/-!
# The glint sweep, and the promotion of a standby job

GLINT_SWEEP_CHECK checks a resident copy or a page of the weight region; PROMOTE takes an entry and leaves a promotion standing, and
PROMOTED ends it. There is one equation for each outcome, and the clauses of O37 are these equations.
-/

namespace Sys2Proof.Machine

open Sys2Proof

/-! ### The check of a resident copy (R299–R301) -/

section SweepResident
variable {s : State} {d slot i : Nat} {ok : Bool} {rep : Option (List Byte)} {p : Part}

theorem exec_glintSweepCheck_resident (h : isWeight d = false) : exec (.glintSweepCheck d ok rep) s = .next (s.sweepResident d ok) := by
  show Host.Outcome.next (if isWeight d then _ else _) = _
  rw [h, if_neg Bool.false_ne_true]

/-- The page was read well and matches its stored digest. -/
def State.residentGood (s : State) (d slot i : Nat) (p : Part) (ok : Bool) : Bool :=
  ok && leafDigest p.role i (s.readPa (d * 65536) 65536) == s.storedLeaf slot p i

theorem State.residentGood_iff : s.residentGood d slot i p ok = true ↔
    ok = true ∧ leafDigest p.role i (s.readPa (d * 65536) 65536) = s.storedLeaf slot p i := by
  simp [State.residentGood]

theorem State.residentGood_eq_false (h : ok = false ∨ leafDigest p.role i (s.readPa (d * 65536) 65536) ≠ s.storedLeaf slot p i) :
    s.residentGood d slot i p ok = false := by
  rcases h with h | h <;> simp [State.residentGood, h]

/-- A page that is the resident copy of a part's page. -/
theorem State.sweepResident_of_partOf {w : Nat} (hw : mget s.homes d = some w) (hp : s.partOf w = some (slot, p, i)) :
    s.sweepResident d ok =
      if s.residentGood d slot i p ok then { s with cleanAt := mset s.cleanAt d s.commits }
      else if s.onlyStaged d then s.stagedFails d w else s.residentFails d p.role i ((s.holders d).head?.map (·.1)) := by
  simp only [State.sweepResident, hw, Option.bind_some, hp]
  rfl

/-- A page that belongs to no part and that no load wrote. -/
theorem State.sweepResident_of_unknown (hp : (mget s.homes d).bind s.partOf = none)
    (hl : ∀ h ∈ s.holders d, mget s.loaded (vkey h.1 h.2) = none) : s.sweepResident d ok = s := by
  have hnone : (s.holders d).findSome? (fun h => mget s.loaded (vkey h.1 h.2)) = none := List.findSome?_eq_none_iff.2 hl
  simp only [State.sweepResident, hp, hnone]

/-- A staged page is staged again from its flash copy, where that can be read and checks. -/
theorem State.stagedFails_eq {w : Nat} : s.stagedFails d w =
    if s.deepReads = true ∧ s.weightOk w true = true then ((s.copyPage w d).flashRead (w * 65536 - deepBase) 65536).carryClean w d
    else (s.restage d 0).flashPageFails w true none := by
  simp only [State.stagedFails, Bool.and_eq_true]

end SweepResident

/-! ### The check of a page of the weight region (R299, R300) -/

section SweepFlash
variable {s : State} {w : Nat} {ok : Bool} {rep : Option (List Byte)} {x : Part}

theorem exec_glintSweepCheck_flash (h : isWeight w = true) : exec (.glintSweepCheck w ok rep) s = .next (s.sweepFlash w ok rep) := by
  show Host.Outcome.next (if isWeight w then _ else _) = _
  rw [if_pos h]

theorem State.sweepFlash_of_not_ready (h : (s.gslot (pageSlot w)).st ≠ 2) : s.sweepFlash w ok rep = s := by
  simp [State.sweepFlash, h]

theorem State.deepReads_of_ready (h : s.deepState = 2) : s.deepReads = true := by
  simp [State.deepReads, h]

/-- The page of its slot that a page of the weight region is. -/
def slotOffset (w : Nat) : Nat := w - slotBase (pageSlot w) / 65536

/-- The state after the page's read is counted. -/
def State.sweepRead (s : State) (w : Nat) : State := s.flashRead (w * 65536 - deepBase) 65536

variable (hst : (s.gslot (pageSlot w)).st = 2) (hdeep : s.deepState = 2) (hlost : s.lostPages.contains w = false)
include hst hdeep hlost

/-- The page is checked: its slot is READY, flash can be read, and the page is not lost. -/
theorem sweepFlash_checks : ((s.gslot (pageSlot w)).st != 2 || !s.deepReads || s.lostPages.contains w) = false := by
  rw [hst, State.deepReads_of_ready hdeep, hlost]
  rfl

theorem State.sweepFlash_of_part (htree : treeOf (s.slotManifest (pageSlot w)) (slotOffset w) = none)
    (hpart : partAt (s.slotManifest (pageSlot w)) (slotOffset w) = some x)
    (hok : (s.sweepRead w).pageChecks (pageSlot w) x (slotOffset w - x.first) = true) : s.sweepFlash w true rep = s.sweepRead w := by
  rw [slotOffset] at htree hpart hok
  rw [State.sweepRead] at hok ⊢
  simp only [State.sweepFlash, sweepFlash_checks hst hdeep hlost, htree, hpart, hok, Bool.false_eq_true, if_false, Bool.and_self, if_true]

theorem State.sweepFlash_of_tree (htree : treeOf (s.slotManifest (pageSlot w)) (slotOffset w) = some x)
    (hok : (s.sweepRead w).treePageBad (pageSlot w) x (slotOffset w) = false) : s.sweepFlash w true rep = s.sweepRead w := by
  rw [slotOffset] at htree hok
  rw [State.sweepRead] at hok ⊢
  simp only [State.sweepFlash, sweepFlash_checks hst hdeep hlost, htree, hok, Bool.false_eq_true, if_false, Bool.not_false, Bool.and_self,
    if_true]

end SweepFlash

/-! ### PROMOTE (R308, R558, R559; REFUSED_JOB is log 227, the bank log 120) -/

section Promote
variable {s t : State} {r : Ring} {e : Entry} {j : Job}

theorem exec_promote (h : s.takeEntry r 0x53 = some (t, some e)) : exec (.promote r) s = .next (t.promoteEntry e) :=
  congrArg _ (State.onEntry_of_takeEntry _ h)

theorem State.promoteEntry_of_not_standby (hj : s.job e.jobNum = some j)
    (h : j.phase ≠ .serving ∨ j.standby = false ∨ j.promoting.isSome = true) : s.promoteEntry e = s.complete e stJob := by
  have hno : (j.phase != .serving || !j.standby || j.promoting.isSome) = true := by
    rcases h with h | h | h <;> simp [h]
  simp only [State.promoteEntry, hj, hno, if_true]

/-- The ranges of a part that hold pages of its own. -/
def partRanges (m : List Byte) (part : Nat) : List RangeRec := (manRanges m).filter (fun r => r.part == part && r.kind != 3)

/-- The part of the job's own manifest that has the promoted part's role. -/
def Job.ownPart (j : Job) (m : List Byte) (part : Nat) : Nat :=
  ((List.range (secCount j.manifest 1)).find? (fun x => (manPart j.manifest x).role == (manPart m part).role)).getD part

/-- The promotion that an accepted entry leaves standing. -/
def State.promotionOf (s : State) (e : Entry) (j : Job) : Promote where
  ring := e.ring
  cookie := e.cookie
  priv := j.ownPart (s.slotManifest (e.f 16 1)) (e.f 17 1)
  bank := if e.f 24 8 = j.bankVa 0 then 0 else 1
  ranges := (partRanges (s.slotManifest (e.f 16 1)) (e.f 17 1)).map (fun r => (r.va / 65536, r.pages))

/-- A PROMOTE entry with legal fields, of a standby job `j` that serves, from a READY slot of its model, with a part of KIND 1 of it and a
bank of the job whose checks pass for the module's new endpoint `ep`, member `i`. -/
structure State.PromoteLegal (s : State) (e : Entry) (j : Job) (ep i : Nat) : Prop where
  job : s.job e.jobNum = some j
  serving : j.phase = .serving
  standby : j.standby = true
  idle : j.promoting = none
  slot : e.f 16 1 ≤ 1
  ready : (s.gslot (e.f 16 1)).st = 2
  tag : manTag (s.slotManifest (e.f 16 1)) = manTag j.manifest
  part : e.f 17 1 < secCount (s.slotManifest (e.f 16 1)) 1
  kind : (manPart (s.slotManifest (e.f 16 1)) (e.f 17 1)).kind = 1
  reserved : reservedBad e.bytes [(18, 6)] = none
  bank : e.f 24 8 = j.bankVa 0 ∨ e.f 24 8 = j.bankVa 1
  tail : reservedBad e.bytes [(32, 32)] = none
  endpoint : s.roleEndpoint e.jobNum (e.f 24 8) = some ep
  bankGood : s.bankBad e.jobNum j (e.f 24 8) ep = none
  member : j.memberList.findIdx? (· == ep) = some i

/-- Nothing of the part is mapped yet, and every page finds room. -/
theorem State.promoteEntry_of_mapPart {ep i : Nat} {u : State} (h : s.PromoteLegal e j ep i)
    (hfree : (partRanges (s.slotManifest (e.f 16 1)) (e.f 17 1)).any (fun r => !(s.mapped e.jobNum (r.va / 65536) r.pages).isEmpty) = false)
    (hu : s.mapPart e.jobNum (e.f 16 1) (e.f 17 1) (s.slotManifest (e.f 16 1)) (partRanges (s.slotManifest (e.f 16 1)) (e.f 17 1)) = some u) :
    s.promoteEntry e = ((u.setPreg .route 0x104 (BitVec.ofNat 32 (2 ^ 31 + ep % 1024))).modJob e.jobNum
      (fun j' => { j' with myMember := i, promoting := some (s.promotionOf e j) })).showFree := by
  obtain ⟨hj, hserving, hstandby, hidle, hslot, hready, htag, hpart, hkind, hres, hbank, htail, hep, hgood, hmember⟩ := h
  have hgo : (j.phase != .serving || !j.standby || j.promoting.isSome) = false := by simp [hserving, hstandby, hidle]
  have hmodel : ((s.gslot (e.f 16 1)).st != 2 || manTag (s.slotManifest (e.f 16 1)) != manTag j.manifest) = false := by simp [hready, htag]
  have hpartOk : (decide (secCount (s.slotManifest (e.f 16 1)) 1 ≤ e.f 17 1) ||
      (manPart (s.slotManifest (e.f 16 1)) (e.f 17 1)).kind != 1) = false := by simp [hpart, hkind]
  have hown : (e.f 24 8 != j.bankVa 0 && e.f 24 8 != j.bankVa 1) = false := by rcases hbank with h | h <;> simp [h]
  rw [partRanges] at hfree hu
  simp only [State.promoteEntry, hj, hgo, Nat.not_lt.2 hslot, hmodel, hpartOk, hres, hown, htail, hep, hgood, hmember, hfree, hu, if_false,
    Bool.false_eq_true]
  rfl

end Promote

/-! ### PROMOTED (R559, R560) -/

section Promoted
variable {s : State} {n : Nat} {j : Job} {x : Promote}

theorem exec_promoted : exec .promoted s = .next (s.jobNums.foldl State.promoted s) := rfl

/-- The job serves with its part and bank, and the entry completes PROMOTED. -/
def State.promotedJob (s : State) (n : Nat) (j : Job) (x : Promote) : State :=
  ((s.setJob n { j with
    promoted := true, promoting := none, priv := some x.priv, placement := { j.placement with active := x.bank }
    syncFrom := some s.nowN }).showBank n).completeLater x.ring 0x53 x.cookie stPromoted

/-- Record 0x00C, and a JOIN line to every other member at tick `ct`. -/
def State.announcePromoted (u : State) (n ct : Nat) : State :=
  let v := u.report .errlog { code := 0x000C, sev := 1, key := u.endpoint, job := some n }
  v.sendContain n (fun j => containLine 3 false j.myMember 0 0 none ct v.endpoint)

theorem State.promoted_of_resident (hj : s.job n = some j) (hx : j.promoting = some x) (hres : s.partResident n x = true) :
    s.promoted n = (s.promotedJob n j x).announcePromoted n s.nowN := by
  rw [State.promoted, hj]
  simp only [hx, hres, Bool.not_true, Bool.false_eq_true, if_false]
  rfl

theorem State.promoted_of_idle (h : ∀ j, s.job n = some j → j.promoting = none) : s.promoted n = s := by
  cases hj : s.job n with
  | none => rw [State.promoted, hj]
  | some j =>
    rw [State.promoted, hj]
    simp only [h j hj]

end Promoted

/-- Settles O37: each clause is one of the equations above, one named case for each clause. -/
theorem glintSweepAndPromotion : Obligations.GlintSweepAndPromotion := by
  refine ⟨?resident, fun _ _ _ _ hd hp hl => ?unknown, fun _ _ _ _ hw hst => ?notReady, ?flash, ?promote, ?promoted, fun _ h => ?idle⟩
  case resident =>
    intro s d slot i ok p rep hd hp
    obtain ⟨w, hw, hpart⟩ := Option.bind_eq_some_iff.1 hp
    rw [exec_glintSweepCheck_resident hd, State.sweepResident_of_partOf hw hpart]
    refine ⟨fun hgood => ?clean, fun v hbad hv hstaged => ?staged, fun hbad hstaged => ?fault⟩
    case clean => rw [if_pos (State.residentGood_iff.2 hgood)]
    case staged =>
      obtain rfl : w = v := Option.some.inj (hw.symm.trans hv)
      rw [State.residentGood_eq_false hbad, if_neg Bool.false_ne_true, if_pos hstaged, State.stagedFails_eq]
    case fault =>
      rw [State.residentGood_eq_false hbad, if_neg Bool.false_ne_true, hstaged, if_neg Bool.false_ne_true]
      rfl
  case unknown => rw [exec_glintSweepCheck_resident hd, State.sweepResident_of_unknown hp hl]
  case notReady => rw [exec_glintSweepCheck_flash hw, State.sweepFlash_of_not_ready hst]
  case flash =>
    intro s u w p x m rep hw hst hdeep hlost hp hm hu
    subst p m u
    rw [exec_glintSweepCheck_flash hw]
    refine ⟨fun htree hpart hok => ?part, fun htree hok => ?tree⟩
    case part =>
      rw [State.sweepFlash_of_part hst hdeep hlost htree hpart hok]
      rfl
    case tree =>
      rw [State.sweepFlash_of_tree hst hdeep hlost htree hok]
      rfl
  case promote =>
    intro s t r e j h hj
    rw [exec_promote h]
    refine ⟨fun hno => ?notStandby, ?accepted⟩
    case notStandby => rw [State.promoteEntry_of_not_standby hj hno]
    case accepted =>
      intro u m mine ep i x hserving hstandby hidle hslot hm hready htag hpart hkind hres hbank htail hep hgood hmember hmine hfree hu hx
      subst x mine m
      rw [State.promoteEntry_of_mapPart
        ⟨hj, hserving, hstandby, hidle, hslot, hready, htag, hpart, hkind, hres, hbank, htail, hep, hgood, hmember⟩ hfree hu]
      rfl
  case promoted =>
    intro s t u n j x hn hj hx hres ht hu
    subst u t
    rw [exec_promoted, hn, List.foldl_cons, List.foldl_nil, State.promoted_of_resident hj hx hres]
    rfl
  case idle => rw [exec_promoted, List.foldl_fixed' fun n => State.promoted_of_idle (h n)]

end Sys2Proof.Machine
end

section
/-!
# A step, and the tick of the idle module

The queue decides between a command and a tick (log 11). A tick moves the counter, and away from the boundaries of 4,096 ct nothing else
but the requests that wait.
-/

namespace Sys2Proof.Machine

open Sys2Proof

section Tick
variable {s : State}

theorem step_of_waiting {c : Instr} {rest : List Instr} (h : s.pending = c :: rest) : step s = exec c { s with pending := rest } := by
  rw [step, h]

theorem step_of_idle (h : s.pending = []) : step s = .next s.tick := by
  rw [step, h]

theorem State.ticking_iff : s.ticking = true ↔ s.life ≠ .held ∧ s.life ≠ .down := by
  rw [State.ticking, Bool.and_eq_true, bne_iff_ne, bne_iff_ne]

/-- Only requests that wait can leave at a tick (R419). -/
theorem State.pump_of_no_reqs (h : s.reqs = []) : s.pump = s := by
  rw [State.pump, h]
  rfl

theorem State.tick_of_not_ticking (h : s.life = .held ∨ s.life = .down) : s.tick = s := by
  have hstopped : s.ticking = false := by
    rw [← Bool.not_eq_true, State.ticking_iff]
    exact fun ⟨hheld, hdown⟩ => h.elim hheld hdown
  rw [State.tick, hstopped]
  rfl

/-- Between the boundaries of 4,096 ct no time is counted and no heartbeat. -/
theorem State.tick_of_no_boundary (hlive : s.ticking = true) (hreqs : s.reqs = []) (hct : (s.now + 1).toNat % 4096 ≠ 0) :
    s.tick = { s with now := s.now + 1 } := by
  have hticks : s.tick = (if (s.now + 1).toNat % 4096 = 0 then ({ s with now := s.now + 1 } : State).countTimes.heartbeats
      else { s with now := s.now + 1 }).pump := by
    rw [State.tick, hlive]
    rfl
  rw [hticks, if_neg hct]
  exact State.pump_of_no_reqs hreqs

end Tick

/-- Settles O1: the two cases of the queue. -/
theorem stepTakesFrontCommand : Obligations.StepTakesFrontCommand :=
  ⟨fun _ _ _ => step_of_waiting, fun _ => step_of_idle⟩

/-- Settles O2: the two cases of the tick, on an empty queue. -/
theorem tickAdvancesCounter : Obligations.TickAdvancesCounter := by
  refine ⟨fun s hq hheld hdown hreqs hct => ?live, fun s hq hlife => ?stopped⟩
  case live => rw [step_of_idle hq, State.tick_of_no_boundary (State.ticking_iff.2 ⟨hheld, hdown⟩) hreqs hct]
  case stopped => rw [step_of_idle hq, State.tick_of_not_ticking hlife]

end Sys2Proof.Machine
end

section
/-!
# Lock of the cadence counter to its reference

A measurement shows its phase error, counts in ACQUIRING, corrects the counter or the pending step, and steers; the clauses of O50
follow these parts and the events that move the lock state (R313–R320). The fail-over of SOURCE 4 that keeps LOCKED is log 152.
-/

namespace Sys2Proof.Machine

open Sys2Proof

/-! ### PTP_EVENT_MESSAGE (R313–R317) -/

section Message
variable {s : State} {p t g : Nat} {h : PtpHead}

theorem exec_ptpEventMessage : exec (.ptpEventMessage p h t g) s = .next (s.ptpMessage p h t g) := rfl

theorem State.ptpMine_iff : s.ptpMine h = true ↔ h.domain = wfield (s.preg .cadence 0x118) 6 0 ∧
    h.transport = wfield (s.preg .cadence 0x118) 10 9 ∧ h.p2p = wbit (s.preg .cadence 0x118) 8 := by
  simp only [State.ptpMine, Bool.and_eq_true, beq_iff_eq, and_assoc]

/-- Where no reference is in use, the one that the source can use is taken up (R314). -/
def State.refTaken (u : State) : State := if u.cadRef = 0 then u.setRef (u.refOf u.cadSource) else u

theorem State.ptpMessage_of_foreign (hf : 2 ≤ p ∨ s.ptpMine h = false) : s.ptpMessage p h t g = s := by
  have hskip : (decide (2 ≤ p) || !s.ptpMine h) = true := by simpa using hf
  rw [State.ptpMessage, if_pos hskip]

theorem State.ptpMessage_of_mine {u : State} (hp : p < 2) (hm : s.ptpMine h = true) (hu : u = s.setPtpOk p true) :
    s.ptpMessage p h t g = if u.cadState = 0 then u else if u.refTaken.cadRef ≠ p + 1 then u.refTaken
      else (u.refTaken.setPreg64 .cadence 0x138 0x13C g).measure (u.refTaken.ptpCount t) := by
  simp only [State.ptpMessage, hm, Nat.not_le.2 hp, decide_false, Bool.not_true, Bool.or_self, Bool.false_eq_true, if_false,
    bne_iff_ne, hu]
  rfl

end Message

/-! ### A measurement (R317, R320) -/

section Measure
variable {s u : State} {c : DWord} {d : Int}

/-- The phase error of the count `c` stands in CADENCE_OFFSET. -/
def State.phaseShown (s : State) (c : DWord) : State :=
  s.setPreg .cadence 0x128 (BitVec.ofNat 32 (unsigned 32 (max (-2147483648) (min 2147483647 (tickNs (s.ahead c))))))

/-- A measurement ends HOLDOVER and HOLDOVER_EXPIRED (R318). -/
def State.reacquired (u : State) : State := if u.cadState = 3 || u.cadState = 4 then u.enterLock 1 else u

/-- A measurement in ACQUIRING counts as good within 500 ns, and another begins the count anew. -/
def State.goodCounted (u : State) (d : Int) : State :=
  if u.cadState = 1 then { u with cad := { u.cad with good := if (tickNs d).natAbs ≤ 500 then u.cad.good + 1 else 0 } } else u

/-- A step where one is due and allowed; a step that is due and forbidden is pending. -/
def State.stepped (u : State) (c : DWord) (d : Int) : State :=
  if d.natAbs ≤ 24576 then u.setPending false
  else if u.slewOnly then (if u.stepPending then u else (u.setPending true).cadenceRecord 3)
  else ({ u with now := c } : State).setPending false

theorem State.measure_eq : s.measure c =
    (((s.phaseShown c).reacquired.goodCounted (s.ahead c)).stepped c (s.ahead c)).steer (s.ahead c) := rfl

theorem State.measure_of_locked (h : (s.phaseShown c).cadState = 2) :
    s.measure c = ((s.phaseShown c).stepped c (s.ahead c)).steer (s.ahead c) := by
  have hkeep : (s.phaseShown c).reacquired = s.phaseShown c := by simp [State.reacquired, h]
  have hcount : (s.phaseShown c).goodCounted (s.ahead c) = s.phaseShown c := by simp [State.goodCounted, h]
  rw [State.measure_eq, hkeep, hcount]

theorem State.measure_of_acquiring (h : (s.phaseShown c).cadState = 1) :
    s.measure c = (((s.phaseShown c).goodCounted (s.ahead c)).stepped c (s.ahead c)).steer (s.ahead c) := by
  have hkeep : (s.phaseShown c).reacquired = s.phaseShown c := by simp [State.reacquired, h]
  rw [State.measure_eq, hkeep]

theorem State.goodCounted_of_acquiring (h : u.cadState = 1) : u.goodCounted d =
    { u with cad := { u.cad with good := if (tickNs d).natAbs ≤ 500 then u.cad.good + 1 else 0 } } := if_pos h

theorem State.stepped_of_near (hd : d.natAbs ≤ 24576) : u.stepped c d = u.setPending false := if_pos hd

theorem State.stepped_of_allowed (hd : 24576 < d.natAbs) (hs : u.slewOnly = false) :
    u.stepped c d = ({ u with now := c } : State).setPending false := by
  rw [State.stepped, if_neg (Nat.not_le.2 hd), hs, if_neg Bool.false_ne_true]

theorem State.stepped_of_pending (hd : 24576 < d.natAbs) (hs : u.slewOnly = true) (hp : u.stepPending = true) : u.stepped c d = u := by
  rw [State.stepped, if_neg (Nat.not_le.2 hd), if_pos hs, if_pos hp]

theorem State.stepped_of_forbidden (hd : 24576 < d.natAbs) (hs : u.slewOnly = true) (hp : u.stepPending = false) :
    u.stepped c d =
      ((u.setPreg .cadence 0x108 (wassign (u.preg .cadence 0x108) 11 true)).irq .cadence 16).cadenceRecord 3 := by
  rw [State.stepped, if_neg (Nat.not_le.2 hd), if_pos hs, hp, if_neg Bool.false_ne_true, State.setPending, hp]
  rfl

/-- While STEP_PENDING stands the rate is 200 ppm towards the reference (R320). -/
theorem State.steer_of_pending (h : s.stepPending = true) :
    s.steer d = s.setPreg .cadence 0x12C (BitVec.ofNat 32 (unsigned 32 (if 0 < d then -200000 else 200000))) := by
  simp only [State.steer, h, if_true]

end Measure

/-! ### The lock state (R314, R317–R319) -/

section Lock
variable {s : State} {r t : Nat}

theorem exec_lockAcquired : exec .lockAcquired s = .next s.lockAcquired := rfl

theorem exec_referenceLossTimeout : exec (.referenceLossTimeout r) s = .next (s.refLost r) := rfl

theorem State.lockAcquired_of_not_due (h : s.cadState ≠ 1 ∨ s.cad.good < 16) : s.lockAcquired = s := by
  have hno : (decide (s.cadState = 1) && decide (16 ≤ s.cad.good)) = false := by
    simpa [Decidable.or_iff_not_imp_left] using h
  rw [State.lockAcquired, hno, if_neg Bool.false_ne_true]

/-- At lock to a PTP reference TIME_VALID is set, and PTP time is known from then on (R319). -/
theorem State.lockAcquired_of_due (h1 : s.cadState = 1) (hgood : 16 ≤ s.cad.good) : s.lockAcquired =
    if ((s.enterLock 2).cadRef = 1 ∨ (s.enterLock 2).cadRef = 2) ∧ wbit ((s.enterLock 2).preg .cadence 0x108) 8 = false then
      ((s.enterLock 2).setPreg .cadence 0x108 (wset ((s.enterLock 2).preg .cadence 0x108) 8)).ageSince
    else s.enterLock 2 := by
  simp only [State.lockAcquired, h1, hgood, decide_true, Bool.and_self, if_true, Bool.and_eq_true, Bool.or_eq_true,
    decide_eq_true_eq, Bool.not_eq_true']

/-- The reference in use is lost and none takes over. -/
def State.refDropped (u : State) : State := { u.setRef 0 with cad := { (u.setRef 0).cad with good := 0 } }

/-- The reference that takes over: with SOURCE 4 the other port's, where it is valid. -/
def State.refNext (u : State) : Nat := if u.cadSource = 4 then u.refOf 4 else 0

theorem State.refLost_of_ptp {u : State} (hr : r = 1 ∨ r = 2) (hu : u = s.setPtpOk (r - 1) false) : s.refLost r =
    if u.cadRef ≠ r then u else if u.refNext ≠ 0 then u.setRef u.refNext
    else if u.refDropped.cadState = 2 then (u.refDropped.enterLock 3).cadenceRecord 1 else u.refDropped := by
  have h0 : r ≠ 0 := by omega
  have hptp : (decide (r = 1) || decide (r = 2)) = true := by simpa using hr
  simp only [State.refLost, hptp, if_true, h0, decide_false, Bool.or_false, bne_iff_ne, hu]
  rfl

theorem exec_holdoverExpiry :
    exec .holdoverExpiry s = .next (if s.cadState = 3 ∧ 600 ≤ s.holdAge then (s.enterLock 4).cadenceRecord 2 else s) := by
  show Host.Outcome.next _ = _
  simp only [Bool.and_eq_true, decide_eq_true_eq]

theorem exec_portFailback_of_valid (hv : mget s.cad.validFrom 0 = some t) : exec .portFailback s =
    .next (if s.cadSource = 4 ∧ s.cadRef = 2 ∧ t + 245760000 ≤ s.nowN then s.setRef 1 else s) := by
  show Host.Outcome.next _ = _
  simp only [hv, Bool.and_eq_true, decide_eq_true_eq, and_assoc]

theorem exec_portFailback_of_invalid (hv : mget s.cad.validFrom 0 = none) : exec .portFailback s = .next s := by
  show Host.Outcome.next _ = _
  simp only [hv, Bool.and_false, Bool.false_eq_true, if_false]

end Lock

/-- Settles O50: each clause is one of the equations above, one named case for each clause. -/
theorem cadenceLock : Obligations.CadenceLock := by
  refine ⟨?foreign, ?mine, ?measure, ?steer, ?lock, ?lost, ?expiry, ?failback, ?noFailback⟩
  case foreign =>
    intro s p h t g hf
    have hno : 2 ≤ p ∨ s.ptpMine h = false := by
      refine hf.imp_right fun hh => ?_
      rw [← Bool.not_eq_true, State.ptpMine_iff]
      rintro ⟨hd, ht, hp⟩
      exact hh.elim (· hd) (·.elim (· ht) (· hp))
    rw [exec_ptpEventMessage, State.ptpMessage_of_foreign hno]
  case mine =>
    intro s u v p h t g hp hd ht hp2p hu hv
    obtain rfl : v = u.refTaken := hv
    rw [exec_ptpEventMessage, State.ptpMessage_of_mine hp (State.ptpMine_iff.2 ⟨hd, ht, hp2p⟩) hu]
    refine ⟨fun h0 => ?free, fun h0 hother => ?other, fun h0 href => ?reference⟩
    case free => rw [if_pos h0]
    case other => rw [if_neg h0, if_pos hother]
    case reference =>
      rw [if_neg h0, if_neg (not_not.2 href)]
      rfl
  case measure =>
    intro s u w c d hd hu hw
    obtain rfl : d = s.ahead c := hd
    obtain rfl : u = s.phaseShown c := hu
    refine ⟨fun h2 hd => ?near, fun h1 hd => ?acquiring, fun h2 hd hs => ?allowed, fun h2 hd hs hp => ?pending,
      fun h2 hd hs hp => ?forbidden⟩
    case near => rw [State.measure_of_locked h2, State.stepped_of_near hd]
    case acquiring =>
      obtain rfl : w = (s.phaseShown c).goodCounted (s.ahead c) := hw.trans (State.goodCounted_of_acquiring h1).symm
      rw [State.measure_of_acquiring h1, State.stepped_of_near hd]
    case allowed => rw [State.measure_of_locked h2, State.stepped_of_allowed hd hs]
    case pending => rw [State.measure_of_locked h2, State.stepped_of_pending hd hs hp]
    case forbidden => rw [State.measure_of_locked h2, State.stepped_of_forbidden hd hs hp]
  case steer =>
    intro s d
    refine ⟨fun hp hd => ?ahead, fun hp hd => ?behind⟩
    case ahead => rw [State.steer_of_pending hp, if_pos hd]
    case behind => rw [State.steer_of_pending hp, if_neg (Int.not_lt.2 hd)]
  case lock =>
    rintro s _ rfl
    refine ⟨fun h1 hgood hno => ?known, fun h1 hgood href hunknown => ?unknown, fun hno => ?notDue⟩
    case known =>
      have hkeep : ¬(((s.enterLock 2).cadRef = 1 ∨ (s.enterLock 2).cadRef = 2) ∧ wbit ((s.enterLock 2).preg .cadence 0x108) 8 = false) := by
        rintro ⟨href, hunknown⟩
        rcases hno with h3 | hset
        · omega
        · exact Bool.false_ne_true (hunknown.symm.trans hset)
      rw [exec_lockAcquired, State.lockAcquired_of_due h1 hgood, if_neg hkeep]
    case unknown => rw [exec_lockAcquired, State.lockAcquired_of_due h1 hgood, if_pos ⟨href, hunknown⟩]
    case notDue => rw [exec_lockAcquired, State.lockAcquired_of_not_due hno]
  case lost =>
    intro s u r hr hu
    rw [exec_referenceLossTimeout, State.refLost_of_ptp hr hu]
    refine ⟨fun hother => ?other, ?single, fun href hs ho => ?dual⟩
    case other => rw [if_pos hother]
    case single =>
      intro v href hs hv
      obtain rfl : v = u.refDropped := hv
      have hnone : u.refNext = 0 := if_neg hs
      rw [if_neg (not_not.2 href), if_neg (not_not.2 hnone)]
      exact ⟨fun h2 => congrArg _ (if_pos h2), fun h2 => congrArg _ (if_neg h2)⟩
    case dual =>
      have hnext : u.refNext = u.refOf 4 := if_pos hs
      rw [if_neg (not_not.2 href), hnext, if_pos ho]
  case expiry =>
    intro s
    rw [exec_holdoverExpiry]
    refine ⟨fun h3 hage => ?aged, fun hno => ?young⟩
    case aged => rw [if_pos ⟨h3, hage⟩]
    case young => rw [if_neg fun ⟨h3, hage⟩ => hno.elim (· h3) (Nat.not_lt.2 hage)]
  case failback =>
    intro s t hs href hv
    rw [exec_portFailback_of_valid hv]
    refine ⟨fun ht => ?due, fun ht => ?early⟩
    case due => rw [if_pos ⟨hs, href, ht⟩]
    case early => rw [if_neg fun ⟨_, _, hdue⟩ => Nat.not_lt.2 hdue ht]
  case noFailback =>
    intro s hno
    cases hv : mget s.cad.validFrom 0 with
    | none => rw [exec_portFailback_of_invalid hv]
    | some t =>
      rw [exec_portFailback_of_valid hv, if_neg]
      rintro ⟨hs, href, -⟩
      exact hno.elim (· hs) (·.elim (· href) (by simp [hv]))

end Sys2Proof.Machine
end

section
/-!
# Entries of streams and of park sets

OPEN, PARK, RESUME, CLOSE, PARK_LIST and PARK_DELETE each test their entry in the model's order; what passes the tests that they share
is put together once, and each outcome after them has its equation. The clauses of O24 and O27 are these equations.
-/

namespace Sys2Proof.Machine

open Sys2Proof

/-! ### OPEN (R332, Table 10-6) -/

section Open
variable {s t : State} {r : Ring} {e : Entry} {j : Job}

theorem exec_openStream (h : s.takeEntry r 0x30 = some (t, some e)) : exec (.openStream r) s = .next (t.openEntry e) :=
  congrArg _ (State.onEntry_of_takeEntry _ h)

theorem State.openEntry_of_not_serving (hj : s.job e.job = some j) (hp : j.phase ≠ .serving) : s.openEntry e = s.complete e stJob := by
  simp only [State.openEntry, hj, bne_iff_ne, ne_eq, hp, not_false_eq_true, if_true]

/-- The job of an OPEN serves, its fields are legal and its descriptor is mapped. -/
structure State.OpenLegal (s : State) (e : Entry) (j : Job) : Prop where
  job : s.job e.job = some j
  serving : j.phase = .serving
  number : e.f 16 2 < 16384
  reserved : reservedBad e.bytes [(18, 6), (32, 32)] = none
  aligned : e.f 24 8 % 128 = 0
  mapped : s.firmRange e.job (e.f 24 8) 128 false = true

theorem State.openEntry_of_busy (h : s.OpenLegal e j) (hx : (s.stream (e.f 16 2)).isSome = true) : s.openEntry e = s.complete e stBusy := by
  simp only [State.openEntry, h.job, h.serving, h.aligned, h.mapped, Nat.not_le.2 h.number, h.reserved, hx, bne_self_eq_false,
    Bool.not_true, Bool.or_self, Bool.false_eq_true, if_false, if_true]

/-- The entry that a legal descriptor `x` makes: active, with its job, its client and class, its frame duration and the tick. -/
def State.openedStream (s : State) (e : Entry) (client : Nat) (x : Stream) : Stream :=
  let y := ((((x.put 0 1 1).put 1 1 e.job).put 2 1 client).put 20 4 (x.inSamples * rateTicks (x.u 74 1 % 16))).put 112 8 s.nowN
  { y with key := x.u 48 8, bound := !y.flag 3 }

section Descriptor
variable {bs : List Byte} {x : Stream} (h : s.OpenLegal e j) (hfree : s.stream (e.f 16 2) = none)
  (hbs : s.readVa e.job (e.f 24 8) 128 = .ok bs) (hx : x = { e := bs })
include h hfree hbs hx

theorem State.openEntry_of_openBad {o : Nat} (hbad : openBad j.manifest (wfield (s.preg (.eth x.port) 0x104) 13 0) x = some o) :
    s.openEntry e = s.complete e stInvalid o := by
  subst hx
  simp only [State.openEntry, h.job, h.serving, h.aligned, h.mapped, Nat.not_le.2 h.number, h.reserved, hfree, hbs, hbad,
    bne_self_eq_false, Bool.not_true, Bool.or_self, Bool.false_eq_true, if_false, Option.isSome_none]

variable (hgood : openBad j.manifest (wfield (s.preg (.eth x.port) 0x104) 13 0) x = none)
  (hin : s.firmRange e.job x.inBase (x.inStride * x.inCount) false = true)
  (hout : s.firmRange e.job x.outBase (x.outStride * x.outCount) true = true)
include hgood hin hout

theorem State.openEntry_of_late (hlate : x.nextOut < x.lead + s.nowN + 24576) : s.openEntry e = s.complete e stLate := by
  subst hx
  simp only [State.openEntry, h.job, h.serving, h.aligned, h.mapped, Nat.not_le.2 h.number, h.reserved, hfree, hbs, hgood, hin, hout,
    hlate, bne_self_eq_false, Bool.not_true, Bool.or_self, Bool.false_eq_true, if_false, if_true, Option.isSome_none]

variable {c k : Nat} (hring : e.ring = .client c k) (hct : x.lead + s.nowN + 24576 ≤ x.nextOut)
include hring hct

theorem State.openEntry_of_fresh (hkey : x.u 48 8 = 0) :
    s.openEntry e = (s.setStream (e.f 16 2) (s.openedStream e (c + k * 64) x)).complete e stOpened := by
  subst hx
  simp only [State.openEntry, h.job, h.serving, h.aligned, h.mapped, Nat.not_le.2 h.number, h.reserved, hfree, hbs, hgood, hin, hout,
    Nat.not_lt.2 hct, hring, hkey, bne_self_eq_false, Bool.not_true, Bool.or_self, Bool.false_eq_true, if_false, if_true,
    Option.isSome_none, State.openedStream]

theorem State.openEntry_of_missing (hkey : x.u 48 8 ≠ 0) (hset : mget s.sets (x.u 48 8) = none) :
    s.openEntry e = s.complete e stMissing := by
  subst hx
  simp only [State.openEntry, h.job, h.serving, h.aligned, h.mapped, Nat.not_le.2 h.number, h.reserved, hfree, hbs, hgood, hin, hout,
    Nat.not_lt.2 hct, hring, hkey, hset, bne_self_eq_false, Bool.not_true, Bool.or_self, Bool.false_eq_true, if_false,
    Option.isSome_none]

end Descriptor

end Open

/-! ### PARK, RESUME and CLOSE (R334–R336) -/

section Named
variable {s t : State} {r : Ring} {e : Entry} {j : Job} {x : Stream}

theorem exec_parkStream (h : s.takeEntry r 0x31 = some (t, some e)) : exec (.parkStream r) s = .next (t.parkEntry e) :=
  congrArg _ (State.onEntry_of_takeEntry _ h)

theorem exec_resumeStream (h : s.takeEntry r 0x32 = some (t, some e)) : exec (.resumeStream r) s = .next (t.resumeEntry e) :=
  congrArg _ (State.onEntry_of_takeEntry _ h)

theorem exec_closeStream (h : s.takeEntry r 0x33 = some (t, some e)) : exec (.closeStream r) s = .next (t.closeEntry e) :=
  congrArg _ (State.onEntry_of_takeEntry _ h)

/-- An entry names a stream of its own job, which serves. -/
structure State.StreamNamed (s : State) (e : Entry) (j : Job) (x : Stream) : Prop where
  job : s.job e.job = some j
  serving : j.phase = .serving
  number : e.f 16 2 < 16384
  stream : s.stream (e.f 16 2) = some x
  own : x.job = e.job

variable (h : s.StreamNamed e j x)
include h

theorem State.streamEntry_of_named {res : List (Nat × Nat)} {f : State → Job → Nat → Stream → State} (hres : reservedBad e.bytes res = none) :
    s.streamEntry e res f = f s j (e.f 16 2) x := by
  simp only [State.streamEntry, h.job, h.serving, Nat.not_le.2 h.number, hres, h.stream, h.own, bne_self_eq_false, Bool.false_eq_true,
    if_false]

theorem State.parkEntry_of_named (hres : reservedBad e.bytes [(19, 5), (32, 32)] = none) (hrel : e.f 18 1 ≤ 1) (hkey : e.f 24 8 ≠ 0) :
    s.parkEntry e = if x.st ≠ 1 then s.complete e stState
      else s.setStream (e.f 16 2) { x.put 0 1 2 with key := e.f 24 8, release := e.f 18 1 == 1, op := some (e.ring, e.cookie, 0x31) } := by
  rw [State.parkEntry, State.streamEntry_of_named h hres, if_neg (Nat.not_lt.2 hrel), if_neg hkey]
  simp only [bne_iff_ne]

/-- A stream parked with RELEASE is not resumed: it is freed once its frames are gone (R334). -/
theorem State.resumeEntry_of_named (hres : reservedBad e.bytes [(18, 6), (32, 32)] = none) :
    s.resumeEntry e = if x.st ≠ 3 ∨ x.release = true then s.complete e stState
      else if e.f 24 8 < x.lead + s.nowN + 24576 then s.complete e stLate
      else if j.frames < j.arena.used.length + s.tailFrames (e.f 16 2) x j then s.complete e stFrames
      else (s.setStream (e.f 16 2) { (x.put 24 8 (e.f 24 8)).put 0 1 4 with op := some (e.ring, e.cookie, 0x32) }).stageTails (e.f 16 2) := by
  rw [State.resumeEntry, State.streamEntry_of_named h hres]
  simp only [Bool.or_eq_true, bne_iff_ne]

/-- A park in progress comes before the close (R336). -/
theorem State.closeEntry_of_named (hres : reservedBad e.bytes [(18, 46)] = none) (hclose : x.close = none) :
    s.closeEntry e = if x.st = 0 ∨ 3 < x.st then s.complete e stState
      else s.setStream (e.f 16 2) { (if x.st = 2 then x else x.put 0 1 5) with close := some (e.ring, e.cookie) } := by
  rw [State.closeEntry, State.streamEntry_of_named h hres]
  simp only [hclose, Option.isSome_none, Bool.or_false, Bool.or_eq_true, decide_eq_true_eq]

end Named

/-! ### PARK_LIST and PARK_DELETE (R257, R337) -/

section Sets
variable {s t : State} {r : Ring} {e : Entry} {j : Job}

theorem exec_parkList (h : s.takeEntry r 0x34 = some (t, some e)) : exec (.parkList r) s = .next (t.parkList e) :=
  congrArg _ (State.onEntry_of_takeEntry _ h)

theorem exec_parkDelete (h : s.takeEntry r 0x35 = some (t, some e)) : exec (.parkDelete r) s = .next (t.parkDelete e) :=
  congrArg _ (State.onEntry_of_takeEntry _ h)

/-- At most `cnt` records of the sets with keys above `key`, in the order of the keys. -/
def State.setRecords (s : State) (key cnt : Nat) : List (List Byte) :=
  ((s.sets.filter (fun x => decide (key < x.1))).take cnt).map (fun x => slice x.2.record 0 64)

variable (hj : s.job e.jobNum = some j) (hp : j.phase = .serving)
include hj hp

theorem State.parkList_of_badCount (hres : reservedBad e.bytes [(16, 8), (44, 20)] = none) (hcnt : e.f 40 4 = 0 ∨ 4096 < e.f 40 4) :
    s.parkList e = s.complete e stInvalid 40 := by
  have hbad : (decide (e.f 40 4 = 0) || decide (4096 < e.f 40 4)) = true := by simpa using hcnt
  simp only [State.parkList, hj, hp, hres, hbad, bne_self_eq_false, Bool.false_eq_true, if_false, if_true]

theorem State.parkList_of_written {u : State} (hres : reservedBad e.bytes [(16, 8), (44, 20)] = none) (hpos : 0 < e.f 40 4)
    (hle : e.f 40 4 ≤ 4096) (hu : s.writeVa e.jobNum (e.f 24 8) (s.setRecords (e.f 32 8) (e.f 40 4)).flatten = .ok u) :
    s.parkList e = u.complete e stListed 0 (leBytes 4 (s.setRecords (e.f 32 8) (e.f 40 4)).length) := by
  have hok : (decide (e.f 40 4 = 0) || decide (4096 < e.f 40 4)) = false := by
    simpa using ⟨Nat.ne_of_gt hpos, hle⟩
  rw [State.setRecords] at hu ⊢
  simp only [State.parkList, hj, hp, hres, hok, hu, bne_self_eq_false, Bool.false_eq_true, if_false]

variable (hres : reservedBad e.bytes [(16, 8), (32, 32)] = none)
include hres

theorem State.parkDelete_of_missing (hset : mget s.sets (e.f 24 8) = none) : s.parkDelete e = s.complete e stMissing := by
  simp only [State.parkDelete, hj, hp, hres, hset, bne_self_eq_false, Bool.false_eq_true, if_false, Option.isNone_none, if_true]

/-- Only a stream that opens from the set keeps it, and such a stream is resuming. -/
theorem State.parkDelete_of_unused (hset : (mget s.sets (e.f 24 8)).isSome = true) (hno : ∀ x ∈ s.streams, x.2.st ≠ 4) :
    s.parkDelete e = (s.deleteSet (e.f 24 8)).showFree.complete e stDeleted := by
  have hnone : (mget s.sets (e.f 24 8)).isNone = false := by rw [← Option.not_isSome, hset, Bool.not_true]
  simp only [State.parkDelete, hj, hp, hres, hnone, bne_self_eq_false, Bool.false_eq_true, if_false]
  refine if_neg fun hany => ?_
  obtain ⟨x, hx, hopen⟩ := List.any_eq_true.1 hany
  simp only [Bool.and_eq_true, beq_iff_eq] at hopen
  obtain ⟨⟨hst, -⟩, -⟩ := hopen
  exact hno x hx hst

end Sets

/-- Settles O24: each clause is one of the equations above, one named case for each clause. -/
theorem streamLife : Obligations.StreamLife := by
  refine ⟨⟨?notServing, ?opened⟩, ?park, ?resume, ?close⟩
  case notServing =>
    intro s t r e j h hj hp
    rw [exec_openStream h, State.openEntry_of_not_serving hj hp]
  case opened =>
    intro s t c k e j h hring hj hp hn hres hal hmap
    have hlegal : t.OpenLegal e j := ⟨hj, hp, hn, hres, hal, hmap⟩
    rw [exec_openStream h]
    refine ⟨fun hbusy => ?busy, fun bs x y z hfree hbs hx => ⟨fun o hbad => ?bad, fun hgood hin hout => ⟨fun hlate => ?late,
      fun hct hy hz => ⟨fun hkey => ?fresh, fun hkey hset => ?missing⟩⟩⟩⟩
    case busy => rw [State.openEntry_of_busy hlegal hbusy]
    case bad => rw [State.openEntry_of_openBad hlegal hfree hbs hx hbad]
    case late => rw [State.openEntry_of_late hlegal hfree hbs hx hgood hin hout hlate]
    case fresh =>
      obtain rfl : z = t.openedStream e (c + k * 64) x := by rw [hz, hy, State.openedStream]
      rw [State.openEntry_of_fresh hlegal hfree hbs hx hgood hin hout hring hct hkey]
    case missing => rw [State.openEntry_of_missing hlegal hfree hbs hx hgood hin hout hring hct hkey hset]
  case park =>
    intro s t r e j x h hj hp hn hx hown hres hrel hkey
    rw [exec_parkStream h, State.parkEntry_of_named ⟨hj, hp, hn, hx, hown⟩ hres hrel hkey]
    exact ⟨fun hst => congrArg _ (if_neg (not_not.2 hst)), fun hst => congrArg _ (if_pos hst)⟩
  case resume =>
    intro s t r e j x h hj hp hn hx hown hres
    rw [exec_resumeStream h, State.resumeEntry_of_named ⟨hj, hp, hn, hx, hown⟩ hres]
    refine ⟨fun hst => ?notParked, fun hst hrel hlate => ?late, fun hst hrel hct hframes => ?resuming⟩
    case notParked => rw [if_pos (.inl hst)]
    case late => rw [if_neg (by simp [hst, hrel]), if_pos hlate]
    case resuming => rw [if_neg (by simp [hst, hrel]), if_neg (Nat.not_lt.2 hct), if_neg (Nat.not_lt.2 hframes)]
  case close =>
    intro s t r e j x h hj hp hn hx hown hres hclose
    rw [exec_closeStream h, State.closeEntry_of_named ⟨hj, hp, hn, hx, hown⟩ hres hclose]
    refine ⟨fun hst => ?closing, fun hst => ?parking, fun hst => ?refused⟩
    case closing => rw [if_neg (by omega), if_neg (by omega)]
    case parking => rw [if_neg (by omega), if_pos hst]
    case refused => rw [if_pos hst]

/-- Settles O27: each clause is one of the equations above. -/
theorem parkSetsNamed : Obligations.ParkSetsNamed := by
  refine ⟨?list, ?delete⟩
  case list =>
    intro s t u r e j rs h hj hp hres
    rw [exec_parkList h]
    refine ⟨fun hcnt => ?badCount, fun hpos hle hrs hu => ?listed⟩
    case badCount => rw [State.parkList_of_badCount hj hp hres hcnt]
    case listed =>
      obtain rfl : rs = t.setRecords (e.f 32 8) (e.f 40 4) := hrs
      rw [State.parkList_of_written hj hp hres hpos hle hu]
  case delete =>
    intro s t r e j h hj hp hres
    rw [exec_parkDelete h]
    refine ⟨fun hset => ?missing, fun hset hno => ?deleted⟩
    case missing => rw [State.parkDelete_of_missing hj hp hres hset]
    case deleted => rw [State.parkDelete_of_unused hj hp hres hset hno]

end Sys2Proof.Machine
end

section
/-!
# A stream's progress: activation, egress, the end of a close, and its entry in MEDIA_STREAM_ENTRY

Each of the three events has one equation for each outcome. MEDIA_STREAM_SEL is a run of register writes, of which it is shown what
they store and what they leave. The clauses of O25 are these facts.
-/

namespace Sys2Proof.Machine

open Sys2Proof

/-! ### STREAM_ACTIVATION (R332, R333, R335) -/

section Activation
variable {s : State} {n : Nat} {x : Stream}

theorem exec_streamActivation : exec (.streamActivation n) s = .next (s.activate n) := rfl

variable (hx : s.stream n = some x)
include hx

theorem State.activate_of_not_resuming (hst : x.st ≠ 4) : s.activate n = s := by
  simp only [State.activate, hx, bne_iff_ne, ne_eq, hst, not_false_eq_true, if_true]

theorem State.activate_of_deep_tail (hst : x.st = 4) (hdeep : s.deepTails n ≠ []) : s.activate n = s.stageTails n := by
  simp [State.activate, hx, hst, hdeep]

theorem State.activate_of_staged {r : Ring} {c op : Nat} (hst : x.st = 4) (hdeep : s.deepTails n = []) (hop : x.op = some (r, c, op)) :
    s.activate n = ((s.setStream n { x.put 0 1 1 with op := none, woken := false }).preStageRange n 0 (x.len / 16)
      (x.nextOut - x.lead) 0).completeLater r op c (if op = 0x30 then stOpened else stResumed) := by
  simp only [State.activate, hx, hst, hdeep, hop, bne_self_eq_false, List.isEmpty_nil, Bool.not_true, Bool.false_eq_true, if_false]

end Activation

/-! ### EGRESS_TICK (R342, R348) -/

section Egress
variable {s : State} {n : Nat} {x : Stream} {f : OutFrame} {rest : List OutFrame}

theorem exec_egressTick : exec (.egressTick n) s = .next (s.egressTick n) := rfl

/-- The first queued frame of an active stream is done with: `rest` stands in the queue. -/
def State.dequeued (s : State) (n : Nat) (rest : List OutFrame) : State :=
  s.modStream n (fun x => { x with out := rest, endSent := x.endSent || false })

/-- The count of late frames and its interrupt leave the media controller stopped or running as it was. -/
theorem State.mediaStopped_of_late (s : State) : ((s.count .media 0x128 1).irq .media 1).mediaStopped = s.mediaStopped := by
  have hirq : ((s.count .media 0x128 1).irq .media 1).preg .media 0x100 = (s.count .media 0x128 1).preg .media 0x100 :=
    State.irq_reg_other _ _ _ (by decide) (by decide) (Page.header_not_pba _ (by decide))
  have hcount : (s.count .media 0x128 1).preg .media 0x100 = s.preg .media 0x100 := State.reg_setReg_ne _ (by decide)
  rw [State.mediaStopped, State.mediaStopped, hirq, hcount]

variable (hx : s.stream n = some x) (hout : x.out = f :: rest)
include hx hout

theorem State.egressTick_of_early (ht : s.nowN < f.tick) : s.egressTick n = s := by
  simp only [State.egressTick, hx, hout, ht, if_true]

variable (ht : f.tick ≤ s.nowN) (hst : x.st = 1)
include ht hst

theorem State.egressTick_of_ready {bs : List Byte} (hrun : s.mediaStopped = false) (hpark : s.mediaParked = false)
    (hbs : s.readVa x.job (x.outBase + f.seq % x.outCount * x.outStride) (32 + x.outBytes) = .ok bs) (hready : slotReady x n f bs = true) :
    s.egressTick n = (s.sendFrame x (putBytes bs 1 (leBytes 1 (getLE bs 1 1)))).dequeued n rest := by
  have hlast : s.lastFrame n x = false := by simp [State.lastFrame, hst]
  simp [State.egressTick, hx, hout, Nat.not_lt.2 ht, hlast, hrun, hpark, hbs, hready, hst, State.dequeued]

/-- With the media controller stopped no substitute for a late frame leaves either (R348). -/
theorem State.egressTick_of_stopped (hstop : s.mediaStopped = true) :
    s.egressTick n = ((s.count .media 0x128 1).irq .media 1).dequeued n rest := by
  simp [State.egressTick, hx, hout, Nat.not_lt.2 ht, hstop, State.mediaStopped_of_late, hst, State.dequeued]

end Egress

/-! ### CLOSE_COMPLETE (R336) -/

section Close
variable {s : State} {n : Nat} {x : Stream}

theorem exec_closeComplete : exec (.closeComplete n) s = .next (s.closeComplete n) := rfl

/-- The frame that ends a stream leaves, unless one with END has left or the media controller is stopped. -/
def State.endFrameSent (s : State) (n : Nat) (x : Stream) : State :=
  if x.endSent || s.mediaStopped then s else s.sendFrame x (frameHeader x n 2 x.outSeq s.nowN 0 0)

variable (hx : s.stream n = some x)
include hx

theorem State.closeComplete_of_queued (hout : x.out ≠ []) : s.closeComplete n = s := by
  simp [State.closeComplete, hx, hout]

theorem State.closeComplete_of_done {r : Ring} {c : Nat} (hst : x.st = 5) (hout : x.out = []) (hpass : s.inAnyPass x.job n = false)
    (hclose : x.close = some (r, c)) : s.closeComplete n = ((s.endFrameSent n x).freeStream n).completeLater r 0x33 c stClosed := by
  simp only [State.closeComplete, hx, hst, hout, hpass, hclose, bne_self_eq_false, List.isEmpty_nil, Bool.not_true, Bool.or_self,
    Bool.false_eq_true, if_false]
  rfl

end Close

/-! ### MEDIA_STREAM_SEL (R348, Table 10-24) -/

section Select
variable (s : State) (bs : List Byte) (k : Nat)

/-- The first `k` words of the bytes `bs` stand in MEDIA_STREAM_ENTRY. -/
def State.entryShown : State :=
  (List.range k).foldl (fun s i => s.setPreg .media (0x200 + 4 * i) (BitVec.ofNat 32 (getLE bs (4 * i) 4))) s

theorem exec_mediaStreamSel {n : Nat} {x : Stream} (hn : n < 16384) (hx : s.stream n = some x) :
    exec (.mediaStreamSel n) s = .next ((s.setPreg .media 0x104 (BitVec.ofNat 32 n)).entryShown x.e 32) := by
  show Host.Outcome.next (s.mediaSel n) = _
  simp only [State.mediaSel, Nat.mod_eq_of_lt hn, hx]
  rfl

theorem State.entryShown_succ :
    s.entryShown bs (k + 1) = (s.entryShown bs k).setPreg .media (0x200 + 4 * k) (BitVec.ofNat 32 (getLE bs (4 * k) 4)) := by
  simp only [State.entryShown, List.range_succ, List.foldl_append, List.foldl_cons, List.foldl_nil]

theorem State.entryShown_rest : (s.entryShown bs k).rest = s.rest := by
  induction k with
  | zero => rfl
  | succ k ih => rw [State.entryShown_succ, State.setPreg_rest, ih]

theorem State.entryShown_out : (s.entryShown bs k).out = s.out := by
  induction k with
  | zero => rfl
  | succ k ih => rw [State.entryShown_succ, State.setPreg_out, ih]

variable {s} in
theorem State.entryShown_wf (h : s.wf = true) : (s.entryShown bs k).wf = true := foldl_wf h fun _ _ => State.setPreg_wf

/-- The words stand from offset 0x200 on. -/
theorem State.entryShown_reg {o : Nat} (ho : ¬(Page.media.base + 0x200 ≤ o ∧ o < Page.media.base + (0x200 + 4 * k))) :
    (s.entryShown bs k).reg o = s.reg o := by
  induction k with
  | zero => rfl
  | succ k ih => rw [State.entryShown_succ, State.setPreg, State.reg_setReg_ne _ (by omega), ih (by omega)]

variable {s k} in
theorem State.entryShown_preg (h : s.wf = true) {i : Nat} (hi : i < k) :
    (s.entryShown bs k).preg .media (0x200 + 4 * i) = BitVec.ofNat 32 (getLE bs (4 * i) 4) := by
  induction k with
  | zero => exact absurd hi (Nat.not_lt_zero i)
  | succ k ih =>
    rw [State.entryShown_succ]
    rcases Nat.lt_succ_iff_lt_or_eq.1 hi with hlt | rfl
    · rw [State.preg, State.setPreg, State.reg_setReg_ne _ (by omega)]
      exact ih hlt
    · exact State.preg_setPreg_same (State.entryShown_wf bs i h) _ _ _

end Select

/-- Settles O25: each clause is one of the equations above, or the reads of what MEDIA_STREAM_SEL stores. -/
theorem streamProgress : Obligations.StreamProgress := by
  refine ⟨?activated, ?waits, ?egress, ?closed, ?queued, ?select⟩
  case activated =>
    intro s n x r c op hx hst hdeep hop
    rw [exec_streamActivation, State.activate_of_staged hx hst hdeep hop]
  case waits =>
    intro s n x hx
    rw [exec_streamActivation]
    refine ⟨fun hst => ?notResuming, fun hst hdeep => ?deep⟩
    case notResuming => rw [State.activate_of_not_resuming hx hst]
    case deep => rw [State.activate_of_deep_tail hx hst hdeep]
  case egress =>
    intro s n x f rest hx hout
    rw [exec_egressTick]
    refine ⟨fun ht => ?early, fun bs ht hrun hpark hst hbs hready => ?ready, fun ht hstop hst => ?stopped⟩
    case early => rw [State.egressTick_of_early hx hout ht]
    case ready =>
      rw [State.egressTick_of_ready hx hout ht hst hrun hpark hbs hready]
      rfl
    case stopped =>
      rw [State.egressTick_of_stopped hx hout ht hst hstop]
      rfl
  case closed =>
    intro s n x r c hx hst hout hpass hclose
    rw [exec_closeComplete, State.closeComplete_of_done hx hst hout hpass hclose]
    rfl
  case queued =>
    intro s n x hx hout
    rw [exec_closeComplete, State.closeComplete_of_queued hx hout]
  case select =>
    intro s n x h hn hx
    have hsel : (s.setPreg .media 0x104 (BitVec.ofNat 32 n)).wf = true := State.setPreg_wf h
    refine ⟨_, exec_mediaStreamSel s hn hx, ?sel, fun i hi => State.entryShown_preg x.e hsel hi, ?rest, ?silent, ?others⟩
    case sel =>
      rw [State.preg, State.entryShown_reg _ _ _ (by omega)]
      exact State.preg_setPreg_same h _ _ _
    case rest => rw [State.entryShown_rest, State.setPreg_rest]
    case silent => rw [Silent, State.entryShown_out, State.setPreg_out]
    case others =>
      intro o hsel hentry
      rw [State.entryShown_reg _ _ _ hentry, State.setPreg, State.reg_setReg_ne _ hsel]

end Sys2Proof.Machine
end

section
/-!
# AUDIO_IN_FRAME

The tests of a frame stand in the model's order; each of them and the frame that passes them all has one equation, and the clauses of
O26 are these equations (R338–R340).
-/

namespace Sys2Proof.Machine

open Sys2Proof

section Ingress
variable {s : State} {port sport : Nat} {addr p : List Byte} {x : Stream}

theorem exec_audioInFrame : exec (.audioInFrame port addr sport p) s = .next (s.audioFrame port addr sport p) := rfl

theorem State.audioFrame_of_malformed (h : p.length < 32 ∨ getLE p 0 1 ≠ 0x11) : s.audioFrame port addr sport p = s.mediaDrop 0 := by
  have hbad : (decide (p.length < 32) || getLE p 0 1 != 0x11) = true := by simpa using h
  rw [State.audioFrame, if_pos hbad]

theorem State.audioFrame_of_free (hlen : 32 ≤ p.length) (htyp : getLE p 0 1 = 0x11) (hx : s.stream (getLE p 2 2) = none) :
    s.audioFrame port addr sport p = s.mediaDrop 1 := by
  have hgo : (decide (p.length < 32) || getLE p 0 1 != 0x11) = false := by simpa using ⟨hlen, htyp⟩
  simp only [State.audioFrame, hgo, hx, Bool.false_eq_true, if_false]

theorem State.setStream_nowN (s : State) (n : Nat) (x : Stream) : (s.setStream n x).nowN = s.nowN := rfl

/-- How far a frame's sequence number lies beyond IN_NEXT, on the wrapping count. -/
def Stream.seqAhead (x : Stream) (p : List Byte) : Nat := (getLE p 4 4 + 2 ^ 32 - x.inNext) % 2 ^ 32

/-- The slot of a frame's sequence number. -/
def Stream.slotOf (x : Stream) (p : List Byte) : Nat := getLE p 4 4 % x.inCount

/-- The frame has the stream's format, its samples and the length that they take. -/
def Stream.fits (x : Stream) (p : List Byte) : Bool :=
  getLE p 26 1 == x.u 72 1 && getLE p 28 2 == x.inSamples && getLE p 24 2 == x.inSamples * x.inCh * audioBytes x.inFmt &&
    p.length == 32 + getLE p 24 2

theorem Stream.fits_iff : x.fits p = true ↔ getLE p 26 1 = x.u 72 1 ∧ getLE p 28 2 = x.inSamples ∧
    getLE p 24 2 = x.inSamples * x.inCh * audioBytes x.inFmt ∧ p.length = 32 + getLE p 24 2 := by
  simp only [Stream.fits, Bool.and_eq_true, beq_iff_eq, and_assoc]

/-- An audio-in frame names an active stream. -/
structure State.AudioNamed (s : State) (p : List Byte) (x : Stream) : Prop where
  length : 32 ≤ p.length
  type : getLE p 0 1 = 0x11
  stream : s.stream (getLE p 2 2) = some x
  active : x.st = 1

/-- The frame is of the stream's epoch and from the peer that it is bound to. -/
structure Stream.FromPeer (x : Stream) (port : Nat) (addr : List Byte) (sport : Nat) (p : List Byte) : Prop where
  epoch : getLE p 8 8 = x.u 40 8
  bound : x.bound = true
  addr : slice addr 0 16 = slice x.e 80 16
  sport : sport = x.u 96 2
  port : port = x.port

theorem Stream.misfit_eq : (getLE p 26 1 != x.u 72 1 || getLE p 28 2 != x.inSamples ||
    getLE p 24 2 != x.inSamples * x.inCh * audioBytes x.inFmt || p.length != 32 + getLE p 24 2) = !x.fits p := by
  simp only [Stream.fits, Bool.not_and, bne]

/-- The slot's header, and the samples of the frame in FP32 (R338, Table 10-5). -/
def State.slotBytes (s : State) (p : List Byte) (xs : List Nat) : List Byte :=
  (leBytes 4 (getLE p 4 4) ++ leBytes 1 (getLE p 1 1 % 4) ++ leBytes 3 0 ++ leBytes 8 s.nowN ++ leBytes 8 (getLE p 16 8) ++
    List.replicate 40 0) ++ xs.flatMap (leBytes 4)

/-- The stream holds the frame's sequence number in its slot; `floor` is the level of a loud frame. -/
def Stream.holding (x : Stream) (p : List Byte) (xs : List Nat) (floor : Nat) : Stream :=
  { x with inSlots := mset x.inSlots (x.slotOf p) (getLE p 4 4), voiced := atLeastDb (meanSquare xs) floor }

section Tests
variable (h : s.AudioNamed p x)
include h

/-- The tests before the epoch are passed. -/
theorem State.AudioNamed.tests : (decide (p.length < 32) || getLE p 0 1 != 0x11) = false ∧ (decide (x.st = 0) || decide (3 < x.st)) = false := by
  obtain ⟨hlen, htyp, -, hst⟩ := h
  simp [hlen, htyp, hst]

theorem State.audioFrame_of_epoch (he : getLE p 8 8 ≠ x.u 40 8) : s.audioFrame port addr sport p = s.mediaDrop 2 := by
  obtain ⟨hgo, hst⟩ := h.tests
  simp only [State.audioFrame, hgo, h.stream, hst, bne_iff_ne, ne_eq, he, not_false_eq_true, Bool.false_eq_true, if_false, if_true]

variable (hp : x.FromPeer port addr sport p)
include hp

theorem State.audioFrame_of_misfit (hf : x.fits p = false) : s.audioFrame port addr sport p = s.mediaDrop 4 := by
  obtain ⟨hgo, hst⟩ := h.tests
  simp only [State.audioFrame, hgo, h.stream, hst, hp.epoch, hp.bound, hp.addr, hp.sport, hp.port, Stream.misfit_eq, hf,
    bne_self_eq_false, Bool.or_self, Bool.and_false, Bool.not_false, Bool.false_eq_true, if_false, if_true]

variable (hf : x.fits p = true)
include hf

theorem State.audioFrame_of_behind (hd : 2 ^ 31 ≤ x.seqAhead p) : s.audioFrame port addr sport p = s.mediaDrop 5 := by
  obtain ⟨hgo, hst⟩ := h.tests
  rw [Stream.seqAhead] at hd
  simp only [State.audioFrame, hgo, h.stream, hst, hp.epoch, hp.bound, hp.addr, hp.sport, hp.port, Stream.misfit_eq, hf, hd,
    bne_self_eq_false, Bool.or_self, Bool.and_false, Bool.not_true, Bool.false_eq_true, if_false, if_true]

variable (hlt : x.seqAhead p < 2 ^ 31)
include hlt

theorem State.audioFrame_of_beyond (hd : x.inCount ≤ x.seqAhead p) : s.audioFrame port addr sport p = s.mediaDrop 6 := by
  obtain ⟨hgo, hst⟩ := h.tests
  have hactive : (x.st != 3) = true := by rw [h.active]; rfl
  rw [Stream.seqAhead] at hd hlt
  simp only [State.audioFrame, hgo, h.stream, hst, hp.epoch, hp.bound, hp.addr, hp.sport, hp.port, Stream.misfit_eq, hf, hd,
    Nat.not_le.2 hlt, hactive, decide_true, bne_self_eq_false, Bool.or_self, Bool.and_false, Bool.and_true, Bool.not_true,
    Bool.false_eq_true, if_false, if_true]

variable (hd : x.seqAhead p < x.inCount)
include hd

theorem State.audioFrame_of_held (hs : mget x.inSlots (x.slotOf p) = some (getLE p 4 4)) :
    s.audioFrame port addr sport p = (s.setStream (getLE p 2 2) x).mediaDrop 7 := by
  obtain ⟨hgo, hst⟩ := h.tests
  rw [Stream.seqAhead] at hd hlt
  rw [Stream.slotOf] at hs
  simp only [State.audioFrame, hgo, h.stream, hst, hp.epoch, hp.bound, hp.addr, hp.sport, hp.port, Stream.misfit_eq, hf, hs,
    Nat.not_le.2 hd, Nat.not_le.2 hlt, decide_false, bne_self_eq_false, beq_self_eq_true, Bool.or_self, Bool.and_false, Bool.false_and,
    Bool.not_true, Bool.false_eq_true, if_false, if_true]

theorem State.audioFrame_of_accepted {u w : State} {v : List Nat × Nat} (hs : mget x.inSlots (x.slotOf p) ≠ some (getLE p 4 4))
    (hv : v = planar x.inFmt x.inCh x.inSamples (p.drop 32))
    (hu : (s.setStream (getLE p 2 2) x).writeVa x.job (x.inBase + x.slotOf p * x.inStride) (s.slotBytes p v.1) = .ok u)
    (hw : w = u.touch x.job (x.inBase + x.slotOf p * x.inStride) (64 + 4 * v.1.length)) :
    s.audioFrame port addr sport p =
      ((w.setStream (getLE p 2 2) (x.holding p v.1 (wfield (w.preg .media 0x108) 7 0))).count64 .media 0x118 0x11C 1).count .media 0x13C v.2 := by
  obtain ⟨hgo, hst⟩ := h.tests
  have hnew : (mget x.inSlots (getLE p 4 4 % x.inCount) == some (getLE p 4 4)) = false := beq_eq_false_iff_ne.2 hs
  have hparked : (x.st == 3) = false := by rw [h.active]; rfl
  subst hv hw
  rw [Stream.seqAhead] at hd hlt
  rw [Stream.slotOf, State.slotBytes] at hu
  simp only [State.audioFrame, hgo, h.stream, hst, hp.epoch, hp.bound, hp.addr, hp.sport, hp.port, Stream.misfit_eq, hf, hnew,
    Nat.not_le.2 hd, Nat.not_le.2 hlt, hparked, decide_false, bne_self_eq_false, Bool.or_self, Bool.and_false, Bool.false_and,
    Bool.not_true, Bool.false_eq_true, if_false, if_true, State.setStream_nowN, hu, Stream.holding, Stream.slotOf]

end Tests

end Ingress

/-- Settles O26: each clause is one of the equations above, one named case for each clause. -/
theorem audioFramesReceived : Obligations.AudioFramesReceived := by
  refine ⟨?malformed, ?free, ?named⟩
  case malformed =>
    intro s port sport addr p h
    rw [exec_audioInFrame, State.audioFrame_of_malformed h]
  case free =>
    intro s port sport addr p hlen htyp hx
    rw [exec_audioInFrame, State.audioFrame_of_free hlen htyp hx]
  case named =>
    intro s port sport addr p x hlen htyp hx hst
    have h : s.AudioNamed p x := ⟨hlen, htyp, hx, hst⟩
    rw [exec_audioInFrame]
    refine ⟨fun he => ?epoch, fun he hb ha hsp hpt => ⟨fun hn => ?samples, fun hfmt hn hsize hlen => ?fits⟩⟩
    case epoch => rw [State.audioFrame_of_epoch h he]
    case samples =>
      have hf : x.fits p = false := by
        rw [← Bool.not_eq_true, Stream.fits_iff]
        rintro ⟨-, hsame, -⟩
        exact hn hsame
      rw [State.audioFrame_of_misfit h ⟨he, hb, ha, hsp, hpt⟩ hf]
    case fits =>
      have hp : x.FromPeer port addr sport p := ⟨he, hb, ha, hsp, hpt⟩
      have hf : x.fits p = true := Stream.fits_iff.2 ⟨hfmt, hn, hsize, hlen⟩
      refine ⟨fun hd => ?behind, fun hd hlt => ?beyond, fun hd hlt => ⟨fun hs => ?held, fun u w v hs hv hu hw => ?accepted⟩⟩
      case behind => rw [State.audioFrame_of_behind h hp hf hd]
      case beyond => rw [State.audioFrame_of_beyond h hp hf hlt hd]
      case held => rw [State.audioFrame_of_held h hp hf hlt hd hs]
      case accepted =>
        rw [State.audioFrame_of_accepted h hp hf hlt hd hs hv hu hw]
        rfl

end Sys2Proof.Machine
end

section
/-!
# The barrier of a pass and its commit

BARRIER_LINE_SEND and COMMIT_BARRIER_COMPLETE each have one equation for each outcome; the clauses of O41 are these equations and the
commit of one stream. The tick of DONE_CT is an operand (log 140).
-/

namespace Sys2Proof.Machine

open Sys2Proof

/-! ### BARRIER_LINE_SEND (R360) -/

section Line
variable {s : State} {n done : Nat} {j : Job} {p : Pass} (hj : s.job n = some j) (hp : j.executing = some p)

theorem exec_barrierLineSend : exec (.barrierLineSend n done) s = .next (s.sendBarrier n done) := rfl

/-- The line and its increment leave for one member. -/
def State.barrierTo (s : State) (n done : Nat) (j : Job) (p : Pass) (e : Nat) : State :=
  s.sendFenced n j.barrierWindow (j.barrierOff p.seq j.myMember) j.barrierPeg (barrierLine p.seq p.label done j.myMember) e

include hj hp

theorem State.sendBarrier_of_waits
    (h : s.holder ≠ some (.pass n) ∨ p.barrierSent = true ∨ s.baysQuiet n = false ∨ s.nowN < done) : s.sendBarrier n done = s := by
  simp only [State.sendBarrier, hj, hp]
  refine if_pos ?_
  rcases h with hholder | hsent | hbusy | hearly
  · simp [bne_iff_ne.2 hholder]
  · simp [hsent]
  · simp [hbusy]
  · simp [hearly]

theorem State.sendBarrier_of_ready {t : State} (hholder : s.holder = some (.pass n)) (hbegun : p.begun = true)
    (hsent : p.barrierSent = false) (hnext : j.formed.isSome = true ∨ j.ended j.nextLabel = true) (hquiet : s.baysQuiet n = true)
    (hdone : done ≤ s.nowN) (hhalts : j.halts p.seq = false)
    (ht : t = s.setJob n { j with executing := some { p with barrierSent := true, doneCt := done } }) :
    s.sendBarrier n done = j.memberList.foldl (fun s e => s.barrierTo n done j p e) t := by
  have hformed : (j.formed.isSome || j.ended j.nextLabel) = true := Bool.or_eq_true_iff.2 hnext
  subst ht
  simp only [State.sendBarrier, hj, hp, hholder, hbegun, hsent, hformed, hquiet, hhalts, Nat.not_lt.2 hdone, bne_self_eq_false,
    Bool.not_true, Bool.or_self, decide_false, Bool.false_eq_true, if_false]
  rfl

end Line

/-! ### COMMIT_BARRIER_COMPLETE (R360, R361) -/

section Commit
variable {s : State} {n : Nat} {j : Job} {p : Pass}

theorem exec_commitBarrierComplete (h : s.jobNums = [n]) : exec .commitBarrierComplete s = .next (s.barrierDone n) := by
  show Host.Outcome.next _ = _
  rw [h, List.foldl_cons, List.foldl_nil]

/-- BARRIER_PEG once every member's line has come. -/
def Pass.barrierTarget (p : Pass) (j : Job) : Nat := (p.barrierBase + j.members) % 2 ^ 32

/-- A barrier line of another pass. -/
def Pass.strangeLine (p : Pass) (l : List Byte) : Bool := getLE l 0 8 != p.seq || getLE l 8 8 != p.label

theorem Pass.strangeLine_eq_false_iff {l : List Byte} : p.strangeLine l = false ↔ getLE l 0 8 = p.seq ∧ getLE l 8 8 = p.label := by
  rw [Pass.strangeLine, Bool.or_eq_false_iff, bne_eq_false_iff_eq, bne_eq_false_iff_eq]

variable (hj : s.job n = some j) (hp : j.executing = some p)
include hj hp

theorem State.barrierDone_of_waits (h : p.barrierSent = false ∨ reached (s.pegValue j.barrierPeg) (p.barrierTarget j) = false) :
    s.barrierDone n = s := by
  have hwait : (!p.barrierSent || !reached (s.pegValue j.barrierPeg) (p.barrierTarget j)) = true := by simpa using h
  rw [Pass.barrierTarget] at hwait
  simp only [State.barrierDone, hj, hp, hwait, if_true]

theorem State.barrierDone_of_beyond (hsent : p.barrierSent = true)
    (hreached : reached (s.pegValue j.barrierPeg) (p.barrierTarget j) = true) (hv : s.pegValue j.barrierPeg ≠ p.barrierTarget j) :
    s.barrierDone n = s.schedFault n 2 j.myMember p.label 0 := by
  rw [Pass.barrierTarget] at hreached hv
  simp only [State.barrierDone, hj, hp, hsent, hreached, bne_iff_ne.2 hv, Bool.not_true, Bool.or_self, Bool.false_eq_true, if_false,
    if_true]

/-- With the peg at its target the lines decide. -/
theorem State.barrierDone_of_lines {ls : List (List Byte)} (hsent : p.barrierSent = true)
    (hreached : reached (s.pegValue j.barrierPeg) (p.barrierTarget j) = true) (hv : s.pegValue j.barrierPeg = p.barrierTarget j)
    (hls : s.barrierLines n j p.seq j.members = .ok ls) :
    s.barrierDone n = match ls.findIdx? p.strangeLine with
      | some i => s.schedFault n 1 i p.label 0
      | none => s.commitPass n ((ls.map (fun l => getLE l 16 8)).foldl max 0) := by
  rw [hv] at hreached
  rw [Pass.barrierTarget] at hreached hv
  simp only [State.barrierDone, hj, hp, hsent, hreached, hv, hls, State.schedAcc, bne_self_eq_false, Bool.not_true, Bool.or_self,
    Bool.false_eq_true, if_false]
  rfl

end Commit

/-! ### The commit of a stream (R329, R330) -/

/-- The stream is one position longer, and its frame waits for the old NEXT_OUT_CT. -/
def Stream.committed (x : Stream) : Stream :=
  { ((((x.put 4 4 (x.len + 1)).put 36 4 (x.inNext + 1)).put 24 8 (x.nextOut + x.frameCt)).put 100 4 (x.outSeq + 1)) with
    out := x.out ++ [{ seq := x.outSeq, tick := x.nextOut }], freePen := [], fullTold := true }

/-- The event of a full stream is posted once. -/
theorem State.commitStream_of_fullTold {s : State} {n : Nat} {x : Stream} (hx : s.stream n = some x) (hfull : x.fullTold = true) :
    s.commitStream n = (s.setStream n x.committed).modArena x.job
      (fun a => (x.freePen.foldl (fun (a : Arena) q => a.dropPen q) a).unreserve n) := by
  simp only [State.commitStream, hx, hfull, Bool.not_true, Bool.and_false, Bool.or_false, Bool.false_eq_true, if_false]
  rfl

/-- Settles O41: each clause is one of the equations above, one named case for each clause. -/
theorem passesCommitted : Obligations.PassesCommitted := by
  refine ⟨?sent, ?waits, ?barrier, fun s n x hx hfull => State.commitStream_of_fullTold hx hfull⟩
  case sent =>
    intro s t n done j p hj hp hholder hbegun hsent hnext hquiet hdone hhalts ht
    rw [exec_barrierLineSend, State.sendBarrier_of_ready hj hp hholder hbegun hsent hnext hquiet hdone hhalts ht]
    rfl
  case waits =>
    intro s n done j p hj hp h
    rw [exec_barrierLineSend, State.sendBarrier_of_waits hj hp h]
  case barrier =>
    intro s n j p hn hj hp
    rw [exec_commitBarrierComplete hn]
    refine ⟨fun h => ?early, fun hsent hreached => ⟨fun hv => ?beyond, fun ls hv hls => ?lines⟩⟩
    case early => rw [State.barrierDone_of_waits hj hp h]
    case beyond => rw [State.barrierDone_of_beyond hj hp hsent hreached hv]
    case lines =>
      rw [State.barrierDone_of_lines hj hp hsent hreached hv hls]
      refine ⟨fun hall => ?commit, fun i hi => ?strange⟩
      case commit =>
        have hnone : ls.findIdx? p.strangeLine = none :=
          List.findIdx?_eq_none_iff.2 fun l hl => Pass.strangeLine_eq_false_iff.2 (hall l hl)
        rw [hnone]
      case strange =>
        have hsome : ls.findIdx? p.strangeLine = some i := hi
        rw [hsome]

end Sys2Proof.Machine
end

section
/-!
# CADENCE_IN, CADENCE_LOAD, the alarms, link changes, and the frames that an Ethernet port takes

The first four are short commands with one equation for each outcome. A frame meets the port's tests in the model's order: each way to
drop it and each class that it may have is one equation, and the clauses of O51 are these. The halves and the tie of CADENCE_LOAD are
log 91, the drop rules log 232.
-/

namespace Sys2Proof.Machine

open Sys2Proof

/-! ### CADENCE_IN_EDGE and CADENCE_LOAD (R316) -/

section Edge
variable {s u : State} {p : Nat}

theorem exec_cadenceInEdge : exec .cadenceInEdge s = .next s.cadenceEdge := rfl

theorem State.cadenceEdge_of_unused (h : s.cadSource ≠ 3 ∨ s.cadState = 0) : s.cadenceEdge = s := by
  have hskip : (s.cadSource != 3 || decide (s.cadState = 0)) = true := by simpa using h
  rw [State.cadenceEdge, if_pos hskip]

variable (hs : s.cadSource = 3) (hst : s.cadState ≠ 0) (hu : u = s.setRef 3) (hp : p = max 1 (wfield (u.preg .cadence 0x11C) 24 0))
include hs hst hu hp

theorem State.cadenceEdge_of_no_load (h : u.slewOnly = true ∨ u.cad.load = none) :
    s.cadenceEdge = u.measure (BitVec.ofNat 64 (nearestMultiple u.nowN p)) := by
  have hload : (if u.slewOnly then none else u.cad.load) = none := by
    rcases h with hslew | hnone
    · rw [if_pos hslew]
    · rw [hnone, ite_self]
  subst hu hp
  simp only [State.cadenceEdge, hs, hst, hload, bne_self_eq_false, decide_false, Bool.or_self, Bool.false_eq_true, if_false]

theorem State.cadenceEdge_of_load {v : Nat} (hslew : u.slewOnly = false) (hload : u.cad.load = some v) : s.cadenceEdge =
    ({ u with now := BitVec.ofNat 64 (nearestMultiple v p), cad := { u.cad with load := none } } : State).measure
      (BitVec.ofNat 64 (nearestMultiple v p)) := by
  subst hu hp
  simp only [State.cadenceEdge, hs, hst, hslew, hload, bne_self_eq_false, decide_false, Bool.or_self, Bool.false_eq_true, if_false]

end Edge

section Load
variable {s : State} {v : DWord}

theorem exec_cadenceLoad : exec (.cadenceLoad v) s = .next ((s.cadenceLoad false (lo32 v.toNat)).cadenceLoad true (hi32 v.toNat)) := rfl

theorem State.cadenceLoad_of_job (h : s.anyJob = true) (hi : Bool) (w : Word) :
    s.cadenceLoad hi w = s.refuseReg .cadence (Page.cadence.base + (if hi then 0x124 else 0x120)) w := if_pos h

/-- One word of the value waiting is replaced. -/
def State.loadWord (s : State) (hi : Bool) (w : Word) : State :=
  { s with cad := { s.cad with load := some (if hi then w.toNat * 2 ^ 32 + s.cad.load.getD 0 % 2 ^ 32
      else s.cad.load.getD 0 / 2 ^ 32 * 2 ^ 32 + w.toNat) } }

theorem State.cadenceLoad_of_no_job (h : s.anyJob = false) (hi : Bool) (w : Word) : s.cadenceLoad hi w = s.loadWord hi w :=
  if_neg (Bool.eq_false_iff.1 h)

theorem State.loadWord_anyJob (hi : Bool) (w : Word) : (s.loadWord hi w).anyJob = s.anyJob := rfl

end Load

/-! ### Alarms (R322) and link changes (R323, Table 10-9) -/

section Alarm
variable {s : State} {n : Nat}

theorem exec_cadenceAlarm : exec (.cadenceAlarm n) s = .next (s.alarm n) := rfl

/-- The alarm is one of the fifteen, enabled, and its count has come. -/
def State.alarmDue (s : State) (n : Nat) : Prop :=
  n < 15 ∧ wbit (s.preg .cadence 0x140) n = true ∧ s.preg64 .cadence (0x180 + 8 * n) (0x184 + 8 * n) ≤ s.nowN

theorem State.alarm_of_due (h : s.alarmDue n) :
    s.alarm n = (s.setPreg .cadence 0x140 (wclear (s.preg .cadence 0x140) n)).irq .cadence n := by
  obtain ⟨hn, hen, hct⟩ := h
  simp only [State.alarm, hn, hen, hct, decide_true, Bool.and_self, if_true]

theorem State.alarm_of_not_due (h : ¬s.alarmDue n) : s.alarm n = s := by
  refine if_neg fun hdue => h ?_
  simpa only [State.alarmDue, Bool.and_eq_true, decide_eq_true_eq, and_assoc] using hdue

end Alarm

section Link
variable {s : State} {p m : Nat}

theorem exec_ethLinkChange : exec (.ethLinkChange p m) s = .next (s.ethLink p m) := rfl

theorem State.ethLink_of_illegal (h : 2 ≤ p ∨ 2 < m) : s.ethLink p m = s := by
  have hbad : (decide (2 ≤ p) || decide (2 < m)) = true := by simpa using h
  rw [State.ethLink, if_pos hbad]

/-- ETH_STAT's MODE and LINK_UP. -/
def State.linkShown (s : State) (p m : Nat) : State := s.putPreg (.eth p) 0x100 2 0 (m * 2 + b2n (decide (m ≠ 0)))

theorem State.ethLink_of_up (hp : p < 2) (hpos : 0 < m) (hm : m ≤ 2) :
    s.ethLink p m = if wbit (s.preg (.eth p) 0x100) 0 then s.linkShown p m else (s.linkShown p m).irq (.eth p) 1 := by
  have hlegal : (decide (2 ≤ p) || decide (2 < m)) = false := by simp [hp, hm]
  have hmode : decide ((m != 0) = true) = true := by simpa using Nat.ne_of_gt hpos
  have hup : decide (m ≠ 0) = true := decide_eq_true (Nat.ne_of_gt hpos)
  cases hwas : wbit (s.preg (.eth p) 0x100) 0 with
  | false =>
    simp only [State.ethLink, State.linkShown, hlegal, hup, hwas, Bool.false_eq_true, if_false, if_true, bne_iff_ne, ne_eq,
      not_false_eq_true, reduceCtorEq]
  | true => simp only [State.ethLink, State.linkShown, hlegal, hmode, hup, hwas, bne_self_eq_false, Bool.false_eq_true, if_false, if_true]

end Link

/-! ### Frames (R324, R326; the formats are log 121) -/

section Frame
variable {s : State} {p : Nat} {f : List Byte}

theorem exec_ethFrameReceive : exec (.ethFrameReceive p f) s = .next (s.ethFrame p f) := rfl

theorem State.ethFrame_of_off (h : 2 ≤ p ∨ s.life ≠ .up ∨ wbit (s.preg (.eth p) 0x100) 0 = false ∨ s.ethOn p = false) :
    s.ethFrame p f = s := by
  have hoff : (decide (2 ≤ p) || s.life != .up || !wbit (s.preg (.eth p) 0x100) 0 || !s.ethOn p) = true := by simpa [or_assoc] using h
  rw [State.ethFrame, if_pos hoff]

/-- The port takes frames: the module runs, the link is up, and the block is neither off nor quiesced. -/
structure State.EthTakes (s : State) (p : Nat) : Prop where
  port : p < 2
  life : s.life = .up
  link : wbit (s.preg (.eth p) 0x100) 0 = true
  on : s.ethOn p = true

theorem State.EthTakes.tests (h : s.EthTakes p) :
    (decide (2 ≤ p) || s.life != .up || !wbit (s.preg (.eth p) 0x100) 0 || !s.ethOn p) = false := by
  obtain ⟨hp, hlife, hup, hon⟩ := h
  simp [hp, hlife, hup, hon]

/-- A whole frame of a port, of another type than MAC control. -/
structure EthData (f : List Byte) : Prop where
  whole : 14 ≤ f.length
  type : getBE f 12 2 ≠ 0x8808

/-- A frame for the port's own address, or for a group. -/
def State.ethMine (t : State) (p : Nat) (f : List Byte) : Prop := slice f 0 6 = t.portMac p ∨ getLE f 0 1 % 2 = 1

theorem State.ethMine_test {t : State} (hmine : t.ethMine p f) :
    (slice f 0 6 != t.portMac p && decide (getLE f 0 1 % 2 = 0)) = false := by
  rcases hmine with hmac | hgroup
  · rw [hmac, bne_self_eq_false, Bool.false_and]
  · rw [hgroup]
    exact Bool.and_false _

section Taken
variable {t : State} (h : s.EthTakes p) (ht : t = s.count64 (.eth p) 0x1C0 0x1C4 1)
include h ht

theorem State.ethFrame_of_short (hf : f.length < 14) : s.ethFrame p f = t.ethDrop p := by
  rw [State.ethFrame, h.tests, if_neg Bool.false_ne_true, ht]
  exact if_pos hf

theorem State.ethFrame_of_macControl (hf : 14 ≤ f.length) (hty : getBE f 12 2 = 0x8808) : s.ethFrame p f = t.count (.eth p) 0x1D4 1 := by
  rw [State.ethFrame, h.tests, if_neg Bool.false_ne_true, ht]
  exact (if_neg (Nat.not_lt.2 hf)).trans (if_pos hty)

variable (hf : EthData f)
include hf

theorem State.ethFrame_of_other_mac (hmac : slice f 0 6 ≠ t.portMac p) (hgroup : getLE f 0 1 % 2 = 0) : s.ethFrame p f = t.ethDrop p := by
  have hother : (slice f 0 6 != t.portMac p && decide (getLE f 0 1 % 2 = 0)) = true := by simp [hmac, hgroup]
  rw [State.ethFrame, h.tests, if_neg Bool.false_ne_true, ht]
  exact (if_neg (Nat.not_lt.2 hf.whole)).trans ((if_neg hf.type).trans (if_pos hother))

variable (hmine : t.ethMine p f)
include hmine

theorem State.ethFrame_of_tag (htag : t.untag p f = none) : s.ethFrame p f = t.ethDrop p := by
  have htest := State.ethMine_test hmine
  subst ht
  simp only [State.ethFrame, h.tests, Nat.not_lt.2 hf.whole, hf.type, htest, htag, Bool.false_eq_true, if_false]

variable {r : List Byte} (htag : t.untag p f = some r)
include htag

theorem State.ethFrame_of_long (hlen : wfield (t.preg (.eth p) 0x104) 13 0 < (r.drop 2).length) : s.ethFrame p f = t.ethDrop p := by
  have htest := State.ethMine_test hmine
  subst ht
  simp only [State.ethFrame, h.tests, Nat.not_lt.2 hf.whole, hf.type, htest, htag, hlen, Bool.false_eq_true, if_false, if_true]

variable (hlen : (r.drop 2).length ≤ wfield (t.preg (.eth p) 0x104) 13 0)
include hlen

/-- A PTP frame ends at the cadence, whose measurement is a command of its own. -/
theorem State.ethFrame_of_ptp (hty : getBE r 0 2 = 0x88F7) : s.ethFrame p f = t := by
  have htest := State.ethMine_test hmine
  subst ht
  simp only [State.ethFrame, h.tests, Nat.not_lt.2 hf.whole, hf.type, htest, htag, Nat.not_lt.2 hlen, hty, Bool.false_eq_true, if_false]

theorem State.ethFrame_of_arp (hty : getBE r 0 2 = 0x0806) : s.ethFrame p f = t.arp p (r.drop 2) := by
  have htest := State.ethMine_test hmine
  subst ht
  simp only [State.ethFrame, h.tests, Nat.not_lt.2 hf.whole, hf.type, htest, htag, Nat.not_lt.2 hlen, hty, Bool.false_eq_true, if_false]

theorem State.ethFrame_of_ipv4 {k : IpPkt} (hty : getBE r 0 2 = 0x0800) (hk : ipv4 (r.drop 2) = some k) :
    s.ethFrame p f = t.ip p (slice f 6 6) k := by
  have htest := State.ethMine_test hmine
  subst ht
  simp only [State.ethFrame, h.tests, Nat.not_lt.2 hf.whole, hf.type, htest, htag, Nat.not_lt.2 hlen, hty, hk, Bool.false_eq_true,
    if_false]

theorem State.ethFrame_of_ipv6 {k : IpPkt} (hty : getBE r 0 2 = 0x86DD) (hk : ipv6 (r.drop 2) = some k) :
    s.ethFrame p f = t.ip p (slice f 6 6) k := by
  have htest := State.ethMine_test hmine
  subst ht
  simp only [State.ethFrame, h.tests, Nat.not_lt.2 hf.whole, hf.type, htest, htag, Nat.not_lt.2 hlen, hty, hk, Bool.false_eq_true,
    if_false]

end Taken

end Frame

/-- Settles O51: each clause is one of the equations above, one named case for each clause. -/
theorem cadenceInAlarmsAndPorts : Obligations.CadenceInAlarmsAndPorts := by
  refine ⟨?unused, ?edge, ?load, ?alarm, ?link, ?off, ?frame⟩
  case unused =>
    intro s h
    rw [exec_cadenceInEdge, State.cadenceEdge_of_unused h]
  case edge =>
    intro s u p hs hst hu hp
    rw [exec_cadenceInEdge]
    refine ⟨fun h => ?noLoad, fun v hslew hload => ?loaded⟩
    case noLoad => rw [State.cadenceEdge_of_no_load hs hst hu hp h]
    case loaded => rw [State.cadenceEdge_of_load hs hst hu hp hslew hload]
  case load =>
    intro s v
    rw [exec_cadenceLoad]
    refine ⟨fun h => ?refused, fun h => ?stored⟩
    case refused =>
      rw [State.cadenceLoad_of_job h]
      rfl
    case stored =>
      rw [State.cadenceLoad_of_no_job h, State.cadenceLoad_of_no_job ((State.loadWord_anyJob _ _).trans h)]
      rfl
  case alarm =>
    intro s n
    rw [exec_cadenceAlarm]
    refine ⟨fun hn hen hct => ?due, fun h => ?notDue⟩
    case due => rw [State.alarm_of_due ⟨hn, hen, hct⟩]
    case notDue =>
      rw [State.alarm_of_not_due]
      rintro ⟨hn, hen, hct⟩
      rcases h with h | h | h
      · exact Nat.not_lt.2 h hn
      · exact Bool.false_ne_true (h.symm.trans hen)
      · exact Nat.not_lt.2 hct h
  case link =>
    intro s t p m ht
    obtain rfl : t = s.linkShown p m := ht
    rw [exec_ethLinkChange]
    refine ⟨fun hp hpos hm => ?up, fun h => ?illegal⟩
    case up => rw [State.ethLink_of_up hp hpos hm]
    case illegal => rw [State.ethLink_of_illegal h]
  case off =>
    intro s p f h
    rw [exec_ethFrameReceive, State.ethFrame_of_off h]
  case frame =>
    intro s t p f hp hlife hup hon ht
    have h : s.EthTakes p := ⟨hp, hlife, hup, hon⟩
    rw [exec_ethFrameReceive]
    refine ⟨fun hlen => ?short, fun hlen hty => ?control, fun hlen hty => ⟨fun hmac hgroup => ?otherMac, fun hmine => ⟨fun htag => ?tag,
      fun r htag => ⟨fun hlong => ?long, fun hfit => ⟨fun hptp => ?ptp, fun harp => ?arp, fun k h4 hk => ?ipv4, fun k h6 hk => ?ipv6⟩⟩⟩⟩⟩
    case short => exact congrArg _ (State.ethFrame_of_short h ht hlen)
    case control => exact congrArg _ (State.ethFrame_of_macControl h ht hlen hty)
    case otherMac => exact congrArg _ (State.ethFrame_of_other_mac h ht ⟨hlen, hty⟩ hmac hgroup)
    case tag => exact congrArg _ (State.ethFrame_of_tag h ht ⟨hlen, hty⟩ hmine htag)
    case long => exact congrArg _ (State.ethFrame_of_long h ht ⟨hlen, hty⟩ hmine htag hlong)
    case ptp => exact congrArg _ (State.ethFrame_of_ptp h ht ⟨hlen, hty⟩ hmine htag hfit hptp)
    case arp => exact congrArg _ (State.ethFrame_of_arp h ht ⟨hlen, hty⟩ hmine htag hfit harp)
    case ipv4 => exact congrArg _ (State.ethFrame_of_ipv4 h ht ⟨hlen, hty⟩ hmine htag hfit h4 hk)
    case ipv6 => exact congrArg _ (State.ethFrame_of_ipv6 h ht ⟨hlen, hty⟩ hmine htag hfit h6 hk)

end Sys2Proof.Machine
end

section
/-!
# Labels of passes

The number of grid steps from the last label to the next is characterised once: it is at most `m` exactly when `m` is at least 1 and `m`
steps reach the last start tick plus FORM_CT. That the label reaches this tick, and that no smaller step does, are the two directions.
-/

namespace Sys2Proof.Machine

open Sys2Proof

theorem ceilDiv_le_iff {c : Nat} (hc : 0 < c) (n m : Nat) : ceilDiv n c ≤ m ↔ n ≤ m * c := by
  rw [ceilDiv, ← Nat.ceilDiv_eq_add_pred_div, ceilDiv_le_iff_le_mul hc, Nat.mul_comm]

/-- The least j of at least 1 for which the label `l + j PASS_CT` reaches S + FORM_CT (R354). -/
def Job.labelSteps (j : Job) (l : Nat) : Nat := max 1 (ceilDiv (j.lastStart + j.formCt - l) j.passCt)

variable {j : Job} {l : Nat}

theorem Job.labelSteps_le_iff (hc : 0 < j.passCt) (m : Nat) :
    j.labelSteps l ≤ m ↔ 1 ≤ m ∧ j.lastStart + j.formCt ≤ l + m * j.passCt := by
  rw [Job.labelSteps, Nat.max_le, ceilDiv_le_iff hc, Nat.sub_le_iff_le_add']

theorem Job.nextLabel_of_lastLabel (hr : j.relabel = none) (hl : j.lastLabel = some l) (hc : 0 < j.passCt) :
    j.nextLabel = l + j.labelSteps l * j.passCt := by
  simp only [Job.nextLabel, Job.labelSteps, hr, hl, Nat.max_eq_right hc]

theorem Job.nextLabel_of_no_pass (hr : j.relabel = none) (hl : j.lastLabel = none) : j.nextLabel = j.startCt := by
  simp only [Job.nextLabel, hr, hl]

/-- Settles O38: the step count is the least that `Job.labelSteps_le_iff` admits. -/
theorem passLabels : Obligations.PassLabels := by
  refine ⟨fun j l hr hl hc => ?label, fun _ hr hl => Job.nextLabel_of_no_pass hr hl⟩
  case label =>
    obtain ⟨hpos, hreach⟩ := (Job.labelSteps_le_iff (l := l) hc (j.labelSteps l)).1 le_rfl
    have hlabel := Job.nextLabel_of_lastLabel hr hl hc
    exact ⟨j.labelSteps l, hpos, hlabel, hlabel ▸ hreach, fun m hm hle => (Job.labelSteps_le_iff hc m).2 ⟨hm, hle⟩⟩

end Sys2Proof.Machine
end

section
/-!
# Taking a submission entry

What taking the entry at the head of a ring answers depends on two tests of the entry, where its opcode may stand and its header, and
has one equation for each outcome. Each ring command is `State.onEntry` with its own opcode, so that where no entry is left to run it does
what `State.onEntry` does.
-/

namespace Sys2Proof.Machine

open Sys2Proof

/-! ### The entry at the head of the ring (R351, R473, Table 15-5, Table 15-8) -/

theorem opcodeRings_le_three (op : Nat) : opcodeRings op ≤ 3 := by
  unfold opcodeRings
  split <;> decide

theorem opcodeRings_div_two_eq_one_iff (op : Nat) : opcodeRings op / 2 = 1 ↔ 2 ≤ opcodeRings op := by
  have := opcodeRings_le_three op
  omega

/-- The entry's opcode may stand in its kind of ring. -/
def Entry.MayStand (e : Entry) : Prop := if e.isAdmin then opcodeRings e.opcode % 2 = 1 else 2 ≤ opcodeRings e.opcode

/-- The model's own test. -/
theorem Entry.mayStand_iff (e : Entry) :
    (if e.isAdmin then opcodeRings e.opcode % 2 == 1 else opcodeRings e.opcode / 2 == 1) = true ↔ e.MayStand := by
  unfold Entry.MayStand
  split
  · exact beq_iff_eq
  · rw [beq_iff_eq, opcodeRings_div_two_eq_one_iff]

theorem Entry.not_mayStand_iff (e : Entry) :
    ¬ e.MayStand ↔ if e.isAdmin then opcodeRings e.opcode % 2 = 0 else opcodeRings e.opcode < 2 := by
  unfold Entry.MayStand
  split
  · exact Nat.mod_two_not_eq_one
  · exact Nat.not_le

/-- The entry asks for an interface level that the module does not have (BARRIER). -/
def Entry.Above (e : Entry) (lvl : Nat) : Prop := bit (e.f 1 1) 0 = true ∧ lvl < 2

theorem Entry.not_above_iff (e : Entry) (lvl : Nat) : ¬ e.Above lvl ↔ bit (e.f 1 1) 0 = false ∨ 2 ≤ lvl := by
  rw [Entry.Above, not_and_or, Bool.not_eq_true, Nat.not_lt]

/-- The entry is copied: HEAD advances and HOST_ENTRY_COUNT counts it (R473). -/
def State.copied (s : State) (r : Ring) : State := (s.advanceHead r).count64 .host 0x130 0x134 1

section Taken
variable {s : State} {r : Ring} {op job : Nat} {bs : List Byte} {e : Entry} (hready : s.ready = true) (hnext : s.nextRing = some r)
  (hhead : s.headEntry r = some (bs, job)) (he : e = ⟨r, bs, job⟩)
include hready hnext hhead he

theorem State.takeEntry_of_refused_opcode (h : ¬ e.MayStand ∨ e.Above s.ringLevel) :
    s.takeEntry r op = some ((s.copied r).complete e stOpcode, none) := by
  subst he
  rw [← Entry.mayStand_iff] at h
  have hrefused : (!(if Entry.isAdmin ⟨r, bs, job⟩ then opcodeRings (Entry.opcode ⟨r, bs, job⟩) % 2 == 1
      else opcodeRings (Entry.opcode ⟨r, bs, job⟩) / 2 == 1) || (bit (Entry.f ⟨r, bs, job⟩ 1 1) 0 && decide (s.ringLevel < 2))) = true := by
    simpa only [Bool.or_eq_true, Bool.not_eq_true', Bool.and_eq_true, decide_eq_true_eq, Entry.Above, Bool.not_eq_true] using h
  simp only [State.takeEntry, hready, hnext, hhead, hrefused, bne_self_eq_false, Bool.not_true, Bool.or_self, Bool.false_eq_true, if_false,
    if_true, State.copied]

/-- An entry whose opcode is the command's own is tested for its header. -/
theorem State.takeEntry_of_mayStand (hstand : e.MayStand) (hlevel : ¬ e.Above s.ringLevel) (hop : e.opcode = op) :
    s.takeEntry r op = some (match headerBad e s.ringLevel with
      | some o => ((s.copied r).complete e stInvalid o, none)
      | none => (s.copied r, some e)) := by
  subst he hop
  rw [← Entry.mayStand_iff] at hstand
  have habove : (bit (Entry.f ⟨r, bs, job⟩ 1 1) 0 && decide (s.ringLevel < 2)) = false := by
    simpa only [Bool.and_eq_false_iff, decide_eq_false_iff_not, Nat.not_lt] using (Entry.not_above_iff _ _).1 hlevel
  simp only [State.takeEntry, hready, hnext, hhead, hstand, habove, bne_self_eq_false, Bool.not_true, Bool.or_self, Bool.false_eq_true,
    if_false, State.copied]
  cases headerBad ⟨r, bs, job⟩ s.ringLevel <;> rfl

end Taken

/-! ### Commands with no entry to run (log 10, log 21) -/

/-- The commands that take an entry of opcode `op`. -/
def TakesOpcode (op : Nat) (c : Ring → Instr) : Prop := ∃ f, ∀ r s, exec (c r) s = .next (s.onEntry r op f)

section NoEntry
variable {op : Nat} {c : Ring → Instr} (hc : TakesOpcode op c)
include hc

theorem TakesOpcode.unchanged (s : State) (r : Ring) (h : s.takeEntry r op = none) : exec (c r) s = .next s := by
  obtain ⟨f, hf⟩ := hc
  rw [hf, State.onEntry, h]

theorem TakesOpcode.refused (s t : State) (r : Ring) (h : s.takeEntry r op = some (t, none)) : exec (c r) s = .next t := by
  obtain ⟨f, hf⟩ := hc
  rw [hf, State.onEntry, h]

end NoEntry

/-- The 24 ring commands take the opcodes of Table 15-8. -/
theorem takesOpcode_ringCommands :
    TakesOpcode 0x00 .ringNop ∧ TakesOpcode 0x01 .jobCreate ∧ TakesOpcode 0x02 .jobStart ∧ TakesOpcode 0x03 .jobDestroy ∧
    TakesOpcode 0x04 .clientCreate ∧ TakesOpcode 0x05 .clientDestroy ∧ TakesOpcode 0x10 .mapPages ∧ TakesOpcode 0x11 .unmapPages ∧
    TakesOpcode 0x12 .migrateHint ∧ TakesOpcode 0x20 .recipeSwitch ∧ TakesOpcode 0x21 .placementSwitch ∧
    TakesOpcode 0x22 .levelChange ∧ TakesOpcode 0x30 .openStream ∧ TakesOpcode 0x31 .parkStream ∧ TakesOpcode 0x32 .resumeStream ∧
    TakesOpcode 0x33 .closeStream ∧ TakesOpcode 0x34 .parkList ∧ TakesOpcode 0x35 .parkDelete ∧ TakesOpcode 0x40 .run ∧
    TakesOpcode 0x50 .fetch ∧ TakesOpcode 0x51 .swap ∧ TakesOpcode 0x52 .weightLoad ∧ TakesOpcode 0x53 .promote ∧
    TakesOpcode 0x54 .weightStatus := by
  and_intros <;> exact ⟨_, fun _ _ => rfl⟩

/-- Settles O20: the first clause is the equations of `State.takeEntry`, the others are what each ring command does without an entry. -/
theorem takingAnEntry : Obligations.TakingAnEntry := by
  obtain ⟨nop, jobCreate, jobStart, jobDestroy, clientCreate, clientDestroy, mapPages, unmapPages, migrateHint, recipeSwitch,
    placementSwitch, levelChange, openStream, parkStream, resumeStream, closeStream, parkList, parkDelete, run, fetch, swap, weightLoad,
    promote, weightStatus⟩ := takesOpcode_ringCommands
  refine ⟨?taken, nop.unchanged, jobCreate.unchanged, jobStart.unchanged, jobDestroy.unchanged, clientCreate.unchanged,
    clientDestroy.unchanged, mapPages.unchanged, unmapPages.unchanged, migrateHint.unchanged, recipeSwitch.unchanged,
    placementSwitch.unchanged, levelChange.unchanged, openStream.unchanged, parkStream.unchanged, resumeStream.unchanged,
    closeStream.unchanged, parkList.unchanged, parkDelete.unchanged, run.unchanged, fetch.unchanged, swap.unchanged, weightLoad.unchanged,
    promote.unchanged, weightStatus.unchanged, nop.refused, jobCreate.refused, jobStart.refused, jobDestroy.refused, clientCreate.refused,
    clientDestroy.refused, mapPages.refused, unmapPages.refused, migrateHint.refused, recipeSwitch.refused, placementSwitch.refused,
    levelChange.refused, openStream.refused, parkStream.refused, resumeStream.refused, closeStream.refused, parkList.refused,
    parkDelete.refused, run.refused, fetch.refused, swap.refused, weightLoad.refused, promote.refused, weightStatus.refused⟩
  case taken =>
    rintro s r op job bs e t hready hnext hhead he rfl
    refine ⟨fun h => ?opcode, fun hstand hlevel hop => ?legal⟩
    case opcode => exact State.takeEntry_of_refused_opcode hready hnext hhead he (h.imp_left e.not_mayStand_iff.2)
    case legal =>
      have htake := State.takeEntry_of_mayStand hready hnext hhead he hstand ((e.not_above_iff _).2 hlevel) hop
      refine ⟨fun o ho => ?header, fun hok => ?taken⟩
      case header => rwa [ho] at htake
      case taken => rwa [hok] at htake

end Sys2Proof.Machine
end

section
/-!
# NOP, CLIENT_CREATE and CLIENT_DESTROY

The checks of CLIENT_CREATE are put together once, as the rules of Table 15-14 on the entry's fields; what follows them, and each outcome of
CLIENT_DESTROY and of the end of a client, has its equation. The clauses of O21 are these equations.
-/

namespace Sys2Proof.Machine

open Sys2Proof

theorem firstFail_eq_none_iff {cs : List (Nat × Bool)} : firstFail cs = none ↔ ∀ c ∈ cs, c.2 = true := by
  induction cs with
  | nil => simp [firstFail]
  | cons c cs ih =>
    obtain ⟨o, ok⟩ := c
    cases ok <;> simp [firstFail, ih]

section Entries
variable {s t : State} {r : Ring} {e : Entry}

/-! ### NOP (Table 15-8) -/

theorem exec_ringNop_of_zeros (h : s.takeEntry r 0x00 = some (t, some e)) (hz : reservedBad e.bytes [(16, 48)] = none) :
    exec (.ringNop r) s = .next (t.complete e stDone) := by
  refine (congrArg _ (State.onEntry_of_takeEntry _ h)).trans ?_
  rw [hz]

theorem exec_ringNop_of_nonzero {o : Nat} (h : s.takeEntry r 0x00 = some (t, some e)) (ho : reservedBad e.bytes [(16, 48)] = some o) :
    exec (.ringNop r) s = .next (t.complete e stInvalid o) := by
  refine (congrArg _ (State.onEntry_of_takeEntry _ h)).trans ?_
  rw [ho]

/-! ### CLIENT_CREATE (R350, R468, R475, Table 15-14) -/

theorem exec_clientCreate (h : s.takeEntry r 0x04 = some (t, some e)) : exec (.clientCreate r) s = .next (t.clientCreate e) :=
  congrArg _ (State.onEntry_of_takeEntry _ h)

/-- The client number and the job number of an entry exist. -/
theorem clientNumbers_legal (hc : e.f 16 1 < 64) (hn : e.f 17 1 < 8) :
    firstFail [(16, decide (e.f 16 1 < 64)), (17, decide (e.f 17 1 < 8))] = none := by
  simp [firstFail_eq_none_iff, hc, hn]

theorem State.clientCreate_of_no_job (hc : e.f 16 1 < 64) (hn : e.f 17 1 < 8) (hj : s.job (e.f 17 1) = none) :
    s.clientCreate e = s.complete e stJob := by
  simp only [State.clientCreate, clientNumbers_legal hc hn, hj]

/-- Every field of a CLIENT_CREATE entry for job `j` is legal: numbers, classes, ring sizes, and firmly mapped rings and accounting line. -/
structure State.ClientLegal (s : State) (e : Entry) (j : Job) : Prop where
  number : e.f 16 1 < 64
  jobNumber : e.f 17 1 < 8
  job : s.job (e.f 17 1) = some j
  someClass : 0 < e.f 18 1
  classes : e.f 18 1 < 16
  sqLog : 6 ≤ e.f 19 1 ∧ e.f 19 1 ≤ 16
  cqLog : 6 ≤ e.f 20 1 ∧ e.f 20 1 ≤ 16
  holds : j.phase = .loading ∨ ringHolds (e.f 20 1) j.passMax = true
  reserved : e.f 21 3 = 0
  sqAligned : e.f 24 8 % 64 = 0
  sqMapped : ∀ k, k < 4 → bit (e.f 18 1) k = true →
    s.firmRange (e.f 17 1) (e.f 24 8 + k * 64 * 2 ^ e.f 19 1) (64 * 2 ^ e.f 19 1) false = true
  cqAligned : e.f 32 8 % 32 = 0
  cqMapped : s.firmRange (e.f 17 1) (e.f 32 8) (32 * 2 ^ e.f 20 1) true = true
  acctAligned : e.f 40 8 % 128 = 0
  acctMapped : s.firmRange (e.f 17 1) (e.f 40 8) 128 true = true
  tail : e.f 48 16 = 0

/-- The client that an accepted entry makes, its rings empty. -/
def Entry.newClient (e : Entry) : Client where
  job := e.f 17 1
  classes := e.f 18 1
  sqLog := e.f 19 1
  cqLog := e.f 20 1
  sqBase := e.f 24 8
  cqBase := e.f 32 8
  acct := e.f 40 8

section Legal
variable {j : Job} (h : s.ClientLegal e j)
include h

/-- The checks of the ring sizes. -/
theorem State.ClientLegal.sizes : firstFail
    [ (18, e.f 18 1 != 0 && decide (e.f 18 1 < 16)), (19, decide (6 ≤ e.f 19 1 ∧ e.f 19 1 ≤ 16)),
      (20, decide (6 ≤ e.f 20 1 ∧ e.f 20 1 ≤ 16) && (j.phase == .loading || ringHolds (e.f 20 1) j.passMax)),
      (21, e.f 21 3 == 0) ] = none := by
  simp [firstFail_eq_none_iff, Nat.ne_of_gt h.someClass, h.classes, h.sqLog, h.cqLog, h.holds, h.reserved]

/-- The checks of the ranges of memory. -/
theorem State.ClientLegal.ranges : firstFail
    [ (24, e.f 24 8 % 64 == 0 && (classList (e.f 18 1)).all
        (fun k => s.firmRange (e.f 17 1) (e.f 24 8 + k * 64 * 2 ^ e.f 19 1) (64 * 2 ^ e.f 19 1) false)),
      (32, e.f 32 8 % 32 == 0 && s.firmRange (e.f 17 1) (e.f 32 8) (32 * 2 ^ e.f 20 1) true),
      (40, e.f 40 8 % 128 == 0 && s.firmRange (e.f 17 1) (e.f 40 8) 128 true), (48, e.f 48 16 == 0) ] = none := by
  have hsq : (classList (e.f 18 1)).all
      (fun k => s.firmRange (e.f 17 1) (e.f 24 8 + k * 64 * 2 ^ e.f 19 1) (64 * 2 ^ e.f 19 1) false) = true := by
    refine List.all_eq_true.2 fun k hk => ?_
    obtain ⟨hlt, hbit⟩ := List.mem_filter.1 hk
    exact h.sqMapped k (List.mem_range.1 hlt) hbit
  simp [firstFail_eq_none_iff, hsq, h.sqAligned, h.cqAligned, h.cqMapped, h.acctAligned, h.acctMapped, h.tail]

theorem State.clientCreate_of_existing (hx : (mget s.clients (e.f 16 1)).isSome = true) : s.clientCreate e = s.complete e stBusy := by
  simp only [State.clientCreate, clientNumbers_legal h.number h.jobNumber, h.job, h.sizes, h.ranges, hx, if_true]

theorem State.clientCreate_of_free {u : State} (hfree : mget s.clients (e.f 16 1) = none) (hp : j.phase ≠ .destroying)
    (hu : s.writeVa (e.f 17 1) (e.f 32 8) (leBytes 4 1 ++ leBytes 4 0 ++ leBytes 4 1 ++ leBytes 20 0) = .ok u) :
    s.clientCreate e = { u with clients := mset u.clients (e.f 16 1) e.newClient }.complete e stDone := by
  simp only [State.clientCreate, clientNumbers_legal h.number h.jobNumber, h.job, h.sizes, h.ranges, hfree, beq_false_of_ne hp, hu,
    Option.isSome_none, Bool.false_eq_true, if_false, Entry.newClient]

end Legal

/-! ### CLIENT_DESTROY (R350, Table 15-14) -/

theorem exec_clientDestroy (h : s.takeEntry r 0x05 = some (t, some e)) : exec (.clientDestroy r) s = .next (t.clientDestroy e) :=
  congrArg _ (State.onEntry_of_takeEntry _ h)

theorem State.clientDestroy_of_no_client (hx : mget s.clients (e.f 16 1) = none) : s.clientDestroy e = s.complete e stInvalid 16 := by
  simp only [State.clientDestroy, hx]

section Living
variable {x : Client} (hx : mget s.clients (e.f 16 1) = some x) (hlive : x.dying = none) (hr : reservedBad e.bytes [(17, 47)] = none)
include hx hlive hr

theorem State.clientDestroy_of_streams (hy : s.streams.any (fun y => y.2.client == e.f 16 1) = true) :
    s.clientDestroy e = s.complete e stBusy := by
  simp only [State.clientDestroy, hx, hlive, hr, hy, Option.isSome_none, Bool.false_eq_true, if_false, if_true]

theorem State.clientDestroy_of_no_stream (hy : s.streams.any (fun y => y.2.client == e.f 16 1) = false) :
    s.clientDestroy e =
      { s with clients := mset s.clients (e.f 16 1) { x with dying := some e.cookie } }.reapClient (e.f 16 1) := by
  simp only [State.clientDestroy, hx, hlive, hr, hy, Option.isSome_none, Bool.false_eq_true, if_false]

end Living

end Entries

/-! ### The end of a client that is being destroyed -/

section Reap
variable {s : State} {c k : Nat} {x : Client} (hx : mget s.clients c = some x) (hk : x.dying = some k)
include hx hk

theorem State.reapClient_of_none_waiting (h : ∀ w ∈ x.waiting, w.2 = 0) : s.reapClient c = s.endClient c k := by
  have hall : x.waiting.all (fun w => w.2 == 0) = true := List.all_eq_true.2 fun w hw => beq_iff_eq.2 (h w hw)
  simp only [State.reapClient, hx, hk, hall, if_true]

theorem State.reapClient_of_waiting (h : ∃ w ∈ x.waiting, w.2 ≠ 0) : s.reapClient c = s := by
  obtain ⟨w, hw, hne⟩ := h
  have hall : x.waiting.all (fun w => w.2 == 0) = false := List.all_eq_false.2 ⟨w, hw, by simpa using hne⟩
  simp only [State.reapClient, hx, hk, hall, Bool.false_eq_true, if_false]

end Reap

/-- Settles O21: each clause is one of the equations above, one named case for each clause. -/
theorem entriesForClients : Obligations.EntriesForClients := by
  refine ⟨fun s t r e h => ⟨exec_ringNop_of_zeros h, fun _ => exec_ringNop_of_nonzero h⟩, ?noJob, ?create, ?destroy, ?reap⟩
  case noJob =>
    intro s t r e h hc hn hj
    rw [exec_clientCreate h, State.clientCreate_of_no_job hc hn hj]
  case create =>
    intro s t u r e j h hc hn hj hcls hcls' hsl hsl' hcl hcl' hholds hres hsq hsqMap hcq hcqMap hac hacMap htail
    have hlegal : t.ClientLegal e j :=
      ⟨hc, hn, hj, hcls, hcls', ⟨hsl, hsl'⟩, ⟨hcl, hcl'⟩, hholds, hres, hsq, hsqMap, hcq, hcqMap, hac, hacMap, htail⟩
    rw [exec_clientCreate h]
    refine ⟨fun hfree hp hu => ?free, fun hx => ?existing⟩
    case free =>
      rw [State.clientCreate_of_free hlegal hfree hp hu]
      rfl
    case existing => rw [State.clientCreate_of_existing hlegal hx]
  case destroy =>
    intro s t r e h
    rw [exec_clientDestroy h]
    refine ⟨fun x u hx hlive hr => ⟨fun hy => ?streams, fun hy hu => ?noStream⟩, fun hx => ?noClient⟩
    case streams => rw [State.clientDestroy_of_streams hx hlive hr hy]
    case noStream => rw [State.clientDestroy_of_no_stream hx hlive hr hy, hu]
    case noClient => rw [State.clientDestroy_of_no_client hx]
  case reap =>
    intro s c k x hx hk
    exact ⟨State.reapClient_of_none_waiting hx hk, State.reapClient_of_waiting hx hk⟩

end Sys2Proof.Machine
end

section
/-!
# PASS_FORMATION, FORMATION_EXCHANGE_COMPLETE and PASS_START

Each command visits every job; for the only job of a module it is one operation on that job, whose outcomes have one equation each. The
clauses of O39 are these equations.
-/

namespace Sys2Proof.Machine

open Sys2Proof

variable {s : State} {n : Nat} {j : Job}

/-! ### PASS_FORMATION (R356, R357) -/

/-- A job of this number exists and its next formation is due. -/
def State.jobDue (s : State) (n : Nat) : Bool :=
  match s.job n with
  | some j => s.formationDue n j
  | none => false

theorem exec_passFormation : exec .passFormation s =
    .next (if s.jobNums.any s.jobDue then s.jobNums.foldl State.formJob s.gateBays else s) := rfl

theorem State.jobDue_of_job (hj : s.job n = some j) : s.jobDue n = s.formationDue n j := by
  rw [State.jobDue, hj]

theorem State.jobDue_eq_false (h : ∀ j, s.job n = some j → s.formationDue n j = false) : s.jobDue n = false := by
  cases hj : s.job n with
  | none => rw [State.jobDue, hj]
  | some j => rw [State.jobDue_of_job hj, h j hj]

theorem exec_passFormation_of_none_due (h : ∀ n ∈ s.jobNums, ∀ j, s.job n = some j → s.formationDue n j = false) :
    exec .passFormation s = .next s := by
  have hnone : s.jobNums.any s.jobDue = false :=
    List.any_eq_false.2 fun n hn => Bool.eq_false_iff.1 (State.jobDue_eq_false (h n hn))
  rw [exec_passFormation, hnone, if_neg Bool.false_ne_true]

theorem exec_passFormation_of_due (hn : s.jobNums = [n]) (hj : s.job n = some j) (hdue : s.formationDue n j = true) :
    exec .passFormation s = .next (s.gateBays.formJob n) := by
  have hany : s.jobNums.any s.jobDue = true := by
    rw [hn, List.any_cons, State.jobDue_of_job hj, hdue, Bool.true_or]
  rw [exec_passFormation, if_pos hany, hn, List.foldl_cons, List.foldl_nil]

/-- The tick kept of a stream is the first formation tick at which it met the horizon test (R369). -/
def keepFirst (at_ : Nat) (waits : List (Nat × Nat)) (n : Nat) : List (Nat × Nat) :=
  if (mget waits n).isSome then waits else mset waits n at_

/-- The job is forming a pass of the walk's outcome, and its candidates' waits have begun. -/
def State.beginForming (s : State) (n : Nat) (label at_ : Nat) (cs took failed capped : List Nat) : State :=
  s.modJob n (fun j => { j with
    forming := some { seq := j.nextSeq, label := label, eligible := took, framesFailed := failed, capped := capped, formBase := j.formBase }
    waits := cs.foldl (keepFirst at_) j.waits })

/-- The bitmap and its increment leave for one module of the formation group. -/
def State.bitmapTo (s : State) (n : Nat) (j : Job) (took : List Nat) (e : Nat) : State :=
  s.sendFenced n j.formWindow (j.formOff j.nextSeq (j.myPeer s.endpoint)) j.formPeg (bitmapOf took) e

theorem State.formJob_of_due {t : State} {took failed capped : List Nat} (hj : s.job n = some j) (hdue : s.formationDue n j = true)
    (hwalk : s.walk n j.passMax (s.candidates n j j.nextLabel) [] [] = (t, took, failed, capped)) :
    s.formJob n = j.peerList.foldl (fun s e => s.bitmapTo n j took e)
      (t.beginForming n j.nextLabel (j.formAt.getD s.nowN) (s.candidates n j j.nextLabel) took failed capped) := by
  simp only [State.formJob, hj, hdue, hwalk, Bool.not_true, Bool.false_eq_true, if_false]
  rfl

/-! ### FORMATION_EXCHANGE_COMPLETE (R357) -/

theorem exec_formationExchangeComplete (hn : s.jobNums = [n]) : exec .formationExchangeComplete s = .next (s.exchangeDone n) := by
  show Host.Outcome.next _ = _
  rw [hn, List.foldl_cons, List.foldl_nil]

/-- FORM_PEG once every bitmap has come. -/
def Forming.target (f : Forming) (j : Job) : Nat := (f.formBase + j.formPeers) % 2 ^ 32

section Exchange
variable {f : Forming} (hj : s.job n = some j) (hf : j.forming = some f)
include hj hf

theorem State.exchangeDone_of_waits (h : reached (s.pegValue j.formPeg) (f.target j) = false) : s.exchangeDone n = s := by
  rw [Forming.target] at h
  simp only [State.exchangeDone, hj, hf, h, Bool.not_false, if_true]

theorem State.exchangeDone_of_beyond (h : reached (s.pegValue j.formPeg) (f.target j) = true) (hv : s.pegValue j.formPeg ≠ f.target j) :
    s.exchangeDone n = s.schedFault n 2 j.myMember f.label 0 := by
  rw [Forming.target] at h hv
  simp only [State.exchangeDone, hj, hf, h, bne_iff_ne.2 hv, Bool.not_true, Bool.false_eq_true, if_false, if_true]

/-- At its target the pass is formed from the bitmaps read, or waits for a swap. -/
theorem State.exchangeDone_of_bitmaps {bms : List (List Byte)} (h : reached (s.pegValue j.formPeg) (f.target j) = true)
    (hv : s.pegValue j.formPeg = f.target j) (hb : s.bitmaps n j f.seq j.formPeers = .ok bms) :
    s.exchangeDone n = if s.swapHolds n = true then s else s.formPass n f bms := by
  rw [hv] at h
  rw [Forming.target] at h hv
  simp only [State.exchangeDone, hj, hf, h, hv, hb, State.schedAcc, bne_self_eq_false, Bool.not_true, Bool.false_eq_true, if_false]

end Exchange

/-! ### PASS_START (R354, R355) -/

theorem exec_passStart (hn : s.jobNums = [n]) : exec .passStart s = .next (s.startJob n).reschedule := by
  show Host.Outcome.next _ = _
  rw [hn, List.foldl_cons, List.foldl_nil]

/-- The formed pass is the executing one from its start tick `t` on, and the next formation is due at that tick. -/
def Job.begun (j : Job) (p : Pass) (t : Nat) : Job :=
  { j with executing := some { p with begun := true }, formed := none, lastStart := t, formAt := some t }

section Start
variable {p : Pass} {t : Nat} (hj : s.job n = some j) (hformed : j.formed = some p) (hidle : j.executing = none) (hstart : p.start = some t)
include hj hformed hidle hstart

theorem State.startJob_of_come (ht : t ≤ s.nowN) (hfault : s.faultCt = none) (hhalts : j.halts p.seq = false)
    (hended : j.ended p.label = false) (hsusp : j.suspended = false) (hwait : j.lossWait = []) :
    s.startJob n = (s.setJob n (j.begun p t)).clearBay n := by
  simp only [State.startJob, hj, hformed, hidle, hstart, ht, hfault, hhalts, hended, hsusp, hwait, Option.isNone_none, List.isEmpty_nil,
    decide_true, Bool.not_false, Bool.and_self, if_true, Job.begun]

theorem State.startJob_of_early (ht : s.nowN < t) : s.startJob n = s := by
  simp only [State.startJob, hj, hformed, hidle, hstart, Nat.not_le.2 ht, decide_false, Bool.false_and, Bool.false_eq_true, if_false]

end Start

/-- Settles O39: each clause is one of the equations above, one named case for each clause. -/
theorem passesFormedAndStarted : Obligations.PassesFormedAndStarted := by
  refine ⟨fun s h => exec_passFormation_of_none_due h, fun s n j hn hj hdue => exec_passFormation_of_due hn hj hdue, ?formed, ?exchange,
    ?start⟩
  case formed =>
    rintro s t u n j cs took failed capped hj hdue rfl hwalk rfl
    exact State.formJob_of_due hj hdue hwalk
  case exchange =>
    intro s n j f hn hj hf
    rw [exec_formationExchangeComplete hn]
    refine ⟨fun h => ?early, fun h hv => ?beyond, fun bms h hv hb => ?bitmaps⟩
    case early => rw [State.exchangeDone_of_waits hj hf h]
    case beyond => rw [State.exchangeDone_of_beyond hj hf h hv]
    case bitmaps => rw [State.exchangeDone_of_bitmaps hj hf h hv hb]
  case start =>
    intro s n j p t hn hj hformed hidle hstart
    rw [exec_passStart hn]
    refine ⟨fun ht hfault hhalts hended hsusp hwait => ?come, fun ht => ?early⟩
    case come =>
      rw [State.startJob_of_come hj hformed hidle hstart ht hfault hhalts hended hsusp hwait]
      rfl
    case early => rw [State.startJob_of_early hj hformed hidle hstart ht]

end Sys2Proof.Machine
end

section
/-!
# RUN, the sharing of the cores, pre-emption, and the end and the limit of a run

`State.reschedule` first lets a finished step 10 give the cores up and then compares the best runnable unit with the holder. Each of the two
parts has one equation for each outcome; the clauses of O40 on the cores are put together from them. What step 10 does with the cores is log
272 throughout.
-/

namespace Sys2Proof.Machine

open Sys2Proof

variable {s t : State}

/-! ### RUN (R353) -/

section Entry
variable {c k : Nat} {r : Ring} {e : Entry} {j : Job}

theorem exec_run (h : s.takeEntry r 0x40 = some (t, some e)) : exec (.run r) s = .next (t.runEntry e) :=
  congrArg _ (State.onEntry_of_takeEntry _ h)

/-- The run that an accepted entry of client `c`, class `k`, adds. -/
def State.runOf (s : State) (e : Entry) (c k : Nat) : Run where
  uid := s.runUid
  client := c
  cls := k
  job := e.job
  cookie := e.cookie
  id := e.f 20 4
  template := e.f 16 4
  args := e.f 24 8
  start := e.f 32 8
  limit := e.f 40 4
  arrival := s.nowN

variable (hj : s.job e.job = some j) (hp : j.phase = .serving) (hargs : e.f 24 8 < 2 ^ 52)
include hj hp hargs

theorem State.runEntry_of_short_limit (hl : e.f 40 4 < 24576) : s.runEntry e = s.complete e stInvalid 40 := by
  simp only [State.runEntry, hj, hp, hargs, hl, bne_self_eq_false, Bool.false_eq_true, if_false, if_true]

variable (hl : 24576 ≤ e.f 40 4) (hr : reservedBad e.bytes [(44, 20)] = none)
include hl hr

theorem State.runEntry_of_late (hs : e.f 32 8 < s.nowN + 24576) : s.runEntry e = s.complete e stLate := by
  simp only [State.runEntry, hj, hp, hargs, Nat.not_lt.2 hl, hr, hs, bne_self_eq_false, Bool.false_eq_true, if_false, if_true]

theorem State.runEntry_of_accepted (hring : e.ring = .client c k) (hs : s.nowN + 24576 ≤ e.f 32 8) (hsusp : j.suspended = false) :
    s.runEntry e = { s with runs := s.runs ++ [s.runOf e c k], runUid := s.runUid + 1 } := by
  simp only [State.runEntry, hj, hp, hargs, Nat.not_lt.2 hl, hr, Nat.not_lt.2 hs, hring, hsusp, bne_self_eq_false, Bool.false_eq_true,
    if_false, if_true, State.runOf]

end Entry

/-! ### Step 10 that holds the cores (R32, R36) -/

/-- The cores are free, and no frame of the job's step 10 is left. -/
def State.tailEnded (s : State) (n : Nat) : State :=
  { s.modJob n (fun x => { x with tail := [] }) with holder := none, preempting := none }

theorem State.endTail_of_no_tail (h : ∀ n, s.holder ≠ some (.tail n)) : s.endTail = s := by
  unfold State.endTail
  split
  next n hn => exact absurd hn (h n)
  next => rfl

section Tail
variable {n : Nat} (hh : s.holder = some (.tail n))
include hh

theorem State.endTail_of_unfinished (h : s.tailDone n = false ∨ s.baysQuiet n = false) : s.endTail = s := by
  have hbusy : (s.tailDone n && s.baysQuiet n) = false := Bool.and_eq_false_iff.2 h
  simp only [State.endTail, hh, hbusy, Bool.false_eq_true, if_false]

theorem State.endTail_of_finished (hd : s.tailDone n = true) (hq : s.baysQuiet n = true) : s.endTail = s.tailEnded n := by
  simp only [State.endTail, hh, hd, hq, Bool.and_self, if_true, State.tailEnded]

end Tail

theorem State.tailEnded_endTail (n : Nat) : (s.tailEnded n).endTail = s.tailEnded n :=
  State.endTail_of_no_tail fun _ => (Option.some_ne_none _).symm

/-! ### The best runnable unit and the holder (R364) -/

theorem exec_preemptionRequest : exec .preemptionRequest s = .next s.reschedule := rfl

theorem State.reschedule_of_none_best (hend : s.endTail = s) (h : s.best = none ∨ s.faultCt.isSome = true) : s.reschedule = s := by
  simp only [State.reschedule, hend]
  rcases h with hbest | hfault
  · refine ite_eq_left_iff.2 fun _ => ?_
    rw [hbest]
    cases s.holder <;> rfl
  · exact if_pos hfault

theorem State.reschedule_of_free {b : Holder × List Nat} (hh : s.holder = none) (hf : s.faultCt = none) (hb : s.best = some b) :
    s.reschedule = s.giveCores b.1 := by
  have hend : s.endTail = s := State.endTail_of_no_tail fun n => by simp [hh]
  simp only [State.reschedule, hend, hh, hf, hb, Option.isSome_none, Bool.false_eq_true, if_false]

section Held
variable {h : Holder} {b : Holder × List Nat} (hend : s.endTail = s) (hh : s.holder = some h)
include hend hh

/-- No unit but one of a strictly lower class asks for the cores of a holder that can be pre-empted. -/
theorem State.reschedule_of_keeps (hkeep : h.steady = true ∨ ∀ b, s.best = some b → s.unitClass h ≤ b.2.headD 4) : s.reschedule = s := by
  simp only [State.reschedule, hend, hh]
  refine ite_eq_left_iff.2 fun _ => ?_
  cases hb : s.best with
  | none => rfl
  | some b =>
    refine if_neg fun hasks => ?_
    simp only [Bool.and_eq_true, decide_eq_true_eq, Bool.not_eq_true'] at hasks
    obtain ⟨⟨hlower, -⟩, hsteady⟩ := hasks
    rcases hkeep with hkeep | hkeep
    · exact Bool.false_ne_true (hsteady.symm.trans hkeep)
    · exact Nat.not_le.2 hlower (hkeep b hb)

theorem State.reschedule_of_lower_class (hsteady : h.steady = false) (hf : s.faultCt = none) (hb : s.best = some b)
    (hpre : s.preempting = none) (hlower : b.2.headD 4 < s.unitClass h) : s.reschedule = { s with preempting := some b.1 } := by
  simp only [State.reschedule, hend, hh, hf, hb, hpre, hsteady, hlower, Option.isSome_none, Option.isNone_none, decide_true, Bool.not_false,
    Bool.and_self, Bool.false_eq_true, if_false, if_true]

end Held

theorem Holder.ne_tail_of_not_steady {h : Holder} (hsteady : h.steady = false) (n : Nat) : h ≠ .tail n := by
  rintro rfl
  exact Bool.false_ne_true hsteady.symm

theorem State.reschedule_of_finished {n : Nat} (hh : s.holder = some (.tail n)) (hd : s.tailDone n = true) (hq : s.baysQuiet n = true) :
    s.reschedule = (s.tailEnded n).reschedule := by
  rw [State.reschedule, State.endTail_of_finished hh hd hq, State.reschedule, State.tailEnded_endTail]

/-! ### A pre-emption takes effect (R365) -/

theorem exec_preemptionEffective : exec .preemptionEffective s = .next s.preempt := rfl

section Preempt
variable {h n : Holder} (hh : s.holder = some h) (hpre : s.preempting = some n)
include hh hpre

theorem State.preempt_of_ready (hready : s.preemptReady = true) : s.preempt = (s.saveHolder h).reschedule := by
  simp only [State.preempt, hh, hpre, hready, if_true]

theorem State.preempt_of_not_ready (hready : s.preemptReady = false) : s.preempt = s := by
  simp only [State.preempt, hh, hpre, hready, Bool.false_eq_true, if_false]

end Preempt

/-! ### The end and the limit of the run that holds the cores (R353) -/

theorem exec_runEnd : exec .runEnd s = .next s.runEnd := rfl

theorem exec_runLimit : exec .runLimit s = .next s.runLimit := rfl

section Run
variable {u : Nat} {r : Run} (hh : s.holder = some (.run u)) (hr : s.runs.find? (fun r => r.uid == u) = some r)
include hh hr

theorem State.runEnd_of_busy (hq : s.baysQuiet r.job = false) : s.runEnd = s := by
  simp only [State.runEnd, hh, hr, hq, Bool.not_false, if_true]

theorem State.runEnd_of_quiet (hq : s.baysQuiet r.job = true) : s.runEnd =
    ((({ s with runs := s.runs.filter (fun (x : Run) => x.uid != u) } : State).accountOr r.client (runAccount r s.nowN)).endRun r
      stDone).dropHolder (.run u) := by
  simp only [State.runEnd, hh, hr, hq, Bool.not_true, Bool.false_eq_true, if_false]
  rfl

theorem State.runLimit_of_within (hl : r.held + (s.nowN - r.heldFrom.getD s.nowN) < r.limit) : s.runLimit = s := by
  simp only [State.runLimit, hh, hr, hl, if_true]

theorem State.runLimit_of_reached (hl : r.limit ≤ r.held + (s.nowN - r.heldFrom.getD s.nowN)) :
    s.runLimit = s.schedFault r.job 3 ((s.job r.job).elim 0 (·.myMember)) 0 r.id := by
  simp only [State.runLimit, hh, hr, Nat.not_lt.2 hl, if_false]

end Run

/-- Settles O40: each clause is one of the equations above, one named case for each clause. -/
theorem coresShared : Obligations.CoresShared := by
  refine ⟨?run, fun s b hh hf hb => ?free, ?held, ?tail, fun s hh h => ?idle, ?preempt, ?ends, fun s hh => ⟨?noEnd, ?noLimit, ?noPreempt⟩⟩
  case run =>
    intro s t c k e j h hring hj hp hargs
    rw [exec_run h]
    refine ⟨fun hl => ?short, fun hl hr hs => ?late, fun hl hr hs hsusp => ?accepted⟩
    case short => rw [State.runEntry_of_short_limit hj hp hargs hl]
    case late => rw [State.runEntry_of_late hj hp hargs hl hr hs]
    case accepted =>
      rw [State.runEntry_of_accepted hj hp hargs hl hr hring hs hsusp]
      rfl
  case free => rw [exec_preemptionRequest, State.reschedule_of_free hh hf hb]
  case held =>
    intro s h b hh hsteady hf hb hpre
    have hend : s.endTail = s :=
      State.endTail_of_no_tail fun n htail => Holder.ne_tail_of_not_steady hsteady n (Option.some.inj (hh.symm.trans htail))
    rw [exec_preemptionRequest]
    refine ⟨fun hlower => ?lower, fun hequal => ?equal⟩
    case lower => rw [State.reschedule_of_lower_class hend hh hsteady hf hb hpre hlower]
    case equal =>
      rw [State.reschedule_of_keeps hend hh (.inr fun b' hb' => Option.some.inj (hb.symm.trans hb') ▸ hequal)]
  case tail =>
    intro s n hh
    rw [exec_preemptionRequest]
    refine ⟨fun h => ?unfinished, fun t hd hq ht => ?finished⟩
    case unfinished => rw [State.reschedule_of_keeps (State.endTail_of_unfinished hh h) hh (.inl rfl)]
    case finished =>
      rw [State.reschedule_of_finished hh hd hq, ht]
      rfl
  case idle => rw [exec_preemptionRequest, State.reschedule_of_none_best (State.endTail_of_no_tail hh) h]
  case preempt =>
    intro s h n hh hpre
    rw [exec_preemptionEffective]
    refine ⟨fun hready => ?ready, fun hready => ?notReady⟩
    case ready => rw [State.preempt_of_ready hh hpre hready]
    case notReady => rw [State.preempt_of_not_ready hh hpre hready]
  case ends =>
    intro s u r hh hr
    rw [exec_runEnd, exec_runLimit]
    refine ⟨fun hq => ?busy, fun hq => ?quiet, fun hl => ?within, fun hl => ?limit⟩
    case busy => rw [State.runEnd_of_busy hh hr hq]
    case quiet => rw [State.runEnd_of_quiet hh hr hq]
    case within => rw [State.runLimit_of_within hh hr hl]
    case limit => rw [State.runLimit_of_reached hh hr hl]
  case noEnd => rw [exec_runEnd, State.runEnd, hh]
  case noLimit => rw [exec_runLimit, State.runLimit, hh]
  case noPreempt => rw [exec_preemptionEffective, State.preempt, hh]

end Sys2Proof.Machine
end

section
/-!
# Requests from the fabric

A request is taken by its type, then by its standing in its source's duplicate record, then by the checks of Table 12-5; each outcome has one
equation below.
-/

namespace Sys2Proof.Machine

open Sys2Proof

section Request
variable {s : State} {k c typ : Nat} {p : Packet}

theorem exec_lineRead : exec (.lineRead k p c) s = .next (s.requestOf tLineRead k p (c == pktCrc p)) := rfl

theorem exec_lineWrite : exec (.lineWrite k p c) s = .next (s.requestOf tLineWrite k p (c == pktCrc p)) := rfl

theorem exec_pegInc : exec (.pegInc k p c) s = .next (s.requestOf tPegInc k p (c == pktCrc p)) := rfl

/-! ### Type and end-to-end check (R371, R374) -/

theorem pktKnown_of_request (h : p.typ = tLineRead ∨ p.typ = tLineWrite ∨ p.typ = tPegInc) : pktKnown p = true := by
  rcases h with h | h | h <;> rw [pktKnown, h] <;> rfl

theorem State.requestOf_of_other {crc : Bool} (h : p.typ ≠ typ) (hk : pktKnown p = true) : s.requestOf typ k p crc = s := by
  rw [State.requestOf, if_neg (mt beq_iff_eq.1 h), if_pos hk]

theorem State.requestOf_of_reserved {crc : Bool} (h : p.typ ≠ typ) (hk : pktKnown p = false) : s.requestOf typ k p crc = s.crcDrop p := by
  rw [State.requestOf, if_neg (mt beq_iff_eq.1 h), hk, if_neg Bool.false_ne_true]

theorem State.requestOf_of_badCrc (h : p.typ = typ) (hc : c ≠ pktCrc p) : s.requestOf typ k p (c == pktCrc p) = s.crcDrop p := by
  rw [State.requestOf, if_pos (beq_iff_eq.2 h), beq_eq_false_iff_ne.2 hc]
  rfl

/-- A packet that fails its check, or of a reserved type, is dropped by every command whose type it may be. -/
theorem State.requestOf_dropped (ht : typ = tLineRead ∨ typ = tLineWrite ∨ typ = tPegInc)
    (h : c ≠ pktCrc p ∧ (p.typ = tLineRead ∨ p.typ = tLineWrite ∨ p.typ = tPegInc) ∨ pktKnown p = false)
    (hothers : ∀ t, t = tLineRead ∨ t = tLineWrite ∨ t = tPegInc → t ≠ typ → p.typ ≠ t) :
    s.requestOf typ k p (c == pktCrc p) = s.crcDrop p := by
  rcases h with ⟨hc, hreq⟩ | hk
  · exact State.requestOf_of_badCrc (by_contra fun hne => hothers p.typ hreq hne rfl) hc
  · have hne : p.typ ≠ typ := fun htyp => Bool.false_ne_true (hk.symm.trans (pktKnown_of_request (htyp ▸ ht)))
    exact State.requestOf_of_reserved hne hk

/-! ### The duplicate record (R419) -/

section Good
variable {u t : State} (hu : u = { s with heard := mset s.heard p.src s.nowN })
include hu

theorem State.request_of_drop (h : u.dupOf p = .drop) : s.request k p true = u.count .route 0x114 1 := by
  subst hu
  simp only [State.request, h, Bool.not_true, Bool.false_eq_true, if_false]

theorem State.request_of_repeated (h : u.dupOf p = .repeated c) : s.request k p true = (u.noteRequest p).answerAgain k p c := by
  subst hu
  simp only [State.request, h, Bool.not_true, Bool.false_eq_true, if_false]

theorem State.request_of_fresh (h : u.dupOf p = .fresh) : s.request k p true = (u.noteRequest p).handleReq k p := by
  subst hu
  simp only [State.request, h, Bool.not_true, Bool.false_eq_true, if_false]

/-- A request that passes its end-to-end check has one of the three outcomes. -/
theorem State.requestOf_of_good (htyp : p.typ = typ)
    (ht : (u.dupOf p = .drop ∧ t = u.count .route 0x114 1) ∨ (∃ c, u.dupOf p = .repeated c ∧ t = (u.noteRequest p).answerAgain k p c) ∨
      (u.dupOf p = .fresh ∧ t = (u.noteRequest p).handleReq k p)) : s.requestOf typ k p (pktCrc p == pktCrc p) = t := by
  rw [State.requestOf, if_pos (beq_iff_eq.2 htyp), beq_self_eq_true]
  rcases ht with ⟨h, rfl⟩ | ⟨c, h, rfl⟩ | ⟨h, rfl⟩
  · exact State.request_of_drop hu h
  · exact State.request_of_repeated hu h
  · exact State.request_of_fresh hu h

end Good

section Again
variable {n : Nat} {j : Job}

theorem State.answerAgain_refused (hj : s.jobOfSlice p.slice = some (n, j)) (hc : c ≠ 0) : s.answerAgain k p c = s.answer n p tRefuse c false [] := by
  simp only [State.answerAgain, hj, bne_iff_ne.2 hc, if_true, Option.map_some, Option.getD_some]

theorem State.answerAgain_acked (hj : s.jobOfSlice p.slice = some (n, j)) (ht : p.typ ≠ tLineRead) : s.answerAgain k p 0 = s.answer n p tAck 0 false [] := by
  simp only [State.answerAgain, hj, bne_self_eq_false, beq_eq_false_iff_ne.2 ht, Bool.false_eq_true, if_false, Option.map_some, Option.getD_some]

theorem State.answerAgain_read (ht : p.typ = tLineRead) : s.answerAgain k p 0 = s.handleReq k p := by
  simp only [State.answerAgain, bne_self_eq_false, beq_iff_eq.2 ht, Bool.false_eq_true, if_false, if_true]

end Again

/-! ### The checks (R375, R379, Table 12-5) -/

theorem State.handleReq_of_no_job (h : s.jobOfSlice p.slice = none) : s.handleReq k p = s.refusePkt none p 0x001 := by
  simp only [State.handleReq, h]

section Checks
variable {n : Nat} {j : Job} (hj : s.jobOfSlice p.slice = some (n, j))
include hj

theorem State.handleReq_of_not_routed (hr : s.routed p.src n = false) : s.handleReq k p = s.refusePkt none p 0x001 := by
  simp only [State.handleReq, hj, hr, Bool.not_false, if_true]

variable (hr : s.routed p.src n = true)
include hr

theorem State.handleReq_of_check (h : firstFail (s.ingressChecks n j (s.win n p.window) p) = some c) (h8 : c ≠ 8) (h9 : c ≠ 9) :
    s.handleReq k p = s.refusePkt (some n) p c := by
  simp only [State.handleReq, hj, hr, h, Bool.not_true, Bool.false_eq_true, if_false]

variable (h : firstFail (s.ingressChecks n j (s.win n p.window) p) = none)
include h

theorem State.handleReq_of_read (ht : p.typ = tLineRead) : s.handleReq k p = s.applyRead n (s.win n p.window) p := by
  simp only [State.handleReq, hj, hr, h, ht, Bool.not_true, Bool.false_eq_true, if_false]
  rfl

theorem State.handleReq_of_write (ht : p.typ = tLineWrite) : s.handleReq k p = s.applyWrite n j (s.win n p.window) p := by
  simp only [State.handleReq, hj, hr, h, ht, Bool.not_true, Bool.false_eq_true, if_false]
  rfl

theorem State.handleReq_of_inc (ht : p.typ = tPegInc) : s.handleReq k p = s.applyInc k n p := by
  simp only [State.handleReq, hj, hr, h, ht, Bool.not_true, Bool.false_eq_true, if_false]
  rfl

end Checks

end Request

/-! ### The effect (R380, R385, R546) -/

section Effect
variable {s : State} {k n : Nat} {j : Job} {w : Win} {p : Packet}

section Read
variable {b : List Byte} (hb : s.winRead n p.window p.offset 128 = .ok b)
include hb

theorem State.applyRead_bay (ht : w.target = 1) :
    s.applyRead n w p = (s.count64 .window 0x130 0x134 1).answer n p tReadData 0 w.shared b := by
  have h2 : ¬(1 : Nat) = 2 := by decide
  simp only [State.applyRead, ht, h2, Nat.one_ne_zero, if_false, hb]

theorem State.applyRead_virtual (ht : w.target = 0) :
    s.applyRead n w p = ((s.touch n (w.base + p.offset) 128).count64 .window 0x130 0x134 1).answer n p tReadData 0 w.shared b := by
  have h2 : ¬(0 : Nat) = 2 := by decide
  simp only [State.applyRead, ht, h2, if_true, if_false, hb]

end Read

/-- A line that has been stored, leaving `u`: it is counted and acknowledged. -/
def State.writeAcked (u : State) (n : Nat) (p : Packet) : State := (u.count64 .window 0x128 0x12C 1).answer n p tAck 0 false []

/-- The line is stored, leaving `u`. -/
def State.LineStored (s u : State) (n : Nat) (j : Job) (w : Win) (p : Packet) : Prop :=
  (w.target = 0 ∧ ∃ t, s.writeVa n (w.base + p.offset) (s.lineToStore n j w p) = .ok t ∧ u = t.touch n (w.base + p.offset) 128) ∨
    (w.target = 1 ∧ u = s.writeBay w.bay ((s.partition w.bay n).1 + w.bayOff + p.offset) (s.lineToStore n j w p))

theorem State.applyWrite_of_stored {u : State} (h : s.LineStored u n j w p) :
    s.applyWrite n j w p =
      if j.containHas p then (u.writeAcked n p).lineReceived n (s.lineToStore n j w p) else u.writeAcked n p := by
  rcases h with ⟨ht, t, hw, rfl⟩ | ⟨ht, rfl⟩
  · simp only [State.applyWrite, ht, hw]
    rfl
  · simp only [State.applyWrite, ht]
    rfl

theorem State.applyWrite_of_fault {c x y : Nat} (ht : w.target = 0)
    (h : s.writeVa n (w.base + p.offset) (s.lineToStore n j w p) = .bad c x y) :
    s.applyWrite n j w p = (s.lastFault c n (w.base + p.offset) 5 0).refusePkt (some n) p 0x00A := by
  simp only [State.applyWrite, ht, h]
  rfl

theorem State.lineToStore_of_plain (h : w.segmented = false) : s.lineToStore n j w p = slice p.line 0 128 := by
  simp only [State.lineToStore, h, Bool.not_false, if_true]

theorem State.applyInc_head (hk : 16 ≤ k) :
    s.applyInc k n p = ((s.count64 .peg 0x110 0x114 1).pegAdd p.peg p.inc).answer n p tAck 0 false [] := by
  simp only [State.applyInc, ge_iff_le, hk, if_true]

theorem State.applyInc_joins {u : State} {a : Accum} (hu : u = s.count64 .peg 0x110 0x114 1) (hk : k < 16)
    (ha : u.accums.find? (fun (a : Accum) => a.port == k && a.peg == p.peg) = some a) :
    s.applyInc k n p = { u with accums := u.accums.map (fun (x : Accum) =>
      if x == a then { x with sum := (x.sum + p.inc) % 2 ^ 32, acks := x.acks ++ [p] } else x) } := by
  subst hu
  simp only [State.applyInc, ge_iff_le, Nat.not_le.2 hk, if_false, ha]

theorem exec_pegAccumulatorFlush {g : Nat} : exec (.pegAccumulatorFlush k g) s = .next (s.flushPeg k g) := rfl

theorem State.flushPeg_of_none {g : Nat} (h : s.accums.find? (fun (a : Accum) => a.port == k && a.peg == g) = none) : s.flushPeg k g = s := by
  rw [State.flushPeg, h]

theorem State.flushPeg_of_some {g : Nat} {a : Accum} (h : s.accums.find? (fun (a : Accum) => a.port == k && a.peg == g) = some a) :
    s.flushPeg k g = s.flushAccum a := by
  rw [State.flushPeg, h]

end Effect

/-! ### The end of a source's record (R419) -/

section Expiry
variable {s : State} {e : Nat}

theorem exec_dedupRecordExpiry : exec (.dedupRecordExpiry e) s = .next (s.dedupExpire e) := rfl

theorem State.dedupExpire_of_none (h : mget s.dedup e = none) : s.dedupExpire e = s := by
  rw [State.dedupExpire, h]

theorem State.dedupExpire_of_record {r : DedupRec} (h : mget s.dedup e = some r) :
    s.dedupExpire e = if r.lastAt + 2457600 ≤ s.nowN then { s with dedup := mdel s.dedup e } else s := by
  rw [State.dedupExpire, h]

end Expiry

/-- Settles O52: each clause is one of the equations above, one named case for each clause. -/
theorem fabricRequests : Obligations.FabricRequests := by
  refine ⟨?types, ?record, ?again, ?noJob, ?checks, ?flush, ?expiry⟩
  case types =>
    intro s k c p
    rw [exec_lineRead, exec_lineWrite, exec_pegInc]
    refine ⟨fun h hk => ?read, fun h hk => ?write, fun h hk => ?inc, fun h => ⟨fun hw hi => ?dropRead, fun hr hi => ?dropWrite, fun hr hw => ?dropInc⟩⟩
    case read => rw [State.requestOf_of_other h hk]
    case write => rw [State.requestOf_of_other h hk]
    case inc => rw [State.requestOf_of_other h hk]
    case dropRead =>
      rw [State.requestOf_dropped (.inl rfl) h]
      rintro _ (rfl | rfl | rfl) hne
      · exact absurd rfl hne
      · exact hw
      · exact hi
    case dropWrite =>
      rw [State.requestOf_dropped (.inr (.inl rfl)) h]
      rintro _ (rfl | rfl | rfl) hne
      · exact hr
      · exact absurd rfl hne
      · exact hi
    case dropInc =>
      rw [State.requestOf_dropped (.inr (.inr rfl)) h]
      rintro _ (rfl | rfl | rfl) hne
      · exact hr
      · exact hw
      · exact absurd rfl hne
  case record =>
    intro s u k p hu t ht
    rw [exec_lineRead, exec_lineWrite, exec_pegInc]
    exact ⟨fun h => congrArg _ (State.requestOf_of_good hu h ht), fun h => congrArg _ (State.requestOf_of_good hu h ht),
      fun h => congrArg _ (State.requestOf_of_good hu h ht)⟩
  case again =>
    exact fun s k n c j p hj => ⟨State.answerAgain_refused hj, State.answerAgain_acked hj, State.answerAgain_read⟩
  case noJob => exact fun s k p => State.handleReq_of_no_job
  case checks =>
    rintro s k n j p hj
    refine ⟨State.handleReq_of_not_routed hj, ?_⟩
    rintro hr w rfl
    refine ⟨fun c => State.handleReq_of_check hj hr, fun h => ⟨fun ht hw b hb => ?bay, fun ht hw b hb => ?virtual, fun ht u v hv hs => ?stored,
      fun ht hw c x y hf => ?fault, State.lineToStore_of_plain, fun ht hk => ?head, fun ht hk a ha => ?joins⟩⟩
    case bay => rw [State.handleReq_of_read hj hr h ht, State.applyRead_bay hb hw]
    case virtual => rw [State.handleReq_of_read hj hr h ht, State.applyRead_virtual hb hw]
    case stored =>
      rw [State.handleReq_of_write hj hr h ht, State.applyWrite_of_stored hs, hv]
      exact ⟨fun hc => if_neg (Bool.not_eq_true _ ▸ hc), fun hc => if_pos hc⟩
    case fault => rw [State.handleReq_of_write hj hr h ht, State.applyWrite_of_fault hw hf]
    case head => rw [State.handleReq_of_inc hj hr h ht, State.applyInc_head hk]
    case joins => rw [State.handleReq_of_inc hj hr h ht, State.applyInc_joins rfl hk ha]
  case flush =>
    intro s k g
    rw [exec_pegAccumulatorFlush]
    refine ⟨fun h => ?none, fun a v w h hv hw => ?some⟩
    case none => rw [State.flushPeg_of_none h]
    case some =>
      rw [State.flushPeg_of_some h, hw, hv]
      rfl
  case expiry =>
    intro s e
    rw [exec_dedupRecordExpiry]
    refine ⟨fun h => ?none, fun r hr => ⟨fun h => ?ended, fun h => ?stands⟩⟩
    case none => rw [State.dedupExpire_of_none h]
    case ended => rw [State.dedupExpire_of_record hr, if_pos h]
    case stands => rw [State.dedupExpire_of_record hr, if_neg (Nat.not_le.2 h)]

end Sys2Proof.Machine
end

section
/-!
# Answers from the fabric, and fences

An answer settles the one request it matches; what its unit then does depends on the type of the answer and, for a REFUSE, on the request.
-/

namespace Sys2Proof.Machine

open Sys2Proof

section Answer
variable {s : State} {c typ : Nat} {p : Packet} {f : State → Packet → State}

theorem exec_readData : exec (.readData p c) s = .next (s.answerOf tReadData p (c == pktCrc p) State.readData) := rfl

theorem exec_ack : exec (.ack p c) s = .next (s.answerOf tAck p (c == pktCrc p) State.acked) := rfl

theorem exec_refuse : exec (.refuse p c) s = .next (s.answerOf tRefuse p (c == pktCrc p) State.refused) := rfl

/-! ### Type and end-to-end check (R371, R374) -/

theorem State.answerOf_of_other {crc : Bool} (h : p.typ ≠ typ) (hk : pktKnown p = true) : s.answerOf typ p crc f = s := by
  rw [State.answerOf, if_pos (bne_iff_ne.2 h), if_pos hk]

theorem State.answerOf_of_reserved {crc : Bool} (h : p.typ ≠ typ) (hk : pktKnown p = false) : s.answerOf typ p crc f = s.crcDrop p := by
  rw [State.answerOf, if_pos (bne_iff_ne.2 h), hk, if_neg Bool.false_ne_true]

theorem State.answerOf_of_badCrc (h : p.typ = typ) (hc : c ≠ pktCrc p) : s.answerOf typ p (c == pktCrc p) f = s.crcDrop p := by
  subst h
  simp only [State.answerOf, bne_self_eq_false, beq_eq_false_iff_ne.2 hc, Bool.not_false, Bool.false_eq_true, if_false, if_true]

theorem State.answerOf_of_good {u : State} (hu : u = { s with heard := mset s.heard p.src s.nowN }) (h : p.typ = typ) :
    s.answerOf typ p (pktCrc p == pktCrc p) f = f u p := by
  subst h hu
  simp only [State.answerOf, bne_self_eq_false, beq_self_eq_true, Bool.not_true, Bool.false_eq_true, if_false]

/-! ### The request that an answer matches (R373, R387) -/

theorem State.readData_of_unmatched (h : s.matched p = none) : s.readData p = s.count .window 0x118 1 := by
  rw [State.readData, h]

theorem State.acked_of_unmatched (h : s.matched p = none) : s.acked p = s.count .window 0x118 1 := by
  rw [State.acked, h]

theorem State.refused_of_unmatched (h : s.matched p = none) : s.refused p = s.count .window 0x118 1 := by
  rw [State.refused, h]

section Matched
variable {r : Req} (h : s.matched p = some r)
include h

theorem State.readData_of_matched : s.readData p = ((s.settle r none).lineFor r p.shared p.line).goOn r.unit := by
  rw [State.readData, h]

theorem State.acked_of_matched : s.acked p = (s.settle r none).goOn r.unit := by
  rw [State.acked, h]

/-- The record of a refusal, and the failure flag unless the refusal is a fetch's or of a job in its drain. -/
theorem State.refused_of_matched {v w : State} [Decidable (r.unit = .fetch ∨ ∃ j, v.job r.job = some j ∧ j.draining = true)]
    (hv : v = ((s.count .window 0x10C 1).irq .window 2).refusalRecord r.pkt (p.reason % 4096))
    (hw : w = (if r.unit = .fetch ∨ ∃ j, v.job r.job = some j ∧ j.draining = true then v else v.setFailed r.job r.pkt.dst (p.reason % 4096)).settle r
      (some (p.reason % 4096))) :
    s.refused p = if r.pkt.typ = tLineRead then w.readRefused r (p.reason % 4096) else w := by
  have hflag : (r.unit == .fetch || ((v.job r.job).map Job.draining).getD false) = true ↔
      (r.unit = .fetch ∨ ∃ j, v.job r.job = some j ∧ j.draining = true) := by
    cases v.job r.job <;> simp
  rw [State.refused, h]
  simp only [← hv, hflag, beq_iff_eq]
  rw [← hw]

end Matched

/-! ### A refused line read, by its unit (R309, R388) -/

theorem State.readRefused_fetch {r : Req} (h : r.unit = .fetch) : s.readRefused r c = s := by
  rw [State.readRefused, h]

theorem State.readRefused_weights {r : Req} {l : WLoad} (h : r.unit = .weights) (hl : s.loads.find? (fun (l : WLoad) => l.job == r.job) = some l) :
    s.readRefused r c = s.loadEnd l stFailedSource := by
  simp only [State.readRefused, h, hl]

theorem State.readRefused_command {r : Req} (hf : r.unit ≠ .fetch) (hw : r.unit ≠ .weights) :
    s.readRefused r c = s.containedQuiet (0x6000 + c) r.job := by
  rw [State.readRefused]
  split
  · exact absurd ‹_› hw
  · exact absurd ‹_› hf
  · rfl

/-! ### A settled request (R373, R386) -/

/-- The request taken out of those outstanding and out of every fence. -/
def State.withoutRequest (s : State) (r : Req) (e : Option Nat) : State :=
  { s with
    reqs := s.reqs.filter (fun x => !(x.pkt.dst == r.pkt.dst && x.pkt.seq == r.pkt.seq))
    fences := s.fences.map (fun (f : Fence) =>
      if f.waits.contains (r.pkt.dst, r.pkt.seq) then
        { f with waits := f.waits.filter (fun w => w != (r.pkt.dst, r.pkt.seq)), error := f.error.orElse (fun _ => e) } else f) }

variable {r : Req} {e : Option Nat}

theorem State.settle_eq_pump : s.settle r e = (s.withoutRequest r e).pump := rfl

theorem State.withoutRequest_reqs {x : Req} (hx : x ∈ (s.withoutRequest r e).reqs) : x.pkt.dst ≠ r.pkt.dst ∨ x.pkt.seq ≠ r.pkt.seq := by
  have hkeep := (List.mem_filter.1 hx).2
  simpa [Decidable.imp_iff_not_or] using hkeep

theorem State.withoutRequest_fences {f : Fence} (hf : f ∈ (s.withoutRequest r e).fences) : (r.pkt.dst, r.pkt.seq) ∉ f.waits := by
  obtain ⟨g, -, rfl⟩ := List.mem_map.1 hf
  by_cases hg : (r.pkt.dst, r.pkt.seq) ∈ g.waits
  · simp [hg]
  · simp [hg]

/-! ### Fences (R386, R388) -/

theorem exec_fenceComplete : exec .fenceComplete s = .next s.fenceComplete := rfl

theorem State.fenceComplete_of_none (h : ∀ f ∈ s.fences, f.waits ≠ []) : s.fenceComplete = s := by
  have hnone : s.fences.find? (fun (f : Fence) => f.waits.isEmpty) = none :=
    List.find?_eq_none.2 fun f hf hempty => h f hf (List.isEmpty_iff.1 hempty)
  rw [State.fenceComplete, hnone]

section Answered
variable {u : State} {f : Fence} (h : s.fences.find? (fun (f : Fence) => f.waits.isEmpty) = some f)
  (hu : u = { s with fences := s.fences.erase f })
include h hu

theorem State.fenceComplete_of_error {code : Nat} (he : u.fenceError f = some code) :
    s.fenceComplete = u.containedQuiet (0x6000 + code) f.job := by
  subst hu
  simp only [State.fenceComplete, h, he]

theorem State.fenceComplete_of_good (he : u.fenceError f = none) : s.fenceComplete = u.fenceGood f := by
  subst hu
  simp only [State.fenceComplete, h, he]

end Answered

end Answer

/-- Settles O53: each clause is one of the equations above, one named case for each clause. -/
theorem fabricAnswers : Obligations.FabricAnswers := by
  refine ⟨?types, ?unmatched, ?matched, ?settled, ?noFence, ?fence⟩
  case types =>
    intro s c p
    rw [exec_readData, exec_ack, exec_refuse]
    exact ⟨fun h hk => congrArg _ (State.answerOf_of_other h hk), fun h hc => congrArg _ (State.answerOf_of_badCrc h hc),
      fun h hk => congrArg _ (State.answerOf_of_other h hk), fun h hc => congrArg _ (State.answerOf_of_badCrc h hc),
      fun h hk => congrArg _ (State.answerOf_of_other h hk), fun h hc => congrArg _ (State.answerOf_of_badCrc h hc),
      fun hk hd ha hr => ⟨congrArg _ (State.answerOf_of_reserved hd hk), congrArg _ (State.answerOf_of_reserved ha hk),
        congrArg _ (State.answerOf_of_reserved hr hk)⟩⟩
  case unmatched =>
    intro s u p hu h
    rw [exec_readData, exec_ack, exec_refuse]
    refine ⟨fun ht => ?data, fun ht => ?ack, fun ht => ?refuse⟩
    case data => rw [State.answerOf_of_good hu ht, State.readData_of_unmatched h]
    case ack => rw [State.answerOf_of_good hu ht, State.acked_of_unmatched h]
    case refuse => rw [State.answerOf_of_good hu ht, State.refused_of_unmatched h]
  case matched =>
    intro s u p r hu h
    rw [exec_readData, exec_ack, exec_refuse]
    refine ⟨fun ht => ?data, fun ht => ?ack, fun v w hv ht hw => ?refuse⟩
    case data => rw [State.answerOf_of_good hu ht, State.readData_of_matched h]
    case ack => rw [State.answerOf_of_good hu ht, State.acked_of_matched h]
    case refuse =>
      rw [State.answerOf_of_good hu ht, State.refused_of_matched h hv hw]
      refine ⟨fun hr => ?notRead, fun hr hf => ?fetch, fun hr hl l hfind => ?load, fun hr hf hl => ?command⟩
      case notRead => rw [if_neg hr]
      case fetch => rw [if_pos hr, State.readRefused_fetch hf]
      case load => rw [if_pos hr, State.readRefused_weights hl hfind]
      case command => rw [if_pos hr, State.readRefused_command hf hl]
  case settled => exact fun s r e => ⟨s.withoutRequest r e, State.settle_eq_pump, fun _ => State.withoutRequest_reqs, fun _ => State.withoutRequest_fences⟩
  case noFence =>
    intro s h
    rw [exec_fenceComplete, State.fenceComplete_of_none h]
  case fence =>
    intro s u f h hu
    rw [exec_fenceComplete]
    exact ⟨fun c he => congrArg _ (State.fenceComplete_of_error h hu he), fun he => congrArg _ (State.fenceComplete_of_good h hu he)⟩

end Sys2Proof.Machine
end

section
/-!
# Links: flits, replay, lanes, training

Each command of a port tests whether the port is up and what it holds; the equations below are the outcomes of those tests.
-/

namespace Sys2Proof.Machine

open Sys2Proof

/-! ### Flits received (R408–R413) -/

/-- The flits left are those that the ACK does not name: a free of none is the port as it stands. -/
theorem Port.freed_unacked (p : Port) (now ack : Nat) :
    (p.freed now ack).unacked = p.unacked.filter (fun f => !decide ((ack + 4096 - f.1) % 4096 < 2048)) := by
  rw [Port.freed]
  split
  · next h => exact (List.filter_sublist.eq_of_length h).symm
  · rfl

section Flits
variable {s : State} {n : Nat} {f : Flit}

theorem exec_flitReceive {x : FlitIn} : exec (.flitReceive n x) s = .next (s.flit n (flitOf x)) := rfl

theorem State.sendNak_of_recent {t : Nat} (h : (s.port n).nakAt = some t) (ht : s.nowN < t + 99) : s.sendNak n = s := by
  have hpast : past4us s.nowN t = false := decide_eq_false (Nat.not_le.2 ht)
  simp only [State.sendNak, h, hpast, Bool.false_eq_true, if_false]

theorem State.sendNak_of_none (h : (s.port n).nakAt = none) :
    s.sendNak n = (s.setPort n { s.port n with nakAt := some s.nowN }).emit (.linkMsg n 0 (s.port n).expect) := by
  simp only [State.sendNak, h, if_true]

theorem State.flit_of_down (h : s.portUp n = false) : s.flit n f = s := by
  rw [State.flit, h]
  rfl

theorem State.flit_of_bad (hup : s.portUp n = true) (h : f.good = false ∨ f.kind = 3) :
    s.flit n f = (s.count (.link n) 0x12C 1).sendNak n := by
  have hbad : (!f.good || f.kind == 3) = true := by simpa using h
  rw [State.flit, hup, if_pos hbad]
  rfl

/-- A flit that passes its check without correction, on a port that is up, and carries no NAK. -/
structure Flit.Plain (f : Flit) : Prop where
  good : f.good = true
  corrected : f.corrected = false
  nak : f.nak = false

/-- The state once the flit's ACK has freed what it names and its credits have joined their class. -/
def State.flitAcked (s : State) (n : Nat) (f : Flit) : State :=
  (if f.ackValid then s.modPort n (fun p => p.freed s.nowN f.ack) else s).modPort n (fun p => p.credited f.cls f.credit)

section Plain
variable (hup : s.portUp n = true) (h : f.Plain)
include hup h

theorem State.flit_of_data (hk : f.kind = 0) : s.flit n f = ((s.flitAcked n f).dataFlit n f.seq).pumpPort n := by
  simp only [State.flit, State.flitAcked, hup, h.good, h.corrected, h.nak, hk, Bool.not_true, Bool.false_or, Nat.reduceBEq, Bool.false_and,
    Bool.false_eq_true, if_false, if_true]

theorem State.flit_of_idle (hk : f.kind = 1) : s.flit n f = (s.flitAcked n f).pumpPort n := by
  simp only [State.flit, State.flitAcked, hup, h.good, h.corrected, h.nak, hk, Bool.not_true, Bool.false_or, Nat.reduceBEq, Bool.false_and,
    Bool.false_eq_true, if_false]

theorem State.flit_of_width (hk : f.kind = 2) (hw : f.width = 1 ∨ f.width = 2 ∨ f.width = 4) (hne : f.width ≠ (s.flitAcked n f).portWidth n) :
    s.flit n f = (((s.flitAcked n f).emit (.linkMsg n 3 f.width)).setWidth n f.width).pumpPort n := by
  have hasks : ([1, 2, 4].contains f.width && f.width != (s.flitAcked n f).portWidth n) = true := by simp [hw, hne]
  rw [State.flitAcked] at hasks ⊢
  simp only [State.flit, hup, h.good, h.corrected, h.nak, hk, hasks, Bool.not_true, Bool.false_or, Nat.reduceBEq, Bool.true_and,
    Bool.false_eq_true, if_false, if_true]

end Plain

section Data
variable {q : Nat}

theorem State.dataFlit_of_awaited (h : q = (s.port n).expect) :
    s.dataFlit n q = s.setPort n { s.port n with expect := ((s.port n).expect + 1) % 4096, nakAt := none } := by
  have hzero : (q + 4096 - (s.port n).expect) % 4096 = 0 := by omega
  simp only [State.dataFlit, hzero, if_true]

theorem State.dataFlit_of_duplicate (h : 2048 ≤ (q + 4096 - (s.port n).expect) % 4096) : s.dataFlit n q = s := by
  have hpos : ¬(q + 4096 - (s.port n).expect) % 4096 = 0 := by omega
  simp only [State.dataFlit, hpos, Nat.not_lt.2 h, if_false]

theorem State.dataFlit_of_gap (hpos : 0 < (q + 4096 - (s.port n).expect) % 4096) (h : (q + 4096 - (s.port n).expect) % 4096 < 2048) :
    s.dataFlit n q = s.sendNak n := by
  simp only [State.dataFlit, Nat.ne_of_gt hpos, h, if_false, if_true]

end Data

/-! ### Replay and width (R412, R416) -/

theorem exec_ackTimeout : exec (.ackTimeout n) s = .next (s.ackTimeout n) := rfl

theorem exec_replayRetrain : exec (.replayRetrain n) s = .next (s.replayRetrain n) := rfl

theorem exec_widthAck : exec (.widthAck n) s = .next (s.widthAck n) := rfl

theorem State.replay_of_unacked {q : Nat} {ps : List Packet} {rest : List (Nat × List Packet)} (h : (s.port n).unacked = (q, ps) :: rest) :
    s.replay n =
      ((s.modPort n (fun p => { p with replays := p.replays + 1, ackAt := s.nowN })).count (.link n) 0x128 1).emit (.linkMsg n 1 q) := by
  rw [State.replay, h]

/-- Flits are unacknowledged on a port that is up, and 4 µs have passed without progress. -/
def State.AckLate (s : State) (n : Nat) : Prop :=
  s.portUp n = true ∧ (s.port n).unacked ≠ [] ∧ (s.port n).ackAt + 99 ≤ s.nowN

theorem State.ackTimeout_of_late (h : s.AckLate n) : s.ackTimeout n = s.replay n := by
  obtain ⟨hup, hne, hlate⟩ := h
  simp only [State.ackTimeout, past4us, hup, List.isEmpty_eq_false_iff.2 hne, hlate, Bool.not_false, Bool.and_self, decide_true, if_true]

theorem State.ackTimeout_of_not_late (h : ¬s.AckLate n) : s.ackTimeout n = s := by
  refine if_neg fun htest => h ?_
  simpa [State.AckLate, past4us, and_assoc] using htest

theorem State.replayRetrain_eq :
    s.replayRetrain n = if s.portUp n = true ∧ 8 ≤ (s.port n).replays then (s.linkRecord n 5 0).goDown n 2 else s := by
  simp only [State.replayRetrain, Bool.and_eq_true, decide_eq_true_eq]

theorem State.widthAck_of_idle (h : s.portUp n = false ∨ (s.port n).newWidth = none) : s.widthAck n = s := by
  rw [State.widthAck]
  split
  · next w hw =>
    rw [h.resolve_right (by simp [hw])]
    rfl
  · rfl

theorem State.widthAck_of_asked {w : Nat} (hup : s.portUp n = true) (h : (s.port n).newWidth = some w) : s.widthAck n = s.setWidth n w := by
  simp only [State.widthAck, h, hup, if_true]

end Flits

/-- Settles O56: each clause is one of the equations above, one named case for each clause. -/
theorem linkFlits : Obligations.LinkFlits := by
  refine ⟨?down, ?bad, ?good, ?freed, ?timeout, ?quiet, ?width⟩
  case down =>
    intro s n x h
    rw [exec_flitReceive, State.flit_of_down h]
  case bad =>
    rintro s _ n x _ hup rfl h rfl
    rw [exec_flitReceive, State.flit_of_bad hup h]
    exact ⟨fun t ht hnow => congrArg _ (State.sendNak_of_recent ht hnow), fun hnone => congrArg _ (State.sendNak_of_none hnone)⟩
  case good =>
    rintro s _ v n x _ hup rfl hgood hcorr hnak rfl hv
    have h : (flitOf x).Plain := ⟨hgood, hcorr, hnak⟩
    obtain rfl : v = s.flitAcked n (flitOf x) := hv
    rw [exec_flitReceive]
    refine ⟨fun hk => ?idle, fun hk hw hne => ?newWidth, fun hk hseq _ => ?awaited, fun hk hd => ?duplicate, fun hk hpos hd => ?gap⟩
    case idle => rw [State.flit_of_idle hup h hk]
    case newWidth => rw [State.flit_of_width hup h hk hw hne]
    case awaited => rw [State.flit_of_data hup h hk, State.dataFlit_of_awaited hseq]
    case duplicate => rw [State.flit_of_data hup h hk, State.dataFlit_of_duplicate hd]
    case gap => rw [State.flit_of_data hup h hk, State.dataFlit_of_gap hpos hd]
  case freed =>
    intro p now ack
    rw [Port.freed_unacked]
    refine ⟨fun f hf => List.mem_of_mem_filter hf, fun f _ hd hf => ?named, fun f hf hd => ?kept⟩
    case named => simp [hd] at hf
    case kept => simp [hf, hd]
  case timeout =>
    intro s n q ps rest hup hun
    rw [exec_ackTimeout]
    refine ⟨fun hlate => ?late, fun hearly => ?early⟩
    case late => rw [State.ackTimeout_of_late ⟨hup, by simp [hun], hlate⟩, State.replay_of_unacked hun]
    case early => rw [State.ackTimeout_of_not_late fun ⟨_, _, hlate⟩ => Nat.not_lt.2 hlate hearly]
  case quiet =>
    intro s n
    rw [exec_ackTimeout, exec_replayRetrain, State.replayRetrain_eq]
    refine ⟨fun h => ?nothingHeld, fun h => ?fewReplays, fun hup h => ?retrains⟩
    case nothingHeld =>
      rw [State.ackTimeout_of_not_late]
      rintro ⟨hup, hne, -⟩
      exact h.elim (fun hdown => Bool.false_ne_true (hdown.symm.trans hup)) hne
    case fewReplays =>
      rw [if_neg]
      rintro ⟨hup, hmany⟩
      exact h.elim (fun hdown => Bool.false_ne_true (hdown.symm.trans hup)) (Nat.not_lt.2 hmany)
    case retrains => rw [if_pos ⟨hup, h⟩]
  case width =>
    intro s n
    rw [exec_widthAck]
    refine ⟨fun h => ?idle, fun w hup h => ?asked⟩
    case idle => rw [State.widthAck_of_idle h]
    case asked =>
      rw [State.widthAck_of_asked hup h]
      rfl

/-! ### Lanes (R415, R417) -/

section Lanes
variable {s : State} {n : Nat}

theorem exec_laneFailure {l : Nat} : exec (.laneFailure n l) s = .next (s.laneFailure n l) := rfl

theorem exec_testLanes : exec (.testLanes n) s = .next (s.beginTest n) := rfl

theorem exec_laneTest {ok : List Nat} : exec (.laneTest n ok) s = .next (s.laneTest n ok) := rfl

theorem exec_adapt : exec (.adapt n) s = .next (s.adaptReq n) := rfl

theorem State.laneFailure_eq {l : Nat} : s.laneFailure n l =
    if s.portUp n = true ∧ l ∈ (s.port n).healthy then (s.putLanes n (fun p => { p with healthy := p.healthy.filter (fun x => x != l) })).fitWidth n
    else s := by
  simp only [State.laneFailure, Bool.and_eq_true, List.contains_iff_mem]

theorem State.beginTest_eq : s.beginTest n =
    if s.portUp n = true ∧ (s.port n).healthy.length < 4 ∧ (s.port n).testing = none then
      s.putLanes n (fun p => { p with testing := some s.nowN, testDue := s.nowN + 245760000 })
    else s := by
  simp only [State.beginTest, Port.lame, Bool.and_eq_true, decide_eq_true_eq, Option.isNone_iff_eq_none, and_assoc]

theorem State.laneTest_of_not_testing {ok : List Nat} (h : (s.port n).testing = none) : s.laneTest n ok =
    if wbit (s.preg (.link n) 0x104) 1 = true ∧ (s.port n).testDue ≤ s.nowN then s.beginTest n else s := by
  simp only [State.laneTest, h, Bool.and_eq_true, decide_eq_true_eq]

theorem State.laneTest_of_testing {ok : List Nat} {t : Nat} (h : (s.port n).testing = some t) : s.laneTest n ok =
    if t + 2457600 ≤ s.nowN then
      (s.putLanes n (fun p => { p with
        testing := none, healthy := (ok.filter (fun l => l < 4)).foldl (fun h l => sinsert h l) p.healthy })).fitWidth n
    else s := by
  rw [State.laneTest, h]

end Lanes

/-! ### Equalisation and training (R414, R418, R427) -/

section Training
variable {s : State} {n lo hi id t v l : Nat} {lanes bad : List Nat}

theorem exec_equalisationReadapt : exec (.equalisationReadapt n t v l bad) s = .next (s.readapt n t v l bad) := rfl

theorem exec_linkRetrain : exec (.linkRetrain n) s = .next (s.linkRetrain n) := rfl

theorem exec_portDown : exec (.portDown n) s = .next (s.portDown n) := rfl

theorem exec_portTraining : exec (.portTraining n lo hi id lanes t v l) s = .next (s.portTraining n lo hi id lanes t v l) := rfl

theorem State.readapt_of_nothing (h : s.portUp n = false ∨ (inWindow (s.preg (.link n) 0x10C) t v l = true ∧ (s.port n).adapt = false)) :
    s.readapt n t v l bad = s := by
  refine if_pos ?_
  rcases h with h | ⟨hin, hadapt⟩
  · rw [h]
    rfl
  · rw [hin, hadapt]
    exact Bool.or_true _

/-- The record in force is taken anew under these conditions, and the lanes that fail it are disabled. -/
def State.readapted (s : State) (n t v l : Nat) (bad : List Nat) : State :=
  (((s.stampCal n t v l).modPort n (fun p => { p with adapt := false })).putLanes n
    (fun p => { p with healthy := p.healthy.filter (fun x => !bad.contains x) })).fitWidth n

theorem State.readapt_of_outside (hup : s.portUp n = true) (h : inWindow (s.preg (.link n) 0x10C) t v l = false) :
    s.readapt n t v l bad = ((s.irq (.link n) 2).linkRecord n 7 0).readapted n t v l bad := by
  simp only [State.readapt, State.readapted, hup, h, Bool.not_true, Bool.not_false, Bool.false_and, Bool.or_self, Bool.false_eq_true, if_false,
    if_true]

theorem State.readapt_of_asked (hup : s.portUp n = true) (h : inWindow (s.preg (.link n) 0x10C) t v l = true) (ha : (s.port n).adapt = true) :
    s.readapt n t v l bad = s.readapted n t v l bad := by
  simp only [State.readapt, State.readapted, hup, h, ha, Bool.not_true, Bool.and_false, Bool.or_self, Bool.false_eq_true, if_false]

theorem State.linkRetrain_eq : s.linkRetrain n = if n < 18 ∧ s.portUp n = true then s.goDown n 2 else s := by
  simp only [State.linkRetrain, Bool.and_eq_true, decide_eq_true_eq]

theorem State.portDown_of_up (hn : n < 18) (h : s.portUp n = true) : s.portDown n = s.goDown n 1 := by
  simp only [State.portDown, Nat.not_le.2 hn, h, if_false, if_true]

theorem State.portDown_of_down (hn : n < 18) (h : s.portUp n = false) : s.portDown n = if s.linkState n = 2 then s.setLinkState n 1 else s := by
  simp only [State.portDown, Nat.not_le.2 hn, h, Bool.false_eq_true, beq_iff_eq, if_false]

theorem State.portDown_of_not_port (hn : 18 ≤ n) : s.portDown n = s := if_pos hn

/-- The port trains: it is enabled, neither up nor in state 0, and some lane locks. -/
structure State.Trains (s : State) (n : Nat) (lanes : List Nat) : Prop where
  port : n < 18
  enabled : s.portEn n = true
  notUp : s.linkState n ≠ 3
  signal : s.linkState n ≠ 0
  width : widthFor (lanes.filter (fun l => l < 4)) (s.maxWidth n) ≠ 0

theorem State.portTraining_of_idle
    (h : 18 ≤ n ∨ s.portEn n = false ∨ s.linkState n = 3 ∨ s.linkState n = 0 ∨ widthFor (lanes.filter (fun l => l < 4)) (s.maxWidth n) = 0) :
    s.portTraining n lo hi id lanes t v l = s := by
  refine if_pos ?_
  simpa [or_assoc] using h

theorem State.Trains.tests (h : s.Trains n lanes) :
    (decide (18 ≤ n) || !s.portEn n || s.linkState n == 3 || s.linkState n == 0 ||
      decide (widthFor (lanes.filter (fun l => l < 4)) (s.maxWidth n) = 0)) = false := by
  obtain ⟨hn, hen, hup, hsig, hw⟩ := h
  simp [hn, hen, hup, hsig, hw]

section Trains
variable (h : s.Trains n lanes)
include h

theorem State.portTraining_of_no_level (hlv : min (wfield (s.preg .route 0x108) 15 8) hi < max (wfield (s.preg .route 0x108) 7 0) lo) :
    s.portTraining n lo hi id lanes t v l = (s.setLinkState n 4).linkRecord n 6 0 := by
  simp only [State.portTraining, h.tests, hlv, Bool.false_eq_true, if_false, if_true]

/-- The port's own state once it is up: SEQ restarts, what it held is queued again, both classes have their first credits. -/
def Port.trained (p : Port) (now : Nat) (ok : List Nat) : Port :=
  { queue := p.heldPackets ++ p.queue, credits := (4096, 4096), healthy := sortBy (fun a b => decide (a < b)) ok.eraseDups,
    testDue := now + 245760000, ackAt := now }

theorem State.portTraining_of_level {a b c : State} {w lv : Nat} {ok : List Nat} (hok : ok = lanes.filter (fun l => l < 4))
    (hw : w = widthFor ok (s.maxWidth n)) (hlv : lv = min (wfield (s.preg .route 0x108) 15 8) hi) (hle : max (wfield (s.preg .route 0x108) 7 0) lo ≤ lv)
    (ha : a = ((s.setPort n ((s.port n).trained s.nowN ok)).count (.link n) 0x138 (s.port n).heldPackets.length).stampCal n t v l)
    (hb : b = ((((a.putPreg (.link n) 0x100 19 12 lv).putPreg (.link n) 0x100 6 4 w).setPreg (.link n) 0x114 (BitVec.ofNat 32 id)).setLinkState n 3).showLanes n)
    (hc : c = (b.linkRecord n 4 0).emit (.linkMsg n 4 b.identity)) :
    s.portTraining n lo hi id lanes t v l = (c.pumpPort n).retryHeld := by
  subst hc hb ha hw hok hlv
  simp only [State.portTraining, h.tests, Nat.not_lt.2 hle, Bool.false_eq_true, if_false]
  rfl

end Trains

end Training

/-- Settles O57: each clause is one of the equations above, one named case for each clause. -/
theorem linkPortsAndLanes : Obligations.LinkPortsAndLanes := by
  refine ⟨?lane, ?test, ?adapt, ?within, ?outside, ?asked, ?down, ?training⟩
  case lane =>
    intro s n l
    rw [exec_laneFailure, State.laneFailure_eq]
    refine ⟨fun hup hl => ?fails, fun h => ?nothing⟩
    case fails => rw [if_pos ⟨hup, hl⟩]
    case nothing =>
      rw [if_neg]
      rintro ⟨hup, hl⟩
      exact h.elim (fun hdown => Bool.false_ne_true (hdown.symm.trans hup)) (absurd hl)
  case test =>
    rintro s _ n rfl
    rw [exec_testLanes]
    refine ⟨fun hup hlame hnone => ⟨?begins, fun ok hen hdue => ?due⟩, fun h => ?none, fun ok hnone h => ?notDue, fun ok t ht => ⟨fun h => ?runs, fun h => ?ends⟩⟩
    case begins => rw [State.beginTest_eq, if_pos ⟨hup, hlame, hnone⟩]
    case due => rw [exec_laneTest, State.laneTest_of_not_testing hnone, if_pos ⟨hen, hdue⟩, State.beginTest_eq, if_pos ⟨hup, hlame, hnone⟩]
    case none =>
      rw [State.beginTest_eq, if_neg]
      rintro ⟨hup, hlame, hnone⟩
      exact h.elim (fun hdown => Bool.false_ne_true (hdown.symm.trans hup)) (Or.elim · (Nat.not_le.2 hlame) (absurd hnone))
    case notDue =>
      rw [exec_laneTest, State.laneTest_of_not_testing hnone, if_neg]
      rintro ⟨hen, hdue⟩
      exact h.elim (fun hoff => Bool.false_ne_true (hoff.symm.trans hen)) (Nat.not_lt.2 hdue)
    case runs => rw [exec_laneTest, State.laneTest_of_testing ht, if_neg (Nat.not_le.2 h)]
    case ends => rw [exec_laneTest, State.laneTest_of_testing ht, if_pos h]
  case adapt =>
    intro s n
    rw [exec_adapt, State.adaptReq]
    exact ⟨fun hup => by rw [if_pos hup], fun hdown => by rw [if_neg (Bool.not_eq_true _ ▸ hdown)]⟩
  case within =>
    intro s n t v l bad h
    rw [exec_equalisationReadapt, State.readapt_of_nothing h]
  case outside =>
    rintro s _ n t v l bad hup h rfl
    exact congrArg _ (State.readapt_of_outside hup h)
  case asked =>
    intro s n t v l bad hup h ha
    exact congrArg _ (State.readapt_of_asked hup h ha)
  case down =>
    intro s n
    rw [exec_linkRetrain, exec_portDown, State.linkRetrain_eq]
    refine ⟨fun hn hup => ⟨?retrains, ?falls⟩, fun hdown => ?noRetrain, fun hn hdown hst => ?stops, fun h => ?nothing⟩
    case retrains => rw [if_pos ⟨hn, hup⟩]
    case falls => rw [State.portDown_of_up hn hup]
    case noRetrain =>
      rw [if_neg]
      rintro ⟨-, hup⟩
      exact Bool.false_ne_true (hdown.symm.trans hup)
    case stops => rw [State.portDown_of_down hn hdown, if_pos hst]
    case nothing =>
      rcases Nat.lt_or_ge n 18 with hn | hn
      · obtain ⟨hdown, hst⟩ := h.resolve_left (Nat.not_le.2 hn)
        rw [State.portDown_of_down hn hdown, if_neg hst]
      · rw [State.portDown_of_not_port hn]
  case training =>
    intro s n lo hi id lanes t v l
    rw [exec_portTraining]
    refine ⟨fun h => ?idle, fun hn hen hup hsig hw hlv => ?noLevel, ?level⟩
    case idle => rw [State.portTraining_of_idle h]
    case noLevel => rw [State.portTraining_of_no_level ⟨hn, hen, hup, hsig, hw⟩ hlv]
    case level =>
      rintro w lv ok a b c hn hen hup hsig rfl rfl hw hlv hle ha hb hc
      rw [State.portTraining_of_level ⟨hn, hen, hup, hsig, hw⟩ rfl rfl hlv hle ha hb hc]

end Sys2Proof.Machine
end

section
/-!
# DMA descriptors

All six DMA rows are one operation over a set of operations: its host form fetches the descriptor at HEAD, its bay form takes the one given,
and both then work on the head descriptor. The work on a descriptor and its retirement have one equation for each outcome.
-/

namespace Sys2Proof.Machine

open Sys2Proof

section Rows
variable {s : State} {c : DmaChan} {d : List Byte} {k : Nat} {bad : Bool}

/-- DMA_NOP meets operation 0 and the reserved ones. -/
def dmaNopOp (op : Nat) : Bool := op == 0 || !dmaListed op

theorem exec_dmaNop : exec (.dmaNop c d) s = .next (s.dmaRow dmaNopOp c d 0 false) := rfl

theorem exec_dmaCopy : exec (.dmaCopy c d k bad) s = .next (s.dmaRow (· == 0x01) c d k bad) := rfl

theorem exec_interleave : exec (.interleave c d k bad) s = .next (s.dmaRow (· == 0x10) c d k bad) := rfl

theorem exec_deinterleave : exec (.deinterleave c d k bad) s = .next (s.dmaRow (· == 0x11) c d k bad) := rfl

theorem exec_bitplane : exec (.bitplane c d k bad) s = .next (s.dmaRow (· == 0x18) c d k bad) := rfl

theorem exec_bitplaneInv : exec (.bitplaneInv c d k bad) s = .next (s.dmaRow (· == 0x19) c d k bad) := rfl

theorem dmaNopOp_iff {op : Nat} : dmaNopOp op = true ↔ op = 0 ∨ dmaListed op = false := by
  rw [dmaNopOp, Bool.or_eq_true, beq_iff_eq, Bool.not_eq_true']

/-! ### A host channel (R435, R441) -/

section Host
variable {h : State} {n : Nat} {p : Nat → Bool} (hc : c = .host n) (hh : h = s.hostFetch n)
include hc hh

theorem State.dmaRow_host_mine (hq : (h.chan c).q ≠ []) (hp : p (dOp (h.chan c).head) = true) : s.dmaRow p c d k bad = h.dmaWork c k bad := by
  subst hc hh
  refine if_pos ?_
  rw [hp, List.isEmpty_eq_false_iff.2 hq]
  rfl

theorem State.dmaRow_host_other (hp : p (dOp (h.chan c).head) = false) : s.dmaRow p c d k bad = h := by
  subst hc hh
  refine if_neg ?_
  rw [hp]
  exact Bool.false_ne_true

end Host

/-! ### A bay channel (R441) -/

/-- The operation is in the descriptor's first byte, which the 64 bytes taken keep. -/
theorem dOp_slice (d : List Byte) : dOp (slice d 0 64) = dOp d := by
  cases d <;> rfl

theorem State.chan_putChan_bay (x : Chan) (st b n : Nat) : (s.putChan (.bay b n) x st).chan (.bay b n) = x := by
  simp [State.putChan, State.showBayChan, State.chan]

theorem State.chan_holdUnit (u : UnitId) (job : Nat) : (s.holdUnit u job d).chan c = s.chan c := rfl

section Bay
variable {b n job : Nat} {p : Nat → Bool} (hc : c = .bay b n)
include hc

theorem State.dmaRow_bay_idle (h : s.holder.bind s.holderJob = none ∨ 16 ≤ b ∨ 16 ≤ n ∨ s.absent b = true) : s.dmaRow p c d k bad = s := by
  subst hc
  rw [State.dmaRow]
  split
  · rfl
  · next job hjob =>
    refine if_pos ?_
    simpa [hjob, or_assoc] using h

variable (hb : b < 16) (hn : n < 16) (ha : s.absent b = false) (hj : s.holder.bind s.holderJob = some job) (hd : d ≠ []) (hp : p (dOp d) = true)
include hb hn ha hj hd hp

theorem State.dmaRow_bay_takes {t : State} (hq : (s.chan c).q = []) (hheld : s.heldHead (.bayDma b n) = none)
    (ht : t = s.putChan c { s.chan c with q := [slice d 0 64], job := job } 1) : s.dmaRow p c d k bad = t.dmaWork c k bad := by
  subst hc
  have hmine : p (dOp (t.chan (.bay b n)).head) = true := by
    rw [ht, State.chan_putChan_bay]
    exact (congrArg p (dOp_slice d)).trans hp
  have hfull : (t.chan (.bay b n)).q.isEmpty = false := by
    rw [ht, State.chan_putChan_bay]
    rfl
  have hplace : (decide (16 ≤ b) || decide (16 ≤ n) || s.absent b) = false := by simp [hb, hn, ha]
  have hgiven : (d.isEmpty || !p (dOp d)) = false := by simp [hd, hp]
  have hroom : (decide (16 ≤ (s.chan (.bay b n)).q.length) || (s.heldHead (.bayDma b n)).isSome) = false := by simp [hq, hheld]
  simp only [State.dmaRow, hj, hplace, hgiven, hroom, Bool.false_eq_true, if_false]
  simp only [hq, List.nil_append, List.isEmpty_nil, if_true, ← ht, hmine, hfull, Bool.not_false, Bool.and_self]

theorem State.dmaRow_bay_holds (hfull : 16 ≤ (s.chan c).q.length ∨ ((s.chan c).q ≠ [] ∧ (s.heldHead (.bayDma b n)).isSome = true))
    (hhead : p (dOp (s.chan c).head) = false) : s.dmaRow p c d k bad = s.holdUnit (.bayDma b n) job d := by
  subst hc
  have hplace : (decide (16 ≤ b) || decide (16 ≤ n) || s.absent b) = false := by simp [hb, hn, ha]
  have hgiven : (d.isEmpty || !p (dOp d)) = false := by simp [hd, hp]
  have hroom : (decide (16 ≤ (s.chan (.bay b n)).q.length) || (s.heldHead (.bayDma b n)).isSome) = true := by
    rcases hfull with h | ⟨-, h⟩ <;> simp [h]
  simp only [State.dmaRow, hj, hplace, hgiven, hroom, State.chan_holdUnit, hhead, Bool.and_false, Bool.false_eq_true, if_false, if_true]

end Bay

end Rows

/-! ### Work on the head descriptor (R441, R455) -/

/-- The channel may work on its head descriptor, which is not started yet. -/
structure State.Works (s : State) (c : DmaChan) (x : Chan) : Prop where
  held : x.q ≠ []
  undone : x.done = false
  notFencing : x.fencing = false
  notParked : s.chanState c ≠ 3
  running : s.chanState c < 5
  fresh : x.started = false

/-- The lowest code of the defects of the head descriptor. -/
def State.headCause (s : State) (c : DmaChan) (x : Chan) : Option Nat :=
  dmaCause (dmaIsHost c) (fun p => s.pegOwned p (s.chanJob c)) (s.partition (dmaBay c) (s.chanJob c)).2 x.head

theorem State.Works.tests {s : State} {c : DmaChan} {x : Chan} (h : s.Works c x) :
    (x.q.isEmpty || x.done || x.fencing || s.chanState c == 3 || decide (5 ≤ s.chanState c)) = false := by
  obtain ⟨hq, hd, hf, hp, hr, -⟩ := h
  simp [hq, hd, hf, hp, hr]

section Work
variable {s : State} {c : DmaChan} {x : Chan} {k : Nat} {bad : Bool} (hx : s.chan c = x)
include hx

theorem State.dmaWork_of_idle (h : x.q = [] ∨ x.done = true ∨ x.fencing = true ∨ s.chanState c = 3 ∨ 5 ≤ s.chanState c) : s.dmaWork c k bad = s := by
  subst hx
  refine if_pos ?_
  simpa [or_assoc] using h

section Fresh
variable (h : s.Works c x)
include h

theorem State.dmaWork_of_defect {code : Nat} (hcause : s.headCause c x = some code) :
    s.dmaWork c k bad = s.dmaError c (s.chanJob c) code (0x8000 + code) := by
  rw [State.headCause] at hcause
  simp only [State.dmaWork, hx, h.tests, h.fresh, hcause, Bool.false_eq_true, if_false]

variable (hcause : s.headCause c x = none)
include hcause

theorem State.dmaWork_of_waiting (hw : dFlag x.head 0 = true) (hr : reached (s.pegValue (cWaitPeg x.head)) (cWaitTarget x.head) = false) :
    s.dmaWork c k bad = s.putChan c x 2 := by
  rw [State.headCause] at hcause
  simp only [State.dmaWork, hx, h.tests, h.fresh, hcause, hw, hr, Bool.not_false, Bool.and_self, Bool.false_eq_true, if_false, if_true]

theorem State.dmaWork_of_start (hw : dFlag x.head 0 = false ∨ reached (s.pegValue (cWaitPeg x.head)) (cWaitTarget x.head) = true)
    (hp : dmaIsHost c = true ∨ s.preempting = none) :
    s.dmaWork c k bad =
      if dTotal x.head = 0 then (s.putChan c { x with started := true } 1).dmaFinish c (s.chanJob c)
      else (s.putChan c { x with started := true } 1).dmaBursts c (s.chanJob c) bad k := by
  have hmet : (dFlag x.head 0 && !reached (s.pegValue (cWaitPeg x.head)) (cWaitTarget x.head)) = false := by
    rcases hw with hw | hw <;> simp [hw]
  have hgo : (!dmaIsHost c && s.preempting.isSome) = false := by
    rcases hp with hp | hp <;> simp [hp]
  rw [State.headCause] at hcause
  simp only [State.dmaWork, hx, h.tests, h.fresh, hcause, hmet, hgo, Bool.false_eq_true, if_false]

end Fresh

end Work

/-! ### Retirement (R441, R448, R450) -/

section Retire
variable {s : State} {c : DmaChan}

theorem exec_dmaRetire : exec (.dmaRetire c) s = .next (s.dmaRetire c) := rfl

theorem State.dmaRetire_of_not_due (h : (s.chan c).done = false ∨ s.chanState c = 3 ∨ 6 ≤ s.chanState c) : s.dmaRetire c = s := by
  refine if_pos ?_
  simpa [or_assoc] using h

/-- The signal of the head descriptor: none, an increment sent, or one of this module's own pegs. -/
def State.dmaSignal (s : State) (c : DmaChan) : State :=
  let d := (s.chan c).head
  if !dFlag d 1 then s
  else if dFlag d 5 then s.sendReq (dmaUnit c) (s.chanJob c) (pktInc (dSigEp d) (dWin d) (cSignalPeg d) (cSignalInc d) (dEpoch d))
  else s.pegLocal (cSignalPeg d) (cSignalInc d)

/-- What a channel reports to at the end of a descriptor with REPORT: the channel's interrupt, or the bay's control core. -/
def State.dmaReport (s : State) (c : DmaChan) (tag : Nat) : State :=
  match c with
  | .host n => s.hIrq n 0
  | .bay b _ => { s with notes := s.notes ++ [(b, tag)] }

theorem State.dmaRetire_of_running (hd : (s.chan c).done = true) (h : s.chanState c < 3) :
    s.dmaRetire c = (if dFlag (s.chan c).head 2 then (s.dmaSignal c).dmaReport c (cTag (s.chan c).head) else s.dmaSignal c).chanNext c := by
  have htest : (!(s.chan c).done || s.chanState c == 3 || decide (6 ≤ s.chanState c)) = false := by
    simp [hd, Nat.ne_of_lt h, Nat.lt_trans h (by decide : 3 < 6)]
  have hnot5 : (s.chanState c == 5) = false := beq_eq_false_iff_ne.2 (by omega)
  cases hf : dFlag (s.chan c).head 2 <;> cases c <;>
    simp only [State.dmaRetire, State.dmaSignal, State.dmaReport, htest, hnot5, hf, Bool.not_true, Bool.not_false, Bool.false_eq_true, if_false, if_true]

end Retire

/-- Settles O46: each clause is one of the equations above, one named case for each clause. -/
theorem dmaDescriptorsRun : Obligations.DmaDescriptorsRun := by
  refine ⟨?host, ?bay, ?full, ?idle, ?work, ?retire⟩
  case host =>
    intro s h n k d bad c hc hh hq
    have mine {p : Nat → Bool} {k : Nat} {bad : Bool} (hp : p (dOp (h.chan c).head) = true) := State.dmaRow_host_mine (d := d) (k := k) (bad := bad) hc hh hq hp
    have other {p : Nat → Bool} (hp : p (dOp (h.chan c).head) = false) := State.dmaRow_host_other (d := d) (k := k) (bad := bad) hc hh hp
    rw [exec_dmaNop, exec_dmaCopy, exec_interleave, exec_deinterleave, exec_bitplane, exec_bitplaneInv]
    exact ⟨fun ho => congrArg _ (mine (dmaNopOp_iff.2 ho)),
      fun ho => congrArg _ (mine (beq_iff_eq.2 ho)), fun ho => congrArg _ (other (beq_eq_false_iff_ne.2 ho)),
      fun ho => congrArg _ (mine (beq_iff_eq.2 ho)), fun ho => congrArg _ (other (beq_eq_false_iff_ne.2 ho)),
      fun ho => congrArg _ (mine (beq_iff_eq.2 ho)), fun ho => congrArg _ (other (beq_eq_false_iff_ne.2 ho)),
      fun ho => congrArg _ (mine (beq_iff_eq.2 ho)), fun ho => congrArg _ (other (beq_eq_false_iff_ne.2 ho)),
      fun ho => congrArg _ (mine (beq_iff_eq.2 ho)), fun ho => congrArg _ (other (beq_eq_false_iff_ne.2 ho))⟩
  case bay =>
    intro s t b n k job d bad c hc hb hn ha hj hq hheld hd ht
    have takes {p : Nat → Bool} {k : Nat} {bad : Bool} (hp : p (dOp d) = true) :=
      State.dmaRow_bay_takes (k := k) (bad := bad) hc hb hn ha hj hd hp hq hheld ht
    rw [exec_dmaNop, exec_dmaCopy, exec_interleave, exec_deinterleave, exec_bitplane, exec_bitplaneInv]
    exact ⟨fun ho => congrArg _ (takes (dmaNopOp_iff.2 ho)), fun ho => congrArg _ (takes (beq_iff_eq.2 ho)),
      fun ho => congrArg _ (takes (beq_iff_eq.2 ho)), fun ho => congrArg _ (takes (beq_iff_eq.2 ho)),
      fun ho => congrArg _ (takes (beq_iff_eq.2 ho)), fun ho => congrArg _ (takes (beq_iff_eq.2 ho))⟩
  case full =>
    intro s b n job d c hc hb hn ha hj hfull hd ho hhead k bad
    exact congrArg _ (State.dmaRow_bay_holds (p := (· == 0x01)) hc hb hn ha hj hd (beq_iff_eq.2 ho) hfull (beq_eq_false_iff_ne.2 hhead))
  case idle =>
    intro s b n k d bad c hc h
    rw [exec_dmaNop, exec_dmaCopy, exec_interleave, exec_deinterleave, exec_bitplane, exec_bitplaneInv]
    exact ⟨congrArg _ (State.dmaRow_bay_idle hc h), congrArg _ (State.dmaRow_bay_idle hc h), congrArg _ (State.dmaRow_bay_idle hc h),
      congrArg _ (State.dmaRow_bay_idle hc h), congrArg _ (State.dmaRow_bay_idle hc h), congrArg _ (State.dmaRow_bay_idle hc h)⟩
  case work =>
    intro s c x k bad hx
    refine ⟨State.dmaWork_of_idle hx, fun hq hd hf hp hr hs => ?_⟩
    have h : s.Works c x := ⟨hq, hd, hf, hp, hr, hs⟩
    refine ⟨fun code => State.dmaWork_of_defect hx h, fun hcause => ⟨State.dmaWork_of_waiting hx h hcause, fun hw hp => ⟨fun hz => ?fence, fun hpos => ?bursts⟩⟩⟩
    case fence => rw [State.dmaWork_of_start hx h hcause hw hp, if_pos hz]
    case bursts => rw [State.dmaWork_of_start hx h hcause hw hp, if_neg (Nat.ne_of_gt hpos)]
  case retire =>
    intro s c
    rw [exec_dmaRetire]
    refine ⟨fun h => ?notDue, fun hd hst hr => ⟨fun hsig => ?plain, fun hsig hrem => ?signals, fun hsig hrem => ?sends⟩, fun n hc hd hst hr hsig => ?hostReports,
      fun b n hc hd hst hr hsig => ?bayReports⟩
    case notDue => rw [State.dmaRetire_of_not_due h]
    case plain =>
      rw [State.dmaRetire_of_running hd hst]
      simp only [State.dmaSignal, hr, hsig, Bool.not_false, Bool.false_eq_true, if_false, if_true]
    case signals =>
      rw [State.dmaRetire_of_running hd hst]
      simp only [State.dmaSignal, hr, hsig, hrem, Bool.not_true, Bool.false_eq_true, if_false]
    case sends =>
      rw [State.dmaRetire_of_running hd hst]
      simp only [State.dmaSignal, hr, hsig, hrem, Bool.not_true, Bool.false_eq_true, if_false, if_true]
    case hostReports =>
      subst hc
      rw [State.dmaRetire_of_running hd hst]
      simp only [State.dmaSignal, State.dmaReport, hr, hsig, Bool.not_false, if_true]
    case bayReports =>
      subst hc
      rw [State.dmaRetire_of_running hd hst]
      simp only [State.dmaSignal, State.dmaReport, hr, hsig, Bool.not_false, if_true]

end Sys2Proof.Machine
end

section
/-!
# The host interface's events

HOLD and READY follow the conditions of Table 15-12; interrupt words, doorbells, arms, the admin rings and the interface level follow. The CFG
write of a host DMA channel drops its reserved bits, which the statement about host channels does not.
-/

namespace Sys2Proof.Machine

open Sys2Proof

/-! ### HOLD and READY (R460, R479, Table 15-12) -/

section Hold
variable {s : State}

theorem exec_pcieHotReset {up : Bool} : exec (.pcieHotReset up) s =
    .next ({ s with pcie := { linkUp := up, trains := s.pcie.trains + 1 } } : State).showHold := rfl

theorem exec_hostPerstN : exec .hostPerstN s = .next ({ s with pcie := { linkUp := true, trains := s.pcie.trains + 1 } } : State).showHold := rfl

theorem exec_d3hotEntry : exec .d3hotEntry s = .next ({ s with pcie := { s.pcie with d3hot := true } } : State).showHold := rfl

theorem exec_d3hotExit : exec .d3hotExit s = .next ({ s with pcie := { s.pcie with d3hot := false } } : State).showHold := rfl

theorem exec_chipHold {v : Word} : exec (.chipHold v) s = .next (s.setPreg .chip 0x108 (v &&& 1)).showHold := rfl

theorem State.preg_setPreg_ne {p : Page} {r r' : Nat} (v : Word) (h : r' ≠ r) : (s.setPreg p r v).preg p r' = s.preg p r' :=
  State.reg_setReg_ne v (mt Nat.add_left_cancel h)

/-- CHIP_CTRL stands beside the CHIP_STAT stored, so that what may serve does not change with it. -/
theorem State.mayServe_setStat (w : Word) : (s.setPreg .chip 0x104 w).mayServe = s.mayServe := by
  rw [State.mayServe, State.preg_setPreg_ne w (by decide)]
  rfl

/-- CHIP_STAT with HOLD as the conditions have it. -/
def State.statHeld (s : State) : Word := wassign (s.preg .chip 0x104) 2 (wbit (s.preg .chip 0x108) 0 || s.pcie.d3hot)

theorem State.wbit_statHeld_ready : wbit s.statHeld 0 = wbit (s.preg .chip 0x104) 0 := wbit_wassign _ _ (by decide)

theorem State.showHold_of_same (h : s.wf = true) (hr : wbit (s.preg .chip 0x104) 0 = s.mayServe) :
    s.showHold = s.setPreg .chip 0x104 s.statHeld := by
  refine if_pos ?_
  rw [State.preg_setPreg_same h, State.mayServe_setStat, beq_iff_eq]
  exact State.wbit_statHeld_ready.trans hr

theorem State.showHold_of_change (h : s.wf = true) (hr : wbit (s.preg .chip 0x104) 0 ≠ s.mayServe) :
    s.showHold = (s.setPreg .chip 0x104 s.statHeld).setReady s.mayServe := by
  rw [← State.mayServe_setStat s.statHeld]
  refine if_neg ?_
  rw [State.preg_setPreg_same h, State.mayServe_setStat, beq_iff_eq]
  exact State.wbit_statHeld_ready.symm ▸ hr

theorem State.showsHold_showHold (h : s.wf = true) : ShowsHold s s.showHold := by
  by_cases hr : wbit (s.preg .chip 0x104) 0 = s.mayServe
  · rw [State.showHold_of_same h hr]
    have hword : (s.setPreg .chip 0x104 s.statHeld).preg .chip 0x104 = s.statHeld := State.preg_setPreg_same h _ _ _
    refine ⟨?hold, ?ready, fun i hi h0 h2 => ?others, fun o ho => ?regs, s.setPreg_rest _ _ _, ?out⟩
    case regs => exact State.regsBut_setReg s _ _ o ho
    case out => rw [if_pos hr, State.setPreg_out]
    case hold => rw [hword, State.statHeld, wbit_wassign _ _ (by decide), if_pos rfl]
    case ready => rw [hword, State.wbit_statHeld_ready, hr]
    case others => rw [hword, State.statHeld, wbit_wassign _ _ hi, if_neg h2]
  · rw [State.showHold_of_change h hr]
    have hword : ((s.setPreg .chip 0x104 s.statHeld).setReady s.mayServe).preg .chip 0x104 = wassign s.statHeld 0 s.mayServe := by
      refine (State.preg_setPreg_same (State.setPreg_wf h) _ _ _).trans ?_
      rw [State.preg_setPreg_same h]
    refine ⟨?hold, ?ready, fun i hi h0 h2 => ?others, fun o ho => ?regs, ?rest, ?out⟩
    case rest => rw [State.setReady, State.drive, State.emit_rest, State.setPreg_rest, State.setPreg_rest]
    case hold => rw [hword, wbit_wassign _ _ (by decide), if_neg (by decide), State.statHeld, wbit_wassign _ _ (by decide), if_pos rfl]
    case ready => rw [hword, wbit_wassign _ _ (by decide), if_pos rfl]
    case others => rw [hword, wbit_wassign _ _ hi, if_neg h0, State.statHeld, wbit_wassign _ _ hi, if_neg h2]
    case out => rw [if_neg hr]; rfl
    case regs => exact (State.regsBut_setReg _ _ _ o ho).trans (State.regsBut_setReg _ _ _ o ho)

end Hold

/-- Settles O8: each of the five commands ends with `State.showHold`, and what that shows is stated once. -/
theorem holdAndLowPowerStopService : Obligations.HoldAndLowPowerStopService := by
  refine ⟨fun s up h => ?hotReset, fun s h => ?perst, fun s h => ?entry, fun s h => ?exit, fun s v h => ?hold⟩
  case hotReset => exact ⟨_, exec_pcieHotReset, State.showsHold_showHold h⟩
  case perst => exact ⟨_, exec_hostPerstN, State.showsHold_showHold h⟩
  case entry => exact ⟨_, exec_d3hotEntry, State.showsHold_showHold h⟩
  case exit => exact ⟨_, exec_d3hotExit, State.showsHold_showHold h⟩
  case hold => exact ⟨_, exec_chipHold, State.showsHold_showHold (State.setPreg_wf h)⟩

/-! ### Interrupt words of a page (R464–R466) -/

section Irq
variable {s : State} {off : Nat} {v : Word} {p : Page}

theorem exec_blkIrqForce_of_page (h : Page.ofOffset off = some (p, 0x018)) : exec (.blkIrqForce off v) s = .next (s.forceIrq p v) := by
  simp only [exec, execBlkIrqForce, h]

theorem exec_blkIrqForce_of_other (h : ∀ p, Page.ofOffset off ≠ some (p, 0x018)) : exec (.blkIrqForce off v) s = .next s := by
  rw [exec, execBlkIrqForce]
  split
  · exact absurd ‹_› (h _)
  · rfl

theorem exec_blkIrqErrorRearm_of_page (h : Page.ofOffset off = some (p, 0x010)) : exec (.blkIrqErrorRearm off) s = .next (s.rearm p) := by
  simp only [exec, execBlkIrqErrorRearm, h]

theorem exec_blkIrqErrorRearm_of_other (h : ∀ p, Page.ofOffset off ≠ some (p, 0x010)) : exec (.blkIrqErrorRearm off) s = .next s := by
  rw [exec, execBlkIrqErrorRearm]
  split
  · exact absurd ‹_› (h _)
  · rfl

/-- No bit that stood before is raised again. -/
theorem State.raiseBits_same (old : Word) (k : Nat) : s.raiseBits p old old k = s := by
  induction k with
  | zero => rfl
  | succ k ih =>
    rw [State.raiseBits, ih, Bool.and_not_self]
    rfl

/-- An interrupt word stored under the page's own enables, with no enabled bit newly set, is stored and nothing more. -/
theorem State.setIrq_of_no_new {raw : Word} (hnew : raw &&& s.preg p 0x014 = s.preg p 0x010 &&& s.preg p 0x014) :
    s.setIrq p raw (s.preg p 0x014) = (s.setPreg p 0x010 raw).setPreg p 0x014 (s.preg p 0x014) := by
  rw [State.setIrq, hnew, State.raiseBits_same]

theorem State.reg_restored (h : s.wf = true) (raw : Word) {o : Nat} (ho : o ≠ p.base + 0x010) :
    ((s.setPreg p 0x010 raw).setPreg p 0x014 (s.preg p 0x014)).reg o = s.reg o := by
  by_cases hen : o = p.base + 0x014
  · subst hen
    exact State.preg_setPreg_same (State.setPreg_wf h) p 0x014 _
  · exact (State.reg_setReg_ne _ hen).trans (State.reg_setReg_ne _ ho)

theorem State.preg_rearm_stat (h : s.wf = true) : (s.rearm p).preg p 0x00C = wclear (s.preg p 0x00C) 2 := by
  rw [State.rearm, State.preg_setPreg_ne _ (by decide : (0x00C : Nat) ≠ 0x010), State.preg_setPreg_same h]

theorem State.preg_rearm_raw (h : s.wf = true) : (s.rearm p).preg p 0x010 = wclear (s.preg p 0x010) p.errorBit := by
  rw [State.rearm, State.preg_setPreg_same (State.setPreg_wf h)]

theorem State.regsBut_rearm : RegsBut s (s.rearm p) [p.base + 0x00C, p.base + 0x010] := fun o ho => by
  rw [List.mem_cons, List.mem_singleton, not_or] at ho
  obtain ⟨hstat, hraw⟩ := ho
  exact (State.reg_setReg_ne _ hraw).trans (State.reg_setReg_ne _ hstat)

end Irq

/-- Settles O16: a force is the page's interrupt word stored under its own enables, a re-arm is two words stored. -/
theorem interruptWordsOfAPage : Obligations.InterruptWordsOfAPage := by
  refine ⟨fun s off v p h hp => ?force, fun s off p h hp => ?rearm, fun s off v hp => exec_blkIrqForce_of_other hp,
    fun s off hp => exec_blkIrqErrorRearm_of_other hp⟩
  case force =>
    refine ⟨_, exec_blkIrqForce_of_page hp, State.setIrq_raises h p _, fun hnew => ?_⟩
    rw [State.forceIrq, State.setIrq_of_no_new hnew]
    exact ⟨rfl, fun o => State.reg_restored h _⟩
  case rearm =>
    exact ⟨_, exec_blkIrqErrorRearm_of_page hp, State.preg_rearm_stat h, State.preg_rearm_raw h, State.regsBut_rearm, rfl, rfl⟩

/-! ### Pending messages, doorbells and arms (R460, R467, R477, R478) -/

section Doorbell
variable {s : State} {v : Word} {c k : Nat}

theorem exec_msixPendingSend {n : Nat} : exec (.msixPendingSend n) s = .next (s.sendPending n) := rfl

theorem exec_dbSqTail (hc : c < 64) (hk : k < 4) : exec (.dbSqTail c k v) s = .next (s.sqTail c k v) :=
  congrArg _ (if_pos (by rw [decide_eq_true hc, decide_eq_true hk]; rfl))

theorem exec_hostAsqTail : exec (.hostAsqTail v) s = .next (s.asqTail v) := rfl

theorem exec_dbCqArm : exec (.dbCqArm c v) s = .next (s.cqArm c v) := rfl

theorem exec_hostAcqArm : exec (.hostAcqArm v) s = .next (s.acqArm v) := rfl

/-- The vector's message is pending and may leave. -/
def State.PendingMayLeave (s : State) (n : Nat) : Prop :=
  n < 2048 ∧ s.pcie.linkUp = true ∧ wbit (s.reg (0x10800 + n / 32 * 4)) (n % 32) = true ∧ wbit (s.reg (0x20000 + n * 16 + 12)) 0 = false

theorem State.sendPending_of_leaves {n : Nat} (h : s.PendingMayLeave n) :
    s.sendPending n = (s.setReg (0x10800 + n / 32 * 4) (wclear (s.reg (0x10800 + n / 32 * 4)) (n % 32))).emit (.msix n) := by
  obtain ⟨hn, hup, hpend, hmask⟩ := h
  refine if_pos ?_
  rw [decide_eq_true hn, hup, hpend, hmask]
  rfl

theorem State.sendPending_of_stays {n : Nat} (h : ¬s.PendingMayLeave n) : s.sendPending n = s := by
  refine if_neg fun htest => h ?_
  simpa [State.PendingMayLeave, and_assoc] using htest

theorem State.sqTail_of_index {x : Client} (hx : mget s.clients c = some x) (hk : bit x.classes k = true) (hv : wfield v 15 0 < 2 ^ x.sqLog) :
    s.sqTail c k v = { s with clients := mset s.clients c { x with tails := mset x.tails k (wfield v 15 0), error := false } } := by
  simp only [State.sqTail, hx, hk, hv, decide_true, Bool.and_self, if_true]

theorem State.asqTail_of_index (hv : wfield v 15 0 < s.asqSize) : s.asqTail v = s.setPreg .host 0x10C (BitVec.ofNat 32 (wfield v 15 0)) :=
  if_pos hv

theorem State.clientArm_of_empty {x : Client} (hx : mget s.clients c = some x) (hempty : x.prod = s.clientCons x) : s.clientArm c = s := by
  simp only [State.clientArm, hx, ← hempty, bne_self_eq_false, Bool.and_false, Bool.false_eq_true, if_false]

theorem State.cqArm_of_client (hc : (mget s.clients c).isSome = true) (hv : wbit v 0 = true) :
    s.cqArm c v = ({ s with clients := mmod s.clients c (fun x => { x with armed := true }) } : State).clientArm c :=
  if_pos (by rw [hc, hv]; rfl)

theorem State.adminArm_of_empty (h : s.admin.prod = s.adminCons) : s.adminArm = s := by
  refine if_neg ?_
  rw [h, bne_self_eq_false, Bool.and_false]
  exact Bool.false_ne_true

theorem State.adminArm_of_armed (ha : s.admin.armed = true) (h : s.admin.prod ≠ s.adminCons) :
    s.adminArm = ({ s with admin := { s.admin with armed := false } } : State).raise (wfield (s.preg .host 0x108) 26 16) :=
  if_pos (by rw [ha, bne_iff_ne.2 h]; rfl)

/-- The admin completion ring's vector armed. -/
def State.adminArmed (s : State) : State := { s with admin := { s.admin with armed := true } }

theorem State.acqArm_of_one (hv : wbit v 0 = true) : s.acqArm v = s.adminArmed.adminArm := if_pos hv

end Doorbell

/-- Settles O9: the two cases of the pending message. -/
theorem pendingInterruptLeaves : Obligations.PendingInterruptLeaves := by
  refine ⟨fun s n hn hup hpend hmask => ?leaves, fun s n h => ?stays⟩
  case leaves => rw [exec_msixPendingSend, State.sendPending_of_leaves ⟨hn, hup, hpend, hmask⟩]
  case stays =>
    rw [exec_msixPendingSend, State.sendPending_of_stays]
    rintro ⟨-, hup, hpend, hmask⟩
    rcases h with h | h | h
    · exact Bool.false_ne_true (h.symm.trans hup)
    · exact Bool.false_ne_true (h.symm.trans hpend)
    · exact Bool.false_ne_true (hmask.symm.trans h)

/-- Settles O10: each clause is one of the equations above. -/
theorem doorbellsAndArms : Obligations.DoorbellsAndArms := by
  refine ⟨fun s c k v x hc hk hx hcls hv => ?sq, fun s v hv => ?asq, fun s c v x hx ha hc hv hempty => ?cq, fun s v hv hempty => ?acqEmpty,
    fun s v hv hfull => ?acqFull⟩
  case sq => rw [exec_dbSqTail hc hk, State.sqTail_of_index hx hcls hv]
  case asq => rw [exec_hostAsqTail, State.asqTail_of_index hv]
  case cq =>
    rw [exec_dbCqArm, State.cqArm_of_client hc hv]
    exact congrArg _ (State.clientArm_of_empty hx hempty)
  case acqEmpty =>
    rw [exec_hostAcqArm, State.acqArm_of_one hv]
    exact congrArg _ (State.adminArm_of_empty hempty)
  case acqFull =>
    rw [exec_hostAcqArm, State.acqArm_of_one hv]
    exact congrArg _ (State.adminArm_of_armed rfl hfull)

/-! ### The admin rings, the interface level, backlogs (R463, R468, R469, R484, R485) -/

section Admin
variable {s : State} {v : Word}

theorem exec_hostAcfgEnable (hv : wbit v 31 = true) : exec (.hostAcfgEnable v) s = .next (s.acfgWrite v) := congrArg _ (if_pos hv)

theorem exec_ringSel : exec (.ringSel v) s = .next (s.ringSel v) := rfl

theorem exec_completionBacklogDrain_admin : exec (.completionBacklogDrain .admin) s = .next (s.drainAdmin 4096).adminArm := rfl

/-- ENABLE is a bit that HOST_ACFG writes. -/
theorem wbit_acfg_enable (hv : wbit v 31 = true) : wbit (v &&& 0x87FF1F1F) 31 = true := by
  have hbit : (v &&& 0x87FF1F1F).getLsbD 31 = v.getLsbD 31 := by
    rw [BitVec.getLsbD_and]
    exact Bool.and_true _
  exact hbit.trans hv

section Enable
variable (hv : wbit v 31 = true) (hold : wbit (s.preg .host 0x108) 31 = false)
include hv hold

theorem State.acfgWrite_of_legal {u : State} (hok : s.acfgOk (v &&& 0x87FF1F1F) = true)
    (hu : u = ((s.setPreg .host 0x108 (v &&& 0x87FF1F1F)).setPreg .host 0x110 0).setPreg .host 0x10C 0) :
    s.acfgWrite v = { u.rawWrite u.acqBase (leBytes 8 1 ++ leBytes 8 1 ++ leBytes 16 0) with admin := {} } := by
  subst hu
  simp only [State.acfgWrite, hold, wbit_acfg_enable hv, hok, Bool.false_and, Bool.not_true, Bool.false_eq_true, if_false]

theorem State.acfgWrite_of_illegal (hok : s.acfgOk (v &&& 0x87FF1F1F) = false) :
    s.acfgWrite v = (s.setPreg .host 0x108 (wclear (v &&& 0x87FF1F1F) 31)).refuseReg .host 0x10108 v := by
  simp only [State.acfgWrite, hold, wbit_acfg_enable hv, hok, Bool.false_and, Bool.not_true, Bool.not_false, Bool.false_eq_true, if_false, if_true]

end Enable

/-- No job exists, and the level lies between the module's lowest and highest. -/
def State.LevelMaySet (s : State) (v : Word) : Prop :=
  s.anyJob = false ∧ wfield (s.preg .chip 0x114) 7 0 ≤ wfield v 23 16 ∧ wfield v 23 16 ≤ wfield (s.preg .chip 0x114) 15 8

theorem State.ringSel_of_legal (h : s.LevelMaySet v) :
    s.ringSel v = s.setPreg .chip 0x114 (wput (s.preg .chip 0x114) 23 16 (wfield v 23 16)) := by
  obtain ⟨hjob, hlo, hhi⟩ := h
  refine if_neg ?_
  simp [hjob, hlo, hhi]

theorem State.ringSel_of_illegal (h : s.anyJob = true ∨ wfield v 23 16 < wfield (s.preg .chip 0x114) 7 0 ∨ wfield (s.preg .chip 0x114) 15 8 < wfield v 23 16) :
    s.ringSel v = s.refuseReg .chip 0x114 v := by
  refine if_pos ?_
  simpa [or_assoc] using h

theorem State.drainAdmin_of_empty (h : s.admin.backlog = []) (fuel : Nat) : s.drainAdmin fuel = s := by
  cases fuel with
  | zero => rfl
  | succ fuel =>
    simp only [State.drainAdmin, h, runLength, decide_true, Bool.true_or, if_true]

theorem runLength_singleton (r : List Byte) : runLength [r] = 1 := by
  rw [runLength, runLength]
  exact ite_self 1

theorem State.drainAdmin_of_one {r : List Byte} {u : State} (h : s.admin.backlog = [r]) (hroom : 1 ≤ ringRoom s.acqSize s.admin.prod s.adminCons)
    (hu : u = s.adminPut r) (fuel : Nat) : s.drainAdmin (fuel + 1) = { u with admin := { u.admin with backlog := [] } } := by
  subst hu
  have hfits : (decide (runLength [r] = 0) || decide (ringRoom s.acqSize s.admin.prod s.adminCons < runLength [r])) = false := by
    rw [runLength_singleton]
    simp [Nat.ne_of_gt hroom]
  simp only [State.drainAdmin, h, hfits, Bool.false_eq_true, if_false]
  rw [runLength_singleton]
  exact State.drainAdmin_of_empty rfl fuel

end Admin

/-- Settles O17: each clause is one of the equations above, one named case for each clause. -/
theorem adminRingsAndLevel : Obligations.AdminRingsAndLevel := by
  refine ⟨fun s v hv hold hok => ?enabled, fun s v hv hold hok => ?refused, fun s v hjob hlo hhi => ?level, fun s v h => ?badLevel, fun s h => ?empty,
    fun s r h hroom => ?one⟩
  case enabled => exact ⟨_, rfl, (exec_hostAcfgEnable hv).trans (congrArg _ (State.acfgWrite_of_legal hv hold hok rfl))⟩
  case refused => rw [exec_hostAcfgEnable hv, State.acfgWrite_of_illegal hv hold hok]
  case level => rw [exec_ringSel, State.ringSel_of_legal ⟨hjob, hlo, hhi⟩]
  case badLevel => rw [exec_ringSel, State.ringSel_of_illegal h]
  case empty => rw [exec_completionBacklogDrain_admin, State.drainAdmin_of_empty h]
  case one =>
    refine ⟨_, rfl, ?_⟩
    rw [exec_completionBacklogDrain_admin, State.drainAdmin_of_one h hroom rfl 4095]

/-! ### The CFG of a host DMA channel (R434, R436) -/

/-- On the disabled channel 0, a CFG of 2, all of it reserved bits, leaves a CFG of 0. -/
theorem hReg_hdmaCfg_reserved : ∃ t, exec (.hdmaCfg 0 2) State.reset = .next t ∧ t.hReg 0 0 = 0 := ⟨_, rfl, by decide +kernel⟩

theorem hReg_setHReg_reserved : ((State.reset.setHReg 0 0 2).putChan (.host 0) {} 9).hReg 0 0 = 2 := by decide +kernel

/-- Refutes O47: a CFG write drops its reserved bits, and the statement stores the word as it was written. On the disabled channel 0 of the
reset state a word of 2 leaves CFG at 0, not at 2. -/
theorem not_hostDmaChannels : ¬ Obligations.HostDmaChannels := by
  rintro ⟨-, -, hcfg, -⟩
  obtain ⟨-, hlegal⟩ := hcfg State.reset _ 0 2 (by decide) rfl
  obtain ⟨hdisable, -⟩ := hlegal (.inl (by decide +kernel))
  obtain ⟨t, ht, hzero⟩ := hReg_hdmaCfg_reserved
  have hstate := Host.Outcome.next.inj (ht.symm.trans (hdisable (by decide)))
  rw [hstate, hReg_setHReg_reserved] at hzero
  exact absurd hzero (by decide)

end Sys2Proof.Machine
end

section
/-!
# The host window and the page tables

A read through BAR2 shows a page table as its entries stand (R221), where the statement about the window reads the bytes of memory.
-/

namespace Sys2Proof.Machine

open Sys2Proof

/-- A running module whose BAR2 begins at the main tier, where the level-1 table of job 0 stands with its first entry valid. -/
def tableInWindow : State :=
  ({ State.reset with life := .up, pcie := { linkUp := true }, tables := [(level1Key 0, 0x200000), (level2Key 0 0, 0x200001)] } : State).setPreg .host 0x120 0x40

/-- The last byte of that entry is 0x80, and memory holds no byte there. -/
theorem bar2_reads_table : (tableInWindow.bar2 7 1 none).out = [.readBar2 7 [0x80] false] := by decide +kernel

theorem memory_beneath_table : tableInWindow.readPa 0x1000000007 1 = [0] := by decide +kernel

theorem exec_bar2Access_read {s : State} {x n : Nat} (h : x + n ≤ 2 ^ s.pcie.bar2Log) : exec (.bar2Access x n none) s = .next (s.bar2 x n none) :=
  if_pos h

/-- Refutes O19: the read of the last byte of a valid page-table entry returns 0x80, where the byte of memory beneath it is 0. -/
theorem not_hostWindowOntoMemory : ¬ Obligations.HostWindowOntoMemory := by
  rintro ⟨-, -, -, -, hread, -⟩
  have hwin : 7 + 1 ≤ 2 ^ tableInWindow.pcie.bar2Log := by decide
  have hstate := (exec_bar2Access_read hwin).symm.trans
    (hread tableInWindow 7 1 0x1000000007 hwin (by decide) (by decide +kernel) (by decide) (by decide) (fun _ h => absurd h List.not_mem_nil))
  have hout := congrArg State.out (Host.Outcome.next.inj hstate)
  rw [bar2_reads_table, memory_beneath_table] at hout
  exact absurd (List.cons.inj hout).1 (by decide)

end Sys2Proof.Machine
end

section
/-!
# Configuration transactions

The five commands of a transaction test its STATE and what is staged; a write of a transactional register has one of four outcomes.
-/

namespace Sys2Proof.Machine

open Sys2Proof

section Txn
variable {s : State}

/-! ### BEGIN, ROLLBACK and the timeout (R480, R482) -/

theorem exec_txnBegin : exec .txnBegin s = .next s.txnBegin := rfl

theorem exec_txnRollback : exec .txnRollback s =
    .next (if s.txnState = 1 || (s.txnState = 3 && s.nowN < s.txnInstant) then s.rollBack 2 else s) := rfl

theorem exec_txnTimeout : exec .txnTimeout s =
    .next (if s.txnState = 1 && s.txn.openAt + wfield (s.preg .txn 0x118) 15 0 * 24576 ≤ s.nowN then s.rollBack 5 else s) := rfl

theorem State.txnBegin_of_busy (h : s.txnState = 1 ∨ s.txnState = 3) : s.txnBegin = s.setTxnResult 10 :=
  if_pos (by simpa using h)

/-- TXN_STAT at BEGIN: the next number, STATE 1, STRAY and the settings flag clear. -/
def State.txnOpened (s : State) : Word :=
  wput (wput (wclear (wclear (s.preg .txn 0x104) 19) 17) 31 24 (wfield (wclear (wclear (s.preg .txn 0x104) 19) 17) 31 24 + 1)) 3 0 1

theorem State.txnBegin_of_free {u : State} (h1 : s.txnState ≠ 1) (h3 : s.txnState ≠ 3) (hu : u = (s.setPreg .txn 0x104 s.txnOpened).setPreg .txn 0x11C 0) :
    s.txnBegin = { u with txn := { openAt := s.nowN, persisting := s.txn.persisting } } := by
  have htest : ¬(decide (s.txnState = 1) || decide (s.txnState = 3)) = true := by simp [h1, h3]
  have hnow : u.now = s.now := by rw [hu, State.setPreg_now, State.setPreg_now]
  have htxn : u.txn = s.txn := by rw [hu, State.setPreg_txn, State.setPreg_txn]
  rw [State.txnOpened] at hu
  rw [State.nowN, ← hnow, ← htxn, State.txnBegin, if_neg htest, hu]
  rfl

/-! ### COMMIT (R481) -/

theorem exec_txnCommit : exec .txnCommit s = .next s.txnCommit := rfl

/-- The commit instant: the earliest that the prepare allows, or the one asked, which lies between it and 600 s from now. -/
def State.CommitsAt (s : State) (a : Nat) : Prop :=
  (s.preg64 .txn 0x108 0x10C = 0 ∧ a = s.nowN + 4096 + s.prepareBound) ∨
    (s.preg64 .txn 0x108 0x10C = a ∧ a ≠ 0 ∧ s.nowN + 4096 + s.prepareBound ≤ a ∧ a ≤ s.nowN + 14745600000)

theorem State.CommitsAt.not_early {a : Nat} (h : s.CommitsAt a) :
    ¬(s.preg64 .txn 0x108 0x10C != 0 && decide (s.preg64 .txn 0x108 0x10C < s.nowN + 4096 + s.prepareBound)) = true := by
  rcases h with ⟨h, -⟩ | ⟨h, -, hle, -⟩
  · simp [h]
  · simp [h, Nat.not_lt.2 hle]

theorem State.CommitsAt.not_far {a : Nat} (h : s.CommitsAt a) :
    ¬(s.preg64 .txn 0x108 0x10C != 0 && decide (s.nowN + 14745600000 < s.preg64 .txn 0x108 0x10C)) = true := by
  rcases h with ⟨h, -⟩ | ⟨h, -, -, hle⟩
  · simp [h]
  · simp [h, Nat.not_lt.2 hle]

theorem State.CommitsAt.instant {a : Nat} (h : s.CommitsAt a) :
    (if s.preg64 .txn 0x108 0x10C = 0 then s.nowN + 4096 + s.prepareBound else s.preg64 .txn 0x108 0x10C) = a := by
  rcases h with ⟨h, rfl⟩ | ⟨h, hne, -⟩
  · exact if_pos h
  · rw [h, if_neg hne]

theorem State.txnCommit_of_legal {u : State} {a : Nat} (hst : s.txnState = 1) (hfull : s.txn.full = false) (hbad : s.firstBad = none) (h : s.CommitsAt a)
    (hu : u = (s.setPreg64 .txn 0x110 0x114 a).setTxnState 3) :
    s.txnCommit = if u.settings.txnStaged = [] then u else (u.setSettings (fun k => { k with txnWait := true })).serveStore := by
  subst hu
  simp only [State.txnCommit, hst, hfull, hbad, h.not_early, h.not_far, h.instant, bne_self_eq_false, Bool.false_eq_true, List.isEmpty_iff, if_false]

/-! ### The instant (R481) -/

theorem exec_commitInstant : exec .commitInstant s = .next s.commitInstant := rfl

theorem State.commitInstant_of_not_scheduled (h : s.txnState ≠ 3) : s.commitInstant = s :=
  if_pos (by simp [h])

/-- The scheduled transaction takes effect: its rules still hold, its registers stand, its settings are prepared. -/
structure State.TakesEffect (s : State) : Prop where
  scheduled : s.txnState = 3
  reached : s.txnInstant ≤ s.nowN
  legal : s.firstBad = none
  stands : ∀ e ∈ s.txn.staged, s.reg e.1 = e.2.2
  prepared : s.settings.txnStaged.isEmpty = true ∨ (s.settings.inTxn = true ∧ wbit (s.preg .settings 0x100) 1 = true ∧ s.txn.persisting = false)

theorem State.commitInstant_of_effect {t u : State} {sets : Bool} (h : s.TakesEffect) (hsets : sets = !s.settings.txnStaged.isEmpty)
    (ht : t = (({ s with txn := { persisting := sets || s.txn.persisting } } : State).txApply s.txn.writes).setSettings (fun k => { k with txnStaged := [] }))
    (hu : u = ((((t.setPreg .txn 0x104 (wclear (t.preg .txn 0x104) 18)).setTxnResult 1).setTxnState (if sets then 4 else 0)).count .txn 0x124 1)) :
    s.commitInstant = (u.setPreg .txn 0x11C 0).irq .txn 1 := by
  obtain ⟨hst, hnow, hbad, hstands, hprep⟩ := h
  have hmoved : s.txn.staged.find? (fun e => s.reg e.1 != e.2.2) = none :=
    List.find?_eq_none.2 fun e he => by simp [hstands e he]
  have hready : ¬(sets && !(s.settings.inTxn && wbit (s.preg .settings 0x100) 1 && !s.txn.persisting)) = true := by
    rcases hprep with hempty | ⟨hin, hbit, hpers⟩
    · simp [hsets, hempty]
    · simp [hin, hbit, hpers]
  subst hu ht hsets
  simp only [State.commitInstant, hst, hbad, hmoved, hready, Nat.not_lt.2 hnow, bne_self_eq_false, decide_false, Bool.or_self, Option.map_none,
    Option.orElse_none, Bool.false_eq_true, if_false]

/-! ### The mark of the settings (R277) -/

theorem exec_txnPersisted : exec .txnPersisted s = .next s.txnPersisted := rfl

theorem State.txnPersisted_of_none (h : s.txn.persisting = false) : s.txnPersisted = s :=
  if_pos (by simp [h])

theorem State.txnPersisted_of_mark {t u : State} (h : s.txn.persisting = true)
    (ht : t = ({ s.markCopy.showSettings with txn := { s.txn with persisting := false } } : State)) (hu : u = t.setPreg .txn 0x104 (wset (t.preg .txn 0x104) 18)) :
    s.txnPersisted =
      ((if u.txnState = 4 then (u.setTxnState 0).setPreg .txn 0x104 (wclear ((u.setTxnState 0).preg .txn 0x104) 17) else u).irq .txn 2).serveStore := by
  subst hu ht
  refine if_neg ?_
  rw [h]
  exact Bool.false_ne_true

/-! ### Writes of transactional registers (R376, R398, R423, R433, R480, R518) -/

theorem exec_windowEntryWrite {j w k : Nat} {v : Word} (hj : j < 8) (hw : w < 4096) (hk : k < 8) :
    exec (.windowEntryWrite j w k v) s = .next (s.txWrite (winOff j w k) v) :=
  congrArg _ (if_pos (by simp [hj, hw, hk]))

theorem exec_pegCtrlWrite {p : Nat} {v : Word} (hp : p < 32768) : exec (.pegCtrlWrite p v) s = .next (s.txWrite (pegOff p 1) v) :=
  congrArg _ (if_pos hp)

theorem exec_pegValueWrite {p : Nat} {v : Word} (hp : p < 32768) : exec (.pegValueWrite p v) s = .next (s.setPeg p v.toNat) :=
  congrArg _ (if_pos hp)

theorem exec_routeEntryWrite {e h : Nat} {v : Word} (he : e < 1024) (hh : h < 2) :
    exec (.routeEntryWrite e h v) s = .next (s.txWrite (routeOff e + 4 * h) v) :=
  congrArg _ (if_pos (by simp [he, hh]))

theorem exec_routeEndpointWrite {v : Word} : exec (.routeEndpointWrite v) s = .next (s.txWrite (Page.route.base + 0x104) v) := rfl

theorem exec_capHost {v : Word} : exec (.capHost v) s = .next (s.txWrite (Page.pwr.base + 0x108) v) := rfl

section Write
variable {off : Nat} {v m : Word} {p : Page} (hm : txMask off = some (p, m))
include hm

theorem State.txWrite_of_plain (hp : wbit (s.preg p 0x008) 2 = false) :
    s.txWrite off v = if s.txOk (s.overlay [(off, v &&& m)]) off then s.txApply [(off, v &&& m)] else s.refuseReg p off v := by
  simp only [State.txWrite, hm, hp, Bool.false_eq_true, if_false]

theorem State.txWrite_of_member (hp : wbit (s.preg p 0x008) 2 = true) :
    s.txWrite off v = if s.txnState = 1 then s.stageTx off (v &&& m) else s.setPreg .txn 0x104 (wset (s.preg .txn 0x104) 19) := by
  simp only [State.txWrite, hm, hp, if_true]

end Write

/-! ### The end of a drain (R378) -/

theorem exec_windowDrainDone {j : Nat} (hj : j < 8) : exec (.windowDrainDone j) s = .next (s.drainDone j) := congrArg _ (if_pos hj)

theorem State.drainDone_of_answered {j : Nat} (hbusy : wbit (s.preg .window 0x100) j = true) (hnone : s.draining.any (fun d => d.1 == j) = false) :
    s.drainDone j = (s.setPreg .window 0x100 (wclear (s.preg .window 0x100) j)).irq .window 3 := by
  have htest : (wbit (s.preg .window 0x100) j && !s.draining.any (fun d => d.1 == j)) = true := by rw [hbusy, hnone]; rfl
  rw [State.drainDone, if_pos htest, State.showDrain, hnone]
  rfl

theorem State.drainDone_of_not_due {j : Nat} (h : wbit (s.preg .window 0x100) j = false ∨ s.draining.any (fun d => d.1 == j) = true) :
    s.drainDone j = s := by
  refine if_neg ?_
  rcases h with h | h <;> simp [h]

end Txn

/-- Settles O14: each clause is one of the equations above, one named case for each clause. -/
theorem transactions : Obligations.Transactions := by
  refine ⟨⟨fun s h1 h3 => ?opens, fun s h => ?busy, fun s u a hst hfull hbad ha hu => ?commit, fun s h => ?rollback, fun s hst ht => ?timeout,
      fun s hst => ?noTimeout, fun s t u sets hst hnow hbad hstands hsets hprep ht hu => ?effect, fun s hst => ?noEffect, fun s t u hp ht hu => ?mark,
      fun s hp => ?noMark⟩,
    ⟨fun s j w k v => exec_windowEntryWrite, fun s p v hp => ⟨exec_pegCtrlWrite hp, exec_pegValueWrite hp⟩, fun s e h v => exec_routeEntryWrite,
      fun s v => ⟨exec_routeEndpointWrite, exec_capHost⟩, fun s off v m p => State.txWrite_of_plain, fun s off v m p => State.txWrite_of_member⟩,
    ⟨fun s j hj hbusy hnone => ?drained, fun s j h => ?notDrained⟩⟩
  case opens => exact congrArg _ (State.txnBegin_of_free h1 h3 rfl)
  case busy => rw [exec_txnBegin, State.txnBegin_of_busy h]
  case commit =>
    rw [exec_txnCommit, State.txnCommit_of_legal hst hfull hbad ha hu]
    exact ⟨fun hnone => congrArg _ (if_pos hnone), fun hsome => congrArg _ (if_neg hsome)⟩
  case rollback =>
    rw [exec_txnRollback, if_pos]
    simpa using h
  case timeout =>
    rw [exec_txnTimeout, if_pos]
    simpa using And.intro hst ht
  case noTimeout =>
    rw [exec_txnTimeout, if_neg]
    simp [hst]
  case effect =>
    have hready : s.settings.txnStaged.isEmpty = true ∨ (s.settings.inTxn = true ∧ wbit (s.preg .settings 0x100) 1 = true ∧ s.txn.persisting = false) :=
      hprep.imp_left fun hno => by simpa [hsets] using hno
    rw [exec_commitInstant, State.commitInstant_of_effect ⟨hst, hnow, hbad, hstands, hready⟩ hsets ht hu]
  case noEffect => rw [exec_commitInstant, State.commitInstant_of_not_scheduled hst]
  case mark =>
    rw [exec_txnPersisted, State.txnPersisted_of_mark hp ht hu]
    refine ⟨fun h4 => ?ends, fun h4 => ?stands⟩
    case ends => rw [if_pos h4]
    case stands => rw [if_neg h4]
  case noMark => rw [exec_txnPersisted, State.txnPersisted_of_none hp]
  case drained => rw [exec_windowDrainDone hj, State.drainDone_of_answered hbusy hnone]
  case notDrained =>
    rcases Nat.lt_or_ge j 8 with hj | hj
    · rw [exec_windowDrainDone hj, State.drainDone_of_not_due h]
    · exact congrArg _ (if_neg (Nat.not_lt.2 hj))

end Sys2Proof.Machine
end

section
/-!
# The life of a job

The entries that create, start and destroy a job, with the outcomes of their tests, and the destruction of the jobs that are due.
-/

namespace Sys2Proof.Machine

open Sys2Proof

section Entries
variable {s t : State} {r : Ring} {e : Entry}

theorem exec_jobCreate (h : s.takeEntry r 0x01 = some (t, some e)) : exec (.jobCreate r) s = .next (t.jobCreate e) :=
  congrArg _ (State.onEntry_of_takeEntry State.jobCreate h)

theorem exec_jobStart (h : s.takeEntry r 0x02 = some (t, some e)) : exec (.jobStart r) s = .next (t.jobStart e) :=
  congrArg _ (State.onEntry_of_takeEntry State.jobStart h)

theorem exec_jobDestroy (h : s.takeEntry r 0x03 = some (t, some e)) : exec (.jobDestroy r) s = .next (t.jobDestroy e) :=
  congrArg _ (State.onEntry_of_takeEntry State.jobDestroy h)

/-! ### JOB_CREATE (R474, Table 15-10; the bay partitions are log 102) -/

theorem State.jobCreate_of_existing (h : (s.job e.jobNum).isSome = true) : s.jobCreate e = s.complete e stBusy := if_pos h

/-- The entry names a free job and a creation block in the host region. -/
structure State.NamesBlock (s : State) (e : Entry) : Prop where
  free : s.job e.jobNum = none
  aligned : e.f 16 8 % 4096 = 0
  inHost : inHostRegion (e.f 16 8) 4096 = true
  zeros : reservedBad e.bytes [(24, 40)] = none

theorem State.jobCreate_of_outside (hfree : s.job e.jobNum = none) (h : inHostRegion (e.f 16 8) 4096 = false) :
    s.jobCreate e = s.complete e stInvalid 16 := by
  simp only [State.jobCreate, hfree, h, Option.isSome_none, Bool.not_false, Bool.or_true, Bool.false_eq_true, if_false, if_true]

/-- The block names a READY model slot with a legal manifest, the model of the module's jobs, and its own fields are legal. -/
structure State.BlockLegal (s : State) (blk m : List Byte) : Prop where
  slot : getLE blk 89 1 ≤ 1
  ready : (s.gslot (getLE blk 89 1)).st = 2
  manifest : manifestBad m = none
  model : s.jobs.any (fun x => manTag x.2.manifest != manTag m) = false
  part : getLE blk 90 1 = 255 ∨ (getLE blk 90 1 < secCount m 1 ∧ (manPart m (getLE blk 90 1)).kind = 1)
  levelLow : 2 ≤ getLE blk 91 1
  levelHigh : getLE blk 91 1 ≤ 3
  slice : getLE blk 92 1 < 64
  sliceFree : s.jobs.any (fun x => x.2.slice == getLE blk 92 1) = false

theorem State.BlockLegal.fields {blk m : List Byte} (hb : s.BlockLegal blk m) : firstFail
    [ (90, getLE blk 90 1 == 255 || (decide (getLE blk 90 1 < secCount m 1) && (manPart m (getLE blk 90 1)).kind == 1)),
      (91, decide (2 ≤ getLE blk 91 1 ∧ getLE blk 91 1 ≤ 3)),
      (92, decide (getLE blk 92 1 < 64) && !s.jobs.any (fun x => x.2.slice == getLE blk 92 1)) ] = none := by
  obtain ⟨-, -, -, -, hpart, hlow, hhigh, hslice, hfree⟩ := hb
  have hpart' : (getLE blk 90 1 == 255 || (decide (getLE blk 90 1 < secCount m 1) && (manPart m (getLE blk 90 1)).kind == 1)) = true := by simpa using hpart
  simp only [hpart', hlow, hhigh, hslice, hfree, and_self, decide_true, Bool.not_false, firstFail, if_true]
  rfl

section Block
variable (h : s.NamesBlock e)
include h

theorem State.NamesBlock.address : (e.f 16 8 % 4096 != 0 || !inHostRegion (e.f 16 8) 4096) = false := by
  rw [h.aligned, h.inHost]
  rfl

theorem State.jobCreate_of_no_model (hslot : getLE (s.readPa (e.f 16 8) 4096) 89 1 ≤ 1) (hst : (s.gslot (getLE (s.readPa (e.f 16 8) 4096) 89 1)).st ≠ 2) :
    s.jobCreate e = s.complete e stSlot := by
  simp only [State.jobCreate, h.free, h.address, h.zeros, Nat.not_lt.2 hslot, bne_iff_ne.2 hst, Option.isSome_none, Bool.false_eq_true, if_false, if_true]

variable {u v : State} {j : Job} {blk m : List Byte}

theorem State.jobCreate_of_legal (hblk : blk = s.readPa (e.f 16 8) 4096) (hm : m = s.slotManifest (getLE blk 89 1)) (hb : s.BlockLegal blk m)
    (hj : j = { block := blk, manifest := m, myMember := getLE blk 112 2, priv := (if getLE blk 90 1 = 255 then none else some (getLE blk 90 1)),
                level := { active := getLE blk 91 1 } })
    (hmembers : s.membersBad e.jobNum j = none)
    (hroom : ((s.grantLines.setJob e.jobNum j).needTable (level1Key e.jobNum)).mapRanges e.jobNum j (manRanges m) = some u)
    (htrips : u.bankTrips e.jobNum j = none)
    (hv : v = ({ u with rrc := u.rrc.filter (fun x => rrcJobOf x.1 != e.jobNum) } : State).staleReads (fun _ k => k == e.jobNum)) :
    s.jobCreate e = (((((if v.power.hold = none then v.setPreg .media 0x100 (wclear (v.preg .media 0x100) 30) else v).assignPartitions e.jobNum).showJob
      e.jobNum).showFree).complete e stDone) := by
  have hfields := hb.fields
  rw [if_congr Option.isNone_iff_eq_none.symm rfl rfl]
  subst hv hj
  simp only [State.jobCreate, h.free, h.address, h.zeros, ← hblk, ← hm, Nat.not_lt.2 hb.slot, hb.ready, hb.manifest, hb.model, hfields, hmembers, hroom, htrips,
    Option.isSome_none, bne_self_eq_false, Bool.false_eq_true, if_false]

end Block

/-! ### JOB_START (R145, R352, R474; REFUSED_LATE is log 131, the initial bank log 260) -/

section Start
variable {j : Job} (hj : s.job e.jobNum = some j)
include hj

theorem State.jobStart_of_not_loading (h : j.phase ≠ .loading) : s.jobStart e = s.complete e stJob := by
  simp only [State.jobStart, hj, bne_iff_ne.2 h, if_true]

variable (hp : j.phase = .loading) (hz : reservedBad e.bytes [(24, 40)] = none)
include hp hz

theorem State.jobStart_of_late (h : e.f 16 8 < s.nowN + 24576) : s.jobStart e = s.complete e stLate := by
  simp only [State.jobStart, hj, hp, hz, h, bne_self_eq_false, Bool.false_eq_true, if_false, if_true]

/-- No check of the start refuses it: the block, the clients' rings, the recipe banks and the placement bank. -/
structure State.StartLegal (s : State) (n : Nat) (j : Job) : Prop where
  block : firstFail (s.blockChecks n j) = none
  rings : s.clients.any (fun c => c.2.job == n && !ringHolds c.2.cqLog j.passMax) = false
  recipes : s.recipeAreasBad n j = none
  initial : initRecipesBad j.manifest = none
  placement : s.placementBad n j = none

theorem State.jobStart_of_legal {u v : State} (htime : s.nowN + 24576 ≤ e.f 16 8) (h : s.StartLegal e.jobNum j)
    (hu : u = s.setJob e.jobNum { j with
      phase := .serving, startCt := e.f 16 8, misProd := 1, formAt := if j.standby then none else some (max s.nowN (e.f 16 8 - j.formCt)) })
    (hv : v = { u with boot := { u.boot with jobStart := some (u.boot.jobStart.getD u.nowN) } }) :
    s.jobStart e = ((v.startWrites e.jobNum j).showJob e.jobNum).complete e stDone 0 (leBytes 8 (e.f 16 8)) := by
  obtain ⟨hblock, hrings, hrecipes, hinit, hplace⟩ := h
  subst hv hu
  simp only [State.jobStart, hj, hp, hz, Nat.not_lt.2 htime, hblock, hrings, hrecipes, hinit, hplace, bne_self_eq_false, Option.orElse_none,
    Bool.false_eq_true, if_false]

end Start

/-! ### JOB_DESTROY (R368; REFUSED_JOB is log 135) -/

theorem State.jobDestroy_of_no_job (h : s.job e.jobNum = none) : s.jobDestroy e = s.complete e stJob := by
  rw [State.jobDestroy, h]

section Destroy
variable {j : Job} (hj : s.job e.jobNum = some j)
include hj

theorem State.jobDestroy_of_destroying (h : j.phase = .destroying) : s.jobDestroy e = s.complete e stJob := by
  simp only [State.jobDestroy, hj, beq_iff_eq.2 h, if_true]

theorem State.jobDestroy_of_standing (h : j.phase ≠ .destroying) (hz : reservedBad e.bytes [(24, 40)] = none) :
    s.jobDestroy e = (s.setJob e.jobNum { j with
      phase := .destroying, destroy := some { ring := e.ring, cookie := e.cookie, effective := e.f 16 8 } }).showJob e.jobNum := by
  simp only [State.jobDestroy, hj, beq_eq_false_iff_ne.2 h, hz, Bool.false_eq_true, if_false]

end Destroy

end Entries

/-! ### The destruction (R368) -/

section Destruction
variable {s : State}

/-- One job of the round: destroyed when it is due. -/
def State.destroyIfDue (s : State) (n : Nat) : State :=
  match s.job n with
  | some j => if s.destroyDue j then s.destroyJob n else s
  | none => s

theorem exec_jobDestruction : exec .jobDestruction s = .next (s.jobNums.foldl State.destroyIfDue s) := rfl

theorem State.destroyIfDue_of_due {n : Nat} {j : Job} (hj : s.job n = some j) (hd : s.destroyDue j = true) : s.destroyIfDue n = s.destroyJob n := by
  simp only [State.destroyIfDue, hj, hd, if_true]

theorem State.destroyIfDue_of_not_due {n : Nat} (h : ∀ j, s.job n = some j → s.destroyDue j = false) : s.destroyIfDue n = s := by
  rw [State.destroyIfDue]
  split
  · next j hj => rw [h j hj, if_neg Bool.false_ne_true]
  · rfl

theorem State.foldl_destroyIfDue_of_none_due {ns : List Nat} (h : ∀ n j, n ∈ ns → s.job n = some j → s.destroyDue j = false) :
    ns.foldl State.destroyIfDue s = s := by
  induction ns with
  | nil => rfl
  | cons n ns ih =>
    rw [List.foldl_cons, State.destroyIfDue_of_not_due fun j => h n j (List.mem_cons_self ..)]
    exact ih fun m j hm => h m j (List.mem_cons_of_mem _ hm)

end Destruction

/-- Settles O22: each clause is one of the equations above, one named case for each clause. -/
theorem jobLife : Obligations.JobLife := by
  refine ⟨⟨?create, ?refused, ?start⟩, ⟨?destroy, fun s t r e h hj => ?noJob, fun s n j hn hj hd => ?destroyed, fun s h => ?noneDue⟩⟩
  case create =>
    intro s t u v r e j blk m h hfree hal hin hz hblk hslot hready hm hman hmodel hpart hlow hhigh hsl hslfree hj hmem hroom htrips hv
    rw [exec_jobCreate h]
    exact congrArg _ (State.jobCreate_of_legal ⟨hfree, hal, hin, hz⟩ hblk hm ⟨hslot, hready, hman, hmodel, hpart, hlow, hhigh, hsl, hslfree⟩ hj hmem hroom
      htrips hv)
  case refused =>
    intro s t r e h
    rw [exec_jobCreate h]
    refine ⟨fun hj => ?busy, fun hfree hout => ?outside, fun hfree hal hin hz hslot hst => ?noModel⟩
    case busy => rw [State.jobCreate_of_existing hj]
    case outside => rw [State.jobCreate_of_outside hfree hout]
    case noModel => rw [State.jobCreate_of_no_model ⟨hfree, hal, hin, hz⟩ hslot hst]
  case start =>
    intro s t u v r e j h hj
    rw [exec_jobStart h]
    refine ⟨fun hp => ?notLoading, fun hp hz hl => ?late, fun hp hz htime hblock hrings hrec hinit hplace hu hv => ?starts⟩
    case notLoading => rw [State.jobStart_of_not_loading hj hp]
    case late => rw [State.jobStart_of_late hj hp hz hl]
    case starts => rw [State.jobStart_of_legal hj hp hz htime ⟨hblock, hrings, hrec, hinit, hplace⟩ hu hv]
  case destroy =>
    intro s t r e j h hj
    rw [exec_jobDestroy h]
    refine ⟨fun hp hz => ?accepted, fun hp => ?again⟩
    case accepted => rw [State.jobDestroy_of_standing hj hp hz]
    case again => rw [State.jobDestroy_of_destroying hj hp]
  case noJob => rw [exec_jobDestroy h, State.jobDestroy_of_no_job hj]
  case destroyed =>
    rw [exec_jobDestruction, hn, List.foldl_cons, State.destroyIfDue_of_due hj hd]
    rfl
  case noneDue => rw [exec_jobDestruction, State.foldl_destroyIfDue_of_none_due h]

end Sys2Proof.Machine
end

section
/-!
# Firmware and the control processors

One equation for each outcome of staging, activation, trial, recovery and the reset of a control processor.
-/

namespace Sys2Proof.Machine

open Sys2Proof

variable {s : State} {k : BootCheck} {v : List Byte} {n : Nat}

/-! ### Staging (R498 to R500) -/

section Stage
variable (hreq : s.fwRequest 0x1100 = some v) (hmay : s.fwMay = true) (hslot : (s.stageRecord v).2.2 = some n)
include hreq hmay hslot

theorem State.fwStage_of_legal (h : s.stageRefusal v n true = none) :
    s.fwStage = ((s.setFw n (fun _ => FwSlot.ofImage (s.readPa (getLE v 0 8) (getLE v 8 4)))).fwState n 1 0).fwSpend [(0x1100, none)] := by
  simp only [State.fwStage, hreq, hmay, hslot, h, Bool.not_true, Bool.false_eq_true, if_false]

theorem State.fwStage_of_refused {r : Nat} (h : s.stageRefusal v n true = some r) :
    s.fwStage = ((s.fwResult n r).fwRecord 0x303 n 0).fwSpend [(0x1100, none)] := by
  simp only [State.fwStage, hreq, hmay, hslot, h, Bool.not_true, Bool.false_eq_true, if_false]

end Stage

section StageEnd
variable (hslot : s.stagingSlot = some n) (hmay : s.fwMay = true)
include hslot hmay

theorem State.stageComplete_of_verified (hsvn : s.boot.floor ≤ (s.boot.slot n).svn) : s.stageComplete true true = (s.fwState n 2 1).fwSpend [] := by
  simp only [State.stageComplete, hslot, hmay, Nat.not_lt.2 hsvn, Bool.not_true, Bool.false_eq_true, if_false, if_true]

theorem State.stageComplete_of_altered : s.stageComplete true false = ((s.fwState n 5 2).fwRecord 0x303 n 0).fwSpend [] := by
  simp only [State.stageComplete, hslot, hmay, Bool.not_true, Bool.not_false, Bool.false_eq_true, if_false, if_true]
  rfl

theorem State.stageComplete_of_flash_failure (intact : Bool) : s.stageComplete false intact = ((s.fwState n 5 6).fwRecord 0x303 n 0).fwSpend [] := by
  simp only [State.stageComplete, hslot, hmay, Bool.not_true, Bool.not_false, Bool.false_eq_true, if_false, if_true]
  rfl

end StageEnd

/-! ### Activation (R501, R502) -/

theorem State.fwActivate_of_staged (hreq : s.fwRequest 0x1101 = some v) (hlen : v.length = 4) (hzero : getLE v 1 3 = 0) (hslot : getLE v 0 1 < 2)
    (hst : (s.boot.slot (getLE v 0 1)).st = 2) : s.fwActivate = s.setBoot (fun b => { b with activate := some (getLE v 0 1) }) := by
  simp only [State.fwActivate, hreq, hlen, hzero, hslot, hst, decide_true, Bool.and_self, if_true]

theorem State.activation_of_valid (hn : s.boot.activate = some n) (hmay : s.fwMay = true) (hjobs : s.jobNums = []) (hst : (s.boot.slot n).st = 2)
    (himage : (if n = 0 then k.imageA else k.imageB) = true) :
    s.activation k = (((s.runImage n k).fwState n 3 1).fwSpend [(0x1101, none)]).setReady ((s.runImage n k).fwState n 3 1).mayServe := by
  simp only [State.activation, hn, hmay, hjobs, hst, himage, List.isEmpty_nil, Bool.not_true, Bool.or_self, bne_self_eq_false, Bool.false_eq_true, if_false]

/-! ### The trial and its end (R503, R504) -/

theorem State.fwConfirm_of_running (hreq : s.fwRequest 0x1102 = some v) (hmay : s.fwMay = true) (hlen : v.length = 4)
    (hrun : getLE v 0 4 = s.boot.running) (htrial : s.onTrial = true) : s.fwConfirm = s.confirm [(0x1102, none)] := by
  simp only [State.fwConfirm, hreq, hmay, hlen, hrun, htrial, decide_true, Bool.and_self, Bool.not_true, Bool.false_eq_true, if_false, if_true]

theorem State.fwConfirm_of_off_trial (hreq : s.fwRequest 0x1102 = some v) (hmay : s.fwMay = true) (htrial : s.onTrial = false) :
    s.fwConfirm = s.fwSpend [(0x1102, none)] := by
  simp only [State.fwConfirm, hreq, hmay, htrial, Bool.and_false, Bool.not_true, Bool.false_eq_true, if_false]

theorem State.autoConfirm_of_due {t : Nat} (hstart : s.boot.jobStart = some t) (htrial : s.onTrial = true) (hmay : s.fwMay = true)
    (hdue : t + 14745600000 ≤ s.nowN) : s.autoConfirm = s.confirm [] := by
  simp only [State.autoConfirm, hstart, htrial, hmay, hdue, decide_true, Bool.and_self, if_true]

theorem State.endTrial_of_off_trial {kind : Nat} (h : s.onTrial = false) : s.endTrial kind k = s := by
  simp only [State.endTrial, h, Bool.not_false, Bool.true_or, if_true]

theorem State.endTrial_of_trial {kind : Nat} (htrial : s.onTrial = true) (hup : s.life = .up) :
    s.endTrial kind k = ((((s.sendLoss.endJobs).trialFails kind).runImage ((s.sendLoss.endJobs).trialFails kind).boot.confirmed k).fwCommit []).setReady
      (((s.sendLoss.endJobs).trialFails kind).runImage ((s.sendLoss.endJobs).trialFails kind).boot.confirmed k).mayServe := by
  simp only [State.endTrial, htrial, hup, Bool.not_true, bne_self_eq_false, Bool.or_self, Bool.false_eq_true, if_false]

/-! ### The boot flash and recovery (R495, R497, R505) -/

/-- The check's two halves, slot A before slot B. -/
theorem exec_bootFlashCheck {okA okB : Bool} (hup : s.life = .up) : exec (.bootFlashCheck okA okB) s =
    .next (if okB then (if okA then s else s.slotFails 0 okB) else (if okA then s else s.slotFails 0 okB).slotFails 1 okA) := by
  change Host.Outcome.next (if s.life != .up then s else _) = _
  rw [hup, if_neg (by decide)]

theorem exec_bootFlashCheck_good : exec (.bootFlashCheck true true) s = .next s := congrArg _ (ite_self s)

theorem State.slotFails_zero_of_equal (hA : s.boot.slotA.holds = true) (hB : s.boot.slotB.holds = true) (hsvn : s.boot.slotB.svn = s.boot.slotA.svn)
    (hver : s.boot.slotB.version = s.boot.slotA.version) :
    s.slotFails 0 true = (s.setFw 0 (fun f => { f with image := s.boot.slotB.image })).fwRecord 0x308 0 1 := by
  have h0 : s.boot.slot 0 = s.boot.slotA := rfl
  have h1 : s.boot.slot (otherSlot 0) = s.boot.slotB := rfl
  simp only [State.slotFails, h0, h1, hA, hB, hsvn, hver, beq_self_eq_true, Bool.not_true, Bool.and_self, Bool.false_eq_true, if_false, if_true]

theorem State.recoveryStage_of_legal (hrec : mget s.settings.records 0x1100 = some v) (hlife : s.life = .recovery) (hslot : getLE v 12 1 < 2)
    (hlegal : s.stageRefusal v (getLE v 12 1) false = none) : s.recoveryStage k = s.recoverImage v (getLE v 12 1) k := by
  simp only [State.recoveryStage, State.recoverRecord, hrec, hlife, Nat.not_le.2 hslot, hlegal, beq_self_eq_true, if_true, if_false]

theorem exec_readyTimeout_of_due (hlife : s.life = .boot) (hdue : s.boot.since + 737280000 ≤ s.nowN) :
    ∃ t, t = s.loadSettings k.copyA k.copyB ∧
      exec (.readyTimeout k) s = .next ((t.fwRecord 0x307 t.boot.running 0).recovery k (BitVec.ofNat 32 (t.boot.slot t.boot.running).version)) := by
  refine ⟨_, rfl, congrArg _ (if_pos ?_)⟩
  rw [hlife, decide_eq_true hdue]
  rfl

theorem exec_readyTimeout_of_up (hup : s.life = .up) : exec (.readyTimeout k) s = .next s := by
  refine congrArg _ (if_neg ?_)
  rw [hup]
  exact Bool.false_ne_true

/-! ### The reset of a control processor (R488, Table 16-1) -/

theorem State.processorReset_of_not_up {kind : Nat} (h : s.life ≠ .up) : s.processorReset kind n k = s := if_pos (bne_iff_ne.2 h)

section Processor
variable (hup : s.life = .up) (htrial : s.onTrial = false)
include hup htrial

theorem State.processorReset_security : s.processorReset 0 n k = (s.warmReset 4 k).fwRecord 0x304 s.boot.running 1 := by
  simp only [State.processorReset, hup, htrial, bne_self_eq_false, Bool.false_eq_true, if_false]

theorem State.processorReset_power : s.processorReset 1 n k = s.holdBegins.fwRecord 0x304 s.boot.running 2 := by
  simp only [State.processorReset, hup, htrial, bne_self_eq_false, Bool.false_eq_true, if_false]

theorem State.processorReset_scheduler : s.processorReset 2 n k = s.schedulerReset := by
  simp only [State.processorReset, hup, htrial, bne_self_eq_false, Bool.false_eq_true, if_false]

omit htrial in
theorem State.processorReset_bay : s.processorReset 3 n k = (s.controlFails n 5).fwRecord 0x304 s.boot.running 4 := by
  simp only [State.processorReset, hup, bne_self_eq_false, Bool.false_eq_true, if_false]

end Processor

/-- Settles O15: each clause is one of the equations above. -/
theorem firmwareAndProcessors : Obligations.FirmwareAndProcessors := by
  refine ⟨⟨fun s v n hreq hmay hslot hlegal => congrArg _ (State.fwStage_of_legal hreq hmay hslot hlegal),
      fun s v n r hreq hmay hslot href => congrArg _ (State.fwStage_of_refused hreq hmay hslot href),
      fun s n hslot hmay hsvn => ⟨congrArg _ (State.stageComplete_of_verified hslot hmay hsvn), congrArg _ (State.stageComplete_of_altered hslot hmay),
        fun intact => congrArg _ (State.stageComplete_of_flash_failure hslot hmay intact)⟩,
      fun s v hreq hlen hzero hslot hst => congrArg _ (State.fwActivate_of_staged hreq hlen hzero hslot hst),
      fun s k n hn hmay hjobs hst himage => congrArg _ (State.activation_of_valid hn hmay hjobs hst himage)⟩,
    ⟨fun s v hreq hmay hlen hrun htrial => congrArg _ (State.fwConfirm_of_running hreq hmay hlen hrun htrial),
      fun s v hreq hmay htrial => congrArg _ (State.fwConfirm_of_off_trial hreq hmay htrial),
      fun s t hstart htrial hmay hdue => congrArg _ (State.autoConfirm_of_due hstart htrial hmay hdue),
      fun s k htrial hup => congrArg _ (State.endTrial_of_trial htrial hup),
      fun s k htrial => congrArg _ (State.endTrial_of_off_trial htrial),
      fun s => exec_bootFlashCheck_good, fun s hup hA hB hsvn hver => ?rewritten,
      fun s k v hrec hlife hslot hlegal => congrArg _ (State.recoveryStage_of_legal hrec hlife hslot hlegal),
      fun s k => exec_readyTimeout_of_due, fun s k => exec_readyTimeout_of_up⟩,
    ⟨fun s n k hup htrial => ⟨congrArg _ (State.processorReset_security hup htrial), congrArg _ (State.processorReset_power hup htrial),
        congrArg _ (State.processorReset_scheduler hup htrial), congrArg _ (State.processorReset_bay hup)⟩,
      fun s kind n k h => congrArg _ (State.processorReset_of_not_up h)⟩⟩
  case rewritten => exact (exec_bootFlashCheck hup).trans (congrArg _ (State.slotFails_zero_of_equal hA hB hsvn hver))

end Sys2Proof.Machine
end

section
/-!
# PMBus, caps and modes

What a read on the SMBus answers, and one equation for each outcome of the caps, the management messages, the modes and the governor's evaluation.
-/

namespace Sys2Proof.Machine

open Sys2Proof

variable {s : State}

/-! ### PMBus reads (R520, R576; no answer without a core is log 192) -/

/-- The PEC of a read covers 0xB4, the code and 0xB5, the module's address with its two direction bits (log 7). -/
theorem State.pmRead_of_governed {code : Nat} {d : List Byte} (h : s.governed = true) :
    s.pmRead code d = s.emit (.smbus (d ++ [pec ([0xB4, BitVec.ofNat 8 code, 0xB5] ++ d)])) := by
  rw [State.pmRead, h, if_neg (by decide)]
  rfl

theorem State.pmRead_of_not_governed {code : Nat} {d : List Byte} (h : s.governed = false) : s.pmRead code d = s := by
  rw [State.pmRead, h]
  rfl

theorem State.pmBlock_of_governed {code : Nat} {d : List Byte} (h : s.governed = true) :
    s.pmBlock code d = s.emit (.smbus (leBytes 1 d.length ++ d ++ [pec ([0xB4, BitVec.ofNat 8 code, 0xB5] ++ (leBytes 1 d.length ++ d))])) :=
  State.pmRead_of_governed h

theorem partBytes_length (h : Bool) : (partBytes h).length = 16 := by cases h <;> rfl

theorem leBytes_one_partBytes (h : Bool) : leBytes 1 (partBytes h).length = [16] := by rw [partBytes_length, leBytes]; rfl

theorem leBytes_length_serial : leBytes 1 (leBytes 8 Config.serial.toNat).length = [8] := rfl

theorem State.alertResponse_of_asserted (ha : s.alert = true) (h : s.governed = true) :
    s.alertResponse = (({ s with alert := false } : State).drive "MOD_ALERT_N" true).emit (.smbus [0x5A]) := by
  rw [State.alertResponse, ha, h, if_neg (by decide)]
  rfl

theorem State.alertResponse_of_released (ha : s.alert = false) : s.alertResponse = s := by
  rw [State.alertResponse, ha]
  rfl

theorem State.alertResponse_of_not_governed (h : s.governed = false) : s.alertResponse = s := by
  rw [State.alertResponse, h]
  simp only [Bool.not_false, Bool.or_true, if_true]

/-- Settles O42: each read is `pmRead` or `pmBlock` of its code and data, and those answer under the power-management core only. -/
theorem pmbusReads : Obligations.PmbusReads := by
  refine ⟨fun s h => ?governed, fun s h c hc => ?silent⟩
  case governed =>
    have read (code : Nat) (d : List Byte) := congrArg (Host.Outcome.next (φ := Fault) (ρ := Refusal)) (State.pmRead_of_governed (code := code) (d := d) h)
    have block (code : Nat) (d : List Byte) := congrArg (Host.Outcome.next (φ := Fault) (ρ := Refusal)) (State.pmBlock_of_governed (code := code) (d := d) h)
    refine ⟨read 0x79 _, read 0x88 _, read 0x89 _, read 0x97 _, read 0x8D _, read 0x8E _, read 0x8F _, read 0x98 _, block 0x99 _, ?model, ?serial,
      read 0xD2 _, read 0xD3 _, fun ha => congrArg _ (State.alertResponse_of_asserted ha h), fun ha => congrArg _ (State.alertResponse_of_released ha)⟩
    case model =>
      refine (block 0x9A (partBytes s.isH)).trans ?_
      rw [leBytes_one_partBytes]
      rfl
    case serial =>
      refine (block 0x9E (leBytes 8 Config.serial.toNat)).trans ?_
      rw [leBytes_length_serial]
      rfl
  case silent =>
    have read (code : Nat) (d : List Byte) := congrArg (Host.Outcome.next (φ := Fault) (ρ := Refusal)) (State.pmRead_of_not_governed (code := code) (d := d) h)
    simp only [List.mem_cons, List.not_mem_nil, or_false] at hc
    obtain rfl | rfl | rfl | rfl | rfl | rfl | rfl | rfl | rfl | rfl | rfl | rfl | rfl | rfl := hc
    · exact read 0x79 _
    · exact read 0x88 _
    · exact read 0x89 _
    · exact read 0x97 _
    · exact read 0x8D _
    · exact read 0x8E _
    · exact read 0x8F _
    · exact read 0x98 _
    · exact read 0x99 _
    · exact read 0x9A _
    · exact read 0x9E _
    · exact read 0xD2 _
    · exact read 0xD3 _
    · exact congrArg _ (State.alertResponse_of_not_governed h)

/-! ### Caps (R518, R519) -/

theorem capLegal_of (w : Nat) (h : w = 0 ∨ (1200 ≤ w ∧ w ≤ 2800)) : capLegal w = true := by simpa [capLegal] using h

theorem capLegal_of_out_of_range {w : Nat} (h : (0 < w ∧ w < 1200) ∨ 2800 < w) : capLegal w = false := by
  have hzero : (w == 0) = false := beq_eq_false_iff_ne.2 (by omega)
  rw [capLegal, hzero, Bool.false_or, ← Bool.decide_and]
  exact decide_eq_false (by omega)

/-- The PEC of a write word covers 0xB4, the code and the word. -/
theorem State.pmWriteOk_of_pec {code v p : Nat} (hup : s.life = .up) (hp : BitVec.ofNat 8 p = pec ([0xB4, BitVec.ofNat 8 code] ++ leBytes 2 v)) :
    s.pmWriteOk code v p = true := by
  rw [State.pmWriteOk, hup, hp]
  exact beq_self_eq_true _

theorem State.pmWriteOk_of_bad_pec {code v p : Nat} (hp : BitVec.ofNat 8 p ≠ pec ([0xB4, BitVec.ofNat 8 code] ++ leBytes 2 v)) :
    s.pmWriteOk code v p = false := by
  rw [State.pmWriteOk, Bool.and_eq_false_iff]
  exact .inr (beq_eq_false_iff_ne.2 hp.symm)

theorem State.mfrCapSet_of_legal {w p : Nat} (hok : s.pmWriteOk 0xD0 w p = true) (hw : capLegal w = true) :
    s.mfrCapSet w p = (s.pw (fun x => { x with nextLease := 0 })).setSmbusCap w s.power.nextLease := by
  rw [State.mfrCapSet, hok, hw]
  rfl

theorem State.mfrCapSet_of_bad_pec {w p : Nat} (h : s.pmWriteOk 0xD0 w p = false) : s.mfrCapSet w p = s := by
  rw [State.mfrCapSet, h]
  rfl

theorem State.mfrCapSet_of_illegal {w p : Nat} (h : capLegal w = false) : s.mfrCapSet w p = s := by
  rw [State.mfrCapSet, h, Bool.not_false, Bool.or_true, if_pos rfl]

theorem exec_mfrCapLease_of_legal {n p : Nat} (hok : s.pmWriteOk 0xD1 n p = true) (hn : n ≤ 3600) :
    exec (.mfrCapLease n p) s = .next (s.pw (fun x => { x with nextLease := n })) := by
  refine congrArg _ (if_neg ?_)
  simp only [hok, Nat.not_lt.2 hn, Bool.not_true, Bool.false_or, decide_false, Bool.false_eq_true, not_false_eq_true]

theorem exec_mfrCapLease_of_long {n p : Nat} (hn : 3600 < n) : exec (.mfrCapLease n p) s = .next s := by
  refine congrArg _ (if_pos ?_)
  rw [decide_eq_true hn, Bool.or_true]

/-! ### The management messages (R324, R521; the reply's time and LEASE_S are log 191) -/

section Messages
variable {k : Nat} {m : MgmtIn}

theorem State.mgmtTaken_of {typ : Nat} (hm : mgmtOk typ m.msg = true) (hp : s.mgmtPeer k m.addr = true) : s.mgmtTaken k typ m = true := by
  rw [State.mgmtTaken, hm, hp]
  rfl

theorem State.mgmtTaken_of_foreign {typ : Nat} (h : mgmtOk typ m.msg = false ∨ s.mgmtPeer k m.addr = false) : s.mgmtTaken k typ m = false :=
  Bool.and_eq_false_iff.2 h

variable (hup : s.life = .up)
include hup

theorem State.capSet_of_not_taken (h : s.mgmtTaken k 1 m = false) : s.capSet k m = s.ethDrop (k % 2) := by
  simp only [State.capSet, hup, h, bne_self_eq_false, Bool.not_false, Bool.false_eq_true, if_false, if_true]

theorem State.capSet_of_legal (h : s.mgmtTaken k 1 m = true) (hw : capLegal (getLE m.msg 12 2) = true) (hl : getLE m.msg 14 2 ≤ 3600) :
    s.capSet k m = (s.setEthCap (getLE m.msg 12 2) (getLE m.msg 14 2)).pw
      (fun p => { p with replies := p.replies ++ [{ port := k, addr := m.addr, sport := m.sport, seq := getLE m.msg 8 4, at_ := s.nowN }] }) := by
  simp only [State.capSet, hup, h, hw, Nat.not_lt.2 hl, bne_self_eq_false, Bool.not_true, decide_false, Bool.or_self, Bool.false_eq_true, if_false]

theorem State.capSet_of_illegal (h : s.mgmtTaken k 1 m = true) (hbad : (!capLegal (getLE m.msg 12 2) || decide (3600 < getLE m.msg 14 2)) = true) :
    s.capSet k m = (s.sendMgmt k m.addr m.sport (s.mgmtReply 2 1 (getLE m.msg 8 4))).useFree := by
  simp only [State.capSet, hup, h, hbad, bne_self_eq_false, Bool.not_true, Bool.false_eq_true, if_false, if_true]

theorem State.telemReq_of_not_taken (h : s.mgmtTaken k 3 m = false) : s.telemReq k m = s.ethDrop (k % 2) := by
  simp only [State.telemReq, hup, h, bne_self_eq_false, Bool.not_false, Bool.false_eq_true, if_false, if_true]

theorem State.telemReq_of_taken (h : s.mgmtTaken k 3 m = true) {t : List Byte}
    (ht : t = leBytes 4 (s.preg .pwr 0x128).toNat ++ leBytes 2 (s.preg .pwr 0x120).toNat ++ leBytes 2 (s.preg .pwr 0x124).toNat ++
      leBytes 2 (s.preg .pwr 0x140).toNat ++ leBytes 1 (min 255 (s.hottest 0 16)) ++ leBytes 1 (min 255 (s.hottest 16 16)) ++
      leBytes 1 (min 255 (s.hottest 60 16)) ++ leBytes 1 (min 255 (s.sensor 76)) ++ leBytes 2 0 ++ leBytes 8 (s.preg64 .pwr 0x130 0x134) ++ leBytes 8 0) :
    s.telemReq k m = (s.sendMgmt k m.addr m.sport (s.mgmtReply 4 0 (getLE m.msg 8 4) ++ t)).useFree := by
  subst ht
  simp only [State.telemReq, hup, h, bne_self_eq_false, Bool.not_true, Bool.false_eq_true, if_false]

end Messages

/-! ### Leases, the brake path, modes and the evaluation (R515, R516, R518, R519; the used-up lease is log 193) -/

theorem State.leaseExpiry_of_running {t : Nat} (h : s.power.smbus.expiry = some t) (ht : s.nowN ≤ t) : s.leaseExpiry 2 = s := by
  simp only [State.leaseExpiry, h, Nat.not_lt.2 ht, decide_false, Bool.not_false, Bool.true_or, if_true]

theorem State.leaseExpiry_of_run_out {t : Nat} {u : State} (h : s.power.smbus.expiry = some t) (ht : t < s.nowN)
    (hu : u = s.capChanged true (fun s' => s'.pw (fun p => { p with smbus := { watts := wfield (s.preg .pwr 0x10C) 11 0, failsafe := true } }))) :
    s.leaseExpiry 2 = (u.pwrRecord 0x402 1 0 u.nowN 0).alertN := by
  subst hu
  simp only [State.leaseExpiry, h, ht, decide_true, Bool.not_true, bne_self_eq_false, Bool.false_and, Bool.or_self, Bool.false_eq_true, if_false, if_true]

theorem State.leaseExpiry_of_none (h : s.power.eth.expiry = none) : s.leaseExpiry 3 = s := by
  have hother : (if (3 : Nat) = 2 then s.power.smbus else s.power.eth) = s.power.eth := if_neg (by decide)
  simp only [State.leaseExpiry, hother, h, Bool.not_false, Bool.true_or, if_true]

theorem State.capUnacked_of_due {t : Nat} (hup : s.life = .up) (h : s.power.unacked = some t) (ht : t + 24576 ≤ s.nowN) :
    s.capUnacked = (s.pw (fun p => { p with capBrake := true })).govern := by
  simp only [State.capUnacked, h, hup, ht, beq_self_eq_true, decide_true, Bool.and_self, if_true]

theorem State.capUnacked_of_not_due {t : Nat} (h : s.power.unacked = some t) (ht : s.nowN < t + 24576) : s.capUnacked = s := by
  simp only [State.capUnacked, h, Nat.not_le.2 ht, decide_false, Bool.false_and, Bool.false_eq_true, if_false]

theorem State.modeChange_of_not_governed (h : s.governed = false) : s.modeChange = s := by
  rw [State.modeChange, h]
  rfl

section Mode
variable {m : Nat} (h : s.governed = true) (hm : m = wfield (s.preg .pwr 0x104) 1 0)
include h hm

theorem State.modeChange_of_committed (hlt : m < 3) (hne : m ≠ s.pwrMode) : s.modeChange = (s.putPreg .pwr 0x100 1 0 m).govern := by
  subst hm
  simp only [State.modeChange, h, hne, Nat.ne_of_lt hlt, decide_false, Bool.or_self, Bool.not_true, Bool.false_eq_true, if_false]

omit h in
theorem State.modeChange_of_same (heq : m = s.pwrMode) : s.modeChange = s := by
  subst hm
  simp only [State.modeChange, heq, decide_true, Bool.true_or, if_true, ite_self]

end Mode

section Evaluation
variable {vin iin pin : Nat} {fits room out : List Nat} {rails : List (Nat × Nat)}

theorem State.evaluate_of_governed (h : s.governed = true) : s.evaluate vin iin pin fits room rails out =
    (((List.range 16).foldl State.riseBay (((((s.readings vin iin pin).railReadings rails out).pw (fun p =>
      { p with unacked := none, capBrake := false, current := p.current && decide (7800 < iin) })).excursion pin).fitCaps fits room).settlePoints).govern).sendReplies pin := by
  rw [State.evaluate, h, if_neg (by decide)]

theorem State.evaluate_of_not_governed (h : s.governed = false) : s.evaluate vin iin pin fits room rails out = s := by
  rw [State.evaluate, h]
  rfl

end Evaluation

/-- Settles O43: each clause is one of the equations above, the legality of a value decided first. -/
theorem capsAndModes : Obligations.CapsAndModes := by
  refine ⟨fun s w p l hup hl hw hp => ?capSet, fun s w p h => ?capKept, fun s n p hup hp => ⟨fun hn => ?lease, exec_mfrCapLease_of_long⟩,
    fun s k m w l hup hm hpeer hw hl => ⟨fun hlegal hlease => ?ethCap, fun hbad => ?ethRefused⟩,
    fun s k m hup => ⟨fun h => congrArg _ (State.capSet_of_not_taken hup (State.mgmtTaken_of_foreign h)),
      fun h => congrArg _ (State.telemReq_of_not_taken hup (State.mgmtTaken_of_foreign h))⟩,
    fun s k m t hup hm hpeer ht => congrArg _ (State.telemReq_of_taken hup (State.mgmtTaken_of hm hpeer) ht),
    fun s t h => ⟨fun ht => congrArg _ (State.leaseExpiry_of_running h ht), fun ht => congrArg _ (State.leaseExpiry_of_run_out h ht rfl)⟩,
    fun s h => congrArg _ (State.leaseExpiry_of_none h),
    fun s t hup h => ⟨fun ht => congrArg _ (State.capUnacked_of_due hup h ht), fun ht => congrArg _ (State.capUnacked_of_not_due h ht)⟩,
    fun s m h hm => ⟨fun hlt hne => congrArg _ (State.modeChange_of_committed h hm hlt hne), fun heq => congrArg _ (State.modeChange_of_same hm heq)⟩,
    fun s vin iin pin fits room rails out => ⟨fun h => congrArg _ (State.evaluate_of_governed h),
      fun h => ⟨congrArg _ (State.evaluate_of_not_governed h), congrArg _ (State.modeChange_of_not_governed h)⟩⟩⟩
  case capSet =>
    subst hl
    exact congrArg _ (State.mfrCapSet_of_legal (State.pmWriteOk_of_pec hup hp) (capLegal_of w hw))
  case capKept =>
    obtain hpec | hrange := h
    · exact congrArg _ (State.mfrCapSet_of_bad_pec (State.pmWriteOk_of_bad_pec hpec))
    · exact congrArg _ (State.mfrCapSet_of_illegal (capLegal_of_out_of_range hrange))
  case lease => exact exec_mfrCapLease_of_legal (State.pmWriteOk_of_pec hup hp) hn
  case ethCap =>
    subst hw hl
    exact congrArg _ (State.capSet_of_legal hup (State.mgmtTaken_of hm hpeer) (capLegal_of _ hlegal) hlease)
  case ethRefused =>
    subst hw hl
    refine congrArg _ (State.capSet_of_illegal hup (State.mgmtTaken_of hm hpeer) ?_)
    obtain hrange | hrange | hlong := hbad
    · rw [capLegal_of_out_of_range (.inl hrange)]
      rfl
    · rw [capLegal_of_out_of_range (.inr hrange)]
      rfl
    · rw [decide_eq_true hlong, Bool.or_true]

end Sys2Proof.Machine
end

section
/-!
# Brake, droop, heat, gating, the hold and the supply

One equation for each outcome of the events that limit the bays' points, gate them, or take the module's power.
-/

namespace Sys2Proof.Machine

open Sys2Proof

variable {s : State}

/-! ### The brake and droop (R522, R523) -/

theorem State.brakeOn_of_asserted (h : s.power.brake = true) : s.brakeOn = s := if_pos h

theorem State.brakeOn_of_up (h : s.power.brake = false) (hup : s.life = .up) :
    s.brakeOn = ((s.pw (fun p => { p with brake := true })).govern.irq .pwr 3).pwrRecord 0x403 1 1 s.nowN 0 := by
  have hlife : ((s.pw (fun p => { p with brake := true })).life != .up) = false := bne_eq_false_iff_eq.2 hup
  simp only [State.brakeOn, h, hlife, Bool.false_eq_true, if_false]
  rfl

theorem State.brakeOn_of_not_up (h : s.power.brake = false) (hup : s.life ≠ .up) : s.brakeOn = s.pw (fun p => { p with brake := true }) := by
  have hlife : ((s.pw (fun p => { p with brake := true })).life != .up) = true := bne_iff_ne.2 hup
  rw [State.brakeOn, h, if_neg Bool.false_ne_true, if_pos hlife]

theorem State.brakeOff_of_up (hup : s.life = .up) : s.brakeOff = (s.pw (fun p => { p with brake := false })).govern := if_pos (beq_iff_eq.2 hup)

theorem State.brakeOff_of_not_up (hup : s.life ≠ .up) : s.brakeOff = s.pw (fun p => { p with brake := false }) := if_neg fun h => hup (beq_iff_eq.1 h)

section Droop
variable {b : Nat}

theorem exec_droopDetect_of_running (hup : s.life = .up) (hb : b < 16) (hp : s.absent b = false) : exec (.droopDetect b) s = .next (s.count .pwr 0x150 1) := by
  refine congrArg _ (if_pos ?_)
  rw [hup, hp, decide_eq_true hb]
  rfl

theorem exec_droopDetect_of_still (h : s.life ≠ .up ∨ 16 ≤ b ∨ s.absent b = true) : exec (.droopDetect b) s = .next s := by
  refine congrArg _ (if_neg fun htest => ?_)
  simp only [Bool.and_eq_true, beq_iff_eq, decide_eq_true_eq, Bool.not_eq_true'] at htest
  obtain ⟨⟨hup, hb⟩, hp⟩ := htest
  obtain hdown | hout | habsent := h
  · exact hdown hup
  · omega
  · exact absurd (hp.symm.trans habsent) Bool.false_ne_true

theorem State.stepDown_of_present {r : Nat} (h : s.point b ≠ 15) : s.stepDown r b = s.setLimit r b (some (s.point b - 1)) := if_neg h

theorem exec_droopStepDown_of_governed (h : s.governed = true) (hb : b < 16) : exec (.droopStepDown b) s = .next (s.stepDown 11 b).govern := by
  refine congrArg _ (if_pos ?_)
  rw [h, decide_eq_true hb]
  rfl

theorem exec_droopStepDown_of_not_governed (h : s.governed = false) : exec (.droopStepDown b) s = .next s := by
  refine congrArg _ (if_neg ?_)
  rw [h, Bool.false_and]
  exact Bool.false_ne_true

end Droop

/-! ### Temperatures (R525 to R527; the numbers of the sensors are log 110) -/

section Sensors
variable {n v : Nat} (hup : s.life = .up)
include hup

theorem exec_thermalThreshold_of_up (hn : n < 60 ∨ n = 76) : exec (.thermalThreshold n v) s = .next (s.sense n v).govern := by
  refine congrArg _ (if_pos ?_)
  rw [hup, ← Bool.decide_or, decide_eq_true hn]
  rfl

theorem exec_flashTemperature_of_up (hn : n < 16) : exec (.flashTemperature n v) s = .next (s.sense (60 + n) v).govern := by
  refine congrArg _ (if_pos ?_)
  rw [hup, decide_eq_true hn]
  rfl

omit hup in
theorem State.critical_of_below (hv : v < (sensorLimits n).2.1) : s.critical n v = s := by
  refine if_pos ?_
  rw [decide_eq_true hv, Bool.or_true]

theorem State.critical_of_reached (hn : n < 60) (hv : (sensorLimits n).2.1 ≤ v) :
    s.critical n v = ((sensorBays n).foldl (fun s b => (s.setLimit (sensorReason n) b (some 0)).pw
      (fun p => { p with downAt := mset p.downAt b s.nowN })) (s.sense n v)).govern := by
  refine if_neg ?_
  simp only [hup, Nat.not_le.2 hn, Nat.not_lt.2 hv, bne_self_eq_false, decide_false, Bool.or_self, Bool.false_eq_true, not_false_eq_true]


theorem State.trip_of_below (hv : v < (sensorLimits n).2.2) : s.trip n v = s := by
  have hheld : (s.life == .held) = false := by rw [hup]; rfl
  simp only [State.trip, hheld, hv, Bool.false_and, decide_true, Bool.or_true, Bool.false_eq_true, if_false, if_true]

theorem State.trip_of_reached (hn : n < 76) (hv : (sensorLimits n).2.2 ≤ v) :
    s.trip n v = ((((({ ((s.sense n v).pwrRecord 0x406 4 n s.nowN 0).sendLoss with tripped := true } : State).emit
      (.pin "THERM_TRIP_N" (some false))).closeDeep true).afterPower .down).emit (.pin "THERM_TRIP_N" (some false))) := by
  have hheld : (s.life == .held) = false := by rw [hup]; rfl
  have hdown : (s.life == .down) = false := by rw [hup]; rfl
  simp only [State.trip, hheld, hdown, Nat.not_le.2 hn, Nat.not_lt.2 hv, Bool.false_and, decide_false, Bool.or_self, Bool.false_eq_true, if_false]

end Sensors

section Throttle
variable {b : Nat}

/-- The sensors that affect a bay and are at or above their throttle threshold. -/
def State.hotSensors (s : State) (b : Nat) : List Nat :=
  ((List.range 60).filter (fun n => (sensorBays n).contains b)).filter (fun n => decide ((sensorLimits n).1 ≤ s.sensor n))

/-- Every reason of a hot sensor limits the bay to one point below the one it had. -/
def State.limitHot (s : State) (b : Nat) : State :=
  ((s.hotSensors b).map sensorReason).eraseDups.foldl (fun s r => s.setLimit r b (some (s.point b - 1))) s

/-- The bay has stepped for its sensors at this tick. -/
def State.stampStep (s : State) (b : Nat) : State := s.pw (fun p => { p with downAt := mset p.downAt b s.nowN })

theorem State.throttleStep_of_away (h : s.governed = false ∨ 16 ≤ b ∨ s.absent b = true) : s.throttleStep b = s := by
  refine if_pos ?_
  simpa [or_assoc] using h

/-- A step of a bay with a hot sensor turns on the tick of the step before it alone. -/
theorem State.throttleStep_of_hot (h : s.governed = true) (hb : b < 16) (hp : s.absent b = false) (hhot : (s.hotSensors b).isEmpty = false) :
    s.throttleStep b = if s.nowN < (mget s.power.downAt b).getD 0 + 24576 && (mget s.power.downAt b).isSome then s
      else ((s.limitHot b).stampStep b).govern := by
  have haway : (!s.governed || decide (16 ≤ b) || s.absent b) = false := by
    rw [h, hp, decide_eq_false (Nat.not_le.2 hb)]
    rfl
  rw [State.throttleStep, haway, if_neg Bool.false_ne_true]
  exact if_pos (congrArg (!·) hhot)

theorem State.hotSensors_isEmpty {n : Nat} (h : n ∈ s.hotSensors b) : (s.hotSensors b).isEmpty = false := List.isEmpty_eq_false_iff.2 (List.ne_nil_of_mem h)

end Throttle

/-- Settles O44: each clause is one of the equations above. -/
theorem brakeDroopAndHeat : Obligations.BrakeDroopAndHeat := by
  refine ⟨fun s => ⟨fun h => congrArg _ (State.brakeOn_of_asserted h), fun h hup => congrArg _ (State.brakeOn_of_up h hup),
      fun h hup => congrArg _ (State.brakeOn_of_not_up h hup), fun hup => congrArg _ (State.brakeOff_of_up hup),
      fun hup => congrArg _ (State.brakeOff_of_not_up hup)⟩,
    fun s b => ⟨exec_droopDetect_of_running, exec_droopDetect_of_still, fun h hb hp => ?droop, exec_droopStepDown_of_not_governed⟩,
    fun s n v hup => ⟨exec_thermalThreshold_of_up hup, exec_flashTemperature_of_up hup, fun _ hv => congrArg _ (State.critical_of_below hv),
      fun hn hv => congrArg _ (State.critical_of_reached hup hn hv), fun _ hv => congrArg _ (State.trip_of_below hup hv),
      fun hn hv => congrArg _ (State.trip_of_reached hup hn hv)⟩,
    fun s b n hot h hb hp hhot hn => ?throttle, fun s b h => congrArg _ (State.throttleStep_of_away h)⟩
  case droop => rw [exec_droopStepDown_of_governed h hb, State.stepDown_of_present hp]
  case throttle =>
    subst hhot
    have hstep := State.throttleStep_of_hot h hb hp (State.hotSensors_isEmpty hn)
    refine ⟨fun hdown => congrArg _ (hstep.trans (if_neg ?_)), fun t hdown ht => congrArg _ (hstep.trans (if_pos ?_))⟩
    · rw [hdown, Option.isSome_none, Bool.and_false]
      exact Bool.false_ne_true
    · rw [hdown, Option.getD_some, Option.isSome_some, Bool.and_true, decide_eq_true ht]

/-! ### Power gating (R401, R529) -/

section Gate
variable {w v : Word}

/-- The word newly gates a bay or the deep tier while something needs it. -/
def State.gateBad (s : State) (v : Word) : Bool :=
  (List.range 16).any (fun b => wbit v b && !wbit (s.preg .pwr 0x118) b && s.openWindow (some b)) ||
    (wbit v 16 && !wbit (s.preg .pwr 0x118) 16 && (!s.jobs.isEmpty || s.fetch.isSome || s.openWindow none))

variable (hv : v = w &&& 0x1FFFF)
include hv

theorem State.pwrGate_of_bad (h : s.gateBad v = true) : s.pwrGate w = s.refuseReg .pwr 0x3118 w := by
  subst hv
  exact if_pos h

theorem State.pwrGate_of_legal (h : s.gateBad v = false) :
    s.pwrGate w = if wbit v 16 == wbit (s.preg .pwr 0x118) 16 then s.setPreg .pwr 0x118 v else (s.setPreg .pwr 0x118 v).gateDeep (wbit v 16) := by
  subst hv
  exact if_neg (ne_true_of_eq_false h)

end Gate

/-! ### The hold (R530, R343) -/

theorem State.holdBegins_of_not_governed (h : s.governed = false) : s.holdBegins = s := if_pos (by rw [h]; rfl)

theorem State.holdBegins_of_governed {h m : State} (hg : s.governed = true) (hh : h = (s.pw (fun p => { p with hold := some s.nowN })).letGo)
    (hm : m = h.setPreg .media 0x100 (wset (h.preg .media 0x100) 30)) :
    s.holdBegins = (m.showReasons.plumbCheck.irq .pwr 6).pwrRecord 0x409 1 10 m.nowN 0 := by
  subst hm hh
  exact if_neg (by rw [hg]; exact Bool.false_ne_true)

theorem State.holdEnds_of_none (h : s.power.hold = none) : s.holdEnds = s := by rw [State.holdEnds, h]

theorem State.holdExpires_of_none (h : s.power.hold = none) : s.holdExpires = s := by rw [State.holdExpires, h]

section Hold
variable {t : Nat} (hold : s.power.hold = some t)
include hold

theorem State.holdEnds_of_late (ht : t + 49152000 ≤ s.nowN) : s.holdEnds = s := by
  simp only [State.holdEnds, hold, ht, decide_true, Bool.or_true, if_true]

theorem State.holdExpires_of_early (ht : s.nowN < t + 49152000) : s.holdExpires = s := by
  simp only [State.holdExpires, hold, ht, decide_true, Bool.or_true, if_true]

variable (hup : s.life = .up)
include hup

theorem State.holdEnds_in_time {h m : State} (ht : s.nowN < t + 49152000) (hh : h = (s.pw (fun p => { p with hold := none })).redrive)
    (hm : m = h.setPreg .media 0x100 (wclear (h.preg .media 0x100) 30)) :
    s.holdEnds = (m.govern.irq .pwr 6).pwrRecord 0x40A 0 10 t (m.nowN - t) := by
  subst hm hh
  simp only [State.holdEnds, hold, hup, Nat.not_le.2 ht, bne_self_eq_false, decide_false, Bool.or_self, Bool.false_eq_true, if_false]

theorem State.holdExpires_of_late (ht : t + 49152000 ≤ s.nowN) : s.holdExpires =
    (((({ (((s.pwrRecord 0x409 4 10 t (s.nowN - t)).sendLoss).endJobs) with life := .lost } : State).pw (fun p => { p with hold := none })).setReady
      false).settlePoints.showReasons) := by
  simp only [State.holdExpires, hold, hup, Nat.not_lt.2 ht, bne_self_eq_false, decide_false, Bool.or_self, Bool.false_eq_true, if_false]

end Hold

/-! ### Input limits and the supply (R531, R582) -/

section Input
variable {vin iin e : Nat} {fits : List Nat}

theorem State.inputIsLow_of_kept (h : s.power.inputLow = true ∨ 40000 ≤ vin) : s.inputIsLow vin = s := by
  refine if_pos ?_
  obtain hlow | hvin := h
  · rw [hlow, Bool.or_true]
  · rw [decide_eq_true hvin, Bool.or_true, Bool.true_or]

theorem State.inputIsLow_of_fall {g : State} (hup : s.life = .up) (hlow : s.power.inputLow = false) (hvin : vin < 40000)
    (hg : g = (s.pw (fun p => { p with inputLow := true })).govern) : s.inputIsLow vin = g.pwrRecord 0x407 1 7 s.nowN 0 := by
  subst hg
  refine if_neg ?_
  rw [hup, hlow, decide_eq_false (Nat.not_le.2 hvin)]
  exact Bool.false_ne_true

theorem exec_inputLowRecovery_of_low (hup : s.life = .up) (hlow : s.power.inputLow = true) :
    exec .inputLowRecovery s = .next (s.pw (fun p => { p with inputLow := false })).govern := by
  refine congrArg _ (if_pos ?_)
  rw [hup, hlow]
  rfl

theorem exec_inputLowRecovery_of_not_low (hlow : s.power.inputLow = false) : exec .inputLowRecovery s = .next s := by
  refine congrArg _ (if_neg ?_)
  rw [hlow, Bool.and_false]
  exact Bool.false_ne_true

theorem State.inputCurrent_of_within (h : iin ≤ 7800) : s.inputCurrent iin fits = s := if_pos (by rw [decide_eq_true h, Bool.or_true])

theorem State.inputCurrent_of_over (hup : s.life = .up) (h : 7800 < iin) : s.inputCurrent iin fits =
    ((List.range 16).foldl (fun s b => if s.point b = 15 then s else s.setLimit 8 b (some (min (s.point b) (fits.getD b 8))))
      (s.pw (fun p => { p with current := true }))).govern := by
  refine if_neg ?_
  rw [hup, decide_eq_false (Nat.not_le.2 h)]
  exact Bool.false_ne_true

theorem State.supplyEvent_of_within (hlow : 38000 ≤ vin) (hhigh : vin ≤ 62000) : s.supplyEvent vin e = s := by
  refine if_pos ?_
  rw [decide_eq_true hlow, decide_eq_true hhigh]
  rfl

section Supply
variable (hvin : vin < 38000 ∨ 62000 < vin)
include hvin

theorem outside_supply : (decide (38000 ≤ vin) && decide (vin ≤ 62000)) = false := by
  rw [← Bool.decide_and]
  exact decide_eq_false (by omega)

theorem State.supplyEvent_of_tripped (hlife : s.life = .down) (htrip : s.tripped = true) :
    s.supplyEvent vin e = ({ s.scanLetGo with tripped := false, input := false } : State).emit (.pin "THERM_TRIP_N" none) := by
  simp only [State.supplyEvent, outside_supply hvin, hlife, htrip, beq_self_eq_true, Bool.false_eq_true, if_false, if_true]

theorem State.supplyEvent_of_down (hlife : s.life = .down) (htrip : s.tripped = false) :
    s.supplyEvent vin e = { s.scanLetGo with input := false } := by
  simp only [State.supplyEvent, outside_supply hvin, hlife, htrip, beq_self_eq_true, Bool.false_eq_true, if_false, if_true]

theorem State.supplyEvent_of_held (hlife : s.life = .held) : s.supplyEvent vin e = { s.scanLetGo with input := false, life := .down } := by
  have hdown : (s.life == .down) = false := by rw [hlife]; rfl
  have hheld : (s.life == .held) = true := by rw [hlife]; rfl
  simp only [State.supplyEvent, outside_supply hvin, hdown, hheld, Bool.false_eq_true, if_false, if_true]

theorem State.supplyEvent_of_running (hdown : s.life ≠ .down) (hheld : s.life ≠ .held) : s.supplyEvent vin e =
    { (((if e = 0 then s.pwrRecord 0x408 4 0 s.nowN 0 else (s.pwrRecord 0x408 4 0 s.nowN 0).sendLoss).closeDeep (e == 2)).afterPower .down) with
      tripped := false, input := false } := by
  simp only [State.supplyEvent, outside_supply hvin, beq_eq_false_iff_ne.2 hdown, beq_eq_false_iff_ne.2 hheld, Bool.false_eq_true, if_false]

end Supply

end Input

/-- Settles O45: each clause is one of the equations above. -/
theorem holdGateAndSupply : Obligations.HoldGateAndSupply := by
  refine ⟨fun s w v bad hv hbad => ?gate, fun s h => congrArg _ (State.holdBegins_of_not_governed h),
    fun s h m hg hh hm => congrArg _ (State.holdBegins_of_governed hg hh hm),
    fun s h m t hold hup => ⟨fun ht hh hm => congrArg _ (State.holdEnds_in_time hold hup ht hh hm), fun ht => congrArg _ (State.holdEnds_of_late hold ht),
      fun ht => congrArg _ (State.holdExpires_of_early hold ht), fun ht => congrArg _ (State.holdExpires_of_late hold hup ht)⟩,
    fun s h => ⟨congrArg _ (State.holdEnds_of_none h), congrArg _ (State.holdExpires_of_none h)⟩,
    fun s g vin hup => ⟨fun hlow hvin hg => congrArg _ (State.inputIsLow_of_fall hup hlow hvin hg), fun h => congrArg _ (State.inputIsLow_of_kept h),
      exec_inputLowRecovery_of_low hup, exec_inputLowRecovery_of_not_low⟩,
    fun s iin fits => ⟨fun h => congrArg _ (State.inputCurrent_of_within h), fun hup h => congrArg _ (State.inputCurrent_of_over hup h)⟩,
    fun s vin e => ⟨fun hlow hhigh => congrArg _ (State.supplyEvent_of_within hlow hhigh),
      fun hvin => ⟨fun hlife htrip => congrArg _ (State.supplyEvent_of_tripped hvin hlife htrip),
        fun hlife htrip => congrArg _ (State.supplyEvent_of_down hvin hlife htrip), fun hlife => congrArg _ (State.supplyEvent_of_held hvin hlife),
        fun hdown hheld => congrArg _ (State.supplyEvent_of_running hvin hdown hheld)⟩⟩⟩
  case gate =>
    have hlegal (h : bad = false) := congrArg (Host.Outcome.next (φ := Fault) (ρ := Refusal)) (State.pwrGate_of_legal hv (hbad.symm.trans h))
    refine ⟨fun h => congrArg _ (State.pwrGate_of_bad hv (hbad.symm.trans h)), fun h hbit => (hlegal h).trans ?stored, fun h hbit => (hlegal h).trans ?changed⟩
    case stored => rw [if_pos (beq_iff_eq.2 hbit)]
    case changed => rw [if_neg (ne_true_of_eq_false (beq_eq_false_iff_ne.2 hbit))]

end Sys2Proof.Machine
end

section
/-!
# The end of a drain on jobs out of order

The statement about DRAIN_COMPLETE clears the failure flags of the jobs as they stood before the drain, the model those of the jobs after it. The two lists
agree while the jobs stand in rising order; the statement asks for no order.
-/

namespace Sys2Proof.Machine

open Sys2Proof

/-- Job 1 stands before job 0, which is to be drained; the register of the failure flags is held three times. -/
def jobsOutOfOrder : State :=
  { State.reset with
    jobs := [(1, {}), (0, { episode := some {} })], faultCt := some 0, regs := List.replicate 3 (Page.window.base + 0x124, 1) }

theorem jobsOutOfOrder_drainable : jobsOutOfOrder.drainable = [0] := by decide +kernel

/-- The state before the remap, as the statement has it. -/
def clearedOnce : State :=
  jobsOutOfOrder.jobNums.foldl (fun (s : State) (n : Nat) => (s.modJob n (fun j => { j with failed := [] })).putPreg .window 0x124 n n 0)
    (jobsOutOfOrder.drainable.foldl State.drainJob jobsOutOfOrder)

theorem exec_drainComplete {s : State} : exec .drainComplete s = .next s.drainComplete := rfl

theorem drainComplete_clears : jobsOutOfOrder.drainComplete.preg .window 0x124 = 0 := by decide +kernel

theorem clearedOnce_keeps : ((({ clearedOnce.remap with faultCt := none } : State).repairAll).reloadCopies).preg .window 0x124 = 1 := by decide +kernel

theorem jobsOutOfOrder_drained : ∀ n ∈ jobsOutOfOrder.jobNums, n ∈ jobsOutOfOrder.drainable ∨ ∀ j, jobsOutOfOrder.job n = some j → j.drainedNow = true := by
  intro n hn
  have hcases : n = 1 ∨ n = 0 := by simpa [jobsOutOfOrder, State.jobNums] using hn
  obtain rfl | rfl := hcases
  · refine .inr fun j hj => ?_
    cases hj
    rfl
  · rw [jobsOutOfOrder_drainable]
    exact .inl (List.mem_cons_self ..)

/-- Refutes O55: with job 0 standing behind job 1 its drain adds an entry, and its failure flag is cleared once more than the statement says. -/
theorem not_containmentBetweenMembers : ¬ Obligations.ContainmentBetweenMembers := by
  rintro ⟨-, -, -, -, -, -, -, -, -, -, -, hlocal⟩
  have hstate := Host.Outcome.next.inj (exec_drainComplete.symm.trans (hlocal jobsOutOfOrder clearedOnce rfl jobsOutOfOrder_drained rfl))
  have hreg := congrArg (fun t => State.preg t .window 0x124) hstate
  rw [drainComplete_clears, clearedOnce_keeps] at hreg
  exact absurd hreg (by decide)

end Sys2Proof.Machine
end

section
/-!
# Reset pins, power, warm resets and boundary scan

One equation for each outcome of the pins of reset and power, of the warm resets and of the test port.
-/

namespace Sys2Proof.Machine

open Sys2Proof

variable {s : State} {k : BootCheck}

/-! ### Power-up and MOD_RESET_N (R578 to R582) -/

section PowerUp
variable (h : s.life = .boot ∨ (s.life = .down ∧ s.input = false))
include h

/-- The test that leaves a powered module alone. -/
theorem State.unpowered : (s.life != .boot && (s.life != .down || s.input)) = false := by
  obtain hboot | ⟨hdown, hinput⟩ := h
  · rw [hboot]
    rfl
  · rw [hdown, hinput]
    rfl

theorem State.powerUp_of_held (hr : s.resetN = true) : s.powerUp k = { s with input := true, tripped := false, tap := {}, life := .held } := by
  simp only [State.powerUp, State.unpowered h, hr, Bool.false_eq_true, if_false, if_true]

theorem State.powerUp_of_released (hr : s.resetN = false) :
    s.powerUp k = ({ s with input := true, tripped := false, tap := {}, life := .boot } : State).bringUp k 0 true := by
  simp only [State.powerUp, State.unpowered h, hr, Bool.false_eq_true, if_false]

end PowerUp

theorem State.resetAssert_of_held (h : s.life = .held) : s.resetAssert = { s with resetN := true } := if_pos (beq_iff_eq.2 h)

/-- What an assertion leaves of a running module. -/
def State.heldFromUp (s : State) : State := { ((({ s with resetN := true } : State).closeDeep true).afterPower .held) with resetN := true }

theorem State.resetAssert_of_up (h : s.life = .up) : s.resetAssert = s.heldFromUp := by
  have hheld : (s.life == .held) = false := by rw [h]; rfl
  have hdown : (s.life == .down) = false := by rw [h]; rfl
  simp only [State.resetAssert, hheld, hdown, Bool.false_eq_true, if_false]
  rfl

theorem State.closeDeep_mem (finished : Bool) : (s.closeDeep finished).mem = s.mem := by
  rw [State.closeDeep]
  cases finished <;> exact (apply_ite State.mem _ _ _).trans (ite_self _)

theorem State.closeDeep_out (finished : Bool) : (s.closeDeep finished).out = s.out := by
  rw [State.closeDeep]
  cases finished <;> exact (apply_ite State.out _ _ _).trans (ite_self _)

theorem State.closeDeep_tap (finished : Bool) : (s.closeDeep finished).tap = s.tap := by
  rw [State.closeDeep]
  cases finished <;> exact (apply_ite State.tap _ _ _).trans (ite_self _)

/-- Memory after the rails have fallen is that of the deep tier, which begins at `deepBase`. -/
theorem State.heldFromUp_mem : s.heldFromUp.mem = s.mem.filter (fun c => decide (deepBase ≤ c.1)) :=
  congrArg (List.filter _) (State.closeDeep_mem true)

theorem State.heldFromUp_byte (a : Nat) : s.heldFromUp.byte a = if deepBase ≤ a then s.byte a else 0 := by
  rw [State.byte, State.heldFromUp_mem, mget_filter_key s.mem (fun a => decide (deepBase ≤ a))]
  split
  · next h => rw [if_pos (of_decide_eq_true h), State.byte]
  · next h => rw [if_neg fun hle => h (decide_eq_true hle), Option.getD_none]

theorem State.heldFromUp_out : s.heldFromUp.out = .pin "THERM_TRIP_N" none :: .pin "MOD_ALERT_N" none :: .pin "MOD_READY" none ::
    ((s.tap.driven.map (fun n => Output.pin n none)).reverse ++ s.out) := by
  have htap := State.closeDeep_tap (s := { s with resetN := true }) true
  have hout := State.closeDeep_out (s := { s with resetN := true }) true
  change _ :: _ :: _ :: (((({ s with resetN := true } : State).closeDeep true).tap.driven.map _).reverse ++ (({ s with resetN := true } : State).closeDeep true).out) = _
  rw [htap, hout]

theorem State.resetDeassert_of_held (h : s.life = .held) (ht : s.tripped = false) :
    s.resetDeassert k = ({ s.scanLetGo with resetN := false, life := .boot } : State).bringUp k 3 true := by
  have htrip : s.scanLetGo.tripped = false := ht
  have hheld : (s.scanLetGo.life == .held) = true := beq_iff_eq.2 h
  simp only [State.resetDeassert, htrip, hheld, Bool.false_and, Bool.false_eq_true, if_false, if_true]

theorem State.resetDeassert_of_tripped (ht : s.tripped = true) (hi : s.input = true) :
    s.resetDeassert k = ({ s.scanLetGo with resetN := false, life := .down } : State).emit (.pin "THERM_TRIP_N" (some false)) := by
  have htrip : s.scanLetGo.tripped = true := ht
  have hinput : s.scanLetGo.input = true := hi
  simp only [State.resetDeassert, htrip, hinput, Bool.and_self, if_true]

/-- Settles O11: the pins' outcomes are the equations above; what an assertion leaves is read off `heldFromUp`. -/
theorem resetPinsAndPower : Obligations.ResetPinsAndPower := by
  refine ⟨fun s k h hr => congrArg _ (State.powerUp_of_held h hr), fun s k h hr => congrArg _ (State.powerUp_of_released h hr), fun s hup => ?asserted,
    fun s h => congrArg _ (State.resetAssert_of_held h), fun s k h ht => congrArg _ (State.resetDeassert_of_held h ht),
    fun s k ht hi => congrArg _ (State.resetDeassert_of_tripped ht hi), fun s => rfl⟩
  case asserted =>
    exact ⟨s.heldFromUp, congrArg _ (State.resetAssert_of_up hup), rfl, rfl, rfl, rfl, rfl, rfl, rfl, rfl, fun _ => State.heldFromUp_byte,
      State.heldFromUp_out⟩

/-! ### Warm resets (R581, R583) -/

theorem exec_chipReset : exec (.chipReset 0x0000A501 k) s = .next (s.warmReset 1 k) := rfl

theorem exec_chipReset_of_other {v : Word} (h : v ≠ 0x0000A501) : exec (.chipReset v k) s = .next s :=
  congrArg _ (if_neg fun heq => h (beq_iff_eq.1 heq))

theorem exec_warmModuleReset : exec (.warmModuleReset k) s = .next (s.warmReset 4 k) := rfl

/-- A function-level reset puts configuration space to its reset first. -/
def State.configReset (s : State) : State := { s with pcie := { linkUp := s.pcie.linkUp, trains := s.pcie.trains } }

theorem exec_flr : exec (.flr k) s = .next (s.configReset.warmReset 2 k) := rfl

theorem State.warmReset_of_still {cause : Nat} (h : s.life = .held ∨ s.life = .down) : s.warmReset cause k = s := by
  refine if_pos ?_
  simpa using h

/-- The boot of a warm reset, after the close sequence. -/
def State.warmBoot (s : State) (cause : Nat) (k : BootCheck) : State := s.warmState.showLoss.showContaining.letGo.bringUp k cause false

section Warm
variable {cause : Nat} (hup : s.life = .up)
include hup

theorem State.warmReset_of_up : s.warmReset cause k =
    if (decide ((s.sendLoss.closeDeep true).txnState = 1) || decide ((s.sendLoss.closeDeep true).txnState = 3)) = true
    then (((s.sendLoss.closeDeep true).warmBoot cause k).setTxnResult 8).irq .txn 1 else (s.sendLoss.closeDeep true).warmBoot cause k := by
  have hstill : (s.life == .held || s.life == .down) = false := by rw [hup]; rfl
  rw [State.warmReset, hstill, if_neg Bool.false_ne_true, if_pos (beq_iff_eq.2 hup)]
  rfl

theorem State.warmReset_of_no_txn (h1 : (s.sendLoss.closeDeep true).txnState ≠ 1) (h3 : (s.sendLoss.closeDeep true).txnState ≠ 3) :
    s.warmReset cause k = (s.sendLoss.closeDeep true).warmBoot cause k := by
  rw [State.warmReset_of_up hup, decide_eq_false h1, decide_eq_false h3]
  rfl

theorem State.warmReset_of_txn {u : State} (hu : u = s.sendLoss.closeDeep true) (h : u.txnState = 1 ∨ u.txnState = 3) :
    s.warmReset cause k = ((u.warmBoot cause k).setTxnResult 8).irq .txn 1 := by
  rw [State.warmReset_of_up hup, ← hu, ← Bool.decide_or, decide_eq_true h, if_pos rfl]

end Warm

/-! ### Boundary scan (R584, Table 19-14) -/

section Tap

theorem State.shift1_of_powered {bs : List Bool} (h : s.input = true) : s.shift1 bs = s.emit (.jtag bs) := if_pos h

theorem State.tapBypass_of_powered (h : s.input = true) : s.tapBypass = (s.scanLetGo.setIr 0).emit (.jtag [false]) :=
  (if_pos h).trans (State.shift1_of_powered h)

theorem State.tapBypass_of_unpowered (h : s.input = false) : s.tapBypass = s := if_neg (ne_true_of_eq_false h)

theorem exec_jtagIdcode : exec .jtagIdcode s =
    .next (if s.railUp then (s.scanLetGo.setIr 1).shift1 ((List.range 32).map (fun i => wbit s.idcode i)) else s) := rfl

theorem exec_jtagIdcode_of_powered (h : s.input = true) :
    exec .jtagIdcode s = .next ((s.scanLetGo.setIr 1).emit (.jtag ((List.range 32).map (fun i => wbit s.idcode i)))) := by
  have hshift := State.shift1_of_powered (s := s.scanLetGo.setIr 1) (bs := (List.range 32).map (fun i => wbit s.idcode i)) h
  rw [exec_jtagIdcode, State.railUp, if_pos h, hshift]

theorem exec_jtagIdcode_of_unpowered (h : s.input = false) : exec .jtagIdcode s = .next s := by
  rw [exec_jtagIdcode, State.railUp, if_neg (ne_true_of_eq_false h)]

theorem State.samplePreload_of_powered {ins : List Bool} {cells : List (String × Bool)} (h : s.input = true) : s.samplePreload ins cells =
    ({ s.scanLetGo with tap := { ir := 2, cells := cells } } : State).emit (.jtag (s.pinLevels.filterMap (fun x => x.2) ++ ins)) :=
  (if_neg (by rw [State.railUp, h]; exact Bool.false_ne_true)).trans (State.shift1_of_powered h)

/-- The three drive commands share their test: nothing with the rail down, and BYPASS with MOD_RESET_N released. -/
theorem railUp_drive_of_asserted {t : State} (h : s.input = true) (hr : s.resetN = true) :
    (if !s.railUp then s else if s.resetN then t else s.tapBypass) = t := by
  rw [State.railUp, h, hr]
  rfl

theorem railUp_drive_of_released {t : State} (hr : s.resetN = false) : (if !s.railUp then s else if s.resetN then t else s.tapBypass) = s.tapBypass := by
  rw [hr, if_neg Bool.false_ne_true]
  cases h : s.input
  · rw [State.tapBypass_of_unpowered h, ite_self]
  · exact if_neg (by rw [State.railUp, h]; exact Bool.false_ne_true)

end Tap

/-- Settles O12: the warm resets turn on the transaction's state after the close sequence, the test port's commands on the rail and MOD_RESET_N. -/
theorem warmResetsAndBoundaryScan : Obligations.WarmResetsAndBoundaryScan := by
  refine ⟨⟨fun s k hup h1 h3 => ⟨?chip, ?warm⟩, fun s k hup h1 h3 => ?flr, fun s u k hup hu h => ⟨?chipTxn, ?warmTxn⟩,
      fun s k v hv => exec_chipReset_of_other hv, fun s k h => ⟨?chipStill, ?warmStill⟩⟩,
    ⟨fun s => rfl, fun s h => ⟨congrArg _ (State.tapBypass_of_powered h), exec_jtagIdcode_of_powered h, fun ins cells => congrArg _ (State.samplePreload_of_powered h)⟩,
      fun s h hr => ⟨congrArg _ (railUp_drive_of_asserted h hr), congrArg _ (railUp_drive_of_asserted h hr), congrArg _ (railUp_drive_of_asserted h hr)⟩,
      fun s hr => ⟨congrArg _ (railUp_drive_of_released hr), congrArg _ (railUp_drive_of_released hr), congrArg _ (railUp_drive_of_released hr)⟩,
      fun s h => ⟨congrArg _ (State.tapBypass_of_unpowered h), exec_jtagIdcode_of_unpowered h⟩⟩⟩
  case chip => rw [exec_chipReset, State.warmReset_of_no_txn hup h1 h3, State.warmBoot]
  case warm => rw [exec_warmModuleReset, State.warmReset_of_no_txn hup h1 h3, State.warmBoot]
  case flr => exact exec_flr.trans (congrArg _ (State.warmReset_of_no_txn (s := s.configReset) hup h1 h3))
  case chipTxn => rw [exec_chipReset, State.warmReset_of_txn hup hu h, State.warmBoot]
  case warmTxn => rw [exec_warmModuleReset, State.warmReset_of_txn hup hu h, State.warmBoot]
  case chipStill => rw [exec_chipReset, State.warmReset_of_still h]
  case warmStill => rw [exec_warmModuleReset, State.warmReset_of_still h]

end Sys2Proof.Machine
end
